-- ==== Sys2Proof/Word.lean ====
section
/-! DEFINITION. The plainest words of the block: bytes of DRAM, octet strings, and the integers that
registers hold. -/

namespace Sys2Proof

/-- One byte of DRAM, as the channels store it (R336). -/
abbrev Byte := BitVec 8

/-- An octet string, most significant byte first, each entry below 256 (R62, R82). -/
abbrev Octets := List Nat

/-- Every entry is a byte. -/
def Octets.ok (b : Octets) : Bool := b.all (· < 256)

/-- The unsigned number an octet string spells, most significant byte first. -/
def Octets.toNat (b : Octets) : Nat := b.foldl (fun a x => a * 256 + x) 0

/-- `n` bytes of a number, most significant byte first. -/
def natToOctets : Nat → Nat → Octets
  | 0, _ => []
  | n + 1, v => natToOctets n (v / 256) ++ [v % 256]

/-- Bits `hi` down to `lo` of a number, as the manual's `x[m:l]` (Scope, Pseudocode operators). -/
def bits (v hi lo : Nat) : Nat := (v / 2 ^ lo) % 2 ^ (hi + 1 - lo)

/-- Bit `i` of a number. -/
def bit (v i : Nat) : Bool := (v / 2 ^ i) % 2 == 1

/-- `v` with bit `i` set or cleared. -/
def withBit (v i : Nat) (b : Bool) : Nat :=
  if bit v i == b then v else if b then v + 2 ^ i else v - 2 ^ i

end Sys2Proof
end

