-- ==== Sys2Proof/Syntax.lean ====
section
/-! DEFINITION. The commands of the block: one constructor of `Instr` for every row of
spec/opcode_table.json, and the plain data that rides on them. Where a command stands for something that
arrives (a datagram, a frame, a burst, a measurement) its operands are what arrived. -/

namespace Sys2Proof

/-- Who makes a dictionary access (R14, R15): the CAN port, an HDP session by its SESSION_ID, or the
reader applying the booted option block (R428, R429). -/
inductive Src where
  | can
  | hdp (session : Nat)
  | boot
deriving DecidableEq, Repr

/-- The HDP header of a received datagram (R82). `sealKey` is the key its tag verifies under: the tag of
AES-256-GCM verifies exactly under that key (log entry 6). `seq` carries bit 63 (R82). `parses` says that the payload parses for its type,
`short` that it is too short for a REQUEST_ID, and `listed` that TYPE is one of those a controller sends (R83). The datagram came in on `port` and
`vlan`, from `src` and `sport` to `dst` (R88); addresses have 16 octets. -/
structure HdpHdr where
  magic : Nat := 0x4844
  version : Nat := 1
  reserved : Nat := 0
  session : Nat := 0
  seq : Nat := 0
  keySlot : Nat := 0
  size : Nat := 36
  lenOk : Bool := true
  sealKey : Octets := []
  parses : Bool := true
  short : Bool := false
  listed : Bool := true
  port : Nat := 0
  vlan : Nat := 0
  src : Octets := []
  sport : Nat := 47110
  dst : Octets := []
deriving DecidableEq, Repr

/-- One entry of a READ or of a SUBSCRIBE (R91, R93). -/
structure RdEntry where
  index : Nat
  sub : Nat
  staged : Bool := false
deriving DecidableEq, Repr

/-- One entry of a WRITE (R91); `data` most significant byte first. -/
structure WrEntry where
  index : Nat
  sub : Nat
  data : Octets
deriving DecidableEq, Repr

/-- How an SDO transfer is carried (R71, R77). -/
inductive SdoKind where
  | expedited
  | segmented
  | block (size : Nat)
deriving DecidableEq, Repr

/-- A PTP port: its clockIdentity and its portNumber (R48). -/
structure PtpId where
  clock : Nat := 0
  port : Nat := 1
deriving DecidableEq, Repr

/-- The data set an Announce carries, in the order the BMCA compares it (R47). -/
structure PtpData where
  priority1 : Nat := 128
  clockClass : Nat := 248
  accuracy : Nat := 0xFE
  variance : Nat := 0xFFFF
  priority2 : Nat := 128
  identity : Nat := 0
  steps : Nat := 0
  sender : PtpId := {}
  utc : Option Int := none
deriving DecidableEq, Repr

/-- The header of a PTP message (R47): its domain, its sender, its sequence number and its correction in 2^-16 ns. -/
structure PtpHdr where
  domain : Nat := 0
  src : PtpId := {}
  seq : Nat := 0
  correction : Int := 0
deriving DecidableEq, Repr

/-- A received PTP message (R47). Times are in units of 2^-16 ns; `to` is the port that an answer is for. -/
inductive PtpMsg where
  | announce (h : PtpHdr) (data : PtpData)
  | sync (h : PtpHdr) (twoStep : Bool) (origin : Nat)
  | followUp (h : PtpHdr) (origin : Nat)
  | delayReq (h : PtpHdr)
  | delayResp (h : PtpHdr) (dest : PtpId) (received : Nat)
  | pdelayReq (h : PtpHdr)
  | pdelayResp (h : PtpHdr) (dest : PtpId) (received : Nat)
  | pdelayRespFollowUp (h : PtpHdr) (dest : PtpId) (sent : Nat)
  | management
  | signaling
deriving DecidableEq, Repr

/-- Where a start-of-frame delimiter stood as it passed the PCS (R50), in 2^-16 ns: its correction for its position in the SerDes
word, and the offset of its place in the RS-FEC codeword. -/
structure PcsPos where
  word : Int := 0
  codeword : Nat := 0
deriving DecidableEq, Repr

/-- A PTP message as a port took it, with where its delimiter stood (R47, R50). -/
structure PtpRx where
  msg : PtpMsg
  pcs : PcsPos := {}
deriving DecidableEq, Repr

/-- The PTP interval that has run out (R47, R48). -/
inductive PtpDue where
  | sync
  | announce
  | delayReq
  | pdelayReq
deriving DecidableEq, Repr

/-- What the device senses in the stride that ends at an edge: sums of the 80 samples of each AIN (R406),
the energy of each of the 50 domains in µJ (R405), the energy of the composers and of DRAM that is attributed to coding in µJ
(R255), the 16 die sensors in °C (R414), VDD in mV (R483). -/
structure EdgeInput where
  ainSum : List Nat := []
  energy : List Nat := []
  coding : Nat := 0
  tj : List Int := []
  vddMv : Nat := 880
deriving DecidableEq, Repr

/-- A STUN message (R135). `key256` and `key1` are the passwords that the two integrity attributes verify
under, absent when the attribute is absent; `unknown` are the comprehension-required attributes that the device does not know. -/
structure StunMsg where
  request : Bool := true
  indication : Bool := false
  binding : Bool := true
  user : Octets := []
  key256 : Option Octets := none
  key1 : Option Octets := none
  fingerprint : Bool := true
  priority : Bool := true
  controlled : Bool := false
  unknown : List Nat := []
  useCandidate : Bool := false
  txid : Nat := 0
deriving DecidableEq, Repr

/-- A coding tool that the device does not support (R212). Arbitrary slice order shows as a slice out of order (R222); redundant
slices are discarded, and film grain is parsed and not applied. -/
inductive BadTool where
  | fmo
  | spSi
  | interlaced
  | chroma422
  | chroma444
  | high10
  | rangeExtension
  | screenContent
  | multilayer
  | largeScaleTile
deriving DecidableEq, Repr

/-- The coded parameters of a sequence (R212, R214): its profile as its standard numbers it, with constraint_set1 of H.264; its
chroma format (0 monochrome, 1 4:2:0) and bit depth; the coded size of each layer, the lowest first, and its displayed size; its
frame rate in 1/1000 fps and its bit rate in kbit/s, 0 where it states none; its largest number of slices and its tiles; the side of a coding
block; its reference pictures, and how many pictures may wait for their turn in output order; MaxFrameNum and
gaps_in_frame_num_allowed_flag of H.264. -/
structure SeqParams where
  profile : Nat := 0
  constrained : Bool := true
  chroma : Nat := 1
  depth : Nat := 8
  layers : List (Nat × Nat) := []
  shown : List (Nat × Nat) := []
  mfps : Nat := 0
  kbps : Nat := 0
  slices : Nat := 1
  tileCols : Nat := 1
  tileRows : Nat := 1
  block : Nat := 16
  refs : Nat := 1
  reorder : Nat := 0
  frameNums : Nat := 16
  gaps : Bool := false
  bad : List BadTool := []
deriving DecidableEq, Repr

/-- A point at which the entropy engine can resume (R222): the address of its first coding block, and whether it begins an independent
slice segment or a tile group, not only a tile or an entry point. -/
structure Resync where
  block : Nat
  independent : Bool := true
deriving DecidableEq, Repr

/-- What the headers of one frame of a layer say (R213, R220, R223, R224). Pictures are named by frame_num in H.264, by POC in HEVC
and by slot in AV1: `uses` are those it refers to, `keeps` those that its RPS holds, `drops` those that its marking commands release.
`rap` is a random access point, `broken` a BLA; `refresh` refresh_frame_flags; `existing` the slot that
show_existing_frame names; `depends` the frame numbers that the dependency descriptor makes it depend on, and `named` says that it
or frame IDs are present. -/
structure FrameHead where
  rap : Bool := false
  broken : Bool := false
  intra : Bool := false
  reference : Bool := true
  rasl : Bool := false
  order : Int := 0
  number : Nat := 0
  uses : List Int := []
  keeps : List Int := []
  drops : List Int := []
  refresh : Nat := 0
  shown : Bool := true
  existing : Option Nat := none
  depends : List Nat := []
  named : Bool := true
  resync : List Resync := []
deriving DecidableEq, Repr

/-- What the payload of a video packet tells forwarding, the video hold and the decoder (R147, R214, R291, R299). `placed` is
false when the packet's layer cannot be recognised (R291). -/
structure VideoInfo where
  s : Nat := 0
  t : Nat := 0
  placed : Bool := true
  frameStart : Bool := false
  frameEnd : Bool := false
  rap : Bool := false
  switchTo : List (Nat × Nat) := []
  hasStructure : Bool := false
  needsStructure : Bool := false
  frameNumber : Nat := 0
  seq : Option SeqParams := none
  head : Option FrameHead := none
deriving DecidableEq, Repr

/-- An RFC 4733 event payload (R194). -/
structure EventInfo where
  code : Nat := 0
  duration : Nat := 0
  ending : Bool := false
deriving DecidableEq, Repr

/-- A FlexFEC parity packet (R148): the SSRC it protects and the sequence numbers it covers, whether its R and F bits are clear,
and what its parity makes of the one missing packet: timestamp, marker, payload octets, IP length and what its payload tells. -/
structure FecInfo where
  ssrc : Nat := 0
  covers : List Nat := []
  flagsOk : Bool := true
  ts : Nat := 0
  marker : Bool := false
  len : Nat := 200
  ipLen : Nat := 240
  rid : Option Octets := none
  video : VideoInfo := {}
deriving DecidableEq, Repr

/-- A received RTP packet (R142, R145 to R149). `sealKey` is the session key that its tag verifies under and `roc` the rollover counter that
the tag covers; `len` its payload octets, which are `payload` where a consumer reads them; `twcc` the transport-wide number in its header extension. -/
structure RtpPkt where
  ssrc : Nat := 0
  roc : Nat := 0
  seq : Nat := 0
  ts : Nat := 0
  pt : Nat := 0
  marker : Bool := false
  sealKey : Octets := []
  len : Nat := 200
  rid : Option Octets := none
  osn : Nat := 0
  twcc : Option Nat := none
  payload : Octets := []
  video : VideoInfo := {}
  event : EventInfo := {}
  fec : FecInfo := {}
deriving DecidableEq, Repr

/-- The parts of a received RTCP packet that a consumer of R152 takes. TMMBR and TMMBN name the SSRC that sends them and the SSRC
that they bound, in bit/s. An RFC 8888 report names its timestamp, in 2^-16 s of NTP time, and each packet by SSRC and sequence number
with its arrival time offset in 1/1,024 s, none where it was not received; transport-wide feedback its base number, its reference time in 64 ms
and for each number on from the base its delta in 250 µs, none where it was not received (R155). -/
inductive RtcpPart where
  | sr (ssrc ntp rtp : Nat)
  | rr (ssrc fraction jitter lsr dlsr : Nat)
  | nack (ssrc : Nat) (seqs : List Nat)
  | tmmbr (sender ssrc bps : Nat)
  | tmmbn (sender ssrc bps : Nat)
  | rfc8888 (time : Nat) (reports : List (Nat × (Nat × Option Nat)))
  | transportWide (base reference : Nat) (deltas : List (Option Int))
  | pli (ssrc : Nat)
  | fir (ssrc seq : Nat)
  | bye
  | other
deriving DecidableEq, Repr

/-- A received RTCP packet: its SRTCP index, its E flag and its parts (R140, R142, R152). -/
structure RtcpPkt where
  ssrc : Nat := 0
  index : Nat := 0
  encrypted : Bool := true
  sealKey : Octets := []
  parts : List RtcpPart := []
deriving DecidableEq, Repr

/-- What a UDP payload holds, as its class (R133) reads it. -/
inductive UdpBody where
  | stun (m : StunMsg)
  | rtp (p : RtpPkt)
  | rtcp (p : RtcpPkt)
  | raw
deriving DecidableEq, Repr

/-- A received IP packet up to its UDP payload (R120 stages 3 to 12). Addresses are 16 octets, IPv4 as
IPv4-mapped IPv6 (R126). -/
structure IpPkt where
  v6 : Bool := false
  headerOk : Bool := true
  extended : Bool := false
  fragment : Bool := false
  ipLen : Nat := 228
  dscp : Nat := 0
  src : Octets := []
  dst : Octets := []
  udp : Bool := true
  nsTarget : Option Octets := none
  nsUnspecified : Bool := false
  csumOk : Bool := true
  csumZero : Bool := false
  sport : Nat := 0
  dport : Nat := 0
  first : Nat := 128
  second : Nat := 0
  bytes : Octets := []
  body : UdpBody := .raw
deriving DecidableEq, Repr

/-- What an Ethernet frame carries. -/
inductive FrameBody where
  | arp (request : Bool) (target sender : Octets)
  | ptp (m : PtpMsg)
  | ip (p : IpPkt)
  | other
deriving DecidableEq, Repr

/-- A received Ethernet frame (R120, R122). `etherType` is that after the tags; `fifoFull` says that the port
input FIFO of 64 KiB held no room for it; `pcs` is where its delimiter stood (R50). -/
structure Frame where
  fcsOk : Bool := true
  len : Nat := 64
  dstMac : Octets := []
  srcMac : Octets := []
  vlans : List Nat := []
  etherType : Nat := 0x0800
  fifoFull : Bool := false
  pcs : PcsPos := {}
  body : FrameBody := .other
deriving DecidableEq, Repr

/-- A feedback packet falls due (R163). -/
inductive ReportKind where
  | senderReport
  | rfc8888
  | transportWide
deriving DecidableEq, Repr

/-- The arbiters of R329. Their requesters are numbered in the order of the Arbiters table: a block's cells 0 to 15,
scheduler 16, state engine 17, fabric port 18; a region's blocks 0 to 15, pairs 16 to 19, composer 20, DMA 21, chip
downlink 22; a channel's regions 0 to 3, ingress 4, egress 5, pool manager 6, dictionary 7. -/
inductive Arb where
  | block (b : Nat)
  | region (g : Nat)
  | chip (c : Nat)
deriving DecidableEq, Repr

/-- What the native decoder treats as a syntax error (R222), but for a reference that is missing (R223). -/
inductive SyntaxError where
  | range
  | pastEnd
  | badEnd
  | reference
  | sliceOrder
  | lost
deriving DecidableEq, Repr

/-- How the entropy engine closes a packet by itself (R209): SPLIT and ABANDON it writes for reasons that the model has. -/
inductive PacketEnd where
  | row
  | segment
  | picture
  | error (first : Nat) (why : SyntaxError)
deriving DecidableEq, Repr

/-- The coding blocks that a packet holds, in raster order: their layer, the first and how many. -/
structure BlockRun where
  layer : Nat := 0
  first : Nat := 0
  count : Nat := 0
deriving DecidableEq, Repr

/-- A step of a pair's two engines (R208 to R210): the entropy engine writes lines of records for the picture that it is on, or closes
its packet; the pixel engine consumes the next packet, or finds blocks of a reference unreadable in both placements (R231); or both engines
spend cycles. -/
inductive CoupleStep where
  | record (lines : Nat)
  | close (end_ : PacketEnd) (run : BlockRun)
  | consume
  | unreadable (run : BlockRun)
  | cycles (n : Nat)
deriving DecidableEq, Repr

/-- Which encode of a leg or layout (R232, R236, R281). -/
inductive EncId where
  | composed (leg : Nat)
  | tile (leg cls : Nat)
  | strip (layout : Nat)
deriving DecidableEq, Repr

/-- A port that can begin a frame (R166): which it is, the place of the frame's delimiter in the SerDes word in 2^-16 ns (R50), and the
handles of the packets whose read came back uncorrectable, the retry too (R344). -/
structure PortTurn where
  port : Nat := 0
  word : Int := 0
  unread : List Nat := []
deriving DecidableEq, Repr

/-- What the search of the pixel engine finds for a coding block (R241, R250, R254): the block, the vector that it wants and the vector
predicted for it, in quarter samples. -/
structure BlockPick where
  block : Nat := 0
  mv : Int × Int := (0, 0)
  pred : Int × Int := (0, 0)
deriving DecidableEq, Repr

/-- What the pixel engine hands over with a row (R241, R250, R254): the SATD of its coding blocks, and what its search found. -/
structure RowFinds where
  satd : List Nat := []
  picks : List BlockPick := []
deriving DecidableEq, Repr

/-- A composer item (R259). -/
inductive CompId where
  | composition (leg : Nat)
  | scaling (leg cls : Nat)
  | strip (layout : Nat)
deriving DecidableEq, Repr

/-- What the composer wrote over one indicator region (R287, R288): the CRC of the samples it wrote first and of the
read-back after the repair. -/
structure IndRegion where
  layer : Nat := 0
  blendCrc : Nat := 0
  backCrc : Nat := 0
deriving DecidableEq, Repr

/-- The samples of a decoded picture: its displayed size, whether its samples have 10 bits, and its three planes, row by row
(4:2:0). -/
structure PictSamples where
  w : Nat := 0
  h : Nat := 0
  deep : Bool := false
  y : List (List Nat) := []
  cb : List (List Nat) := []
  cr : List (List Nat) := []
deriving DecidableEq, Repr, Inhabited

/-- The real-time ports of R353. -/
inductive RtPort where
  | composer (k : Nat)
  | pair (p : Nat)
  | egress
deriving DecidableEq, Repr

/-- The uses of R364. -/
inductive PoolUse where
  | rxPacket
  | txAudio
  | txVideo
  | home
  | picture
  | context
  | composed
  | image
  | bulk
deriving DecidableEq, Repr

/-- The kinds of cell work items (R317), numbered as SB_CELL numbers them (R472). -/
inductive ItemKind where
  | input
  | mix
  | output
  | encode
  | loop
  | feedback
  | check
deriving DecidableEq, Repr

/-- What a cell's detector reports (R375). -/
inductive CellDetector where
  | corrected
  | secded
  | parity
  | residue
  | watchdog
deriving DecidableEq, Repr

/-- The block faults of R382. -/
inductive BlockCause where
  | memCorrected (addr : Nat)
  | memory (cell addr : Nat)
  | scheduler
  | bus
  | watchdog
  | clock (khz : Nat)
deriving DecidableEq, Repr

/-- What the receiver of a fabric line sees on the two rails (R386): whether each rail's line passes its check, and the rail, if any,
that has carried no valid line for 64 fabric cycles. -/
structure RailLine where
  aOk : Bool := true
  bOk : Bool := true
  silent : Option Nat := none
deriving DecidableEq, Repr

/-- Errors of chip-level units (R388): a single-bit error of an entry, an error of region memory (R375, R473), of one bit or of two, and an uncorrectable error in a packet in flight, in an entry
that legs share, or in one leg's entry. `unit` is the unit as R393 numbers it, `stage` the stage of it that reports. -/
inductive ChipError where
  | corrected (unit table entry : Nat)
  | region (g address : Nat) (twoBits : Bool)
  | packet (unit stage : Nat)
  | shared (unit stage table entry : Nat)
  | legEntry (unit stage leg table : Nat)
deriving DecidableEq, Repr

/-- One entry of a P-image table (R428). -/
structure PEntry where
  index : Nat
  sub : Nat
  data : Octets
deriving DecidableEq, Repr

/-- One record of a standing table (R429). -/
inductive Standing where
  | conf (conf mixN maxLegs : Nat)
  | leg (leg suite conf localAddr rxPt localPort remotePort : Nat) (remoteIp : Octets)
      (rxCodec txCodec txPt mixMode : Nat) (txKey rxKey : Octets)
deriving DecidableEq, Repr

/-- One copy of the option block as the reader finds it (R426, R427, R460): what it reads, and whether the
flash answered, the signature verifies, the tables lie in bounds and their digests match. -/
structure OptCopy where
  answered : Bool := true
  magic : Nat := 0x4C4E4F42
  format : Nat := 1
  sequence : Nat := 1
  serial : Nat := 0
  releaseGap : Nat := 256
  warmup : Nat := 0
  ranks : Nat := 1
  shares : List Nat := [2, 24, 24, 16, 32, 158]
  keyMagic : Nat := 0x4C4E4B52
  keyFormat : Nat := 1
  ownerSlot : Nat := 0
  keyDigest : Octets := []
  signatureOk : Bool := true
  boundsOk : Bool := true
  digestOk : Bool := true
  digest : Octets := []
  ptable : List PEntry := []
  stable : List Standing := []
deriving DecidableEq, Repr

/-- The PLLs of R423. -/
inductive Pll where
  | packet
  | ddr
  | fabric (g : Nat)
deriving DecidableEq, Repr

/-- The commands of the block, one constructor per row of spec/opcode_table.json, in the table's order. -/
inductive Instr where
  | strideEdge (e : EdgeInput)
  | keyframeRequestRepeat (leg stream : Nat)
  | avsTransactionEnd (ok : Bool) (readback : Option Nat) (status : Nat)
  | strideCommit (src : Src)
  | commitWithdraw (src : Src)
  | stageDiscard (src : Src)
  | dictWrite (src : Src) (index sub : Nat) (data : Octets)
  | tbTimeWrite (src : Src) (n : Nat) (time : Nat)
  | servoSample (n : Nat) (o : Int) (t : Nat)
  | holdoverEnter (n : Nat)
  | holdoverExpiry (n : Nat)
  | ptpMessageRx (port : Nat) (m : PtpRx)
  | ptpMessageDue (port : Nat) (due : PtpDue)
  | ptpAnnounceTimeout (port : Nat)
  | pulseTargetReached (k : Nat)
  | pulseWidthEnd (k : Nat)
  | pulseTargetWrite (src : Src) (k : Nat) (time : Nat)
  | pulseModeWrite (src : Src) (k : Nat) (mode : Nat)
  | captureEdge (j : Nat) (rising : Bool)
  | captureTimeRead (src : Src) (j : Nat)
  | hdpOpen (h : HdpHdr) (req : Nat) (nonce : Octets) (timeout : Nat)
  | hdpClose (h : HdpHdr) (req : Nat)
  | hdpKeepalive (h : HdpHdr) (req : Nat)
  | hdpRead (h : HdpHdr) (req : Nat) (entries : List RdEntry)
  | hdpWrite (h : HdpHdr) (req : Nat) (entries : List WrEntry)
  | hdpSubscribe (h : HdpHdr) (req number period : Nat) (entries : List RdEntry)
  | hdpUnsubscribe (h : HdpHdr) (req number : Nat)
  | hdpBulkBegin (h : HdpHdr) (req index sub : Nat) (load : Bool) (total crc : Nat)
  | hdpBulkData (h : HdpHdr) (req offset : Nat) (data : Octets)
  | hdpBulkEnd (h : HdpHdr) (req : Nat)
  | hdpBulkRead (h : HdpHdr) (req offset len : Nat)
  | hdpPuntClaim (h : HdpHdr) (req : Nat)
  | hdpPuntTx (h : HdpHdr) (req leg : Nat) (data : Octets)
  | hdpSessionTimeout (session : Nat)
  | hdpRequestExecute
  | hdpRequestTimeout (session req : Nat)
  | bulkTransferTimeout (session : Nat)
  | nmtStart (node : Nat)
  | nmtStop (node : Nat)
  | nmtEnterPreOperational (node : Nat)
  | nmtResetNode (node : Nat)
  | nmtResetCommunication (node : Nat)
  | sdoDownloadInitiate (index sub : Nat) (kind : SdoKind) (size : Nat) (data : Octets)
  | sdoUploadInitiate (index sub : Nat) (kind : SdoKind)
  | sdoSegment (toggle : Bool) (seq : Nat) (data : Octets) (last : Bool) (crcOk : Bool)
  | sdoClientAbort
  | sdoTimeout
  | rpdoReceive (i : Nat) (data : Octets)
  | tpdoEventTimer (i : Nat)
  | heartbeatTimer
  | errorCountClear (src : Src)
  | canErrorPassive
  | canBusOff
  | canBusOffRecovered
  | canOverrun
  | communicationBitClear
  | confOpen (src : Src) (k : Nat)
  | confClose (src : Src) (k : Nat)
  | confCloseComplete (k : Nat)
  | configure (src : Src) (n : Nat)
  | unconfigure (src : Src) (n : Nat)
  | activate (src : Src) (n : Nat)
  | hold (src : Src) (n : Nat)
  | resume (src : Src) (n : Nat)
  | rekey (src : Src) (n : Nat)
  | rekeyDone (src : Src) (n : Nat)
  | delete (src : Src) (n : Nat)
  | readmitVideo (src : Src) (n : Nat)
  | drainEnd (n : Nat)
  | legRxTimeout (n : Nat)
  | frameReceive (port : Nat) (f : Frame)
  | videoHoldExpiry (leg ssrc ts : Nat)
  | portLinkChange (port link fecUncorrected fecCorrected : Nat)
  | pairRevert (q : Nat)
  | pairForce (src : Src) (q port : Nat)
  | legSsrcFlush (src : Src) (n : Nat)
  | srefclkLoss (r : Nat)
  | portFrameSelect (turn : PortTurn)
  | rtcpReportDue (leg : Nat) (kind : ReportKind)
  | fecKEvaluate (leg : Nat)
  | itemPlacement (block : Nat)
  | itemStart (cell : Nat)
  | audioInputItem (leg : Nat) (unread : List Nat)
  | mixItem (conf : Nat)
  | audioOutputItem (leg : Nat)
  | audioEncodeItem (leg ts : Nat)
  | lineLoopItem (leg : Nat)
  | feedbackBuildItem (leg : Nat)
  | checkItem (cell : Nat) (item word : Nat) (ok : Bool)
  | dtmfEventTimeout (leg : Nat)
  | legEventRead (src : Src) (leg : Nat)
  | legLowPriorityWrite (src : Src) (leg : Nat) (low : Bool)
  | cellClockStop (cell : Nat)
  | arbiterGrant (a : Arb) (waiting panic : List Nat)
  | debugSweep (a : Arb)
  | decodePictureComplete (leg slot : Nat) (trace : List CoupleStep)
  | encodeRowComplete (e : EncId) (bits header : Nat) (finds : RowFinds)
  | encodePictureComplete (e : EncId) (bits entryBits : Nat)
  | composerItemStart (composer : Nat)
  | composerItemComplete (composer : Nat) (regions : List IndRegion) (late : List Nat)
  | spliceAssemble (leg period : Nat)
  | dramTrainingStep (c : Nat) (passed : Bool) (ms : Nat)
  | dramInitComplete (c : Nat)
  | dramRead (handle offset : Nat) (err retryErr mirrorErr : List (List Nat))
  | dramWrite (handle offset : Nat) (data : Octets)
  | scrubRead (c : Nat) (addr : Nat) (err retryErr mirrorErr : List (List Nat))
  | caParityAlert (c : Nat)
  | refreshDue (c : Nat) (lane : Int)
  | neighbourRefresh (c rank bank row : Nat)
  | pageIdleTimeout (c rank bank : Nat)
  | portPanic (p : RtPort) (level : Nat)
  | remirrorCopy (handle : Nat)
  | chRetrain (src : Src) (c : Nat)
  | chFail (src : Src) (c : Nat)
  | marginCmd (src : Src) (c value : Nat)
  | marginScanComplete (c : Nat) (values : List Nat)
  | bufferAllocate (domain : Nat) (use : PoolUse) (size : Nat) (conf : Option Nat) (count : Nat) (link : Option Octets)
  | referenceAdd (domain handle n : Nat)
  | referenceDrop (domain handle : Nat)
  | poolLowWaterRead (src : Src) (pool : Nat) (peak : Bool)
  | cellFault (cell : Nat) (det : CellDetector) (cycle : Nat)
  | blockFault (block : Nat) (cause : BlockCause)
  | blockRejoin (block : Nat)
  | pairFault (pair : Nat) (engine : Nat) (corrected : Bool)
  | composerFault (composer : Nat) (corrected : Bool)
  | fabricRailError (g : Nat) (line : RailLine)
  | regionFail (g : Nat) (clock : Bool)
  | chipUnitError (e : ChipError)
  | logClear (src : Src)
  | govDoze (src : Src)
  | govWake (src : Src)
  | dozeWakeComplete (fails : List Nat)
  | domainWakeComplete (dom : Nat)
  | domainWakeTimeout (dom : Nat)
  | domainIdleGate (dom : Nat)
  | pornAssert
  | pornRelease (sources : Nat)
  | domainRelease (clockFails : List Nat)
  | pllLock (p : Pll)
  | pllLockTimeout (p : Pll)
  | optionBlockRead (a b : OptCopy) (octal : Bool)
  | warmupStart
  | handoverBegin
  | handover
  | warmupReturn
  | wrstnAssert
  | warmResetRelease (resumeStrides : Nat) (notInSelfRefresh : List Nat)
  | trstnAssert
  | resetCmdWarm (src : Src)
  | resetCmdCold (src : Src)
  | resetCmdRegion (src : Src) (g : Nat)
  | optImage (src : Src) (img : OptCopy)
  | optImageWriteComplete (ok : Bool)
  | revertedMaskWrite (src : Src) (value : Nat)
  | tkProgram (src : Src) (key : Octets)
  | slotWrap (src : Src) (slot : Nat) (wrap : Octets)
  | hdpKey (src : Src) (slot : Nat) (wrap : Octets)
  | legTxKey (src : Src) (leg : Nat) (wrap : Octets)
  | legRxKey (src : Src) (leg : Nat) (wrap : Octets)
  | legSuiteWrite (src : Src) (leg suite : Nat)
  | scLockTake (src : Src)
  | scLockRelease (src : Src)
  | scLeaseExpiry
  | aesCbcEncrypt (src : Src)
  | aesCbcDecrypt (src : Src)
  | aesCtr (src : Src)
  | aesGcmEncrypt (src : Src)
  | aesGcmDecrypt (src : Src)
  | rfc5649Wrap (src : Src)
  | rfc5649Unwrap (src : Src)
  | scJobComplete
  | supplyAlarm (supply mv : Nat)
  | clockAlarm (clock : Nat)
  | temperatureAlarm (sensor : Nat) (celsius : Int)
  | tamperAlarm
  | keyEraseVerify (zero : Bool)
  | alarmClear (src : Src)
  | attestCmd (src : Src)
  | attestReportReady
  | ownerProgram (src : Src) (slot : Nat) (digest : Octets)
  | ownerRevoke (src : Src) (slot : Nat)
  | snapNow (src : Src)
  | snapInEdge
  | snapOutEnd
  | snapEdgeWrite (src : Src) (edge : Nat)
  | snapRelease (src : Src)
  | tapCmd (src : Src)
  | tapComplete
  | injCmd (src : Src)
  | canErrorActive
  | alarmSourceClear (source : Nat)
  | optEraseComplete
deriving DecidableEq, Repr

end Sys2Proof
end

