-- ==== Sys2Proof/Decode.lean ====
section
/-! DEFINITION. The reading of a command word. -/

namespace Sys2Proof

/-- The command a word of `nbits` bits spells: no row of spec/opcode_table.json gives bits, so no word spells
one. -/
def decodeTableWord (_nbits _w : Nat) : Option Instr := none

end Sys2Proof
end

