-- ==== Sys2Proof/Config.lean ====
section
/-! DEFINITION. What an implementation fixes and the spec leaves open: free values without a body, which no
proof can see into, and the contents of the kernel ROM, which the spec names and does not print. -/

namespace Sys2Proof.Config

/-- A value the spec calls random or leaves open, drawn at position `n` of the model's free-value counter
(log entry 1). -/
opaque freeValue (n : Nat) : Nat

/-- A sample the spec calls undefined (R229), at position `n` of the free-value counter (log entry 1). -/
opaque freeSample (n : Nat) : Int

/-- Coefficient `i` of the first half of the kernel's linear-phase filter `r`, in Q2.22: 0 to 5 those of R185 for the codec rates, 6 that
of warm-up between 8 and 16 kHz (R205; log entry 2). -/
opaque srcHalf (r i : Nat) : Int

/-- The power that the kernel's Goertzel filter `f` finds in a block of samples (R192); `f` counts the row tones, then the column
tones (log entry 126). -/
opaque goertzel (f : Nat) (xs : List Int) : Nat

/-- G.722 at 64 kbit/s, which R177 names and does not print: the 14-bit samples of some octets, and the decoder's state after
them (log entry 126). -/
opaque g722Decode (state octets : Octets) : List Int × Octets

/-- The octets that G.722 codes 14-bit samples as, and the encoder's state after them (R177; log entry 126). -/
opaque g722Encode (state : Octets) (xs : List Int) : Octets × Octets

/-- The RFC 6716 decoder at an output rate (R179): the 16-bit samples of a packet, left and right, and its state after them (log
entry 126). -/
opaque opusDecode (state : Octets) (rate : Nat) (packet : Octets) : List (Int × Int) × Octets

/-- Does an Opus packet carry LBRR data for the frame before it (R180; log entry 126)? -/
opaque opusLbrr (packet : Octets) : Bool

/-- What an Opus packet's LBRR data say of the frame before it, and the decoder's state (R180; log entry 126). -/
opaque opusFec (state : Octets) (rate : Nat) (packet : Octets) : List (Int × Int) × Octets

/-- `n` samples of the RFC 6716 decoder's packet-loss concealment, and its state (R180; log entry 126). -/
opaque opusConceal (state : Octets) (rate n : Nat) : List (Int × Int) × Octets

/-- The RFC 6716 encoder for a LEG_TX_CODEC word (R179, R201): the packet of a frame's 16-bit samples, whether DTX would send none,
and its state (log entry 126). -/
opaque opusEncode (word rate : Nat) (state : Octets) (xs : List Int) : Octets × (Bool × Octets)

/-- The samples that a standard's decoding process gives for a frame of a size and depth (R213; log entry 13): `data` are its NAL units or
OBUs, `refs` its references, `base` what stands where no coding block was delivered (R224), `runs` the blocks delivered. -/
opaque reconstruct (codec : Nat) (deep : Bool) (w h : Nat) (data : List Octets) (refs : List PictSamples) (base : PictSamples)
    (runs : List BlockRun) : PictSamples

/-- The motion vectors that a frame's data decode to, in quarter samples, by 16 × 16 block in raster order; none where a block has none
(R217, R254; log entry 13). -/
opaque codedMotion (codec : Nat) (data : List Octets) : List (Option (Int × Int))

/-- Cycle estimate of a cell work item of kind `k` with parameters `p` and `q` (R28, R317, [7002] COST_TABLE);
kernel ROM (log entry 2). -/
opaque itemCost (k p q : Nat) : Nat

/-- The 64-byte lines of state of a flow of kind `k`: its part of the state home, fixed by the kernel ROM (R318; log entry 2). -/
opaque flowLines (k : Nat) : Nat

/-- The lines of its flow's state that an item of kind `k` with parameters `p` and `q` changes, in a run that ends at cycle `at_` (R318;
log entry 2). -/
opaque linesWritten (k p q at_ : Nat) : List Nat

/-- The bytes of a cell's 24 KiB of local memory that stay for the state of flows beside the item that runs (R313; log entry 2). -/
opaque localRoom : Nat

/-- The kernel code that an item of kind `k` with parameters `p` and `q` runs: parts of so many fetches of 8 bundles from a place in the
kernel ROM on, each run so many times (R314; log entry 2). -/
opaque kernelCode (k p q : Nat) : List (Nat × (Nat × Nat))

/-- The check items' reference words are kernel ROM too: the bytes of DOMAIN object `i` (log entry 2). -/
opaque romBytes (i : Nat) : Octets

/-- The unit's serial number, fused in OTP (R1, "per unit"; log entry 3). -/
opaque serial : Nat

/-- The unit's identity public key (R458, "per unit"; log entry 3). -/
opaque identityKey : Octets

/-- The unit's identity digest (R458, "per unit"; log entry 3). -/
opaque identityDigest : Octets

/-- Signature of a message by the unit's identity key: ML-DSA-44 with the unit's own randomness (R462; log
entry 3). -/
opaque identitySign (n : Nat) (message : Octets) : Octets

/-- Does an ML-DSA-44 signature verify under a public key (R427)? FIPS 204 is not written out here (log entry 39). -/
opaque optionVerify (key message signature : Octets) : Bool

/-- The SHA3-256 of the mask ROM and the kernel ROM (R463; log entry 3). -/
opaque romDigest : Octets

/-- How the parts of a DETAIL field are packed where the spec names several parts and no layout (R392, R394; log
entry 4). -/
opaque detail (code : Nat) (parts : List Nat) : Nat

/-- The energy in µJ of a stride in which AIN3 stands at so many mA: its supplies' voltages are the board's (R405; log entry 139). -/
opaque ddrEnergy (ma : Nat) : Nat

/-- The part of a DDR energy that falls to a channel in a stride in which no channel moved a byte, which R405 does not state (log entry 139). -/
opaque ddrIdleShare (total c : Nat) : Nat

/-- The fixed figure of a port mode for the SerDes supplies and VIO, as energy in µJ of a stride (R405; log entry 139). -/
opaque portEnergy (mode : Nat) : Nat

/-- The VDD in mV that the silicon needs for 1.2 GHz at a junction temperature, fused (R483, "per unit"; log entry 3). -/
opaque vddNeed (tj : Int) : Nat

end Sys2Proof.Config
end

