-- ==== Sys2Proof/Machine/Catalog.lean ====
section
/-! DEFINITION. The object dictionary's catalogue: the name of every object that a table of the spec defines,
and for each its index, the units it exists for, its subindices, type, access code, retention class, default and
range. The rows are in the order of the chapters; a comment cites the rule whose table gives the row. -/

namespace Sys2Proof.Machine

/-- The types of dictionary objects (Scope, table Types). `octets` lists the admitted lengths in bytes; `upTo`
is a string of bounded length; `mapping` is the pair of types of a PDO mapping entry (R72). -/
inductive Ty where
  | u (bits : Nat)
  | i (bits : Nat)
  | bool
  | time80
  | octets (lengths : List Nat)
  | upTo (lo hi : Nat)
  | domain
  | mapping
deriving DecidableEq, Repr

/-- The access codes (Scope, table Access codes). -/
inductive Acc where
  | ro
  | rw
  | rws
  | wo
  | rwi
deriving DecidableEq, Repr

/-- The retention classes (Scope, table Retention classes). -/
inductive Cls where
  | P
  | K
  | V
  | L
deriving DecidableEq, Repr

/-- A value held by an object: a number, or octets most significant first. -/
inductive Val where
  | num (v : Int)
  | bytes (b : Octets)
deriving DecidableEq, Repr

/-- The number a value is read as. -/
def Val.toInt : Val → Int
  | .num v => v
  | .bytes _ => 0

/-- The octets a value is read as. -/
def Val.toBytes : Val → Octets
  | .num _ => []
  | .bytes b => b

/-- The range an object's own table states, with the abort R496 gives outside it. `between` answers TOO_LOW and
TOO_HIGH, `oneOf` RANGE, `orElse` a span or one further value and RANGE, `mask` ignores the reserved bits (R6),
`atMost` is the frame-rate form of DEC_MAX_FPS, and `special` is checked where the object is written. -/
inductive Range where
  | full
  | between (lo hi : Int)
  | oneOf (vs : List Int)
  | orElse (lo hi other : Int)
  | mask (m : Nat)
  | atMost (hi : Int)
  | special
deriving DecidableEq, Repr

/-- One row of an object table. The object stands at index `base + u` for `lo ≤ u ≤ hi`, at subindices
`sub + k * step` for `k < count`. -/
structure Row where
  base : Nat
  lo : Nat
  hi : Nat
  sub : Nat
  count : Nat
  step : Nat
  ty : Ty
  acc : Acc
  cls : Cls
  dflt : Val
  range : Range
deriving DecidableEq, Repr

/-- The objects of the dictionary by their names in the spec. -/
inductive Obj where
  | DEVICE_NAME | VENDOR_ID | PRODUCT_CODE | REVISION | SERIAL | STRIDE_COUNT | STRIDE_IN_LAP | LAP_COUNT
  | STRIDE_TIMEBASE | STRIDE_OFFSET | STRIDE_COMMIT | COMMIT_STATUS | COMMIT_STRIDE | AUDIO_OVERRUNS
  | ITEMS_DEFERRED | DECODE_MISSES | ENCODE_MISSES | TB_MODE | TB_SOURCE | TB_TIME | TB_RATE_ADJ | TB_STATUS
  | TB_FOLLOW_OFFSET | TB_SERVO_KP | TB_SERVO_KI | TB_STEP_THRESHOLD | TB_LOCK_THRESHOLD | TB_HOLDOVER_LAPS
  | TB_STEPS | PTP_DOMAIN | PTP_PRIORITY1 | PTP_PRIORITY2 | TB_UTC_OFFSET | PTP_ROLE | PTP_INSTANCE
  | PTP_DELAY_MECH | PTP_TRANSPORT | PTP_LOG_SYNC | PTP_LOG_DELAY_REQ | PTP_LOG_ANNOUNCE
  | PTP_ANNOUNCE_TIMEOUT | PTP_ASYM_RX | PTP_ASYM_TX | PTP_PORT_STATE | PTP_PATH_DELAY | PULSE_MODE
  | PULSE_TIMEBASE | PULSE_TARGET | PULSE_PERIOD | PULSE_WIDTH | PULSE_POLARITY | PULSE_FIRED | PULSE_MISSED
  | CAPTURE_EDGE | CAPTURE_TIMEBASE | CAPTURE_LEVEL | CAPTURE_TIME | CAPTURE_INFO | CAPTURE_OVERFLOWS
  | SERVICE_STATE | STAGED_COUNT | STAGE_DISCARD | DICT_WRITES | DICT_ABORTS | DICT_QUEUE_DROPS | DEVICE_TYPE
  | ERROR_REGISTER | ERROR_COUNT | ERROR_FIELD | COB_ID_EMCY | INHIBIT_TIME_EMCY | PRODUCER_HEARTBEAT_TIME
  | COB_ID_CLIENT_TO_SERVER | COB_ID_SERVER_TO_CLIENT | RPDO_COB_ID | RPDO_TYPE | RPDO_MAP | TPDO_COB_ID
  | TPDO_TYPE | TPDO_INHIBIT | TPDO_EVENT | TPDO_MAP | CAN_NODE_ID | CAN_BITRATE | EMCY_CLASS_MASK
  | CAN_STATUS | EMCY_SUPPRESSED | RPDO_REFUSED | HDP_ENABLE | HDP_SESSION_TIMEOUT | HDP_SESSIONS_OPEN
  | HDP_AUTH_FAILS | HDP_REPLAYS | PUNT_OWNER | PUNT_DROPPED | HDP_KEY | MGMT_IPV4 | MGMT_IPV6 | MGMT_VLAN
  | MGMT_PORTS | MGMT_DSCP | CONF_CMD | CONF_STATE | CONF_REGION | CONF_HOME_BLOCK | CONF_MAX_LEGS
  | CONF_PIXEL_QUOTA | CONF_BUFFER_QUOTA | CONF_LEG_COUNT | CONF_PIXEL_USE | CONF_BUFFER_USE | CONF_SPILL
  | CONF_STANDING | LEG_CMD | LEG_STATE | LEG_REFUSAL | LEG_CONFERENCE | LEG_LOW_PRIORITY
  | LEG_AUDIO_ONLY_FALLBACK | LEG_ADMIT_CYCLES | LEG_ADMIT_PIXELS | LEG_ADMIT_BLOCK | LEG_BUFFER_NEED
  | LEG_RX_TIMEOUT | LEG_DRAIN_STRIDES | LEG_STATE_STRIDE | LEG_PRIOR_STATE | ADMIT_CYCLES_USE
  | ADMIT_CYCLES_CAP | ADMIT_PIXELS_USE | ADMIT_PIXELS_CAP | ADMIT_REFUSALS | LEGS_ADMITTED | CONFS_OPEN
  | PORT_MODE | PORT_MAC | PORT_MTU | PORT_LINK | PORT_SYS_POLICER | PORT_RX_FRAMES | PORT_RX_BYTES
  | PORT_FEC_CORRECTED | PORT_FEC_UNCORRECTED | PORT_LINK_DOWNS | PORT_DROP | PAIR_MODE | PAIR_ACTIVE
  | PAIR_REVERT_LAPS | PAIR_FORCE | PAIR_SWITCHES | ADDR_IP | ADDR_VLAN | ADDR_PORTS | ADDR_FLAGS
  | ADDR_NEXTHOP_MAC | ADDR_POLICER | LEG_LOCAL_ADDR | LEG_LOCAL_PORT | LEG_REMOTE_IP | LEG_REMOTE_PORT
  | LEG_SUITE | LEG_POLICER | LEG_ICE_UFRAG | LEG_ICE_PWD | LEG_ICE_MODE | LEG_ICE_NOMINATED | LEG_RX_PT
  | LEG_NACK_MODE | LEG_RTX_HISTORY | LEG_JB_MIN | LEG_JB_MAX | LEG_VIDEO_HOLD | LEG_RX_SSRC | LEG_SSRC_FLUSH
  | RX_PACKETS | RX_BYTES | REMOTE_MISMATCH | POLICED_RED | POLICED_YELLOW | AUTH_FAILS | REPLAYS | SSRC_FULL
  | NOT_ACTIVE | LATE | JB_OVERFLOW | FEC_RECOVERED | NACK_SENT | RTX_SENT | JB_TARGET | STUN_ANSWERED
  | POL_MODE | POL_CIR | POL_CBS | POL_EBS_PBS | POL_PIR | POL_YELLOW_ACTION | POL_YELLOW_FLOOR
  | POL_DSCP_YELLOW | POL_DSCP_RED | TC_WEIGHT | TC_GROUP | TC_DSCP_CONTROL | TC_DSCP_AUDIO | TC_DSCP_VIDEO
  | TC_PCP_AUDIO | TC_PCP_VIDEO | TC_AUDIO_LIMIT | TC_AUDIO_AGE | TC_VIDEO_LIMIT | TC_VIDEO_AGE
  | TC_CONTROL_LIMIT | TC_GRAD_THRESHOLD | TC_GRAD_WINDOW | TC_BETA | TC_INC_MULT | TC_INC_ADD | TC_LOSS_HIGH
  | TC_LOSS_LOW | TC_FB_TIMEOUT | LEG_TC | LEG_MIN_RATE | LEG_MAX_RATE | LEG_START_RATE | LEG_CC_MODE
  | LEG_FB_MODE | LEG_TWCC_EXT_ID | LEG_FB_PERIOD | LEG_PTP_PEER | LEG_CREDIT_STRIDES | LEG_PACE_GAIN
  | LEG_FEC_MODE | LEG_FEC_K | LINE_ESTIMATE | LINE_TARGET | LINE_STATE | LINE_RTT | LINE_LOSS | LINE_JITTER
  | LINE_GRADIENT | LINE_OWD | LINE_ACKED_RATE | LINE_FEC_K | LINE_CREDIT | TX_PACKETS | TX_BYTES
  | TX_DROP_FULL | TX_DROP_AGE | TX_NO_NEXTHOP | LINE_OWD_RX | PORT_TX_FRAMES | PORT_TX_BYTES | PORT_TX_DROPS
  | LINE_LOOP_MISSES | AF_COEF | AF_SECTIONS | LEG_RX_CODEC | LEG_TX_CODEC | LEG_TX_AUDIO_PT
  | LEG_TX_AUDIO_SSRC | LEG_PROC_ENABLE | LEG_IN_PROFILE | LEG_OUT_PROFILE | LEG_MIX_MODE | LEG_MIX_GAIN
  | LEG_OUT_GAIN | LEG_OUT_MUTE | LEG_GATE_OPEN | LEG_GATE_CLOSE | LEG_GATE_HOLD | LEG_GATE_FLOOR
  | LEG_AGC_TARGET | LEG_AGC_MAX | LEG_AGC_UP | LEG_AGC_DOWN | LEG_LIM_THRESHOLD | LEG_LIM_RELEASE
  | LEG_PEAK_HOLD | LEG_DTMF_MODE | LEG_DTMF_MIN | LEG_IN_LEVEL | LEG_IN_PEAK | LEG_OUT_LEVEL | LEG_OUT_PEAK
  | LEG_ACTIVITY | LEG_AGC_GAIN | LEG_LIM_MIN_GAIN | LEG_GATE_STATE | LEG_IN_MIXED | LEG_CONCEALED
  | LEG_OUT_CLIPS | LEG_PLAY_MOVES | LEG_EVENT | LEG_EVENT_LEVEL | LEG_EVENT_LOST | LEG_OPUS_FEC_USED
  | CONF_MIX_N | CONF_MIX_HYST | CONF_MIX_ENTER | CONF_MIX_HOLD | CONF_MIX_RELEASE | CONF_RAMP_STRIDES
  | CONF_MIX_COUNT | CONF_MIX_CHANGES | CONF_MIX_MEMBER | VRX_CODEC | DEC_CTRL | DEC_MAX_WIDTH
  | DEC_MAX_HEIGHT | DEC_MAX_FPS | DEC_MAX_DPB | DEC_MAX_KBPS | DEC_STATE | DEC_SIZE | DEC_PICTURES
  | DEC_CONCEALED | DEC_ERRORS | DEC_MISSING_REFS | DEC_KF_REQUESTS | DEC_OUTSIDE | DEC_PAIR | DEC_RATE_DROPS
  | PAIR_STATE | PAIR_ADMIT_PIXELS | PAIR_CONTEXTS | PAIR_ENT_STALL | PAIR_PIX_UNDERRUN | PAIR_ABANDONS
  | ENC_CTRL | ENC_SHARE | ENC_QP_MIN | ENC_QP_MAX | ENC_INTRA_FACTOR | ENC_IDR_LAPS | ENC_STATE | ENC_NOW
  | ENC_PAIR | ENC_CARRY | ENC_PICTURES | ENC_INTRA | ENC_COAST | ENC_SKIPS | ENC_LAST_BITS | ENC_LAST_QP
  | TILE_LAYER_WEIGHT | ENC_PT | ENC_SSRC | ENC_PKT_MODE | TILE_CTRL | TILE_LAYERS_NOW | TILE_ENTRIES
  | TILE_SKIPS | CODED_PIXELS_DEC | CODED_PIXELS_ENC | CODING_ENERGY | LAYOUT_KIND | LAYOUT_CONF
  | LAYOUT_SPLICE | LAYOUT_BG | LAYOUT_COLOUR | LAYOUT_PAIR | LAYOUT_VIEWERS | COMPOSE_MISSES | IND_CORRECTED
  | IND_BLANKED | SLOT_SRC | LAYOUT_IMAGE | LAYER_SRC | LAYER_CROP | LAYER_DEST | LAYER_ALPHA | LAYER_SCALER
  | LAYER_COLOUR | LAYER_IND | LAYER_STATUS | VIEW_LAYOUT | VIEW_CTRL | VIEW_PT | VIEW_SSRC | VIEW_TOP_NOW
  | VIEW_ENTRY_WAIT | VIEW_DIVERGED | VIEW_PICTURES | VIEW_SLOT | VIEW_SLOT_NOW | SCALER_SET | LUT_PRE
  | LUT_POST | COMPOSER_STATE | COMPOSER_ADMIT_PIXELS | COMPOSER_MISSES | CHECK_FAILS | FWD_SRC_CTRL
  | FWD_RID_EXT_ID | FWD_RX_DD_EXT_ID | FWD_RID | FWD_KF_POLICY | FWD_KF_MIN_GAP | FWD_KF_SENT
  | FWD_UNLAYERED | FWD_LAYER_RATE | FWD_TX_PT | VTX_RTX_PT | VTX_FEC_PT | FWD_TX_DD_EXT_ID | FWD_SWITCHES
  | FWD_PADDING | FWD_STALE | FWD_SLOT | FWD_OUT_SSRC | FWD_NOW | BLK_RESERVE_CELL | BLK_HOME_LOAD
  | BLK_PEAK_AUDIO | BLK_MIGRATIONS | BLK_REORDER_HELD | BLK_PRIO_RESORTS | BLK_SWEEPS | RGN_SWEEPS
  | REFRESH_STOPS | CELL_STATE | CELL_HOME_LOAD | CELL_BUSY | CELL_ITEMS | CELL_AFFINITY_HITS | CELL_GATED
  | CELL_LOOP_MISSES | DRAM_RANKS | DRAM_PAGE_POLICY | DRAM_PAGE_IDLE | DRAM_PANIC_COMPOSER | DRAM_PANIC_PAIR
  | DRAM_PANIC_EGRESS | DRAM_NBR_SHIFT | DRAM_NBR_DISTANCE | DRAM_REFRESH_MODE | DRAM_TEMP_OFFSET
  | DRAM_RETRAIN_EVERY | DRAM_MARK_THRESHOLD | DRAM_UE_LIMIT | DRAM_REMIRROR_RATE | DRAM_SCRUB_LAPS
  | DRAM_TEMP_EST | DRAM_REMIRROR_LEFT | DRAM_INIT_LEFT | CH_STATE | CH_CMD | CH_MARKED | CH_CORRECTED
  | CH_UNCORRECTED | CH_MIRROR_READS | CH_NBR_REFRESHES | CH_PANIC_CYCLES | CH_PAGE_HITS | CH_PAGE_CONFLICTS
  | CH_RETRAIN_STEPS | CH_CA_PARITY | CH_TRAIN_RESULT | CH_BYTES | CH_RETRIED | MARGIN_CMD | MARGIN_STATE
  | MARGIN_READ | MARGIN_WRITE | MARGIN_VREF | POOL_SHARE | POOL_BUFFERS | POOL_FREE | POOL_LOW_WATER
  | POOL_RESERVE | POOL_FALLBACKS | POOL_EXHAUSTED | POOL_LOST | POOL_PEAK_REFS | POOL_DOUBLE_FREES
  | POOL_STALE_FREES | POOL_FOREIGN_FREES | POOL_INVALID | POOL_REF_LIMIT | POOL_LIST_REBUILDS
  | POOL_RESET_FREED | POOL_REMIRROR_WAIT | DOM_QUOTA | DOM_USE | DOM_QUOTA_FAILS | LOG_NEXT_SEQ | LOG_COUNT
  | LOG_OVERWRITTEN | LOG_COALESCED | LOG_CLEAR | FAULT_RETIRE_COUNT | FAULT_RETIRE_LAPS | HEALTHY_MASK
  | HEALTHY_CAUSE | RERUNS_LOCAL | RERUNS_REMOTE | RERUNS_CONCEALED | RETIRED_CELLS | RETIRED_PAIRS
  | RETIRED_BLOCKS | RETIRED_COMPOSERS | FAILED_RAILS | LOG_RECORD | PD_KIND | PD_MODE | PD_STATE | PD_POWER
  | PD_ENERGY | PD_WAKES | PD_STEPS | GOV_BUDGET | GOV_HARD | GOV_ADMIT_MARGIN | GOV_HYST
  | GOV_RESTORE_STRIDES | GOV_STEP | GOV_THROTTLE | GOV_P60 | GOV_P1 | GOV_EST | GOV_LIMIT | GOV_LIMIT_SRC
  | GOV_TJ | GOV_TJ_THROTTLE | GOV_CMD | GOV_TRIM | GOV_TRIM_IDLE | GOV_DVFS_MODE | GOV_THROTTLE_GAIN
  | GOV_HARD_EVENTS | GOV_STEP_CHANGES | GOV_SENSE_FAIL | AIN_VALUE | AIN_GAIN | AIN_OFFSET | GOV_FEED_IMAX
  | GOV_FEED_EFF | GOV_CARD_OTHER | GOV_FEED_SHARE | GOV_K | LEGS_SUSPENDED | RESET_CMD | RESET_EPOCH
  | REVERTED_MASK | LAST_RESET | BOOT_NONCE | RELEASE_GAP | BRINGUP_MS | WARM_RESUME | OPT_COPY
  | OPT_SEQUENCE | OPT_STATUS | OPT_IMAGE | OPT_WRITE_STATE | OPT_ENTRIES_SKIPPED | XSPI_MODE | OPT_DIGEST
  | SLOT_WRAP | SLOT_PARENT | SLOT_USE | SLOT_STATE | SLOT_KCV | LEG_TX_KEY | LEG_RX_KEY | LEG_KEK
  | LEG_KEY_STATE | LEG_KEY_LOADS | SC_LOCK | SC_LOCK_OWNER | SC_LEASE_LEFT | SC_MODE | SC_KEY_SLOT | SC_PAD
  | SC_IV | SC_AAD | SC_INPUT | SC_CMD | SC_TAG | SC_OUTPUT | SC_STATUS | SC_JOBS | KEY_UNWRAP_FAILS
  | ALARM_LATCH | ALARM_ACTIVE | ALARM_COUNT | ALARM_TIME | ALARM_ERASE_STATE | ALARM_ERASE_RETRIES
  | ALARM_TX_DROPS | ALARM_CLEAR | IDENTITY_DIGEST | IDENTITY_PUBKEY | TK_PROGRAM | TK_KCV | OWNER_DIGEST
  | OWNER_STATE | OWNER_BOOT_SLOT | OWNER_PROGRAM | OWNER_REVOKE | ATTEST_NONCE | ATTEST_CMD | ATTEST_STATE
  | ATTEST_REPORT | ATTEST_COUNT | SNAP_SOURCES | SNAP_EDGE | SNAP_RECORD_CLASS | SNAP_NOW | SNAP_STATE
  | SNAP_RELEASE | SNAP_SEQ | SNAP_CAUSE | SNAP_TIME | SNAP_TIME_STB | SNAP_STRIDE | SNAP_RECORD_SEQ
  | SNAP_DROPPED | SNAP_OUT_WIDTH | SNAP_POOL_FREE | SNAP_P1 | SNAP_EGRESS_BYTES | SNAP_DICT_QUEUE | SR_VALID
  | SR_CONTEXTS | SR_COMPOSER | SR_RAILS | SB_FLAGS | SB_CYCLE | SB_READY | SB_REORDER | SB_OVERRUNS
  | SB_DEFERRED | SB_CELL | BLK_STATE | BLK_DVFS_STEP | BLK_ADMIT_CYCLES | BLK_CAPACITY | BLK_LEGS
  | BLK_OVERRUNS | BLK_DEFERRED | BLK_MEM_CORRECTED | RGN_STATE | RGN_BLOCKS | RGN_ADMIT_CYCLES
  | RGN_RAIL_CORRECTED | RGN_MEM_CORRECTED | TAP_LEG | TAP_POINT | TAP_STRIDES | TAP_CMD | TAP_STATE
  | TAP_DATA | SRC_COEFS | COST_TABLE | INJ_TARGET | INJ_CMD | INJ_COUNT | VDD_REQUEST | VDD_MEASURED
  | AVS_ERRORS | AVS_MARGIN
deriving DecidableEq, Repr

/-- The row of each object. -/
def Obj.row : Obj → Row
  | .DEVICE_NAME => ⟨0x1008, 0, 0, 0, 1, 1, .octets [10], .ro, .P, .bytes [76, 78, 65, 45, 52, 48, 57, 54, 45, 66], .full⟩ -- R1
  | .VENDOR_ID => ⟨0x1018, 0, 0, 1, 1, 1, .u 32, .ro, .P, .num (1491), .full⟩ -- R1
  | .PRODUCT_CODE => ⟨0x1018, 0, 0, 2, 1, 1, .u 32, .ro, .P, .num (16534), .full⟩ -- R1
  | .REVISION => ⟨0x1018, 0, 0, 3, 1, 1, .u 32, .ro, .P, .num (131072), .full⟩ -- R1
  | .SERIAL => ⟨0x1018, 0, 0, 4, 1, 1, .u 32, .ro, .P, .num 0, .full⟩ -- R1
  | .STRIDE_COUNT => ⟨0x2000, 0, 0, 1, 1, 1, .u 64, .ro, .V, .num (0), .full⟩ -- R34
  | .STRIDE_IN_LAP => ⟨0x2000, 0, 0, 2, 1, 1, .u 16, .ro, .V, .num (0), .full⟩ -- R34
  | .LAP_COUNT => ⟨0x2000, 0, 0, 3, 1, 1, .u 32, .ro, .V, .num (0), .full⟩ -- R34
  | .STRIDE_TIMEBASE => ⟨0x2000, 0, 0, 4, 1, 1, .u 8, .rws, .K, .num (0), .between (0) (7)⟩ -- R34
  | .STRIDE_OFFSET => ⟨0x2000, 0, 0, 5, 1, 1, .i 32, .ro, .V, .num (0), .full⟩ -- R34
  | .STRIDE_COMMIT => ⟨0x2000, 0, 0, 16, 1, 1, .u 8, .rw, .V, .num (0), .oneOf [0, 1]⟩ -- R34
  | .COMMIT_STATUS => ⟨0x2000, 0, 0, 17, 1, 1, .u 32, .ro, .V, .num (0), .full⟩ -- R34
  | .COMMIT_STRIDE => ⟨0x2000, 0, 0, 18, 1, 1, .u 64, .ro, .V, .num (0), .full⟩ -- R34
  | .AUDIO_OVERRUNS => ⟨0x6000, 0, 0, 16, 1, 1, .u 32, .ro, .V, .num (0), .full⟩ -- R34
  | .ITEMS_DEFERRED => ⟨0x6000, 0, 0, 17, 1, 1, .u 32, .ro, .V, .num (0), .full⟩ -- R34
  | .DECODE_MISSES => ⟨0x6000, 0, 0, 18, 1, 1, .u 32, .ro, .V, .num (0), .full⟩ -- R34
  | .ENCODE_MISSES => ⟨0x6000, 0, 0, 19, 1, 1, .u 32, .ro, .V, .num (0), .full⟩ -- R34
  | .TB_MODE => ⟨0x2040, 0, 7, 1, 1, 1, .u 8, .rws, .K, .num (0), .oneOf [0, 1, 2, 3]⟩ -- R42
  | .TB_SOURCE => ⟨0x2040, 0, 7, 2, 1, 1, .u 8, .rws, .K, .num (0), .between (0) (7)⟩ -- R42
  | .TB_TIME => ⟨0x2040, 0, 7, 3, 1, 1, .time80, .rw, .V, .num (0), .full⟩ -- R42
  | .TB_RATE_ADJ => ⟨0x2040, 0, 7, 4, 1, 1, .i 32, .rw, .K, .num (0), .between (-4294967) (4294967)⟩ -- R42
  | .TB_STATUS => ⟨0x2040, 0, 7, 5, 1, 1, .u 32, .ro, .V, .num (0), .full⟩ -- R42
  | .TB_FOLLOW_OFFSET => ⟨0x2040, 0, 7, 6, 1, 1, .i 64, .rws, .K, .num (0), .full⟩ -- R42
  | .TB_SERVO_KP => ⟨0x2040, 0, 7, 7, 1, 1, .u 8, .rws, .K, .num (2), .between (0) (30)⟩ -- R42
  | .TB_SERVO_KI => ⟨0x2040, 0, 7, 8, 1, 1, .u 8, .rws, .K, .num (6), .between (1) (31)⟩ -- R42
  | .TB_STEP_THRESHOLD => ⟨0x2040, 0, 7, 9, 1, 1, .u 32, .rws, .K, .num (100000), .between (100) (1000000000)⟩ -- R42
  | .TB_LOCK_THRESHOLD => ⟨0x2040, 0, 7, 10, 1, 1, .u 32, .rws, .K, .num (100), .between (10) (1000000)⟩ -- R42
  | .TB_HOLDOVER_LAPS => ⟨0x2040, 0, 7, 11, 1, 1, .u 32, .rw, .K, .num (3600), .full⟩ -- R42
  | .TB_STEPS => ⟨0x2040, 0, 7, 12, 1, 1, .u 32, .ro, .V, .num (0), .full⟩ -- R42
  | .PTP_DOMAIN => ⟨0x2040, 0, 7, 13, 1, 1, .u 8, .rws, .K, .num (0), .full⟩ -- R42
  | .PTP_PRIORITY1 => ⟨0x2040, 0, 7, 14, 1, 1, .u 8, .rws, .K, .num (128), .full⟩ -- R42
  | .PTP_PRIORITY2 => ⟨0x2040, 0, 7, 15, 1, 1, .u 8, .rws, .K, .num (128), .full⟩ -- R42
  | .TB_UTC_OFFSET => ⟨0x2040, 0, 7, 16, 1, 1, .i 16, .rw, .K, .num (37), .full⟩ -- R42
  | .PTP_ROLE => ⟨0x2080, 0, 3, 32, 1, 1, .u 8, .rws, .K, .num (0), .oneOf [0, 1, 2, 3]⟩ -- R48
  | .PTP_INSTANCE => ⟨0x2080, 0, 3, 33, 1, 1, .u 8, .rws, .K, .num (0), .between (0) (7)⟩ -- R48
  | .PTP_DELAY_MECH => ⟨0x2080, 0, 3, 34, 1, 1, .u 8, .rws, .K, .num (0), .oneOf [0, 1]⟩ -- R48
  | .PTP_TRANSPORT => ⟨0x2080, 0, 3, 35, 1, 1, .u 8, .rws, .K, .num (0), .oneOf [0, 1, 2]⟩ -- R48
  | .PTP_LOG_SYNC => ⟨0x2080, 0, 3, 36, 1, 1, .i 8, .rws, .K, .num (-4), .between (-7) (1)⟩ -- R48
  | .PTP_LOG_DELAY_REQ => ⟨0x2080, 0, 3, 37, 1, 1, .i 8, .rws, .K, .num (-4), .between (-7) (5)⟩ -- R48
  | .PTP_LOG_ANNOUNCE => ⟨0x2080, 0, 3, 38, 1, 1, .i 8, .rws, .K, .num (1), .between (-3) (4)⟩ -- R48
  | .PTP_ANNOUNCE_TIMEOUT => ⟨0x2080, 0, 3, 39, 1, 1, .u 8, .rws, .K, .num (3), .between (2) (10)⟩ -- R48
  | .PTP_ASYM_RX => ⟨0x2080, 0, 3, 40, 1, 1, .i 32, .rws, .K, .num (0), .full⟩ -- R48
  | .PTP_ASYM_TX => ⟨0x2080, 0, 3, 41, 1, 1, .i 32, .rws, .K, .num (0), .full⟩ -- R48
  | .PTP_PORT_STATE => ⟨0x2080, 0, 3, 42, 1, 1, .u 8, .ro, .V, .num (1), .full⟩ -- R48
  | .PTP_PATH_DELAY => ⟨0x2080, 0, 3, 43, 1, 1, .i 64, .ro, .V, .num (0), .full⟩ -- R48
  | .PULSE_MODE => ⟨0x2050, 0, 3, 1, 1, 1, .u 8, .rw, .K, .num (0), .oneOf [0, 1, 2]⟩ -- R51
  | .PULSE_TIMEBASE => ⟨0x2050, 0, 3, 2, 1, 1, .u 8, .rwi, .K, .num (0), .between (0) (7)⟩ -- R51
  | .PULSE_TARGET => ⟨0x2050, 0, 3, 3, 1, 1, .time80, .rw, .K, .num (0), .full⟩ -- R51
  | .PULSE_PERIOD => ⟨0x2050, 0, 3, 4, 1, 1, .u 64, .rwi, .K, .num (1000000000), .between (1000) (1099511627776)⟩ -- R51
  | .PULSE_WIDTH => ⟨0x2050, 0, 3, 5, 1, 1, .u 32, .rwi, .K, .num (100000000), .between (8) (4294967295)⟩ -- R51
  | .PULSE_POLARITY => ⟨0x2050, 0, 3, 6, 1, 1, .u 8, .rwi, .K, .num (0), .oneOf [0, 1]⟩ -- R51
  | .PULSE_FIRED => ⟨0x2050, 0, 3, 7, 1, 1, .u 32, .ro, .V, .num (0), .full⟩ -- R51
  | .PULSE_MISSED => ⟨0x2050, 0, 3, 8, 1, 1, .u 32, .ro, .V, .num (0), .full⟩ -- R51
  | .CAPTURE_EDGE => ⟨0x2058, 0, 1, 1, 1, 1, .u 8, .rw, .K, .num (0), .oneOf [0, 1, 2, 3]⟩ -- R55
  | .CAPTURE_TIMEBASE => ⟨0x2058, 0, 1, 2, 1, 1, .u 8, .rw, .K, .num (0), .between (0) (7)⟩ -- R55
  | .CAPTURE_LEVEL => ⟨0x2058, 0, 1, 3, 1, 1, .u 8, .ro, .V, .num (0), .full⟩ -- R55
  | .CAPTURE_TIME => ⟨0x2058, 0, 1, 4, 1, 1, .time80, .ro, .V, .num (0), .full⟩ -- R55
  | .CAPTURE_INFO => ⟨0x2058, 0, 1, 5, 1, 1, .u 32, .ro, .V, .num (0), .full⟩ -- R55
  | .CAPTURE_OVERFLOWS => ⟨0x2058, 0, 1, 6, 1, 1, .u 32, .ro, .V, .num (0), .full⟩ -- R55
  | .SERVICE_STATE => ⟨0x2000, 0, 0, 6, 1, 1, .u 8, .ro, .V, .num (0), .full⟩ -- R67
  | .STAGED_COUNT => ⟨0x2000, 0, 0, 19, 1, 1, .u 16, .ro, .V, .num (0), .full⟩ -- R67
  | .STAGE_DISCARD => ⟨0x2000, 0, 0, 20, 1, 1, .u 8, .wo, .V, .num 0, .oneOf [1]⟩ -- R67
  | .DICT_WRITES => ⟨0x2000, 0, 0, 32, 1, 1, .u 32, .ro, .V, .num (0), .full⟩ -- R67
  | .DICT_ABORTS => ⟨0x2000, 0, 0, 33, 1, 1, .u 32, .ro, .V, .num (0), .full⟩ -- R67
  | .DICT_QUEUE_DROPS => ⟨0x2000, 0, 0, 34, 1, 1, .u 32, .ro, .V, .num (0), .full⟩ -- R67
  | .DEVICE_TYPE => ⟨0x1000, 0, 0, 0, 1, 1, .u 32, .ro, .P, .num (0), .full⟩ -- R72
  | .ERROR_REGISTER => ⟨0x1001, 0, 0, 0, 1, 1, .u 8, .ro, .V, .num (0), .full⟩ -- R72
  | .ERROR_COUNT => ⟨0x1003, 0, 0, 0, 1, 1, .u 8, .rw, .V, .num (0), .oneOf [0]⟩ -- R72
  | .ERROR_FIELD => ⟨0x1003, 0, 0, 1, 8, 1, .u 32, .ro, .V, .num (0), .full⟩ -- R72
  | .COB_ID_EMCY => ⟨0x1014, 0, 0, 0, 1, 1, .u 32, .rw, .K, .num 255, .full⟩ -- R72
  | .INHIBIT_TIME_EMCY => ⟨0x1015, 0, 0, 0, 1, 1, .u 16, .rw, .K, .num (0), .full⟩ -- R72
  | .PRODUCER_HEARTBEAT_TIME => ⟨0x1017, 0, 0, 0, 1, 1, .u 16, .rw, .K, .num (1000), .full⟩ -- R72
  | .COB_ID_CLIENT_TO_SERVER => ⟨0x1200, 0, 0, 1, 1, 1, .u 32, .ro, .K, .num 1663, .full⟩ -- R72
  | .COB_ID_SERVER_TO_CLIENT => ⟨0x1200, 0, 0, 2, 1, 1, .u 32, .ro, .K, .num 1535, .full⟩ -- R72
  | .RPDO_COB_ID => ⟨0x1400, 0, 3, 1, 1, 1, .u 32, .rw, .K, .num 2147484287, .full⟩ -- R72
  | .RPDO_TYPE => ⟨0x1400, 0, 3, 2, 1, 1, .u 8, .rw, .K, .num (255), .special⟩ -- R72
  | .RPDO_MAP => ⟨0x1600, 0, 3, 0, 9, 1, .mapping, .rw, .K, .num (0), .full⟩ -- R72
  | .TPDO_COB_ID => ⟨0x1800, 0, 3, 1, 1, 1, .u 32, .rw, .K, .num 2147484159, .full⟩ -- R72
  | .TPDO_TYPE => ⟨0x1800, 0, 3, 2, 1, 1, .u 8, .rw, .K, .num (255), .special⟩ -- R72
  | .TPDO_INHIBIT => ⟨0x1800, 0, 3, 3, 1, 1, .u 16, .rw, .K, .num (0), .full⟩ -- R72
  | .TPDO_EVENT => ⟨0x1800, 0, 3, 5, 1, 1, .u 16, .rw, .K, .num (0), .full⟩ -- R72
  | .TPDO_MAP => ⟨0x1A00, 0, 3, 0, 9, 1, .mapping, .rw, .K, .num (0), .full⟩ -- R72
  | .CAN_NODE_ID => ⟨0x1100, 0, 0, 1, 1, 1, .u 8, .rws, .K, .num (127), .between (1) (127)⟩ -- R72
  | .CAN_BITRATE => ⟨0x1100, 0, 0, 2, 1, 1, .u 8, .rws, .K, .num (1), .oneOf [0, 1, 2, 3, 4]⟩ -- R72
  | .EMCY_CLASS_MASK => ⟨0x1100, 0, 0, 3, 1, 1, .u 8, .rws, .K, .num (12), .mask 0xF⟩ -- R72
  | .CAN_STATUS => ⟨0x1100, 0, 0, 4, 1, 1, .u 8, .ro, .V, .num (0), .full⟩ -- R72
  | .EMCY_SUPPRESSED => ⟨0x1100, 0, 0, 5, 1, 1, .u 32, .ro, .V, .num (0), .full⟩ -- R72
  | .RPDO_REFUSED => ⟨0x1100, 0, 0, 6, 1, 1, .u 32, .ro, .V, .num (0), .full⟩ -- R72
  | .HDP_ENABLE => ⟨0x1110, 0, 0, 1, 1, 1, .bool, .rws, .K, .num (1), .full⟩ -- R88
  | .HDP_SESSION_TIMEOUT => ⟨0x1110, 0, 0, 2, 1, 1, .u 16, .rws, .K, .num (10), .between (4) (600)⟩ -- R88
  | .HDP_SESSIONS_OPEN => ⟨0x1110, 0, 0, 3, 1, 1, .u 8, .ro, .V, .num (0), .full⟩ -- R88
  | .HDP_AUTH_FAILS => ⟨0x1110, 0, 0, 4, 1, 1, .u 32, .ro, .V, .num (0), .full⟩ -- R88
  | .HDP_REPLAYS => ⟨0x1110, 0, 0, 5, 1, 1, .u 32, .ro, .V, .num (0), .full⟩ -- R88
  | .PUNT_OWNER => ⟨0x1110, 0, 0, 6, 1, 1, .u 32, .ro, .V, .num (0), .full⟩ -- R88
  | .PUNT_DROPPED => ⟨0x1110, 0, 0, 7, 1, 1, .u 32, .ro, .V, .num (0), .full⟩ -- R88
  | .HDP_KEY => ⟨0x1111, 0, 0, 1, 4, 1, .octets [40], .wo, .K, .bytes [], .full⟩ -- R88
  | .MGMT_IPV4 => ⟨0x1120, 0, 0, 1, 1, 1, .u 32, .rws, .K, .num (0), .full⟩ -- R88
  | .MGMT_IPV6 => ⟨0x1120, 0, 0, 2, 1, 1, .octets [16], .rws, .K, .bytes (List.replicate 16 0), .full⟩ -- R88
  | .MGMT_VLAN => ⟨0x1120, 0, 0, 3, 1, 1, .u 16, .rws, .K, .num (0), .between (0) (4094)⟩ -- R88
  | .MGMT_PORTS => ⟨0x1120, 0, 0, 4, 1, 1, .u 8, .rws, .K, .num (15), .mask 0xF⟩ -- R88
  | .MGMT_DSCP => ⟨0x1120, 0, 0, 5, 1, 1, .u 8, .rws, .K, .num (48), .between (0) (63)⟩ -- R88
  | .CONF_CMD => ⟨0x2800, 0, 1023, 1, 1, 1, .u 8, .wo, .V, .num 0, .oneOf [1, 2]⟩ -- R101
  | .CONF_STATE => ⟨0x2800, 0, 1023, 2, 1, 1, .u 8, .ro, .K, .num (0), .full⟩ -- R101
  | .CONF_REGION => ⟨0x2800, 0, 1023, 3, 1, 1, .u 8, .rwi, .K, .num (255), .orElse (0) (3) (255)⟩ -- R101
  | .CONF_HOME_BLOCK => ⟨0x2800, 0, 1023, 4, 1, 1, .u 8, .ro, .K, .num (255), .full⟩ -- R101
  | .CONF_MAX_LEGS => ⟨0x2800, 0, 1023, 5, 1, 1, .u 16, .rw, .K, .num (4096), .between (1) (4096)⟩ -- R101
  | .CONF_PIXEL_QUOTA => ⟨0x2800, 0, 1023, 6, 1, 1, .u 32, .rw, .K, .num (4294967295), .full⟩ -- R101
  | .CONF_BUFFER_QUOTA => ⟨0x2800, 0, 1023, 7, 1, 1, .u 32, .rw, .K, .num (4294967295), .full⟩ -- R101
  | .CONF_LEG_COUNT => ⟨0x2800, 0, 1023, 8, 1, 1, .u 16, .ro, .K, .num (0), .full⟩ -- R101
  | .CONF_PIXEL_USE => ⟨0x2800, 0, 1023, 9, 1, 1, .u 32, .ro, .K, .num (0), .full⟩ -- R101
  | .CONF_BUFFER_USE => ⟨0x2800, 0, 1023, 10, 1, 1, .u 32, .ro, .K, .num (0), .full⟩ -- R101
  | .CONF_SPILL => ⟨0x2800, 0, 1023, 11, 1, 1, .bool, .rwi, .K, .num (1), .full⟩ -- R101
  | .CONF_STANDING => ⟨0x2800, 0, 1023, 12, 1, 1, .bool, .ro, .K, .num (0), .full⟩ -- R101
  | .LEG_CMD => ⟨0x3000, 0, 4095, 1, 1, 1, .u 8, .wo, .V, .num 0, .oneOf [1, 2, 3, 4, 5, 6, 7, 8, 9]⟩ -- R104
  | .LEG_STATE => ⟨0x3000, 0, 4095, 2, 1, 1, .u 8, .ro, .K, .num (0), .full⟩ -- R104
  | .LEG_REFUSAL => ⟨0x3000, 0, 4095, 3, 1, 1, .u 8, .ro, .K, .num (0), .full⟩ -- R104
  | .LEG_CONFERENCE => ⟨0x3000, 0, 4095, 4, 1, 1, .u 16, .rwi, .K, .num (65535), .orElse (0) (1023) (65535)⟩ -- R104
  | .LEG_LOW_PRIORITY => ⟨0x3000, 0, 4095, 5, 1, 1, .bool, .rw, .K, .num (0), .full⟩ -- R104
  | .LEG_AUDIO_ONLY_FALLBACK => ⟨0x3000, 0, 4095, 6, 1, 1, .bool, .rwi, .K, .num (0), .full⟩ -- R104
  | .LEG_ADMIT_CYCLES => ⟨0x3000, 0, 4095, 7, 1, 1, .u 32, .ro, .K, .num (0), .full⟩ -- R104
  | .LEG_ADMIT_PIXELS => ⟨0x3000, 0, 4095, 8, 1, 1, .u 32, .ro, .K, .num (0), .full⟩ -- R104
  | .LEG_ADMIT_BLOCK => ⟨0x3000, 0, 4095, 9, 1, 1, .u 8, .ro, .K, .num (255), .full⟩ -- R104
  | .LEG_BUFFER_NEED => ⟨0x3000, 0, 4095, 10, 1, 1, .u 32, .ro, .K, .num (0), .full⟩ -- R104
  | .LEG_RX_TIMEOUT => ⟨0x3000, 0, 4095, 11, 1, 1, .u 16, .rw, .K, .num (0), .between (0) (600)⟩ -- R104
  | .LEG_DRAIN_STRIDES => ⟨0x3000, 0, 4095, 12, 1, 1, .u 16, .rw, .K, .num (12), .between (6) (600)⟩ -- R104
  | .LEG_STATE_STRIDE => ⟨0x3000, 0, 4095, 13, 1, 1, .u 64, .ro, .K, .num (0), .full⟩ -- R104
  | .LEG_PRIOR_STATE => ⟨0x3000, 0, 4095, 14, 1, 1, .u 8, .ro, .K, .num (0), .full⟩ -- R104
  | .ADMIT_CYCLES_USE => ⟨0x6000, 0, 0, 32, 1, 1, .u 64, .ro, .K, .num (0), .full⟩ -- R117
  | .ADMIT_CYCLES_CAP => ⟨0x6000, 0, 0, 33, 1, 1, .u 64, .ro, .K, .num (1915296000), .full⟩ -- R117
  | .ADMIT_PIXELS_USE => ⟨0x6000, 0, 0, 34, 1, 1, .u 32, .ro, .K, .num (0), .full⟩ -- R117
  | .ADMIT_PIXELS_CAP => ⟨0x6000, 0, 0, 35, 1, 1, .u 32, .ro, .K, .num (6000000), .full⟩ -- R117
  | .ADMIT_REFUSALS => ⟨0x6000, 0, 0, 36, 1, 1, .u 32, .ro, .V, .num (0), .full⟩ -- R117
  | .LEGS_ADMITTED => ⟨0x6000, 0, 0, 37, 1, 1, .u 16, .ro, .K, .num (0), .full⟩ -- R117
  | .CONFS_OPEN => ⟨0x6000, 0, 0, 38, 1, 1, .u 16, .ro, .K, .num (0), .full⟩ -- R117
  | .PORT_MODE => ⟨0x2080, 0, 3, 1, 1, 1, .u 8, .rws, .K, .num (0), .oneOf [0, 1, 2, 3]⟩ -- R121
  | .PORT_MAC => ⟨0x2080, 0, 3, 2, 1, 1, .octets [6], .rws, .K, .bytes (List.replicate 6 0), .special⟩ -- R121
  | .PORT_MTU => ⟨0x2080, 0, 3, 3, 1, 1, .u 16, .rws, .K, .num (1500), .between (1280) (9000)⟩ -- R121
  | .PORT_LINK => ⟨0x2080, 0, 3, 4, 1, 1, .u 8, .ro, .V, .num (0), .full⟩ -- R121
  | .PORT_SYS_POLICER => ⟨0x2080, 0, 3, 5, 1, 1, .u 8, .rws, .K, .num (255), .orElse (0) (31) (255)⟩ -- R121
  | .PORT_RX_FRAMES => ⟨0x2080, 0, 3, 6, 1, 1, .u 64, .ro, .V, .num (0), .full⟩ -- R121
  | .PORT_RX_BYTES => ⟨0x2080, 0, 3, 7, 1, 1, .u 64, .ro, .V, .num (0), .full⟩ -- R121
  | .PORT_FEC_CORRECTED => ⟨0x2080, 0, 3, 8, 1, 1, .u 32, .ro, .V, .num (0), .full⟩ -- R121
  | .PORT_FEC_UNCORRECTED => ⟨0x2080, 0, 3, 9, 1, 1, .u 32, .ro, .V, .num (0), .full⟩ -- R121
  | .PORT_LINK_DOWNS => ⟨0x2080, 0, 3, 10, 1, 1, .u 32, .ro, .V, .num (0), .full⟩ -- R121
  | .PORT_DROP => ⟨0x2080, 0, 3, 16, 12, 1, .u 32, .ro, .V, .num (0), .full⟩ -- R121
  | .PAIR_MODE => ⟨0x2088, 0, 1, 1, 1, 1, .u 8, .rws, .K, .num (1), .oneOf [0, 1, 2]⟩ -- R123
  | .PAIR_ACTIVE => ⟨0x2088, 0, 1, 2, 1, 1, .u 8, .ro, .K, .num 0, .full⟩ -- R123
  | .PAIR_REVERT_LAPS => ⟨0x2088, 0, 1, 3, 1, 1, .u 16, .rws, .K, .num (10), .between (1) (600)⟩ -- R123
  | .PAIR_FORCE => ⟨0x2088, 0, 1, 4, 1, 1, .u 8, .wo, .V, .num 0, .special⟩ -- R123
  | .PAIR_SWITCHES => ⟨0x2088, 0, 1, 5, 1, 1, .u 32, .ro, .V, .num (0), .full⟩ -- R123
  | .ADDR_IP => ⟨0x2090, 0, 31, 1, 1, 1, .octets [16], .rwi, .K, .bytes (List.replicate 16 0), .full⟩ -- R126
  | .ADDR_VLAN => ⟨0x2090, 0, 31, 2, 1, 1, .u 16, .rwi, .K, .num (0), .between (0) (4094)⟩ -- R126
  | .ADDR_PORTS => ⟨0x2090, 0, 31, 3, 1, 1, .u 8, .rwi, .K, .num (0), .mask 0xF⟩ -- R126
  | .ADDR_FLAGS => ⟨0x2090, 0, 31, 4, 1, 1, .u 8, .rwi, .K, .num (1), .mask 0x3⟩ -- R126
  | .ADDR_NEXTHOP_MAC => ⟨0x2090, 0, 31, 5, 1, 1, .octets [6], .rwi, .K, .bytes (List.replicate 6 0), .full⟩ -- R126
  | .ADDR_POLICER => ⟨0x2090, 0, 31, 6, 1, 1, .u 8, .rwi, .K, .num (255), .orElse (0) (31) (255)⟩ -- R126
  | .LEG_LOCAL_ADDR => ⟨0x3000, 0, 4095, 16, 1, 1, .u 8, .rwi, .K, .num (255), .orElse (0) (31) (255)⟩ -- R131
  | .LEG_LOCAL_PORT => ⟨0x3000, 0, 4095, 17, 1, 1, .u 16, .rwi, .K, .num (0), .between (1) (65535)⟩ -- R131
  | .LEG_REMOTE_IP => ⟨0x3000, 0, 4095, 18, 1, 1, .octets [16], .rwi, .K, .bytes (List.replicate 16 0), .full⟩ -- R131
  | .LEG_REMOTE_PORT => ⟨0x3000, 0, 4095, 19, 1, 1, .u 16, .rwi, .K, .num (0), .full⟩ -- R131
  | .LEG_SUITE => ⟨0x3000, 0, 4095, 20, 1, 1, .u 8, .rwi, .K, .num (0), .oneOf [0, 1, 2, 3, 4]⟩ -- R131
  | .LEG_POLICER => ⟨0x3000, 0, 4095, 21, 1, 1, .u 8, .rw, .K, .num (255), .orElse (0) (31) (255)⟩ -- R131
  | .LEG_ICE_UFRAG => ⟨0x3000, 0, 4095, 22, 1, 1, .upTo 4 32, .rwi, .K, .bytes [], .full⟩ -- R131
  | .LEG_ICE_PWD => ⟨0x3000, 0, 4095, 23, 1, 1, .upTo 22 64, .wo, .K, .bytes [], .full⟩ -- R131
  | .LEG_ICE_MODE => ⟨0x3000, 0, 4095, 24, 1, 1, .u 8, .rw, .K, .num (1), .oneOf [0, 1, 2]⟩ -- R131
  | .LEG_ICE_NOMINATED => ⟨0x3000, 0, 4095, 25, 1, 1, .octets [18], .ro, .V, .bytes (List.replicate 18 0), .full⟩ -- R131
  | .LEG_RX_PT => ⟨0x3000, 0, 4095, 32, 8, 1, .u 32, .rwi, .K, .num (0), .mask 0x800F077F⟩ -- R131
  | .LEG_NACK_MODE => ⟨0x3000, 0, 4095, 40, 1, 1, .u 8, .rw, .K, .num (3), .mask 0x3⟩ -- R131
  | .LEG_RTX_HISTORY => ⟨0x3000, 0, 4095, 41, 1, 1, .u 16, .rw, .K, .num (300), .between (12) (600)⟩ -- R131
  | .LEG_JB_MIN => ⟨0x3000, 0, 4095, 42, 1, 1, .u 8, .rw, .K, .num (12), .between (3) (240)⟩ -- R131
  | .LEG_JB_MAX => ⟨0x3000, 0, 4095, 43, 1, 1, .u 8, .rw, .K, .num (120), .between (3) (240)⟩ -- R131
  | .LEG_VIDEO_HOLD => ⟨0x3000, 0, 4095, 44, 1, 1, .u 16, .rw, .K, .num (60), .between (0) (240)⟩ -- R131
  | .LEG_RX_SSRC => ⟨0x3000, 0, 4095, 48, 8, 1, .u 32, .ro, .V, .num (0), .full⟩ -- R131
  | .LEG_SSRC_FLUSH => ⟨0x3000, 0, 4095, 56, 1, 1, .u 8, .wo, .V, .num 0, .oneOf [1]⟩ -- R131
  | .RX_PACKETS => ⟨0x3000, 0, 4095, 64, 1, 1, .u 64, .ro, .V, .num (0), .full⟩ -- R131
  | .RX_BYTES => ⟨0x3000, 0, 4095, 65, 1, 1, .u 64, .ro, .V, .num (0), .full⟩ -- R131
  | .REMOTE_MISMATCH => ⟨0x3000, 0, 4095, 66, 1, 1, .u 32, .ro, .V, .num (0), .full⟩ -- R131
  | .POLICED_RED => ⟨0x3000, 0, 4095, 67, 1, 1, .u 32, .ro, .V, .num (0), .full⟩ -- R131
  | .POLICED_YELLOW => ⟨0x3000, 0, 4095, 68, 1, 1, .u 32, .ro, .V, .num (0), .full⟩ -- R131
  | .AUTH_FAILS => ⟨0x3000, 0, 4095, 69, 1, 1, .u 32, .ro, .V, .num (0), .full⟩ -- R131
  | .REPLAYS => ⟨0x3000, 0, 4095, 70, 1, 1, .u 32, .ro, .V, .num (0), .full⟩ -- R131
  | .SSRC_FULL => ⟨0x3000, 0, 4095, 71, 1, 1, .u 32, .ro, .V, .num (0), .full⟩ -- R131
  | .NOT_ACTIVE => ⟨0x3000, 0, 4095, 72, 1, 1, .u 32, .ro, .V, .num (0), .full⟩ -- R131
  | .LATE => ⟨0x3000, 0, 4095, 73, 1, 1, .u 32, .ro, .V, .num (0), .full⟩ -- R131
  | .JB_OVERFLOW => ⟨0x3000, 0, 4095, 74, 1, 1, .u 32, .ro, .V, .num (0), .full⟩ -- R131
  | .FEC_RECOVERED => ⟨0x3000, 0, 4095, 75, 1, 1, .u 32, .ro, .V, .num (0), .full⟩ -- R131
  | .NACK_SENT => ⟨0x3000, 0, 4095, 76, 1, 1, .u 32, .ro, .V, .num (0), .full⟩ -- R131
  | .RTX_SENT => ⟨0x3000, 0, 4095, 77, 1, 1, .u 32, .ro, .V, .num (0), .full⟩ -- R131
  | .JB_TARGET => ⟨0x3000, 0, 4095, 78, 1, 1, .u 8, .ro, .V, .num (0), .full⟩ -- R131
  | .STUN_ANSWERED => ⟨0x3000, 0, 4095, 79, 1, 1, .u 32, .ro, .V, .num (0), .full⟩ -- R131
  | .POL_MODE => ⟨0x20C0, 0, 31, 1, 1, 1, .u 8, .rws, .K, .num (0), .oneOf [0, 1, 2, 3]⟩ -- R137
  | .POL_CIR => ⟨0x20C0, 0, 31, 2, 1, 1, .u 32, .rws, .K, .num (10000), .between (1) (25000000)⟩ -- R137
  | .POL_CBS => ⟨0x20C0, 0, 31, 3, 1, 1, .u 32, .rws, .K, .num (16384), .between (1280) (16777216)⟩ -- R137
  | .POL_EBS_PBS => ⟨0x20C0, 0, 31, 4, 1, 1, .u 32, .rws, .K, .num (16384), .between (0) (16777216)⟩ -- R137
  | .POL_PIR => ⟨0x20C0, 0, 31, 5, 1, 1, .u 32, .rws, .K, .num (20000), .full⟩ -- R137
  | .POL_YELLOW_ACTION => ⟨0x20C0, 0, 31, 6, 1, 1, .u 8, .rws, .K, .num (2), .oneOf [0, 1, 2]⟩ -- R137
  | .POL_YELLOW_FLOOR => ⟨0x20C0, 0, 31, 7, 1, 1, .u 8, .rws, .K, .num (25), .between (1) (99)⟩ -- R137
  | .POL_DSCP_YELLOW => ⟨0x20C0, 0, 31, 8, 1, 1, .u 64, .rws, .K, .num (0), .full⟩ -- R137
  | .POL_DSCP_RED => ⟨0x20C0, 0, 31, 9, 1, 1, .u 64, .rws, .K, .num (0), .full⟩ -- R137
  | .TC_WEIGHT => ⟨0x20E0, 0, 31, 1, 1, 1, .u 8, .rw, .K, .num (16), .between (1) (255)⟩ -- R171
  | .TC_GROUP => ⟨0x20E0, 0, 31, 2, 1, 1, .u 8, .rw, .K, .num (0), .oneOf [0, 1]⟩ -- R171
  | .TC_DSCP_CONTROL => ⟨0x20E0, 0, 31, 3, 1, 1, .u 8, .rws, .K, .num (46), .between (0) (63)⟩ -- R171
  | .TC_DSCP_AUDIO => ⟨0x20E0, 0, 31, 4, 1, 1, .u 8, .rws, .K, .num (46), .between (0) (63)⟩ -- R171
  | .TC_DSCP_VIDEO => ⟨0x20E0, 0, 31, 5, 1, 1, .u 8, .rws, .K, .num (34), .between (0) (63)⟩ -- R171
  | .TC_PCP_AUDIO => ⟨0x20E0, 0, 31, 6, 1, 1, .u 8, .rws, .K, .num (5), .between (0) (7)⟩ -- R171
  | .TC_PCP_VIDEO => ⟨0x20E0, 0, 31, 7, 1, 1, .u 8, .rws, .K, .num (4), .between (0) (7)⟩ -- R171
  | .TC_AUDIO_LIMIT => ⟨0x20E0, 0, 31, 8, 1, 1, .u 8, .rws, .K, .num (16), .between (4) (64)⟩ -- R171
  | .TC_AUDIO_AGE => ⟨0x20E0, 0, 31, 9, 1, 1, .u 8, .rws, .K, .num (12), .between (3) (60)⟩ -- R171
  | .TC_VIDEO_LIMIT => ⟨0x20E0, 0, 31, 10, 1, 1, .u 32, .rws, .K, .num (524288), .between (16384) (4194304)⟩ -- R171
  | .TC_VIDEO_AGE => ⟨0x20E0, 0, 31, 11, 1, 1, .u 16, .rws, .K, .num (60), .between (10) (600)⟩ -- R171
  | .TC_CONTROL_LIMIT => ⟨0x20E0, 0, 31, 12, 1, 1, .u 16, .rws, .K, .num (64), .between (8) (256)⟩ -- R171
  | .TC_GRAD_THRESHOLD => ⟨0x20E0, 0, 31, 16, 1, 1, .u 16, .rws, .K, .num (2000), .between (200) (20000)⟩ -- R171
  | .TC_GRAD_WINDOW => ⟨0x20E0, 0, 31, 17, 1, 1, .u 8, .rws, .K, .num (20), .between (8) (60)⟩ -- R171
  | .TC_BETA => ⟨0x20E0, 0, 31, 18, 1, 1, .u 16, .rws, .K, .num (55706), .between (32768) (62259)⟩ -- R171
  | .TC_INC_MULT => ⟨0x20E0, 0, 31, 19, 1, 1, .u 16, .rws, .K, .num (8), .between (1) (64)⟩ -- R171
  | .TC_INC_ADD => ⟨0x20E0, 0, 31, 20, 1, 1, .u 16, .rws, .K, .num (100), .between (0) (10000)⟩ -- R171
  | .TC_LOSS_HIGH => ⟨0x20E0, 0, 31, 21, 1, 1, .u 16, .rws, .K, .num (6554), .full⟩ -- R171
  | .TC_LOSS_LOW => ⟨0x20E0, 0, 31, 22, 1, 1, .u 16, .rws, .K, .num (1311), .full⟩ -- R171
  | .TC_FB_TIMEOUT => ⟨0x20E0, 0, 31, 23, 1, 1, .u 16, .rws, .K, .num (300), .between (30) (3000)⟩ -- R171
  | .LEG_TC => ⟨0x3000, 0, 4095, 80, 1, 1, .u 8, .rw, .K, .num (0), .between (0) (31)⟩ -- R172
  | .LEG_MIN_RATE => ⟨0x3000, 0, 4095, 81, 1, 1, .u 32, .rws, .K, .num (64), .between (32) (100000)⟩ -- R172
  | .LEG_MAX_RATE => ⟨0x3000, 0, 4095, 82, 1, 1, .u 32, .rws, .K, .num (8000), .between (32) (100000)⟩ -- R172
  | .LEG_START_RATE => ⟨0x3000, 0, 4095, 83, 1, 1, .u 32, .rwi, .K, .num (1000), .full⟩ -- R172
  | .LEG_CC_MODE => ⟨0x3000, 0, 4095, 84, 1, 1, .u 8, .rw, .K, .num (1), .oneOf [0, 1, 2]⟩ -- R172
  | .LEG_FB_MODE => ⟨0x3000, 0, 4095, 85, 1, 1, .u 8, .rwi, .K, .num (0), .oneOf [0, 1, 2]⟩ -- R172
  | .LEG_TWCC_EXT_ID => ⟨0x3000, 0, 4095, 86, 1, 1, .u 8, .rwi, .K, .num (0), .between (0) (14)⟩ -- R172
  | .LEG_FB_PERIOD => ⟨0x3000, 0, 4095, 87, 1, 1, .u 8, .rw, .K, .num (30), .between (6) (120)⟩ -- R172
  | .LEG_PTP_PEER => ⟨0x3000, 0, 4095, 88, 1, 1, .bool, .rw, .K, .num (0), .full⟩ -- R172
  | .LEG_CREDIT_STRIDES => ⟨0x3000, 0, 4095, 89, 1, 1, .u 8, .rw, .K, .num (2), .between (1) (16)⟩ -- R172
  | .LEG_PACE_GAIN => ⟨0x3000, 0, 4095, 90, 1, 1, .u 8, .rw, .K, .num (64), .full⟩ -- R172
  | .LEG_FEC_MODE => ⟨0x3000, 0, 4095, 91, 1, 1, .u 8, .rw, .K, .num (0), .oneOf [0, 1, 2]⟩ -- R172
  | .LEG_FEC_K => ⟨0x3000, 0, 4095, 92, 1, 1, .u 8, .rw, .K, .num (8), .between (2) (48)⟩ -- R172
  | .LINE_ESTIMATE => ⟨0x3000, 0, 4095, 96, 1, 1, .u 32, .ro, .V, .num (0), .full⟩ -- R172
  | .LINE_TARGET => ⟨0x3000, 0, 4095, 97, 1, 1, .u 32, .ro, .K, .num (0), .full⟩ -- R172
  | .LINE_STATE => ⟨0x3000, 0, 4095, 98, 1, 1, .u 8, .ro, .V, .num (0), .full⟩ -- R172
  | .LINE_RTT => ⟨0x3000, 0, 4095, 99, 1, 1, .u 32, .ro, .V, .num (120000), .full⟩ -- R172
  | .LINE_LOSS => ⟨0x3000, 0, 4095, 100, 1, 1, .u 16, .ro, .V, .num (0), .full⟩ -- R172
  | .LINE_JITTER => ⟨0x3000, 0, 4095, 101, 1, 1, .u 32, .ro, .V, .num (0), .full⟩ -- R172
  | .LINE_GRADIENT => ⟨0x3000, 0, 4095, 102, 1, 1, .i 32, .ro, .V, .num (0), .full⟩ -- R172
  | .LINE_OWD => ⟨0x3000, 0, 4095, 103, 1, 1, .i 32, .ro, .V, .num (2147483648), .full⟩ -- R172
  | .LINE_ACKED_RATE => ⟨0x3000, 0, 4095, 104, 1, 1, .u 32, .ro, .V, .num (0), .full⟩ -- R172
  | .LINE_FEC_K => ⟨0x3000, 0, 4095, 105, 1, 1, .u 8, .ro, .V, .num (0), .full⟩ -- R172
  | .LINE_CREDIT => ⟨0x3000, 0, 4095, 106, 1, 1, .i 32, .ro, .V, .num (0), .full⟩ -- R172
  | .TX_PACKETS => ⟨0x3000, 0, 4095, 107, 1, 1, .u 64, .ro, .V, .num (0), .full⟩ -- R172
  | .TX_BYTES => ⟨0x3000, 0, 4095, 108, 1, 1, .u 64, .ro, .V, .num (0), .full⟩ -- R172
  | .TX_DROP_FULL => ⟨0x3000, 0, 4095, 109, 1, 1, .u 32, .ro, .V, .num (0), .full⟩ -- R172
  | .TX_DROP_AGE => ⟨0x3000, 0, 4095, 110, 1, 1, .u 32, .ro, .V, .num (0), .full⟩ -- R172
  | .TX_NO_NEXTHOP => ⟨0x3000, 0, 4095, 111, 1, 1, .u 32, .ro, .V, .num (0), .full⟩ -- R172
  | .LINE_OWD_RX => ⟨0x3000, 0, 4095, 112, 1, 1, .i 32, .ro, .V, .num (2147483648), .full⟩ -- R172
  | .PORT_TX_FRAMES => ⟨0x2080, 0, 3, 11, 1, 1, .u 64, .ro, .V, .num (0), .full⟩ -- R172
  | .PORT_TX_BYTES => ⟨0x2080, 0, 3, 12, 1, 1, .u 64, .ro, .V, .num (0), .full⟩ -- R172
  | .PORT_TX_DROPS => ⟨0x2080, 0, 3, 13, 1, 1, .u 32, .ro, .V, .num (0), .full⟩ -- R172
  | .LINE_LOOP_MISSES => ⟨0x6000, 0, 0, 20, 1, 1, .u 32, .ro, .V, .num (0), .full⟩ -- R172
  | .AF_COEF => ⟨0x2010, 0, 15, 1, 20, 1, .i 32, .rws, .K, .num 0, .between (-8388608) (8388607)⟩ -- R186
  | .AF_SECTIONS => ⟨0x2010, 0, 15, 21, 1, 1, .u 8, .rws, .K, .num (0), .mask 0xF⟩ -- R186
  | .LEG_RX_CODEC => ⟨0x3000, 0, 4095, 128, 4, 1, .u 32, .rwi, .K, .num (0), .mask 0xF0F⟩ -- R202
  | .LEG_TX_CODEC => ⟨0x3000, 0, 4095, 132, 1, 1, .u 32, .rwi, .K, .num (0), .mask 0x1FFFFF8F⟩ -- R202
  | .LEG_TX_AUDIO_PT => ⟨0x3000, 0, 4095, 133, 1, 1, .u 8, .rwi, .K, .num (0), .between (0) (127)⟩ -- R202
  | .LEG_TX_AUDIO_SSRC => ⟨0x3000, 0, 4095, 134, 1, 1, .u 32, .rwi, .K, .num (0), .full⟩ -- R202
  | .LEG_PROC_ENABLE => ⟨0x3000, 0, 4095, 135, 1, 1, .u 8, .rw, .K, .num (19), .mask 0x1F⟩ -- R202
  | .LEG_IN_PROFILE => ⟨0x3000, 0, 4095, 136, 1, 1, .u 8, .rw, .K, .num (0), .oneOf [0, 1, 2, 3, 4, 5, 6, 7, 8, 9, 10, 11, 12, 13, 14, 15]⟩ -- R202
  | .LEG_OUT_PROFILE => ⟨0x3000, 0, 4095, 137, 1, 1, .u 8, .rw, .K, .num (0), .oneOf [0, 1, 2, 3, 4, 5, 6, 7, 8, 9, 10, 11, 12, 13, 14, 15]⟩ -- R202
  | .LEG_MIX_MODE => ⟨0x3000, 0, 4095, 138, 1, 1, .u 8, .rw, .K, .num (1), .oneOf [0, 1, 2]⟩ -- R202
  | .LEG_MIX_GAIN => ⟨0x3000, 0, 4095, 139, 1, 1, .u 16, .rw, .K, .num (16384), .full⟩ -- R202
  | .LEG_OUT_GAIN => ⟨0x3000, 0, 4095, 140, 1, 1, .u 16, .rw, .K, .num (16384), .full⟩ -- R202
  | .LEG_OUT_MUTE => ⟨0x3000, 0, 4095, 141, 1, 1, .bool, .rw, .K, .num (0), .full⟩ -- R202
  | .LEG_GATE_OPEN => ⟨0x3000, 0, 4095, 142, 1, 1, .u 16, .rw, .K, .num (570), .full⟩ -- R202
  | .LEG_GATE_CLOSE => ⟨0x3000, 0, 4095, 143, 1, 1, .u 16, .rw, .K, .num (538), .full⟩ -- R202
  | .LEG_GATE_HOLD => ⟨0x3000, 0, 4095, 144, 1, 1, .u 8, .rw, .K, .num (30), .between (0) (240)⟩ -- R202
  | .LEG_GATE_FLOOR => ⟨0x3000, 0, 4095, 145, 1, 1, .u 16, .rw, .K, .num (0), .between (0) (16384)⟩ -- R202
  | .LEG_AGC_TARGET => ⟨0x3000, 0, 4095, 146, 1, 1, .u 16, .rw, .K, .num (730), .full⟩ -- R202
  | .LEG_AGC_MAX => ⟨0x3000, 0, 4095, 147, 1, 1, .i 16, .rw, .K, .num (1024), .between (0) (2048)⟩ -- R202
  | .LEG_AGC_UP => ⟨0x3000, 0, 4095, 148, 1, 1, .u 8, .rw, .K, .num (1), .between (1) (255)⟩ -- R202
  | .LEG_AGC_DOWN => ⟨0x3000, 0, 4095, 149, 1, 1, .u 8, .rw, .K, .num (8), .between (1) (255)⟩ -- R202
  | .LEG_LIM_THRESHOLD => ⟨0x3000, 0, 4095, 150, 1, 1, .u 32, .rw, .K, .num (7471104), .between (1048576) (8388607)⟩ -- R202
  | .LEG_LIM_RELEASE => ⟨0x3000, 0, 4095, 151, 1, 1, .u 16, .rw, .K, .num (7), .between (1) (4096)⟩ -- R202
  | .LEG_PEAK_HOLD => ⟨0x3000, 0, 4095, 152, 1, 1, .u 16, .rw, .K, .num (600), .between (1) (6000)⟩ -- R202
  | .LEG_DTMF_MODE => ⟨0x3000, 0, 4095, 153, 1, 1, .u 8, .rw, .K, .num (5), .mask 0x7⟩ -- R202
  | .LEG_DTMF_MIN => ⟨0x3000, 0, 4095, 154, 1, 1, .u 16, .rw, .K, .num (777), .full⟩ -- R202
  | .LEG_IN_LEVEL => ⟨0x3000, 0, 4095, 160, 1, 1, .u 16, .ro, .V, .num (0), .full⟩ -- R202
  | .LEG_IN_PEAK => ⟨0x3000, 0, 4095, 161, 1, 1, .u 32, .ro, .V, .num (0), .full⟩ -- R202
  | .LEG_OUT_LEVEL => ⟨0x3000, 0, 4095, 162, 1, 1, .u 16, .ro, .V, .num (0), .full⟩ -- R202
  | .LEG_OUT_PEAK => ⟨0x3000, 0, 4095, 163, 1, 1, .u 32, .ro, .V, .num (0), .full⟩ -- R202
  | .LEG_ACTIVITY => ⟨0x3000, 0, 4095, 164, 1, 1, .u 16, .ro, .V, .num (0), .full⟩ -- R202
  | .LEG_AGC_GAIN => ⟨0x3000, 0, 4095, 165, 1, 1, .i 16, .ro, .V, .num (0), .full⟩ -- R202
  | .LEG_LIM_MIN_GAIN => ⟨0x3000, 0, 4095, 166, 1, 1, .u 16, .ro, .V, .num (32768), .full⟩ -- R202
  | .LEG_GATE_STATE => ⟨0x3000, 0, 4095, 167, 1, 1, .bool, .ro, .V, .num (0), .full⟩ -- R202
  | .LEG_IN_MIXED => ⟨0x3000, 0, 4095, 168, 1, 1, .bool, .ro, .V, .num (0), .full⟩ -- R202
  | .LEG_CONCEALED => ⟨0x3000, 0, 4095, 169, 1, 1, .u 32, .ro, .V, .num (0), .full⟩ -- R202
  | .LEG_OUT_CLIPS => ⟨0x3000, 0, 4095, 170, 1, 1, .u 32, .ro, .V, .num (0), .full⟩ -- R202
  | .LEG_PLAY_MOVES => ⟨0x3000, 0, 4095, 171, 1, 1, .u 32, .ro, .V, .num (0), .full⟩ -- R202
  | .LEG_EVENT => ⟨0x3000, 0, 4095, 172, 1, 1, .u 64, .ro, .V, .num (0), .full⟩ -- R202
  | .LEG_EVENT_LEVEL => ⟨0x3000, 0, 4095, 173, 1, 1, .u 8, .ro, .V, .num (0), .full⟩ -- R202
  | .LEG_EVENT_LOST => ⟨0x3000, 0, 4095, 174, 1, 1, .u 32, .ro, .V, .num (0), .full⟩ -- R202
  | .LEG_OPUS_FEC_USED => ⟨0x3000, 0, 4095, 175, 1, 1, .u 32, .ro, .V, .num (0), .full⟩ -- R202
  | .CONF_MIX_N => ⟨0x2800, 0, 1023, 16, 1, 1, .u 8, .rw, .K, .num (8), .between (1) (32)⟩ -- R203
  | .CONF_MIX_HYST => ⟨0x2800, 0, 1023, 17, 1, 1, .u 8, .rw, .K, .num (32), .full⟩ -- R203
  | .CONF_MIX_ENTER => ⟨0x2800, 0, 1023, 18, 1, 1, .u 8, .rw, .K, .num (3), .between (1) (60)⟩ -- R203
  | .CONF_MIX_HOLD => ⟨0x2800, 0, 1023, 19, 1, 1, .u 16, .rw, .K, .num (300), .between (0) (6000)⟩ -- R203
  | .CONF_MIX_RELEASE => ⟨0x2800, 0, 1023, 20, 1, 1, .u 16, .rw, .K, .num (120), .between (6) (6000)⟩ -- R203
  | .CONF_RAMP_STRIDES => ⟨0x2800, 0, 1023, 21, 1, 1, .u 8, .rw, .K, .num (6), .between (1) (60)⟩ -- R203
  | .CONF_MIX_COUNT => ⟨0x2800, 0, 1023, 22, 1, 1, .u 8, .ro, .V, .num (0), .full⟩ -- R203
  | .CONF_MIX_CHANGES => ⟨0x2800, 0, 1023, 23, 1, 1, .u 32, .ro, .V, .num (0), .full⟩ -- R203
  | .CONF_MIX_MEMBER => ⟨0x2800, 0, 1023, 32, 32, 1, .u 16, .ro, .V, .num (65535), .full⟩ -- R203
  | .VRX_CODEC => ⟨0x4000, 0, 4095, 1, 4, 1, .u 8, .rwi, .K, .num (0), .mask 0x3F⟩ -- R215
  | .DEC_CTRL => ⟨0x4000, 0, 4095, 16, 2, 16, .u 32, .rwi, .K, .num (112), .mask 0xF8FF1FF1⟩ -- R215
  | .DEC_MAX_WIDTH => ⟨0x4000, 0, 4095, 17, 2, 16, .u 16, .rwi, .K, .num (1280), .full⟩ -- R215
  | .DEC_MAX_HEIGHT => ⟨0x4000, 0, 4095, 18, 2, 16, .u 16, .rwi, .K, .num (720), .full⟩ -- R215
  | .DEC_MAX_FPS => ⟨0x4000, 0, 4095, 19, 2, 16, .u 8, .rwi, .K, .num (30), .atMost 60⟩ -- R215
  | .DEC_MAX_DPB => ⟨0x4000, 0, 4095, 20, 2, 16, .u 8, .rwi, .K, .num (4), .between (1) (16)⟩ -- R215
  | .DEC_MAX_KBPS => ⟨0x4000, 0, 4095, 21, 2, 16, .u 32, .rwi, .K, .num (4000), .between (64) (62500)⟩ -- R215
  | .DEC_STATE => ⟨0x4000, 0, 4095, 22, 2, 16, .u 8, .ro, .V, .num (0), .full⟩ -- R215
  | .DEC_SIZE => ⟨0x4000, 0, 4095, 23, 2, 16, .u 32, .ro, .V, .num (0), .full⟩ -- R215
  | .DEC_PICTURES => ⟨0x4000, 0, 4095, 24, 2, 16, .u 32, .ro, .V, .num (0), .full⟩ -- R215
  | .DEC_CONCEALED => ⟨0x4000, 0, 4095, 25, 2, 16, .u 32, .ro, .V, .num (0), .full⟩ -- R215
  | .DEC_ERRORS => ⟨0x4000, 0, 4095, 26, 2, 16, .u 32, .ro, .V, .num (0), .full⟩ -- R215
  | .DEC_MISSING_REFS => ⟨0x4000, 0, 4095, 27, 2, 16, .u 32, .ro, .V, .num (0), .full⟩ -- R215
  | .DEC_KF_REQUESTS => ⟨0x4000, 0, 4095, 28, 2, 16, .u 32, .ro, .V, .num (0), .full⟩ -- R215
  | .DEC_OUTSIDE => ⟨0x4000, 0, 4095, 29, 2, 16, .u 32, .ro, .V, .num (0), .full⟩ -- R215
  | .DEC_PAIR => ⟨0x4000, 0, 4095, 30, 2, 16, .u 8, .ro, .K, .num (255), .full⟩ -- R215
  | .DEC_RATE_DROPS => ⟨0x4000, 0, 4095, 31, 2, 16, .u 32, .ro, .V, .num (0), .full⟩ -- R215
  | .PAIR_STATE => ⟨0x6140, 0, 3, 64, 4, 1, .u 8, .ro, .L, .num (0), .full⟩ -- R230
  | .PAIR_ADMIT_PIXELS => ⟨0x6140, 0, 3, 68, 4, 1, .u 32, .ro, .L, .num (0), .full⟩ -- R230
  | .PAIR_CONTEXTS => ⟨0x6140, 0, 3, 72, 4, 1, .u 8, .ro, .L, .num (0), .full⟩ -- R230
  | .PAIR_ENT_STALL => ⟨0x6140, 0, 3, 76, 4, 1, .u 32, .ro, .L, .num (0), .full⟩ -- R230
  | .PAIR_PIX_UNDERRUN => ⟨0x6140, 0, 3, 80, 4, 1, .u 32, .ro, .L, .num (0), .full⟩ -- R230
  | .PAIR_ABANDONS => ⟨0x6140, 0, 3, 84, 4, 1, .u 32, .ro, .L, .num (0), .full⟩ -- R230
  | .ENC_CTRL => ⟨0x4000, 0, 4095, 48, 1, 1, .u 32, .rwi, .K, .num (2621440), .mask 0xFFFC0000⟩ -- R236
  | .ENC_SHARE => ⟨0x4000, 0, 4095, 49, 1, 1, .u 16, .rw, .K, .num (32768), .between (0) (32768)⟩ -- R236
  | .ENC_QP_MIN => ⟨0x4000, 0, 4095, 50, 1, 1, .u 8, .rw, .K, .num (18), .between (0) (51)⟩ -- R236
  | .ENC_QP_MAX => ⟨0x4000, 0, 4095, 51, 1, 1, .u 8, .rw, .K, .num (46), .between (0) (51)⟩ -- R236
  | .ENC_INTRA_FACTOR => ⟨0x4000, 0, 4095, 52, 1, 1, .u 8, .rw, .K, .num (64), .between (16) (240)⟩ -- R236
  | .ENC_IDR_LAPS => ⟨0x4000, 0, 4095, 53, 1, 1, .u 16, .rw, .K, .num (0), .between (0) (600)⟩ -- R236
  | .ENC_STATE => ⟨0x4000, 0, 4095, 54, 1, 1, .u 8, .ro, .V, .num (0), .full⟩ -- R236
  | .ENC_NOW => ⟨0x4000, 0, 4095, 55, 1, 1, .u 16, .ro, .V, .num (0), .full⟩ -- R236
  | .ENC_PAIR => ⟨0x4000, 0, 4095, 56, 1, 1, .u 8, .ro, .K, .num (255), .full⟩ -- R236
  | .ENC_CARRY => ⟨0x4000, 0, 4095, 57, 1, 1, .i 32, .ro, .V, .num (0), .full⟩ -- R236
  | .ENC_PICTURES => ⟨0x4000, 0, 4095, 58, 1, 1, .u 32, .ro, .V, .num (0), .full⟩ -- R236
  | .ENC_INTRA => ⟨0x4000, 0, 4095, 59, 1, 1, .u 32, .ro, .V, .num (0), .full⟩ -- R236
  | .ENC_COAST => ⟨0x4000, 0, 4095, 60, 1, 1, .u 32, .ro, .V, .num (0), .full⟩ -- R236
  | .ENC_SKIPS => ⟨0x4000, 0, 4095, 61, 1, 1, .u 32, .ro, .V, .num (0), .full⟩ -- R236
  | .ENC_LAST_BITS => ⟨0x4000, 0, 4095, 62, 1, 1, .u 32, .ro, .V, .num (0), .full⟩ -- R236
  | .ENC_LAST_QP => ⟨0x4000, 0, 4095, 63, 1, 1, .u 8, .ro, .V, .num (0), .full⟩ -- R236
  | .TILE_LAYER_WEIGHT => ⟨0x4000, 0, 4095, 64, 1, 1, .u 32, .rw, .K, .num (1708043), .mask 0xFFFFFF⟩ -- R236
  | .ENC_PT => ⟨0x4000, 0, 4095, 65, 1, 1, .u 8, .rwi, .K, .num (255), .orElse (0) (127) (255)⟩ -- R236
  | .ENC_SSRC => ⟨0x4000, 0, 4095, 66, 1, 1, .u 32, .rwi, .K, .num (0), .full⟩ -- R236
  | .ENC_PKT_MODE => ⟨0x4000, 0, 4095, 67, 1, 1, .u 8, .rwi, .K, .num (1), .oneOf [0, 1]⟩ -- R236
  | .TILE_CTRL => ⟨0x4000, 0, 4095, 80, 4, 1, .u 32, .rwi, .K, .num (38797312), .mask 0xFFFFFFFF⟩ -- R236
  | .TILE_LAYERS_NOW => ⟨0x4000, 0, 4095, 84, 4, 1, .u 8, .ro, .V, .num (0), .full⟩ -- R236
  | .TILE_ENTRIES => ⟨0x4000, 0, 4095, 88, 4, 1, .u 32, .ro, .V, .num (0), .full⟩ -- R236
  | .TILE_SKIPS => ⟨0x4000, 0, 4095, 92, 4, 1, .u 32, .ro, .V, .num (0), .full⟩ -- R236
  | .CODED_PIXELS_DEC => ⟨0x6000, 0, 0, 48, 1, 1, .u 64, .ro, .V, .num (0), .full⟩ -- R255
  | .CODED_PIXELS_ENC => ⟨0x6000, 0, 0, 49, 1, 1, .u 64, .ro, .V, .num (0), .full⟩ -- R255
  | .CODING_ENERGY => ⟨0x6000, 0, 0, 50, 1, 1, .u 64, .ro, .V, .num (0), .full⟩ -- R255
  | .LAYOUT_KIND => ⟨0x2C00, 0, 1023, 1, 1, 1, .u 8, .rwi, .K, .num (0), .oneOf [0, 1, 2]⟩ -- R261
  | .LAYOUT_CONF => ⟨0x2C00, 0, 1023, 2, 1, 1, .u 16, .rwi, .K, .num (65535), .orElse (0) (1023) (65535)⟩ -- R261
  | .LAYOUT_SPLICE => ⟨0x2C00, 0, 1023, 3, 1, 1, .u 32, .rwi, .K, .num (18874368), .mask 0xFFFFFFFF⟩ -- R261
  | .LAYOUT_BG => ⟨0x2C00, 0, 1023, 4, 1, 1, .u 64, .rws, .K, .num (34368129024), .mask 0xFFFFFFFFF⟩ -- R261
  | .LAYOUT_COLOUR => ⟨0x2C00, 0, 1023, 5, 1, 1, .u 8, .rws, .K, .num (0), .mask 0xF⟩ -- R261
  | .LAYOUT_PAIR => ⟨0x2C00, 0, 1023, 6, 1, 1, .u 8, .ro, .K, .num (255), .full⟩ -- R261
  | .LAYOUT_VIEWERS => ⟨0x2C00, 0, 1023, 7, 1, 1, .u 16, .ro, .V, .num (0), .full⟩ -- R261
  | .COMPOSE_MISSES => ⟨0x2C00, 0, 1023, 8, 1, 1, .u 32, .ro, .V, .num (0), .full⟩ -- R261
  | .IND_CORRECTED => ⟨0x2C00, 0, 1023, 9, 1, 1, .u 32, .ro, .V, .num (0), .full⟩ -- R261
  | .IND_BLANKED => ⟨0x2C00, 0, 1023, 10, 1, 1, .u 32, .ro, .V, .num (0), .full⟩ -- R261
  | .SLOT_SRC => ⟨0x2C00, 0, 1023, 16, 16, 1, .u 16, .rws, .K, .num (65535), .special⟩ -- R261
  | .LAYOUT_IMAGE => ⟨0x2C00, 0, 1023, 192, 16, 1, .domain, .rws, .K, .bytes [], .full⟩ -- R261
  | .LAYER_SRC => ⟨0x2C00, 0, 1023, 64, 16, 8, .u 32, .rws, .K, .num (0), .special⟩ -- R261
  | .LAYER_CROP => ⟨0x2C00, 0, 1023, 65, 16, 8, .u 64, .rws, .K, .num (268439552), .special⟩ -- R261
  | .LAYER_DEST => ⟨0x2C00, 0, 1023, 66, 16, 8, .u 64, .rws, .K, .num (0), .special⟩ -- R261
  | .LAYER_ALPHA => ⟨0x2C00, 0, 1023, 67, 16, 8, .u 16, .rws, .K, .num (1024), .between (0) (1024)⟩ -- R261
  | .LAYER_SCALER => ⟨0x2C00, 0, 1023, 68, 16, 8, .u 8, .rws, .K, .num (0), .between (0) (7)⟩ -- R261
  | .LAYER_COLOUR => ⟨0x2C00, 0, 1023, 69, 16, 8, .u 64, .rws, .K, .num (34368129024), .mask 0xFFFFFFFFF⟩ -- R261
  | .LAYER_IND => ⟨0x2C00, 0, 1023, 70, 16, 8, .u 32, .rws, .K, .num (0), .special⟩ -- R261
  | .LAYER_STATUS => ⟨0x2C00, 0, 1023, 71, 16, 8, .u 32, .ro, .V, .num (0), .full⟩ -- R261
  | .VIEW_LAYOUT => ⟨0x4000, 0, 4095, 96, 1, 1, .u 16, .rwi, .K, .num (65535), .orElse (0) (1023) (65535)⟩ -- R264
  | .VIEW_CTRL => ⟨0x4000, 0, 4095, 97, 1, 1, .u 32, .rwi, .K, .num (536870912), .mask 0xF0000000⟩ -- R264
  | .VIEW_PT => ⟨0x4000, 0, 4095, 98, 1, 1, .u 8, .rwi, .K, .num (0), .between (0) (127)⟩ -- R264
  | .VIEW_SSRC => ⟨0x4000, 0, 4095, 99, 1, 1, .u 32, .rwi, .K, .num (0), .full⟩ -- R264
  | .VIEW_TOP_NOW => ⟨0x4000, 0, 4095, 100, 1, 1, .u 8, .ro, .V, .num (0), .full⟩ -- R264
  | .VIEW_ENTRY_WAIT => ⟨0x4000, 0, 4095, 101, 1, 1, .u 32, .ro, .V, .num (0), .full⟩ -- R264
  | .VIEW_DIVERGED => ⟨0x4000, 0, 4095, 102, 1, 1, .u 32, .ro, .V, .num (0), .full⟩ -- R264
  | .VIEW_PICTURES => ⟨0x4000, 0, 4095, 103, 1, 1, .u 32, .ro, .V, .num (0), .full⟩ -- R264
  | .VIEW_SLOT => ⟨0x4000, 0, 4095, 112, 16, 1, .u 16, .rw, .K, .num (65534), .special⟩ -- R264
  | .VIEW_SLOT_NOW => ⟨0x4000, 0, 4095, 128, 16, 1, .u 16, .ro, .V, .num (65535), .full⟩ -- R264
  | .SCALER_SET => ⟨0x2020, 0, 7, 0, 1, 1, .domain, .rws, .K, .bytes [], .full⟩ -- R268
  | .LUT_PRE => ⟨0x2028, 0, 3, 1, 1, 1, .domain, .rws, .K, .bytes [], .full⟩ -- R268
  | .LUT_POST => ⟨0x2028, 0, 3, 2, 1, 1, .domain, .rws, .K, .bytes [], .full⟩ -- R268
  | .COMPOSER_STATE => ⟨0x6140, 0, 3, 96, 1, 1, .u 8, .ro, .L, .num (0), .full⟩ -- R289
  | .COMPOSER_ADMIT_PIXELS => ⟨0x6140, 0, 3, 97, 1, 1, .u 32, .ro, .L, .num (0), .full⟩ -- R289
  | .COMPOSER_MISSES => ⟨0x6140, 0, 3, 98, 1, 1, .u 32, .ro, .L, .num (0), .full⟩ -- R289
  | .CHECK_FAILS => ⟨0x6140, 0, 3, 99, 1, 1, .u 32, .ro, .L, .num (0), .full⟩ -- R289
  | .FWD_SRC_CTRL => ⟨0x4000, 0, 4095, 144, 1, 1, .u 32, .rwi, .K, .num (262144), .mask 0xC0FC0000⟩ -- R292
  | .FWD_RID_EXT_ID => ⟨0x4000, 0, 4095, 145, 1, 1, .u 8, .rwi, .K, .num (0), .between (0) (14)⟩ -- R292
  | .FWD_RX_DD_EXT_ID => ⟨0x4000, 0, 4095, 146, 1, 1, .u 8, .rwi, .K, .num (0), .full⟩ -- R292
  | .FWD_RID => ⟨0x4000, 0, 4095, 147, 3, 1, .upTo 1 16, .rwi, .K, .bytes [], .full⟩ -- R292
  | .FWD_KF_POLICY => ⟨0x4000, 0, 4095, 150, 1, 1, .u 8, .rw, .K, .num (1), .oneOf [0, 1, 2, 3]⟩ -- R292
  | .FWD_KF_MIN_GAP => ⟨0x4000, 0, 4095, 151, 1, 1, .u 16, .rw, .K, .num (30), .between (6) (600)⟩ -- R292
  | .FWD_KF_SENT => ⟨0x4000, 0, 4095, 152, 1, 1, .u 32, .ro, .V, .num (0), .full⟩ -- R292
  | .FWD_UNLAYERED => ⟨0x4000, 0, 4095, 153, 1, 1, .u 32, .ro, .V, .num (0), .full⟩ -- R292
  | .FWD_LAYER_RATE => ⟨0x4000, 0, 4095, 160, 9, 1, .u 32, .ro, .V, .num (0), .full⟩ -- R292
  | .FWD_TX_PT => ⟨0x4000, 0, 4095, 177, 3, 1, .u 8, .rwi, .K, .num (255), .orElse (0) (127) (255)⟩ -- R294
  | .VTX_RTX_PT => ⟨0x4000, 0, 4095, 180, 1, 1, .u 8, .rwi, .K, .num (255), .orElse (0) (127) (255)⟩ -- R294
  | .VTX_FEC_PT => ⟨0x4000, 0, 4095, 181, 1, 1, .u 8, .rwi, .K, .num (255), .orElse (0) (127) (255)⟩ -- R294
  | .FWD_TX_DD_EXT_ID => ⟨0x4000, 0, 4095, 182, 1, 1, .u 8, .rwi, .K, .num (0), .between (0) (14)⟩ -- R294
  | .FWD_SWITCHES => ⟨0x4000, 0, 4095, 183, 1, 1, .u 32, .ro, .V, .num (0), .full⟩ -- R294
  | .FWD_PADDING => ⟨0x4000, 0, 4095, 184, 1, 1, .u 32, .ro, .V, .num (0), .full⟩ -- R294
  | .FWD_STALE => ⟨0x4000, 0, 4095, 185, 1, 1, .u 32, .ro, .V, .num (0), .full⟩ -- R294
  | .FWD_SLOT => ⟨0x4000, 0, 4095, 192, 16, 1, .u 32, .rw, .K, .num (4294910464), .special⟩ -- R294
  | .FWD_OUT_SSRC => ⟨0x4000, 0, 4095, 208, 16, 1, .u 32, .rwi, .K, .num (0), .full⟩ -- R294
  | .FWD_NOW => ⟨0x4000, 0, 4095, 224, 16, 1, .u 32, .ro, .V, .num (4294901760), .full⟩ -- R294
  | .BLK_RESERVE_CELL => ⟨0x6100, 0, 63, 32, 1, 1, .u 16, .ro, .L, .num 15, .full⟩ -- R332
  | .BLK_HOME_LOAD => ⟨0x6100, 0, 63, 33, 1, 1, .u 32, .ro, .L, .num (0), .full⟩ -- R332
  | .BLK_PEAK_AUDIO => ⟨0x6100, 0, 63, 34, 1, 1, .u 32, .ro, .L, .num (0), .full⟩ -- R332
  | .BLK_MIGRATIONS => ⟨0x6100, 0, 63, 35, 1, 1, .u 32, .ro, .L, .num (0), .full⟩ -- R332
  | .BLK_REORDER_HELD => ⟨0x6100, 0, 63, 36, 1, 1, .u 32, .ro, .L, .num (0), .full⟩ -- R332
  | .BLK_PRIO_RESORTS => ⟨0x6100, 0, 63, 37, 1, 1, .u 32, .ro, .L, .num (0), .full⟩ -- R332
  | .BLK_SWEEPS => ⟨0x6100, 0, 63, 38, 1, 1, .u 32, .ro, .L, .num (0), .full⟩ -- R332
  | .RGN_SWEEPS => ⟨0x6140, 0, 3, 112, 1, 1, .u 32, .ro, .L, .num (0), .full⟩ -- R332
  | .REFRESH_STOPS => ⟨0x6000, 0, 0, 64, 4, 1, .u 32, .ro, .V, .num (0), .full⟩ -- R332
  | .CELL_STATE => ⟨0x6200, 0, 1023, 1, 1, 1, .u 8, .ro, .L, .num (0), .full⟩ -- R333
  | .CELL_HOME_LOAD => ⟨0x6200, 0, 1023, 2, 1, 1, .u 32, .ro, .L, .num (0), .full⟩ -- R333
  | .CELL_BUSY => ⟨0x6200, 0, 1023, 3, 1, 1, .u 32, .ro, .L, .num (0), .full⟩ -- R333
  | .CELL_ITEMS => ⟨0x6200, 0, 1023, 4, 1, 1, .u 32, .ro, .L, .num (0), .full⟩ -- R333
  | .CELL_AFFINITY_HITS => ⟨0x6200, 0, 1023, 5, 1, 1, .u 32, .ro, .L, .num (0), .full⟩ -- R333
  | .CELL_GATED => ⟨0x6200, 0, 1023, 6, 1, 1, .u 32, .ro, .L, .num (0), .full⟩ -- R333
  | .CELL_LOOP_MISSES => ⟨0x6200, 0, 1023, 7, 1, 1, .u 32, .ro, .L, .num (0), .full⟩ -- R333
  | .DRAM_RANKS => ⟨0x2210, 0, 0, 1, 1, 1, .u 8, .ro, .P, .num 0, .full⟩ -- R355
  | .DRAM_PAGE_POLICY => ⟨0x2210, 0, 0, 2, 1, 1, .u 8, .rws, .K, .num (0), .oneOf [0, 1, 2]⟩ -- R355
  | .DRAM_PAGE_IDLE => ⟨0x2210, 0, 0, 3, 1, 1, .u 16, .rws, .K, .num (64), .between (16) (1024)⟩ -- R355
  | .DRAM_PANIC_COMPOSER => ⟨0x2210, 0, 0, 4, 1, 1, .u 8, .rws, .K, .num (64), .between (16) (128)⟩ -- R355
  | .DRAM_PANIC_PAIR => ⟨0x2210, 0, 0, 5, 1, 1, .u 8, .rws, .K, .num (64), .between (16) (128)⟩ -- R355
  | .DRAM_PANIC_EGRESS => ⟨0x2210, 0, 0, 6, 1, 1, .u 8, .rws, .K, .num (32), .between (16) (128)⟩ -- R355
  | .DRAM_NBR_SHIFT => ⟨0x2210, 0, 0, 7, 1, 1, .u 8, .rws, .K, .num (11), .between (6) (16)⟩ -- R355
  | .DRAM_NBR_DISTANCE => ⟨0x2210, 0, 0, 8, 1, 1, .u 8, .rws, .K, .num (1), .between (1) (2)⟩ -- R355
  | .DRAM_REFRESH_MODE => ⟨0x2210, 0, 0, 9, 1, 1, .u 8, .rws, .K, .num (0), .oneOf [0, 1, 2]⟩ -- R355
  | .DRAM_TEMP_OFFSET => ⟨0x2210, 0, 0, 10, 1, 1, .i 8, .rws, .K, .num (0), .between (-40) (40)⟩ -- R355
  | .DRAM_RETRAIN_EVERY => ⟨0x2210, 0, 0, 11, 1, 1, .u 8, .rws, .K, .num (16), .between (4) (64)⟩ -- R355
  | .DRAM_MARK_THRESHOLD => ⟨0x2210, 0, 0, 12, 1, 1, .u 16, .rws, .K, .num (16), .between (1) (1024)⟩ -- R355
  | .DRAM_UE_LIMIT => ⟨0x2210, 0, 0, 13, 1, 1, .u 16, .rws, .K, .num (8), .between (1) (1024)⟩ -- R355
  | .DRAM_REMIRROR_RATE => ⟨0x2210, 0, 0, 14, 1, 1, .u 16, .rws, .K, .num (2000), .between (100) (8000)⟩ -- R355
  | .DRAM_SCRUB_LAPS => ⟨0x2210, 0, 0, 15, 1, 1, .u 32, .rws, .K, .num (86400), .between (3600) (604800)⟩ -- R355
  | .DRAM_TEMP_EST => ⟨0x2210, 0, 0, 16, 1, 1, .i 8, .ro, .V, .num (0), .full⟩ -- R355
  | .DRAM_REMIRROR_LEFT => ⟨0x2210, 0, 0, 17, 1, 1, .u 64, .ro, .V, .num (0), .full⟩ -- R355
  | .DRAM_INIT_LEFT => ⟨0x2210, 0, 0, 18, 1, 1, .u 64, .ro, .V, .num (0), .full⟩ -- R355
  | .CH_STATE => ⟨0x2220, 0, 3, 1, 1, 1, .u 8, .ro, .K, .num (0), .full⟩ -- R355
  | .CH_CMD => ⟨0x2220, 0, 3, 2, 1, 1, .u 8, .wo, .V, .num 0, .oneOf [1, 2]⟩ -- R355
  | .CH_MARKED => ⟨0x2220, 0, 3, 3, 1, 1, .u 16, .ro, .K, .num (0), .full⟩ -- R355
  | .CH_CORRECTED => ⟨0x2220, 0, 3, 4, 1, 1, .u 32, .ro, .V, .num (0), .full⟩ -- R355
  | .CH_UNCORRECTED => ⟨0x2220, 0, 3, 5, 1, 1, .u 32, .ro, .V, .num (0), .full⟩ -- R355
  | .CH_MIRROR_READS => ⟨0x2220, 0, 3, 6, 1, 1, .u 32, .ro, .V, .num (0), .full⟩ -- R355
  | .CH_NBR_REFRESHES => ⟨0x2220, 0, 3, 7, 1, 1, .u 32, .ro, .V, .num (0), .full⟩ -- R355
  | .CH_PANIC_CYCLES => ⟨0x2220, 0, 3, 8, 1, 1, .u 32, .ro, .V, .num (0), .full⟩ -- R355
  | .CH_PAGE_HITS => ⟨0x2220, 0, 3, 9, 1, 1, .u 32, .ro, .V, .num (0), .full⟩ -- R355
  | .CH_PAGE_CONFLICTS => ⟨0x2220, 0, 3, 10, 1, 1, .u 32, .ro, .V, .num (0), .full⟩ -- R355
  | .CH_RETRAIN_STEPS => ⟨0x2220, 0, 3, 11, 1, 1, .u 32, .ro, .V, .num (0), .full⟩ -- R355
  | .CH_CA_PARITY => ⟨0x2220, 0, 3, 12, 1, 1, .u 32, .ro, .V, .num (0), .full⟩ -- R355
  | .CH_TRAIN_RESULT => ⟨0x2220, 0, 3, 13, 1, 1, .u 32, .ro, .K, .num (0), .full⟩ -- R355
  | .CH_BYTES => ⟨0x2220, 0, 3, 14, 1, 1, .u 64, .ro, .V, .num (0), .full⟩ -- R355
  | .CH_RETRIED => ⟨0x2220, 0, 3, 15, 1, 1, .u 32, .ro, .V, .num (0), .full⟩ -- R355
  | .MARGIN_CMD => ⟨0x7010, 0, 3, 1, 1, 1, .u 8, .wo, .V, .num 0, .special⟩ -- R356
  | .MARGIN_STATE => ⟨0x7010, 0, 3, 2, 1, 1, .u 8, .ro, .V, .num (0), .full⟩ -- R356
  | .MARGIN_READ => ⟨0x7010, 0, 3, 16, 10, 1, .u 16, .ro, .V, .num (0), .full⟩ -- R356
  | .MARGIN_WRITE => ⟨0x7010, 0, 3, 32, 10, 1, .u 16, .ro, .V, .num (0), .full⟩ -- R356
  | .MARGIN_VREF => ⟨0x7010, 0, 3, 48, 10, 1, .u 16, .ro, .V, .num (0), .full⟩ -- R356
  | .POOL_SHARE => ⟨0x2200, 0, 5, 1, 1, 1, .u 8, .ro, .P, .num 0, .full⟩ -- R372
  | .POOL_BUFFERS => ⟨0x2200, 0, 5, 2, 1, 1, .u 32, .ro, .K, .num (0), .full⟩ -- R372
  | .POOL_FREE => ⟨0x2200, 0, 5, 3, 1, 1, .u 32, .ro, .V, .num (0), .full⟩ -- R372
  | .POOL_LOW_WATER => ⟨0x2200, 0, 5, 4, 1, 1, .u 32, .ro, .V, .num (0), .full⟩ -- R372
  | .POOL_RESERVE => ⟨0x2200, 0, 5, 5, 1, 1, .u 8, .rws, .K, .num 0, .between (0) (64)⟩ -- R372
  | .POOL_FALLBACKS => ⟨0x2200, 0, 5, 6, 1, 1, .u 32, .ro, .V, .num (0), .full⟩ -- R372
  | .POOL_EXHAUSTED => ⟨0x2200, 0, 5, 7, 1, 1, .u 32, .ro, .V, .num (0), .full⟩ -- R372
  | .POOL_LOST => ⟨0x2200, 0, 5, 8, 1, 1, .u 32, .ro, .K, .num (0), .full⟩ -- R372
  | .POOL_PEAK_REFS => ⟨0x2200, 0, 5, 9, 1, 1, .u 16, .ro, .V, .num (0), .full⟩ -- R372
  | .POOL_DOUBLE_FREES => ⟨0x2206, 0, 0, 1, 1, 1, .u 32, .ro, .V, .num (0), .full⟩ -- R372
  | .POOL_STALE_FREES => ⟨0x2206, 0, 0, 2, 1, 1, .u 32, .ro, .V, .num (0), .full⟩ -- R372
  | .POOL_FOREIGN_FREES => ⟨0x2206, 0, 0, 3, 1, 1, .u 32, .ro, .V, .num (0), .full⟩ -- R372
  | .POOL_INVALID => ⟨0x2206, 0, 0, 4, 1, 1, .u 32, .ro, .V, .num (0), .full⟩ -- R372
  | .POOL_REF_LIMIT => ⟨0x2206, 0, 0, 5, 1, 1, .u 32, .ro, .V, .num (0), .full⟩ -- R372
  | .POOL_LIST_REBUILDS => ⟨0x2206, 0, 0, 6, 1, 1, .u 32, .ro, .V, .num (0), .full⟩ -- R372
  | .POOL_RESET_FREED => ⟨0x2206, 0, 0, 7, 1, 1, .u 32, .ro, .V, .num (0), .full⟩ -- R372
  | .POOL_REMIRROR_WAIT => ⟨0x2206, 0, 0, 8, 1, 1, .u 32, .ro, .V, .num (0), .full⟩ -- R372
  | .DOM_QUOTA => ⟨0x2240, 0, 15, 1, 1, 1, .u 32, .rw, .K, .num (4294967295), .full⟩ -- R372
  | .DOM_USE => ⟨0x2240, 0, 15, 2, 1, 1, .u 32, .ro, .K, .num (0), .full⟩ -- R372
  | .DOM_QUOTA_FAILS => ⟨0x2240, 0, 15, 3, 1, 1, .u 32, .ro, .V, .num (0), .full⟩ -- R372
  | .LOG_NEXT_SEQ => ⟨0x6900, 0, 0, 1, 1, 1, .u 32, .ro, .K, .num (0), .full⟩ -- R395
  | .LOG_COUNT => ⟨0x6900, 0, 0, 2, 1, 1, .u 16, .ro, .K, .num (0), .full⟩ -- R395
  | .LOG_OVERWRITTEN => ⟨0x6900, 0, 0, 3, 1, 1, .u 32, .ro, .K, .num (0), .full⟩ -- R395
  | .LOG_COALESCED => ⟨0x6900, 0, 0, 4, 1, 1, .u 32, .ro, .K, .num (0), .full⟩ -- R395
  | .LOG_CLEAR => ⟨0x6900, 0, 0, 5, 1, 1, .u 8, .wo, .V, .num 0, .oneOf [1]⟩ -- R395
  | .FAULT_RETIRE_COUNT => ⟨0x6900, 0, 0, 16, 1, 1, .u 8, .rws, .K, .num (3), .between (1) (16)⟩ -- R395
  | .FAULT_RETIRE_LAPS => ⟨0x6900, 0, 0, 17, 1, 1, .u 16, .rws, .K, .num (3600), .between (60) (65535)⟩ -- R395
  | .HEALTHY_MASK => ⟨0x6900, 0, 0, 18, 1, 1, .u 16, .rws, .K, .num (8191), .mask 0x1FFF⟩ -- R395
  | .HEALTHY_CAUSE => ⟨0x6900, 0, 0, 19, 1, 1, .u 16, .ro, .V, .num (1), .full⟩ -- R395
  | .RERUNS_LOCAL => ⟨0x6900, 0, 0, 32, 1, 1, .u 32, .ro, .V, .num (0), .full⟩ -- R395
  | .RERUNS_REMOTE => ⟨0x6900, 0, 0, 33, 1, 1, .u 32, .ro, .V, .num (0), .full⟩ -- R395
  | .RERUNS_CONCEALED => ⟨0x6900, 0, 0, 34, 1, 1, .u 32, .ro, .V, .num (0), .full⟩ -- R395
  | .RETIRED_CELLS => ⟨0x6900, 0, 0, 35, 1, 1, .u 16, .ro, .K, .num (0), .full⟩ -- R395
  | .RETIRED_PAIRS => ⟨0x6900, 0, 0, 36, 1, 1, .u 16, .ro, .K, .num (0), .full⟩ -- R395
  | .RETIRED_BLOCKS => ⟨0x6900, 0, 0, 37, 1, 1, .u 64, .ro, .K, .num (0), .full⟩ -- R395
  | .RETIRED_COMPOSERS => ⟨0x6900, 0, 0, 38, 1, 1, .u 8, .ro, .K, .num (0), .full⟩ -- R395
  | .FAILED_RAILS => ⟨0x6900, 0, 0, 39, 1, 1, .u 8, .ro, .K, .num (0), .full⟩ -- R395
  | .LOG_RECORD => ⟨0x6910, 0, 63, 1, 64, 1, .octets [32], .ro, .K, .bytes [], .full⟩ -- R395
  | .PD_KIND => ⟨0x2100, 0, 49, 1, 1, 1, .u 8, .ro, .P, .num 0, .full⟩ -- R415
  | .PD_MODE => ⟨0x2100, 0, 49, 2, 1, 1, .u 8, .rw, .K, .num (0), .oneOf [0, 1]⟩ -- R415
  | .PD_STATE => ⟨0x2100, 0, 49, 3, 1, 1, .u 8, .ro, .V, .num (0), .full⟩ -- R415
  | .PD_POWER => ⟨0x2100, 0, 49, 4, 1, 1, .u 32, .ro, .V, .num (0), .full⟩ -- R415
  | .PD_ENERGY => ⟨0x2100, 0, 49, 5, 1, 1, .u 64, .ro, .V, .num (0), .full⟩ -- R415
  | .PD_WAKES => ⟨0x2100, 0, 49, 6, 1, 1, .u 32, .ro, .V, .num (0), .full⟩ -- R415
  | .PD_STEPS => ⟨0x2100, 0, 49, 7, 1, 1, .u 8, .ro, .V, .num (0), .full⟩ -- R415
  | .GOV_BUDGET => ⟨0x2140, 0, 0, 1, 1, 1, .u 32, .rw, .K, .num (38000), .between (5000) (38000)⟩ -- R416
  | .GOV_HARD => ⟨0x2140, 0, 0, 2, 1, 1, .u 32, .rw, .K, .num (38000), .between (5000) (38000)⟩ -- R416
  | .GOV_ADMIT_MARGIN => ⟨0x2140, 0, 0, 3, 1, 1, .u 32, .rw, .K, .num (1000), .between (0) (10000)⟩ -- R416
  | .GOV_HYST => ⟨0x2140, 0, 0, 4, 1, 1, .u 32, .rw, .K, .num (2000), .between (200) (10000)⟩ -- R416
  | .GOV_RESTORE_STRIDES => ⟨0x2140, 0, 0, 5, 1, 1, .u 16, .rw, .K, .num (600), .between (60) (6000)⟩ -- R416
  | .GOV_STEP => ⟨0x2140, 0, 0, 6, 1, 1, .u 8, .ro, .K, .num (0), .full⟩ -- R416
  | .GOV_THROTTLE => ⟨0x2140, 0, 0, 7, 1, 1, .u 8, .ro, .V, .num (0), .full⟩ -- R416
  | .GOV_P60 => ⟨0x2140, 0, 0, 8, 1, 1, .u 32, .ro, .V, .num (0), .full⟩ -- R416
  | .GOV_P1 => ⟨0x2140, 0, 0, 9, 1, 1, .u 32, .ro, .V, .num (0), .full⟩ -- R416
  | .GOV_EST => ⟨0x2140, 0, 0, 10, 1, 1, .u 32, .ro, .V, .num (2600), .full⟩ -- R416
  | .GOV_LIMIT => ⟨0x2140, 0, 0, 11, 1, 1, .u 32, .ro, .V, .num (38000), .full⟩ -- R416
  | .GOV_LIMIT_SRC => ⟨0x2140, 0, 0, 12, 1, 1, .u 8, .ro, .V, .num (1), .full⟩ -- R416
  | .GOV_TJ => ⟨0x2140, 0, 0, 13, 1, 1, .i 8, .ro, .V, .num (0), .full⟩ -- R416
  | .GOV_TJ_THROTTLE => ⟨0x2140, 0, 0, 14, 1, 1, .i 8, .rw, .K, .num (105), .between (85) (110)⟩ -- R416
  | .GOV_CMD => ⟨0x2140, 0, 0, 15, 1, 1, .u 8, .wo, .V, .num 0, .oneOf [1, 2]⟩ -- R416
  | .GOV_TRIM => ⟨0x2140, 0, 0, 16, 1, 1, .bool, .rws, .K, .num (1), .full⟩ -- R416
  | .GOV_TRIM_IDLE => ⟨0x2140, 0, 0, 17, 1, 1, .u 16, .rws, .K, .num (60), .between (6) (6000)⟩ -- R416
  | .GOV_DVFS_MODE => ⟨0x2140, 0, 0, 18, 1, 1, .u 8, .rws, .K, .num (0), .oneOf [0, 1]⟩ -- R416
  | .GOV_THROTTLE_GAIN => ⟨0x2140, 0, 0, 19, 1, 1, .u 32, .ro, .V, .num (0), .full⟩ -- R416
  | .GOV_HARD_EVENTS => ⟨0x2140, 0, 0, 20, 1, 1, .u 32, .ro, .V, .num (0), .full⟩ -- R416
  | .GOV_STEP_CHANGES => ⟨0x2140, 0, 0, 21, 1, 1, .u 32, .ro, .V, .num (0), .full⟩ -- R416
  | .GOV_SENSE_FAIL => ⟨0x2140, 0, 0, 22, 1, 1, .u 8, .ro, .V, .num (0), .full⟩ -- R416
  | .AIN_VALUE => ⟨0x2140, 0, 0, 32, 4, 1, .i 32, .ro, .V, .num (0), .full⟩ -- R416
  | .AIN_GAIN => ⟨0x2140, 0, 0, 36, 4, 1, .u 32, .rws, .K, .num (65536), .full⟩ -- R416
  | .AIN_OFFSET => ⟨0x2140, 0, 0, 40, 4, 1, .i 32, .rws, .K, .num (0), .full⟩ -- R416
  | .GOV_FEED_IMAX => ⟨0x2140, 0, 0, 48, 1, 1, .u 32, .rw, .K, .num (0), .full⟩ -- R416
  | .GOV_FEED_EFF => ⟨0x2140, 0, 0, 49, 1, 1, .u 16, .rw, .K, .num (58982), .full⟩ -- R416
  | .GOV_CARD_OTHER => ⟨0x2140, 0, 0, 50, 1, 1, .u 32, .rw, .K, .num (0), .full⟩ -- R416
  | .GOV_FEED_SHARE => ⟨0x2140, 0, 0, 51, 1, 1, .u 32, .ro, .V, .num (38000), .full⟩ -- R416
  | .GOV_K => ⟨0x2140, 0, 0, 56, 5, 1, .u 32, .ro, .P, .num 0, .full⟩ -- R416
  | .LEGS_SUSPENDED => ⟨0x6000, 0, 0, 39, 1, 1, .u 16, .ro, .V, .num (0), .full⟩ -- R437
  | .RESET_CMD => ⟨0x2180, 0, 0, 1, 1, 1, .u 8, .wo, .V, .num 0, .special⟩ -- R441
  | .RESET_EPOCH => ⟨0x2180, 0, 0, 2, 1, 1, .u 32, .ro, .K, .num (1), .full⟩ -- R441
  | .REVERTED_MASK => ⟨0x2180, 0, 0, 3, 1, 1, .u 8, .rw, .K, .num (7), .mask 0xF⟩ -- R441
  | .LAST_RESET => ⟨0x2180, 0, 0, 4, 1, 1, .u 32, .ro, .K, .num (16777216), .full⟩ -- R441
  | .BOOT_NONCE => ⟨0x2180, 0, 0, 5, 1, 1, .u 32, .ro, .K, .num 0, .full⟩ -- R441
  | .RELEASE_GAP => ⟨0x2180, 0, 0, 6, 1, 1, .u 16, .ro, .P, .num 256, .full⟩ -- R441
  | .BRINGUP_MS => ⟨0x2180, 0, 0, 8, 4, 1, .u 16, .ro, .K, .num (65535), .full⟩ -- R441
  | .WARM_RESUME => ⟨0x2180, 0, 0, 12, 1, 1, .u 8, .ro, .K, .num (0), .full⟩ -- R441
  | .OPT_COPY => ⟨0x2181, 0, 0, 1, 1, 1, .u 8, .ro, .K, .num (255), .full⟩ -- R441
  | .OPT_SEQUENCE => ⟨0x2181, 0, 0, 2, 1, 1, .u 32, .ro, .P, .num 0, .full⟩ -- R441
  | .OPT_STATUS => ⟨0x2181, 0, 0, 3, 1, 1, .u 32, .ro, .K, .num (0), .full⟩ -- R441
  | .OPT_IMAGE => ⟨0x2181, 0, 0, 4, 1, 1, .domain, .wo, .V, .bytes [], .full⟩ -- R441
  | .OPT_WRITE_STATE => ⟨0x2181, 0, 0, 5, 1, 1, .u 8, .ro, .V, .num (0), .full⟩ -- R441
  | .OPT_ENTRIES_SKIPPED => ⟨0x2181, 0, 0, 6, 1, 1, .u 16, .ro, .K, .num (0), .full⟩ -- R441
  | .XSPI_MODE => ⟨0x2181, 0, 0, 7, 1, 1, .u 8, .ro, .K, .num (0), .full⟩ -- R441
  | .OPT_DIGEST => ⟨0x2181, 0, 0, 8, 1, 1, .octets [32], .ro, .P, .bytes (List.replicate 32 0), .full⟩ -- R441
  | .SLOT_WRAP => ⟨0x21C8, 1, 7, 1, 1, 1, .octets [24, 40], .wo, .K, .bytes [], .full⟩ -- R448
  | .SLOT_PARENT => ⟨0x21C8, 1, 7, 2, 1, 1, .u 8, .rwi, .K, .num (0), .special⟩ -- R448
  | .SLOT_USE => ⟨0x21C8, 1, 7, 3, 1, 1, .u 8, .rwi, .K, .num (1), .mask 0x7⟩ -- R448
  | .SLOT_STATE => ⟨0x21C8, 1, 7, 4, 1, 1, .u 8, .ro, .K, .num (0), .full⟩ -- R448
  | .SLOT_KCV => ⟨0x21C8, 1, 7, 5, 1, 1, .u 32, .ro, .K, .num (0), .full⟩ -- R448
  | .LEG_TX_KEY => ⟨0x5000, 0, 4095, 1, 1, 1, .octets [40, 56], .wo, .K, .bytes [], .full⟩ -- R449
  | .LEG_RX_KEY => ⟨0x5000, 0, 4095, 2, 1, 1, .octets [40, 56], .wo, .K, .bytes [], .full⟩ -- R449
  | .LEG_KEK => ⟨0x5000, 0, 4095, 3, 1, 1, .u 8, .rwi, .K, .num (0), .between (0) (7)⟩ -- R449
  | .LEG_KEY_STATE => ⟨0x5000, 0, 4095, 4, 1, 1, .u 16, .ro, .K, .num (0), .full⟩ -- R449
  | .LEG_KEY_LOADS => ⟨0x5000, 0, 4095, 5, 1, 1, .u 32, .ro, .V, .num (0), .full⟩ -- R449
  | .SC_LOCK => ⟨0x21C0, 0, 0, 1, 1, 1, .u 8, .rw, .V, .num (0), .oneOf [0, 1]⟩ -- R453
  | .SC_LOCK_OWNER => ⟨0x21C0, 0, 0, 2, 1, 1, .u 32, .ro, .V, .num (0), .full⟩ -- R453
  | .SC_LEASE_LEFT => ⟨0x21C0, 0, 0, 3, 1, 1, .u 16, .ro, .V, .num (0), .full⟩ -- R453
  | .SC_MODE => ⟨0x21C0, 0, 0, 4, 1, 1, .u 8, .rw, .V, .num (0), .oneOf [1, 2, 3, 4, 5, 6, 7]⟩ -- R453
  | .SC_KEY_SLOT => ⟨0x21C0, 0, 0, 5, 1, 1, .u 8, .rw, .V, .num (1), .special⟩ -- R453
  | .SC_PAD => ⟨0x21C0, 0, 0, 6, 1, 1, .bool, .rw, .V, .num (1), .full⟩ -- R453
  | .SC_IV => ⟨0x21C0, 0, 0, 7, 1, 1, .octets [16], .rw, .V, .bytes (List.replicate 16 0), .full⟩ -- R453
  | .SC_AAD => ⟨0x21C0, 0, 0, 8, 1, 1, .upTo 0 1024, .rw, .V, .bytes [], .full⟩ -- R453
  | .SC_INPUT => ⟨0x21C0, 0, 0, 9, 1, 1, .domain, .rw, .V, .bytes [], .full⟩ -- R453
  | .SC_CMD => ⟨0x21C0, 0, 0, 10, 1, 1, .u 8, .wo, .V, .num 0, .oneOf [1]⟩ -- R453
  | .SC_TAG => ⟨0x21C0, 0, 0, 11, 1, 1, .octets [16], .rw, .V, .bytes (List.replicate 16 0), .full⟩ -- R453
  | .SC_OUTPUT => ⟨0x21C0, 0, 0, 12, 1, 1, .domain, .ro, .V, .bytes [], .full⟩ -- R453
  | .SC_STATUS => ⟨0x21C0, 0, 0, 13, 1, 1, .u 8, .ro, .V, .num (0), .full⟩ -- R453
  | .SC_JOBS => ⟨0x21C0, 0, 0, 14, 1, 1, .u 32, .ro, .V, .num (0), .full⟩ -- R453
  | .KEY_UNWRAP_FAILS => ⟨0x21C0, 0, 0, 15, 1, 1, .u 32, .ro, .V, .num (0), .full⟩ -- R453
  | .ALARM_LATCH => ⟨0x21D0, 0, 0, 1, 1, 1, .u 8, .ro, .K, .num (0), .full⟩ -- R457
  | .ALARM_ACTIVE => ⟨0x21D0, 0, 0, 2, 1, 1, .u 8, .ro, .V, .num (0), .full⟩ -- R457
  | .ALARM_COUNT => ⟨0x21D0, 0, 0, 3, 1, 1, .u 32, .ro, .K, .num (0), .full⟩ -- R457
  | .ALARM_TIME => ⟨0x21D0, 0, 0, 4, 1, 1, .time80, .ro, .K, .num (0), .full⟩ -- R457
  | .ALARM_ERASE_STATE => ⟨0x21D0, 0, 0, 5, 1, 1, .u 8, .ro, .K, .num (0), .full⟩ -- R457
  | .ALARM_ERASE_RETRIES => ⟨0x21D0, 0, 0, 6, 1, 1, .u 32, .ro, .K, .num (0), .full⟩ -- R457
  | .ALARM_TX_DROPS => ⟨0x21D0, 0, 0, 7, 1, 1, .u 32, .ro, .V, .num (0), .full⟩ -- R457
  | .ALARM_CLEAR => ⟨0x2182, 0, 0, 1, 1, 1, .u 8, .wo, .V, .num 0, .oneOf [1]⟩ -- R457
  | .IDENTITY_DIGEST => ⟨0x1F00, 0, 0, 1, 1, 1, .octets [32], .ro, .P, .bytes (List.replicate 32 0), .full⟩ -- R461
  | .IDENTITY_PUBKEY => ⟨0x1F00, 0, 0, 2, 1, 1, .octets [1312], .ro, .P, .bytes (List.replicate 1312 0), .full⟩ -- R461
  | .TK_PROGRAM => ⟨0x1F20, 0, 0, 1, 1, 1, .octets [32], .wo, .P, .bytes [], .full⟩ -- R461
  | .TK_KCV => ⟨0x1F20, 0, 0, 2, 1, 1, .u 32, .ro, .P, .num (0), .full⟩ -- R461
  | .OWNER_DIGEST => ⟨0x21E0, 0, 0, 1, 4, 1, .octets [32], .ro, .P, .bytes (List.replicate 32 0), .full⟩ -- R461
  | .OWNER_STATE => ⟨0x21E0, 0, 0, 5, 1, 1, .u 8, .ro, .P, .num (0), .full⟩ -- R461
  | .OWNER_BOOT_SLOT => ⟨0x21E0, 0, 0, 6, 1, 1, .u 8, .ro, .K, .num (255), .full⟩ -- R461
  | .OWNER_PROGRAM => ⟨0x21E0, 0, 0, 7, 1, 1, .octets [33], .wo, .P, .bytes [], .full⟩ -- R461
  | .OWNER_REVOKE => ⟨0x21E0, 0, 0, 8, 1, 1, .u 8, .wo, .P, .num 0, .special⟩ -- R461
  | .ATTEST_NONCE => ⟨0x1F10, 0, 0, 1, 1, 1, .octets [32], .rw, .V, .bytes (List.replicate 32 0), .full⟩ -- R462
  | .ATTEST_CMD => ⟨0x1F10, 0, 0, 2, 1, 1, .u 8, .wo, .V, .num 0, .oneOf [1]⟩ -- R462
  | .ATTEST_STATE => ⟨0x21F0, 0, 0, 1, 1, 1, .u 8, .ro, .V, .num (0), .full⟩ -- R462
  | .ATTEST_REPORT => ⟨0x21F0, 0, 0, 2, 1, 1, .domain, .ro, .V, .bytes [], .full⟩ -- R462
  | .ATTEST_COUNT => ⟨0x21F0, 0, 0, 3, 1, 1, .u 32, .ro, .K, .num (0), .full⟩ -- R462
  | .SNAP_SOURCES => ⟨0x6800, 0, 0, 1, 1, 1, .u 8, .rw, .K, .num (4), .mask 0x7⟩ -- R471
  | .SNAP_EDGE => ⟨0x6800, 0, 0, 2, 1, 1, .u 64, .rw, .V, .num (0), .special⟩ -- R471
  | .SNAP_RECORD_CLASS => ⟨0x6800, 0, 0, 3, 1, 1, .u 8, .rw, .K, .num (8), .mask 0xF⟩ -- R471
  | .SNAP_NOW => ⟨0x6800, 0, 0, 4, 1, 1, .u 8, .wo, .V, .num 0, .oneOf [1]⟩ -- R471
  | .SNAP_STATE => ⟨0x6800, 0, 0, 5, 1, 1, .u 8, .ro, .V, .num (1), .full⟩ -- R471
  | .SNAP_RELEASE => ⟨0x6800, 0, 0, 6, 1, 1, .u 8, .wo, .V, .num 0, .oneOf [1]⟩ -- R471
  | .SNAP_SEQ => ⟨0x6800, 0, 0, 7, 1, 1, .u 32, .ro, .K, .num (0), .full⟩ -- R471
  | .SNAP_CAUSE => ⟨0x6800, 0, 0, 8, 1, 1, .u 8, .ro, .V, .num (0), .full⟩ -- R471
  | .SNAP_TIME => ⟨0x6800, 0, 0, 9, 1, 1, .time80, .ro, .V, .num (0), .full⟩ -- R471
  | .SNAP_TIME_STB => ⟨0x6800, 0, 0, 10, 1, 1, .time80, .ro, .V, .num (0), .full⟩ -- R471
  | .SNAP_STRIDE => ⟨0x6800, 0, 0, 11, 1, 1, .u 64, .ro, .V, .num (0), .full⟩ -- R471
  | .SNAP_RECORD_SEQ => ⟨0x6800, 0, 0, 12, 1, 1, .u 32, .ro, .V, .num (4294967295), .full⟩ -- R471
  | .SNAP_DROPPED => ⟨0x6800, 0, 0, 13, 1, 1, .u 32, .ro, .V, .num (0), .full⟩ -- R471
  | .SNAP_OUT_WIDTH => ⟨0x6800, 0, 0, 14, 1, 1, .u 32, .rw, .K, .num (1000), .between (8) (1000000)⟩ -- R471
  | .SNAP_POOL_FREE => ⟨0x6801, 0, 0, 1, 6, 1, .u 32, .ro, .V, .num (0), .full⟩ -- R471
  | .SNAP_P1 => ⟨0x6801, 0, 0, 7, 1, 1, .u 32, .ro, .V, .num (0), .full⟩ -- R471
  | .SNAP_EGRESS_BYTES => ⟨0x6801, 0, 0, 8, 1, 1, .u 64, .ro, .V, .num (0), .full⟩ -- R471
  | .SNAP_DICT_QUEUE => ⟨0x6801, 0, 0, 9, 1, 1, .u 8, .ro, .V, .num (0), .full⟩ -- R471
  | .SR_VALID => ⟨0x6804, 0, 3, 1, 1, 1, .bool, .ro, .L, .num (0), .full⟩ -- R472
  | .SR_CONTEXTS => ⟨0x6804, 0, 3, 2, 1, 1, .u 32, .ro, .L, .num (0), .full⟩ -- R472
  | .SR_COMPOSER => ⟨0x6804, 0, 3, 3, 1, 1, .u 32, .ro, .L, .num (4294967295), .full⟩ -- R472
  | .SR_RAILS => ⟨0x6804, 0, 3, 4, 1, 1, .u 8, .ro, .L, .num (0), .full⟩ -- R472
  | .SB_FLAGS => ⟨0x6810, 0, 63, 1, 1, 1, .u 8, .ro, .L, .num (0), .full⟩ -- R472
  | .SB_CYCLE => ⟨0x6810, 0, 63, 2, 1, 1, .u 32, .ro, .L, .num (0), .full⟩ -- R472
  | .SB_READY => ⟨0x6810, 0, 63, 3, 1, 1, .u 32, .ro, .L, .num (0), .full⟩ -- R472
  | .SB_REORDER => ⟨0x6810, 0, 63, 4, 1, 1, .u 8, .ro, .L, .num (0), .full⟩ -- R472
  | .SB_OVERRUNS => ⟨0x6810, 0, 63, 5, 1, 1, .u 32, .ro, .L, .num (0), .full⟩ -- R472
  | .SB_DEFERRED => ⟨0x6810, 0, 63, 6, 1, 1, .u 32, .ro, .L, .num (0), .full⟩ -- R472
  | .SB_CELL => ⟨0x6810, 0, 63, 32, 16, 1, .u 32, .ro, .L, .num (0), .full⟩ -- R472
  | .BLK_STATE => ⟨0x6100, 0, 63, 1, 1, 1, .u 8, .ro, .L, .num (0), .full⟩ -- R473
  | .BLK_DVFS_STEP => ⟨0x6100, 0, 63, 2, 1, 1, .u 8, .ro, .L, .num (0), .full⟩ -- R473
  | .BLK_ADMIT_CYCLES => ⟨0x6100, 0, 63, 3, 1, 1, .u 32, .ro, .K, .num (0), .full⟩ -- R473
  | .BLK_CAPACITY => ⟨0x6100, 0, 63, 4, 1, 1, .u 32, .ro, .K, .num (29926500), .full⟩ -- R473
  | .BLK_LEGS => ⟨0x6100, 0, 63, 5, 1, 1, .u 16, .ro, .K, .num (0), .full⟩ -- R473
  | .BLK_OVERRUNS => ⟨0x6100, 0, 63, 6, 1, 1, .u 32, .ro, .L, .num (0), .full⟩ -- R473
  | .BLK_DEFERRED => ⟨0x6100, 0, 63, 7, 1, 1, .u 32, .ro, .L, .num (0), .full⟩ -- R473
  | .BLK_MEM_CORRECTED => ⟨0x6100, 0, 63, 8, 1, 1, .u 32, .ro, .L, .num (0), .full⟩ -- R473
  | .RGN_STATE => ⟨0x6140, 0, 3, 1, 1, 1, .u 8, .ro, .K, .num (0), .full⟩ -- R473
  | .RGN_BLOCKS => ⟨0x6140, 0, 3, 2, 1, 1, .u 16, .ro, .L, .num (16), .full⟩ -- R473
  | .RGN_ADMIT_CYCLES => ⟨0x6140, 0, 3, 3, 1, 1, .u 64, .ro, .K, .num (0), .full⟩ -- R473
  | .RGN_RAIL_CORRECTED => ⟨0x6140, 0, 3, 4, 1, 1, .u 32, .ro, .L, .num (0), .full⟩ -- R473
  | .RGN_MEM_CORRECTED => ⟨0x6140, 0, 3, 5, 1, 1, .u 32, .ro, .L, .num (0), .full⟩ -- R473
  | .TAP_LEG => ⟨0x7000, 0, 0, 1, 1, 1, .u 16, .rw, .V, .num (65535), .between (0) (4095)⟩ -- R474
  | .TAP_POINT => ⟨0x7000, 0, 0, 2, 1, 1, .u 8, .rw, .V, .num (0), .oneOf [1, 2, 3, 4]⟩ -- R474
  | .TAP_STRIDES => ⟨0x7000, 0, 0, 3, 1, 1, .u 16, .rw, .V, .num (12), .between (1) (600)⟩ -- R474
  | .TAP_CMD => ⟨0x7000, 0, 0, 4, 1, 1, .u 8, .wo, .V, .num 0, .oneOf [1]⟩ -- R474
  | .TAP_STATE => ⟨0x7000, 0, 0, 5, 1, 1, .u 8, .ro, .V, .num (0), .full⟩ -- R474
  | .TAP_DATA => ⟨0x7000, 0, 0, 6, 1, 1, .domain, .ro, .V, .bytes [], .full⟩ -- R474
  | .SRC_COEFS => ⟨0x7001, 0, 0, 1, 6, 1, .domain, .ro, .P, .bytes [], .full⟩ -- R474
  | .COST_TABLE => ⟨0x7002, 0, 0, 0, 1, 1, .domain, .ro, .P, .bytes [], .full⟩ -- R474
  | .INJ_TARGET => ⟨0x7003, 0, 0, 1, 1, 1, .u 32, .rw, .V, .num (0), .mask 0xF000FFFF⟩ -- R474
  | .INJ_CMD => ⟨0x7003, 0, 0, 2, 1, 1, .u 8, .wo, .V, .num 0, .oneOf [1]⟩ -- R474
  | .INJ_COUNT => ⟨0x7003, 0, 0, 3, 1, 1, .u 32, .ro, .V, .num (0), .full⟩ -- R474
  | .VDD_REQUEST => ⟨0x2140, 0, 0, 64, 1, 1, .u 16, .ro, .V, .num (880), .full⟩ -- R483
  | .VDD_MEASURED => ⟨0x2140, 0, 0, 65, 1, 1, .u 16, .ro, .V, .num (0), .full⟩ -- R483
  | .AVS_ERRORS => ⟨0x2140, 0, 0, 66, 1, 1, .u 32, .ro, .V, .num (0), .full⟩ -- R483
  | .AVS_MARGIN => ⟨0x2140, 0, 0, 67, 1, 1, .i 8, .rws, .K, .num (0), .between (-20) (40)⟩ -- R483

/-- Objects of 00_scope.md. -/
def objs00a : List Obj := [
  .DEVICE_NAME, .VENDOR_ID, .PRODUCT_CODE, .REVISION, .SERIAL]

/-- Objects of 02_the_stride.md. -/
def objs02a : List Obj := [
  .STRIDE_COUNT, .STRIDE_IN_LAP, .LAP_COUNT, .STRIDE_TIMEBASE, .STRIDE_OFFSET, .STRIDE_COMMIT,
  .COMMIT_STATUS, .COMMIT_STRIDE, .AUDIO_OVERRUNS, .ITEMS_DEFERRED, .DECODE_MISSES, .ENCODE_MISSES]

/-- Objects of 03_time_bases.md. -/
def objs03a : List Obj := [
  .TB_MODE, .TB_SOURCE, .TB_TIME, .TB_RATE_ADJ, .TB_STATUS, .TB_FOLLOW_OFFSET, .TB_SERVO_KP, .TB_SERVO_KI,
  .TB_STEP_THRESHOLD, .TB_LOCK_THRESHOLD, .TB_HOLDOVER_LAPS, .TB_STEPS, .PTP_DOMAIN, .PTP_PRIORITY1,
  .PTP_PRIORITY2, .TB_UTC_OFFSET, .PTP_ROLE, .PTP_INSTANCE, .PTP_DELAY_MECH, .PTP_TRANSPORT, .PTP_LOG_SYNC,
  .PTP_LOG_DELAY_REQ, .PTP_LOG_ANNOUNCE, .PTP_ANNOUNCE_TIMEOUT, .PTP_ASYM_RX, .PTP_ASYM_TX, .PTP_PORT_STATE,
  .PTP_PATH_DELAY, .PULSE_MODE, .PULSE_TIMEBASE, .PULSE_TARGET, .PULSE_PERIOD, .PULSE_WIDTH, .PULSE_POLARITY,
  .PULSE_FIRED, .PULSE_MISSED, .CAPTURE_EDGE, .CAPTURE_TIMEBASE, .CAPTURE_LEVEL, .CAPTURE_TIME,
  .CAPTURE_INFO, .CAPTURE_OVERFLOWS]

/-- Objects of 04_object_dictionary.md. -/
def objs04a : List Obj := [
  .SERVICE_STATE, .STAGED_COUNT, .STAGE_DISCARD, .DICT_WRITES, .DICT_ABORTS, .DICT_QUEUE_DROPS, .DEVICE_TYPE,
  .ERROR_REGISTER, .ERROR_COUNT, .ERROR_FIELD, .COB_ID_EMCY, .INHIBIT_TIME_EMCY, .PRODUCER_HEARTBEAT_TIME,
  .COB_ID_CLIENT_TO_SERVER, .COB_ID_SERVER_TO_CLIENT, .RPDO_COB_ID, .RPDO_TYPE, .RPDO_MAP, .TPDO_COB_ID,
  .TPDO_TYPE, .TPDO_INHIBIT, .TPDO_EVENT, .TPDO_MAP, .CAN_NODE_ID, .CAN_BITRATE, .EMCY_CLASS_MASK,
  .CAN_STATUS, .EMCY_SUPPRESSED, .RPDO_REFUSED, .HDP_ENABLE, .HDP_SESSION_TIMEOUT, .HDP_SESSIONS_OPEN,
  .HDP_AUTH_FAILS, .HDP_REPLAYS, .PUNT_OWNER, .PUNT_DROPPED, .HDP_KEY, .MGMT_IPV4, .MGMT_IPV6, .MGMT_VLAN,
  .MGMT_PORTS, .MGMT_DSCP]

/-- Objects of 05_legs_and_conferences.md. -/
def objs05a : List Obj := [
  .CONF_CMD, .CONF_STATE, .CONF_REGION, .CONF_HOME_BLOCK, .CONF_MAX_LEGS, .CONF_PIXEL_QUOTA,
  .CONF_BUFFER_QUOTA, .CONF_LEG_COUNT, .CONF_PIXEL_USE, .CONF_BUFFER_USE, .CONF_SPILL, .CONF_STANDING,
  .LEG_CMD, .LEG_STATE, .LEG_REFUSAL, .LEG_CONFERENCE, .LEG_LOW_PRIORITY, .LEG_AUDIO_ONLY_FALLBACK,
  .LEG_ADMIT_CYCLES, .LEG_ADMIT_PIXELS, .LEG_ADMIT_BLOCK, .LEG_BUFFER_NEED, .LEG_RX_TIMEOUT,
  .LEG_DRAIN_STRIDES, .LEG_STATE_STRIDE, .LEG_PRIOR_STATE, .ADMIT_CYCLES_USE, .ADMIT_CYCLES_CAP,
  .ADMIT_PIXELS_USE, .ADMIT_PIXELS_CAP, .ADMIT_REFUSALS, .LEGS_ADMITTED, .CONFS_OPEN]

/-- Objects of 06_packet_path.md. -/
def objs06a : List Obj := [
  .PORT_MODE, .PORT_MAC, .PORT_MTU, .PORT_LINK, .PORT_SYS_POLICER, .PORT_RX_FRAMES, .PORT_RX_BYTES,
  .PORT_FEC_CORRECTED, .PORT_FEC_UNCORRECTED, .PORT_LINK_DOWNS, .PORT_DROP, .PAIR_MODE, .PAIR_ACTIVE,
  .PAIR_REVERT_LAPS, .PAIR_FORCE, .PAIR_SWITCHES, .ADDR_IP, .ADDR_VLAN, .ADDR_PORTS, .ADDR_FLAGS,
  .ADDR_NEXTHOP_MAC, .ADDR_POLICER, .LEG_LOCAL_ADDR, .LEG_LOCAL_PORT, .LEG_REMOTE_IP, .LEG_REMOTE_PORT,
  .LEG_SUITE, .LEG_POLICER, .LEG_ICE_UFRAG, .LEG_ICE_PWD, .LEG_ICE_MODE, .LEG_ICE_NOMINATED, .LEG_RX_PT,
  .LEG_NACK_MODE, .LEG_RTX_HISTORY, .LEG_JB_MIN, .LEG_JB_MAX, .LEG_VIDEO_HOLD, .LEG_RX_SSRC, .LEG_SSRC_FLUSH,
  .RX_PACKETS, .RX_BYTES, .REMOTE_MISMATCH, .POLICED_RED, .POLICED_YELLOW, .AUTH_FAILS, .REPLAYS, .SSRC_FULL,
  .NOT_ACTIVE, .LATE, .JB_OVERFLOW, .FEC_RECOVERED, .NACK_SENT, .RTX_SENT, .JB_TARGET, .STUN_ANSWERED,
  .POL_MODE, .POL_CIR, .POL_CBS, .POL_EBS_PBS]

/-- Objects of 06_packet_path.md. -/
def objs06b : List Obj := [
  .POL_PIR, .POL_YELLOW_ACTION, .POL_YELLOW_FLOOR, .POL_DSCP_YELLOW, .POL_DSCP_RED]

/-- Objects of 07_line_adaptation.md. -/
def objs07a : List Obj := [
  .TC_WEIGHT, .TC_GROUP, .TC_DSCP_CONTROL, .TC_DSCP_AUDIO, .TC_DSCP_VIDEO, .TC_PCP_AUDIO, .TC_PCP_VIDEO,
  .TC_AUDIO_LIMIT, .TC_AUDIO_AGE, .TC_VIDEO_LIMIT, .TC_VIDEO_AGE, .TC_CONTROL_LIMIT, .TC_GRAD_THRESHOLD,
  .TC_GRAD_WINDOW, .TC_BETA, .TC_INC_MULT, .TC_INC_ADD, .TC_LOSS_HIGH, .TC_LOSS_LOW, .TC_FB_TIMEOUT, .LEG_TC,
  .LEG_MIN_RATE, .LEG_MAX_RATE, .LEG_START_RATE, .LEG_CC_MODE, .LEG_FB_MODE, .LEG_TWCC_EXT_ID,
  .LEG_FB_PERIOD, .LEG_PTP_PEER, .LEG_CREDIT_STRIDES, .LEG_PACE_GAIN, .LEG_FEC_MODE, .LEG_FEC_K,
  .LINE_ESTIMATE, .LINE_TARGET, .LINE_STATE, .LINE_RTT, .LINE_LOSS, .LINE_JITTER, .LINE_GRADIENT, .LINE_OWD,
  .LINE_ACKED_RATE, .LINE_FEC_K, .LINE_CREDIT, .TX_PACKETS, .TX_BYTES, .TX_DROP_FULL, .TX_DROP_AGE,
  .TX_NO_NEXTHOP, .LINE_OWD_RX, .PORT_TX_FRAMES, .PORT_TX_BYTES, .PORT_TX_DROPS, .LINE_LOOP_MISSES]

/-- Objects of 08_audio_path.md. -/
def objs08a : List Obj := [
  .AF_COEF, .AF_SECTIONS, .LEG_RX_CODEC, .LEG_TX_CODEC, .LEG_TX_AUDIO_PT, .LEG_TX_AUDIO_SSRC,
  .LEG_PROC_ENABLE, .LEG_IN_PROFILE, .LEG_OUT_PROFILE, .LEG_MIX_MODE, .LEG_MIX_GAIN, .LEG_OUT_GAIN,
  .LEG_OUT_MUTE, .LEG_GATE_OPEN, .LEG_GATE_CLOSE, .LEG_GATE_HOLD, .LEG_GATE_FLOOR, .LEG_AGC_TARGET,
  .LEG_AGC_MAX, .LEG_AGC_UP, .LEG_AGC_DOWN, .LEG_LIM_THRESHOLD, .LEG_LIM_RELEASE, .LEG_PEAK_HOLD,
  .LEG_DTMF_MODE, .LEG_DTMF_MIN, .LEG_IN_LEVEL, .LEG_IN_PEAK, .LEG_OUT_LEVEL, .LEG_OUT_PEAK, .LEG_ACTIVITY,
  .LEG_AGC_GAIN, .LEG_LIM_MIN_GAIN, .LEG_GATE_STATE, .LEG_IN_MIXED, .LEG_CONCEALED, .LEG_OUT_CLIPS,
  .LEG_PLAY_MOVES, .LEG_EVENT, .LEG_EVENT_LEVEL, .LEG_EVENT_LOST, .LEG_OPUS_FEC_USED, .CONF_MIX_N,
  .CONF_MIX_HYST, .CONF_MIX_ENTER, .CONF_MIX_HOLD, .CONF_MIX_RELEASE, .CONF_RAMP_STRIDES, .CONF_MIX_COUNT,
  .CONF_MIX_CHANGES, .CONF_MIX_MEMBER]

/-- Objects of 09_video_decode.md. -/
def objs09a : List Obj := [
  .VRX_CODEC, .DEC_CTRL, .DEC_MAX_WIDTH, .DEC_MAX_HEIGHT, .DEC_MAX_FPS, .DEC_MAX_DPB, .DEC_MAX_KBPS,
  .DEC_STATE, .DEC_SIZE, .DEC_PICTURES, .DEC_CONCEALED, .DEC_ERRORS, .DEC_MISSING_REFS, .DEC_KF_REQUESTS,
  .DEC_OUTSIDE, .DEC_PAIR, .DEC_RATE_DROPS, .PAIR_STATE, .PAIR_ADMIT_PIXELS, .PAIR_CONTEXTS, .PAIR_ENT_STALL,
  .PAIR_PIX_UNDERRUN, .PAIR_ABANDONS]

/-- Objects of 10_video_encode.md. -/
def objs10a : List Obj := [
  .ENC_CTRL, .ENC_SHARE, .ENC_QP_MIN, .ENC_QP_MAX, .ENC_INTRA_FACTOR, .ENC_IDR_LAPS, .ENC_STATE, .ENC_NOW,
  .ENC_PAIR, .ENC_CARRY, .ENC_PICTURES, .ENC_INTRA, .ENC_COAST, .ENC_SKIPS, .ENC_LAST_BITS, .ENC_LAST_QP,
  .TILE_LAYER_WEIGHT, .ENC_PT, .ENC_SSRC, .ENC_PKT_MODE, .TILE_CTRL, .TILE_LAYERS_NOW, .TILE_ENTRIES,
  .TILE_SKIPS, .CODED_PIXELS_DEC, .CODED_PIXELS_ENC, .CODING_ENERGY]

/-- Objects of 11_composition.md. -/
def objs11a : List Obj := [
  .LAYOUT_KIND, .LAYOUT_CONF, .LAYOUT_SPLICE, .LAYOUT_BG, .LAYOUT_COLOUR, .LAYOUT_PAIR, .LAYOUT_VIEWERS,
  .COMPOSE_MISSES, .IND_CORRECTED, .IND_BLANKED, .SLOT_SRC, .LAYOUT_IMAGE, .LAYER_SRC, .LAYER_CROP,
  .LAYER_DEST, .LAYER_ALPHA, .LAYER_SCALER, .LAYER_COLOUR, .LAYER_IND, .LAYER_STATUS, .VIEW_LAYOUT,
  .VIEW_CTRL, .VIEW_PT, .VIEW_SSRC, .VIEW_TOP_NOW, .VIEW_ENTRY_WAIT, .VIEW_DIVERGED, .VIEW_PICTURES,
  .VIEW_SLOT, .VIEW_SLOT_NOW, .SCALER_SET, .LUT_PRE, .LUT_POST, .COMPOSER_STATE, .COMPOSER_ADMIT_PIXELS,
  .COMPOSER_MISSES, .CHECK_FAILS]

/-- Objects of 12_layer_forwarding.md. -/
def objs12a : List Obj := [
  .FWD_SRC_CTRL, .FWD_RID_EXT_ID, .FWD_RX_DD_EXT_ID, .FWD_RID, .FWD_KF_POLICY, .FWD_KF_MIN_GAP, .FWD_KF_SENT,
  .FWD_UNLAYERED, .FWD_LAYER_RATE, .FWD_TX_PT, .VTX_RTX_PT, .VTX_FEC_PT, .FWD_TX_DD_EXT_ID, .FWD_SWITCHES,
  .FWD_PADDING, .FWD_STALE, .FWD_SLOT, .FWD_OUT_SSRC, .FWD_NOW]

/-- Objects of 13_cells_and_scheduling.md. -/
def objs13a : List Obj := [
  .BLK_RESERVE_CELL, .BLK_HOME_LOAD, .BLK_PEAK_AUDIO, .BLK_MIGRATIONS, .BLK_REORDER_HELD, .BLK_PRIO_RESORTS,
  .BLK_SWEEPS, .RGN_SWEEPS, .REFRESH_STOPS, .CELL_STATE, .CELL_HOME_LOAD, .CELL_BUSY, .CELL_ITEMS,
  .CELL_AFFINITY_HITS, .CELL_GATED, .CELL_LOOP_MISSES]

/-- Objects of 14_dram.md. -/
def objs14a : List Obj := [
  .DRAM_RANKS, .DRAM_PAGE_POLICY, .DRAM_PAGE_IDLE, .DRAM_PANIC_COMPOSER, .DRAM_PANIC_PAIR,
  .DRAM_PANIC_EGRESS, .DRAM_NBR_SHIFT, .DRAM_NBR_DISTANCE, .DRAM_REFRESH_MODE, .DRAM_TEMP_OFFSET,
  .DRAM_RETRAIN_EVERY, .DRAM_MARK_THRESHOLD, .DRAM_UE_LIMIT, .DRAM_REMIRROR_RATE, .DRAM_SCRUB_LAPS,
  .DRAM_TEMP_EST, .DRAM_REMIRROR_LEFT, .DRAM_INIT_LEFT, .CH_STATE, .CH_CMD, .CH_MARKED, .CH_CORRECTED,
  .CH_UNCORRECTED, .CH_MIRROR_READS, .CH_NBR_REFRESHES, .CH_PANIC_CYCLES, .CH_PAGE_HITS, .CH_PAGE_CONFLICTS,
  .CH_RETRAIN_STEPS, .CH_CA_PARITY, .CH_TRAIN_RESULT, .CH_BYTES, .CH_RETRIED, .MARGIN_CMD, .MARGIN_STATE,
  .MARGIN_READ, .MARGIN_WRITE, .MARGIN_VREF]

/-- Objects of 15_buffer_pools.md. -/
def objs15a : List Obj := [
  .POOL_SHARE, .POOL_BUFFERS, .POOL_FREE, .POOL_LOW_WATER, .POOL_RESERVE, .POOL_FALLBACKS, .POOL_EXHAUSTED,
  .POOL_LOST, .POOL_PEAK_REFS, .POOL_DOUBLE_FREES, .POOL_STALE_FREES, .POOL_FOREIGN_FREES, .POOL_INVALID,
  .POOL_REF_LIMIT, .POOL_LIST_REBUILDS, .POOL_RESET_FREED, .POOL_REMIRROR_WAIT, .DOM_QUOTA, .DOM_USE,
  .DOM_QUOTA_FAILS]

/-- Objects of 16_faults.md. -/
def objs16a : List Obj := [
  .LOG_NEXT_SEQ, .LOG_COUNT, .LOG_OVERWRITTEN, .LOG_COALESCED, .LOG_CLEAR, .FAULT_RETIRE_COUNT,
  .FAULT_RETIRE_LAPS, .HEALTHY_MASK, .HEALTHY_CAUSE, .RERUNS_LOCAL, .RERUNS_REMOTE, .RERUNS_CONCEALED,
  .RETIRED_CELLS, .RETIRED_PAIRS, .RETIRED_BLOCKS, .RETIRED_COMPOSERS, .FAILED_RAILS, .LOG_RECORD]

/-- Objects of 17_power.md. -/
def objs17a : List Obj := [
  .PD_KIND, .PD_MODE, .PD_STATE, .PD_POWER, .PD_ENERGY, .PD_WAKES, .PD_STEPS, .GOV_BUDGET, .GOV_HARD,
  .GOV_ADMIT_MARGIN, .GOV_HYST, .GOV_RESTORE_STRIDES, .GOV_STEP, .GOV_THROTTLE, .GOV_P60, .GOV_P1, .GOV_EST,
  .GOV_LIMIT, .GOV_LIMIT_SRC, .GOV_TJ, .GOV_TJ_THROTTLE, .GOV_CMD, .GOV_TRIM, .GOV_TRIM_IDLE, .GOV_DVFS_MODE,
  .GOV_THROTTLE_GAIN, .GOV_HARD_EVENTS, .GOV_STEP_CHANGES, .GOV_SENSE_FAIL, .AIN_VALUE, .AIN_GAIN,
  .AIN_OFFSET, .GOV_FEED_IMAX, .GOV_FEED_EFF, .GOV_CARD_OTHER, .GOV_FEED_SHARE, .GOV_K]

/-- Objects of 18_reset_and_warmup.md. -/
def objs18a : List Obj := [
  .LEGS_SUSPENDED, .RESET_CMD, .RESET_EPOCH, .REVERTED_MASK, .LAST_RESET, .BOOT_NONCE, .RELEASE_GAP,
  .BRINGUP_MS, .WARM_RESUME, .OPT_COPY, .OPT_SEQUENCE, .OPT_STATUS, .OPT_IMAGE, .OPT_WRITE_STATE,
  .OPT_ENTRIES_SKIPPED, .XSPI_MODE, .OPT_DIGEST]

/-- Objects of 19_security.md. -/
def objs19a : List Obj := [
  .SLOT_WRAP, .SLOT_PARENT, .SLOT_USE, .SLOT_STATE, .SLOT_KCV, .LEG_TX_KEY, .LEG_RX_KEY, .LEG_KEK,
  .LEG_KEY_STATE, .LEG_KEY_LOADS, .SC_LOCK, .SC_LOCK_OWNER, .SC_LEASE_LEFT, .SC_MODE, .SC_KEY_SLOT, .SC_PAD,
  .SC_IV, .SC_AAD, .SC_INPUT, .SC_CMD, .SC_TAG, .SC_OUTPUT, .SC_STATUS, .SC_JOBS, .KEY_UNWRAP_FAILS,
  .ALARM_LATCH, .ALARM_ACTIVE, .ALARM_COUNT, .ALARM_TIME, .ALARM_ERASE_STATE, .ALARM_ERASE_RETRIES,
  .ALARM_TX_DROPS, .ALARM_CLEAR, .IDENTITY_DIGEST, .IDENTITY_PUBKEY, .TK_PROGRAM, .TK_KCV, .OWNER_DIGEST,
  .OWNER_STATE, .OWNER_BOOT_SLOT, .OWNER_PROGRAM, .OWNER_REVOKE, .ATTEST_NONCE, .ATTEST_CMD, .ATTEST_STATE,
  .ATTEST_REPORT, .ATTEST_COUNT]

/-- Objects of 20_snapshot.md. -/
def objs20a : List Obj := [
  .SNAP_SOURCES, .SNAP_EDGE, .SNAP_RECORD_CLASS, .SNAP_NOW, .SNAP_STATE, .SNAP_RELEASE, .SNAP_SEQ,
  .SNAP_CAUSE, .SNAP_TIME, .SNAP_TIME_STB, .SNAP_STRIDE, .SNAP_RECORD_SEQ, .SNAP_DROPPED, .SNAP_OUT_WIDTH,
  .SNAP_POOL_FREE, .SNAP_P1, .SNAP_EGRESS_BYTES, .SNAP_DICT_QUEUE, .SR_VALID, .SR_CONTEXTS, .SR_COMPOSER,
  .SR_RAILS, .SB_FLAGS, .SB_CYCLE, .SB_READY, .SB_REORDER, .SB_OVERRUNS, .SB_DEFERRED, .SB_CELL, .BLK_STATE,
  .BLK_DVFS_STEP, .BLK_ADMIT_CYCLES, .BLK_CAPACITY, .BLK_LEGS, .BLK_OVERRUNS, .BLK_DEFERRED,
  .BLK_MEM_CORRECTED, .RGN_STATE, .RGN_BLOCKS, .RGN_ADMIT_CYCLES, .RGN_RAIL_CORRECTED, .RGN_MEM_CORRECTED,
  .TAP_LEG, .TAP_POINT, .TAP_STRIDES, .TAP_CMD, .TAP_STATE, .TAP_DATA, .SRC_COEFS, .COST_TABLE, .INJ_TARGET,
  .INJ_CMD, .INJ_COUNT]

/-- Objects of 21_pins_and_package.md. -/
def objs21a : List Obj := [
  .VDD_REQUEST, .VDD_MEASURED, .AVS_ERRORS, .AVS_MARGIN]

/-- Every object of the dictionary. -/
def Obj.all : List Obj :=
  objs00a ++ objs02a ++ objs03a ++ objs04a ++ objs05a ++ objs06a ++
  objs06b ++ objs07a ++ objs08a ++ objs09a ++ objs10a ++ objs11a ++
  objs12a ++ objs13a ++ objs14a ++ objs15a ++ objs16a ++ objs17a ++
  objs18a ++ objs19a ++ objs20a ++ objs21a

end Sys2Proof.Machine
end

