-- ==== Sys2Proof/Machine/Kinds.lean ====
section
/-! DEFINITION. The codes the block answers with, the error record, and what leaves the block. -/

namespace Sys2Proof.Machine

/-- The abort and status codes (R69). -/
inductive Abort where
  | toggle
  | sdoTimeout
  | badCs
  | badBlockSize
  | badSeq
  | crc
  | unsupported
  | writeOnly
  | readOnly
  | noObject
  | notMappable
  | pdoLength
  | paramIncompatible
  | hwError
  | lengthMismatch
  | noSubindex
  | range
  | tooHigh
  | tooLow
  | general
  | deviceState
  | noData
  | sessionLimit
  | keySlotEmpty
  | timeout
  | bulkMissing
  | bulkCrc
  | useBulk
  | bulkBusy
  | alarm
  | subLimit
  | malformed
  | noBuffer
deriving DecidableEq, Repr

/-- The value of a code (R69). -/
def Abort.code : Abort → Nat
  | .toggle => 0x05030000
  | .sdoTimeout => 0x05040000
  | .badCs => 0x05040001
  | .badBlockSize => 0x05040002
  | .badSeq => 0x05040003
  | .crc => 0x05040004
  | .unsupported => 0x06010000
  | .writeOnly => 0x06010001
  | .readOnly => 0x06010002
  | .noObject => 0x06020000
  | .notMappable => 0x06040041
  | .pdoLength => 0x06040042
  | .paramIncompatible => 0x06040043
  | .hwError => 0x06060000
  | .lengthMismatch => 0x06070010
  | .noSubindex => 0x06090011
  | .range => 0x06090030
  | .tooHigh => 0x06090031
  | .tooLow => 0x06090032
  | .general => 0x08000000
  | .deviceState => 0x08000022
  | .noData => 0x08000024
  | .sessionLimit => 0xF0000001
  | .keySlotEmpty => 0xF0000002
  | .timeout => 0xF0000003
  | .bulkMissing => 0xF0000004
  | .bulkCrc => 0xF0000005
  | .useBulk => 0xF0000006
  | .bulkBusy => 0xF0000007
  | .alarm => 0xF0000008
  | .subLimit => 0xF0000009
  | .malformed => 0xF000000A
  | .noBuffer => 0xF000000B

/-- The classes of error records (R392). -/
inductive RecClass where
  | corrected
  | recovered
  | degraded
  | serviceAffecting
deriving DecidableEq, Repr

/-- The number of a class (R392). -/
def RecClass.num : RecClass → Nat
  | .corrected => 0
  | .recovered => 1
  | .degraded => 2
  | .serviceAffecting => 3

/-- The actions of error records (R392). -/
inductive RecAction where
  | none
  | corrected
  | retried
  | rerunLocal
  | rerunRemote
  | concealed
  | unitReset
  | retired
  | fenced
  | rehomed
  | switched
  | mirrorUsed
  | lost
  | legFailed
  | steppedDown
  | resetAdvised
deriving DecidableEq, Repr

/-- The number of an action (R392). -/
def RecAction.num : RecAction → Nat
  | .none => 0
  | .corrected => 1
  | .retried => 2
  | .rerunLocal => 3
  | .rerunRemote => 4
  | .concealed => 5
  | .unitReset => 6
  | .retired => 7
  | .fenced => 8
  | .rehomed => 9
  | .switched => 10
  | .mirrorUsed => 11
  | .lost => 12
  | .legFailed => 13
  | .steppedDown => 14
  | .resetAdvised => 15

/-- An error record (R392). `time` is TB0 as a TIME80. -/
structure Rec where
  time : Nat := 0
  level : Nat := 3
  cls : RecClass := .recovered
  action : RecAction := .none
  unit : Nat := 0
  code : Nat := 0
  seq : Nat := 0
  leg : Nat := 0xFFFF
  detail : Nat := 0
deriving DecidableEq, Repr

/-- The 32 octets of a record, most significant first (R392). -/
def Rec.octets (r : Rec) : Octets :=
  natToOctets 10 r.time ++ [r.level * 64 + r.cls.num * 16, r.action.num] ++ natToOctets 2 r.unit ++
    natToOctets 2 r.code ++ natToOctets 4 r.seq ++ natToOctets 2 r.leg ++ [0, 0] ++ natToOctets 8 r.detail

/-- What a FlexFEC parity packet covers (R162): the SSRC that it protects, the sequence numbers, and the exclusive or of the packets'
timestamps, lengths, payload types, markers and payload octets. -/
structure FecTx where
  ssrc : Nat := 0
  seqs : List Nat := []
  ts : Nat := 0
  len : Nat := 0
  pt : Nat := 0
  marker : Bool := false
  payload : Octets := []
deriving DecidableEq, Repr

/-- A packet the block sends for a leg, as far as the spec fixes it: its RTP header, its IP length, the frame number that a
dependency descriptor carries and, with active_decode_targets_bitmask, the (s, t) of the targets in it (R301), the transport-wide number (R163), the original sequence number of an RTX packet
(R151) and what a parity packet covers (R162). -/
structure TxPkt where
  leg : Nat := 0
  ssrc : Nat := 0
  seq : Nat := 0
  ts : Nat := 0
  pt : Nat := 0
  marker : Bool := false
  len : Nat := 0
  ddFrame : Option Nat := none
  ddTargets : Option (List (Nat × Nat)) := none
  padding : Bool := false
  twcc : Option Nat := none
  osn : Option Nat := none
  fec : Option FecTx := none
  payload : Octets := []
deriving DecidableEq, Repr

/-- A PTP message that the block sends (R47): its messageType, its header, the time that it carries (a Sync and a Delay_Req none), the
port that it answers, and the data set of an Announce. -/
structure PtpTx where
  type : Nat
  hdr : PtpHdr := {}
  time : Nat := 0
  dest : Option PtpId := none
  data : Option PtpData := none
deriving DecidableEq, Repr

/-- One RR block (R163): the SSRC it reports on, the fraction and the number lost, the highest index, the jitter in units of the RTP clock,
and the last SR with the time since, in 2^-16 s. -/
structure RrBlock where
  ssrc : Nat := 0
  fraction : Nat := 0
  lost : Int := 0
  high : Nat := 0
  jitter : Nat := 0
  lsr : Nat := 0
  dlsr : Nat := 0
deriving DecidableEq, Repr

/-- One part of an RTCP packet that the block sends (R163). An RFC 8888 report names each packet by SSRC and sequence number with its arrival
time offset, none where it was not received; transport-wide feedback its count, base number, reference time and deltas. -/
inductive RtcpTx where
  | sr (ssrc ntp rtp packets octets : Nat) (blocks : List RrBlock)
  | rr (ssrc : Nat) (blocks : List RrBlock)
  | nack (ssrc : Nat) (seqs : List Nat)
  | tmmbn (ssrc bps : Nat)
  | pli (ssrc : Nat)
  | fir (ssrc seq : Nat)
  | rfc8888 (time : Nat) (reports : List (Nat × (Nat × Option Nat)))
  | transportWide (count base reference : Nat) (deltas : List (Option Int))
deriving DecidableEq, Repr

/-- The session keys of one direction and one protocol of a leg (R140). -/
structure SrtpKeys where
  enc : Octets := []
  auth : Octets := []
  salt : Octets := []
deriving DecidableEq, Repr

/-- How a packet left the line cipher (R140): its session keys, its index, and whether it is encrypted (the E flag of SRTCP). -/
structure Seal where
  keys : SrtpKeys := {}
  index : Nat := 0
  encrypted : Bool := true
deriving DecidableEq, Repr

/-- An answer to a STUN Binding request (R135): its error code, 200 for success, the request's transaction ID, where it goes,
XOR-MAPPED-ADDRESS, the list of UNKNOWN-ATTRIBUTES, whether its integrity is of SHA-256, and the password that it is made with. It
carries FINGERPRINT. -/
structure StunTx where
  status : Nat := 200
  txid : Nat := 0
  toIp : Octets := []
  toPort : Nat := 0
  mapped : Option (Octets × Nat) := none
  unknown : List Nat := []
  sha256 : Bool := true
  key : Octets := []
deriving DecidableEq, Repr

/-- A Neighbor Advertisement (R128): its target, its S and O flags, the target link-layer address option, and where it goes. -/
structure NaTx where
  target : Octets := []
  solicited : Bool := true
  override : Bool := true
  linkLayer : Octets := []
  toMac : Octets := []
  toIp : Octets := []
deriving DecidableEq, Repr

/-- An ARP reply (R128): the address asked for, the station address that answers, and the requester's addresses. -/
structure ArpTx where
  target : Octets := []
  mac : Octets := []
  toMac : Octets := []
  toIp : Octets := []
deriving DecidableEq, Repr

/-- Where a datagram of HDP goes: an address of 16 octets, IPv4 as IPv4-mapped, and a UDP port. -/
structure HdpDest where
  ip : Octets := []
  port : Nat := 0
deriving DecidableEq, Repr

/-- What the block sends on the network (R12). An `hdp` datagram is where it goes, its session, its type, its SEQ, its KEY_SLOT, the key it is
sealed under and its plain payload (R82). -/
inductive NetOut where
  | rtp (p : TxPkt) (s : Seal)
  | rtcp (leg : Nat) (parts : List RtcpTx) (s : Seal)
  | stun (leg : Nat) (m : StunTx)
  | arpReply (vlan : Nat) (m : ArpTx)
  | naReply (vlan : Nat) (m : NaTx)
  | ptp (inst transport : Nat) (m : PtpTx)
  | raw (leg : Nat) (data : Octets)
  | hdp (dest : HdpDest) (session type seq keySlot : Nat) (sealKey payload : Octets)
deriving DecidableEq, Repr

/-- How a frame is marked (R88, R170): its DSCP and, on a tagged address entry, its VLAN and 802.1Q priority. Each is none where
the spec states none. -/
structure Marks where
  dscp : Option Nat := none
  vlan : Nat := 0
  pcp : Option Nat := none
deriving DecidableEq, Repr

/-- How a period's picture came to be (R239, R246, R247, R288): coded, a skip picture, an all-intra coast picture or a privacy blank. -/
inductive CodedKind where
  | coded
  | skip
  | coast
  | blank
deriving DecidableEq, Repr

/-- What a bitstream says of an encoded picture beyond its size (R235, R242 to R252): its period, temporal ID and type, the reference it
names and the one that it becomes, the slice QP or base_q_idx, the quantiser change of each row, none where the row codes none, the rows that
coast, the vectors of its coding blocks, and whether an exact entry version goes with it. -/
structure CodedPict where
  period : Nat := 0
  tid : Nat := 0
  intra : Bool := false
  kind : CodedKind := .coded
  ref : Option Nat := none
  refresh : Option Nat := none
  quant : Nat := 0
  deltas : List (Option Int) := []
  coastFrom : Option Nat := none
  vectors : List (Nat × (Int × Int)) := []
  exact : Bool := false
deriving DecidableEq, Repr

/-- What a slot of a spliced picture carries (R276, R280, R281): the picture of an encode as it stands, an entry version of it, a skip tile, or
the intra version of the filler. -/
inductive SliceData where
  | tile (e : EncId)
  | entry (e : EncId)
  | skip
  | filler
deriving DecidableEq, Repr

/-- The NAL unit types that the splicer writes (R276). -/
inductive NalType where
  | idrWRadl
  | trailR
  | tsaR
  | tsaN
deriving DecidableEq, Repr

/-- What the splicer writes into a viewer's picture (R276, R277): its period and temporal ID; in HEVC the NAL unit type,
slice_pic_order_cnt_lsb, the pictures that short_term_ref_pic_set keeps, as POC differences, and whether the template's parameter sets go before it; in AV1
the temporal delimiter and whether a sequence header goes before the frame. `slices` are the slice address and the data of each slot, in order. -/
structure SplicedPict where
  period : Nat := 0
  tid : Nat := 0
  nal : Option NalType := none
  poc : Nat := 0
  keeps : List Int := []
  sets : Bool := false
  delimiter : Bool := false
  slices : List (Nat × SliceData) := []
deriving DecidableEq, Repr

/-- What leaves the block, oldest first in the outbox. `answer` is the code a dictionary access of the table's own command
rows draws (0 where it is done), and `value` what such a read returns. -/
inductive Output where
  | answer (src : Src) (index sub code : Nat)
  | value (src : Src) (index sub : Nat) (data : Octets)
  | can (cob : Nat) (data : Octets)
  | net (port : Nat) (marks : Marks) (n : NetOut)
  | pulse (k : Nat) (active high : Bool)
  | picture (enc : EncId) (planes : List (List (List Nat)))
  | coded (enc : EncId) (c : CodedPict)
  | spliced (leg : Nat) (c : SplicedPict)
  | snapOut (high : Bool)
  | avsWrite (mv : Nat)
  | flash (half : Nat)
  | burst (channel addr : Nat) (data : Octets)
  | handles (domain : Nat) (given : List Nat)
deriving DecidableEq, Repr

end Sys2Proof.Machine
end

