-- ==== Sys2Proof/Machine/PartsCore.lean ====
section
/-! DEFINITION. The state of the dictionary, the stride generator, the time bases, CAN, HDP, keys and the error
log that the object dictionary does not hold as objects. Times are in units of 2^-16 ns unless a name says
otherwise; a stride number is a value of STRIDE_COUNT. -/

namespace Sys2Proof.Machine

/-- Where a value of the dictionary stands: the object, the unit its index names and the place of its subindex. -/
structure Key where
  o : Obj
  u : Nat := 0
  k : Nat := 0
deriving DecidableEq, Repr

/-- A time base (R38 to R46). `integ` is the servo's integrator, `samples` the LOCK_COUNT; `written` says that
TB_TIME has been written since cold reset, `locked` that the servo state is LOCKED, `revalidate` that VALID returns at
the first edge of resumed service (R58); `utc` is the offset of the grandmaster's Announce (R42), `sample` the last offset
sample with its interval in ns (R43), `ended` that the holdover has run out (R44). -/
structure TimeBase where
  t : Nat := 0
  acc : Nat := 0
  valid : Bool := false
  written : Bool := false
  integ : Int := 0
  lockCount : Nat := 0
  locked : Bool := false
  holdover : Bool := false
  source : Bool := false
  revalidate : Bool := false
  utc : Option Int := none
  sample : Option (Int × Nat) := none
  ended : Bool := false
deriving DecidableEq, Repr

/-- The stride generator (R18 to R21). `edge` is the time at which the next edge falls on the stride time base,
`phase` the place in the 25-cycle sequence of R38, `cycle` the packet-engine cycles since the last edge,
`total` those since release, `first` says that no edge has fallen since release, `start` is the time at which the present stride began. -/
structure StrideGen where
  running : Bool := false
  edge : Int := 1666666 * 65536
  phase : Nat := 0
  cycle : Nat := 0
  total : Nat := 0
  first : Bool := true
  start : Int := 0
deriving DecidableEq, Repr

/-- A pulse output (R51 to R54): the level now, and the cycles it still has to last. -/
structure Pulse where
  active : Bool := false
  left : Nat := 0
deriving DecidableEq, Repr

/-- One capture (R55): its stamp, its sequence number and its edge. -/
structure Capture where
  time : Nat := 0
  seq : Nat := 0
  rising : Bool := false
deriving DecidableEq, Repr

/-- A capture input (R55, R56): the FIFO of 16, oldest first, the capture last read and the count of all taken. -/
structure CaptureIn where
  fifo : List Capture := []
  last : Capture := {}
  seq : Nat := 0
  level : Bool := false
deriving DecidableEq, Repr

/-- A foreign master that a port hears (R47): the data set of its last Announce, and the strides at which the last two came, newest
first. -/
structure Foreign where
  data : PtpData := {}
  heard : List Nat := []
deriving DecidableEq, Repr

/-- A PTP port (R47, R48): the foreign masters it hears, the best of those that qualify, the last Sync, the end-to-end and the
peer-to-peer exchange in hand, the Announce intervals that a new MASTER still waits, its own sequence number, and how many messages
it has discarded. `t1` is the master's send stamp of the last Sync with its corrections, `lastSync` its receive stamp. -/
structure PtpPort where
  foreign : List Foreign := []
  best : Option PtpData := none
  syncSeq : Nat := 0
  syncRx : Option Nat := none
  syncCorr : Int := 0
  t1 : Option Nat := none
  lastSync : Option Nat := none
  delayTx : Option Nat := none
  delaySeq : Nat := 0
  peerTx : Option Nat := none
  peerSeq : Nat := 0
  peer : Option (PtpId × (Nat × Nat)) := none
  peerCorr : Int := 0
  qualify : Nat := 0
  txSeq : Nat := 0
  discarded : Nat := 0
deriving DecidableEq, Repr

/-- The NMT states (R75). -/
inductive Nmt where
  | initialising
  | preOperational
  | operational
  | stopped
deriving DecidableEq, Repr

/-- An SDO transfer in hand (R77): the object, its direction, the data gathered or still to send, and the stride of the client's last
frame. -/
structure SdoXfer where
  index : Nat := 0
  sub : Nat := 0
  download : Bool := true
  kind : SdoKind := .segmented
  size : Nat := 0
  data : Octets := []
  toggle : Bool := false
  seq : Nat := 0
  crc : Nat := 0
  heard : Nat := 0
deriving DecidableEq, Repr

/-- The CAN port (R71 to R81). `lastEmcy` is the stride of the last EMCY sent, `tpdo` the last value and stride each
TPDO was sent with. `node` and `bitrate` are those in force. -/
structure Can where
  nmt : Nmt := .initialising
  node : Nat := 127
  bitrate : Nat := 1
  sdo : Option SdoXfer := none
  lastEmcy : Option Nat := none
  commBit : Bool := false
  tpdo : List (Nat × (Octets × Nat)) := []
  ticks : Nat := 0
deriving DecidableEq, Repr

/-- A subscription (R93, R94). `first` says that no sample has been taken; `last` is what was last sent. -/
structure Subscription where
  period : Nat := 0
  entries : List RdEntry := []
  seq : Nat := 0
  next : Nat := 0
  first : Bool := true
  last : Octets := []
deriving DecidableEq, Repr

/-- An open bulk transfer (R96, R97): the object and the request that opened it, the bytes of a load received so far as (offset,
bytes), newest first, the copy of a read, the P4 buffers taken, and the stride it opened in. -/
structure Bulk where
  index : Nat := 0
  sub : Nat := 0
  load : Bool := true
  total : Nat := 0
  crc : Nat := 0
  req : Nat := 0
  parts : List (Nat × Octets) := []
  copy : Octets := []
  handles : List Nat := []
  opened : Nat := 0
deriving DecidableEq, Repr

/-- What a request that waits for its turn asks for (R90, R91): an HDP READ, WRITE, BULK_BEGIN or BULK_END; an SDO download with the frame that answers it, an
SDO upload, or the entries of an RPDO; or a write that is a command of its own. -/
inductive ReqBody where
  | read (entries : List RdEntry)
  | write (entries : List WrEntry)
  | bulkBegin (index sub : Nat) (load : Bool) (total crc : Nat)
  | bulkEnd
  | sdoDownload (index sub : Nat) (data answer : Octets)
  | sdoUpload (index sub : Nat) (kind : SdoKind)
  | rpdo (entries : List (Nat × (Nat × Nat))) (data : Octets)
  | access (src : Src) (index sub : Nat) (data : Octets)
deriving DecidableEq, Repr

/-- A request held in the execution queue (R90); the session and the identifier are an HDP request's. -/
structure HdpReq where
  session : Nat := 0
  req : Nat := 0
  accepted : Nat := 0
  body : ReqBody := .read []
deriving DecidableEq, Repr

/-- An open HDP session (R85 to R95). `high` is the highest SEQ accepted, `seen` those accepted within the replay
window; `peer` is where its last datagram came from; `kept` holds the answers of the last 32 requests with their type and stride (R89). -/
structure Session where
  id : Nat := 0
  peer : HdpDest := {}
  slot : Nat := 0
  key : Octets := []
  timeout : Nat := 10
  high : Nat := 0
  seen : List Nat := []
  txSeq : Nat := 1
  heard : Nat := 0
  kept : List (Nat × (Nat × (Nat × Octets))) := []
  subs : List (Nat × Subscription) := []
  errMask : Option Nat := none
  bulk : Option Bulk := none
deriving DecidableEq, Repr

/-- HDP (R82 to R99): the last OPEN SEQ of each slot, the sessions, the execution queue, the entries still to be
executed in this stride, and the punt hold: the PUNT_RX payloads that wait (R98). -/
structure Hdp where
  openSeq : List (Nat × Nat) := []
  sessions : List Session := []
  queue : List HdpReq := []
  left : Nat := 128
  punt : List Octets := []
deriving DecidableEq, Repr

/-- The keys and salts of one leg (R449, R450), by direction: held and pending, and whether each was written since
the leg entered REKEY; `rxOld` is the receive key that the last edge replaced (R153). -/
structure LegKeys where
  tx : Option Octets := none
  rx : Option Octets := none
  txPending : Option Octets := none
  rxPending : Option Octets := none
  txNew : Bool := false
  rxNew : Bool := false
  suite : Nat := 0
  install : Bool := false
  rxOld : Option Octets := none
deriving DecidableEq, Repr

/-- A service-cipher job in hand (R453). -/
structure ScJob where
  status : Nat := 2
  output : Octets := []
  tag : Option Octets := none
deriving DecidableEq, Repr

/-- Keys, the service cipher, alarms and the owner slots (R445 to R463) beyond their objects. -/
structure Sec where
  tk : Option Octets := none
  slots : List (Nat × Octets) := []
  hdpKeys : List (Nat × Octets) := []
  legKeys : List (Nat × LegKeys) := []
  leaseEnd : Nat := 0
  job : Option ScJob := none
  erasing : Bool := false
  attestNonce : Octets := []
  attestFields : Option Octets := none
  attestAsked : Bool := false
  ownerNext : List (Nat × Octets) := []
  ownerRevokeNext : Nat := 0
deriving DecidableEq, Repr

/-- The units that the fault rules retire, by kind (R376). -/
inductive UnitId where
  | cell (c : Nat)
  | block (b : Nat)
  | pair (p : Nat)
  | composer (k : Nat)
deriving DecidableEq, Repr

/-- The error log and fault handling beyond their objects (R376, R395). `slots` is the ring, `cycle` the records of the
command in hand that have no sequence number yet, each with the EMCY code of its alarm, `fresh` the records logged since the last edge, `seen` the corrected codes and units logged in this lap, `hits` the laps at which each
unit had a recovered fault, `rails` the corrected lines of each rail in this lap, `stages` the uncorrectable errors
of each chip stage in this lap, `rehome` the blocks whose flows move at the next edge (R383), `injected` the targets of faults still
to strike (R475), `isolated` the pairs and composers that a failed region or clock isolated (R387, R423), `failed` the items of this
stride that a fault ended without a re-run (R380), `silent` the legs whose region has failed and whose audio stays concealed through
the next stride (R387). -/
structure Faults where
  slots : List (Nat × Rec) := []
  cycle : List (Rec × Option Nat) := []
  fresh : List Rec := []
  seen : List (Nat × Nat) := []
  hits : List (UnitId × List Nat) := []
  rails : List (Nat × Nat) := []
  stages : List (Nat × Nat) := []
  resetAdvised : Bool := false
  overcommitted : List Nat := []
  rehome : List Nat := []
  injected : List Nat := []
  isolated : List UnitId := []
  failed : List (ItemKind × Nat) := []
  silent : List Nat := []
deriving DecidableEq, Repr

/-- The governor (R403 to R414) and the voltage request (R483) beyond their objects: P1 and the domains' energies of the last 60
strides, newest last, the edge of the last climb, the edges below the hard limit and those that meet the restore test in a row, P1
before the throttle was set, the calibration ratio, whether THERMAL stands, DOZE and wake asked, AVS failures in a row, the lap
of the last fall and the transaction in hand, and whether the DRAM estimate has reached 85 °C and not fallen below 82 °C since (R350), CH_BYTES at the last edge (R405), and the edges at which each domain has been found idle
in a row (R398). -/
structure Gov where
  p1s : List Nat := []
  doms : List (List Nat) := []
  climbAt : Option Nat := none
  calm : Nat := 0
  hold : Nat := 0
  gainFrom : Option Nat := none
  ratio : Nat × Nat := (1, 1)
  hot : Bool := false
  doze : Bool := false
  wake : Bool := false
  avsFails : Nat := 0
  avsHeld : Bool := false
  fallLap : Option Nat := none
  avsOpen : Option Nat := none
  dramHot : Bool := false
  bytes : List Nat := []
  idle : List (Nat × Nat) := []
deriving DecidableEq, Repr

/-- The level of an output pin (R443). -/
inductive Level where
  | hiZ
  | low
  | high
  | held
  | idle
  | driven
deriving DecidableEq, Repr

/-- Output pins whose level the spec fixes through reset (R443, R469), and the SerDes references lost and the one
that the shared transmit clock follows (R485). -/
structure Pins where
  healthy : Level := .hiZ
  snapOut : Level := .hiZ
  tout : Level := .hiZ
  ddrResetN : Level := .hiZ
  ddrCke : Level := .hiZ
  ddrOther : Level := .hiZ
  canTxd : Level := .hiZ
  xspiCsn : Level := .hiZ
  xspiOther : Level := .hiZ
  serdes : Level := .hiZ
  srefLost : List Nat := []
  txClock : Nat := 0
deriving DecidableEq, Repr

/-- The reset that is asked for, with the edge that performs it (R421). -/
inductive ResetAsk where
  | warm
  | cold
  | region (g : Nat)
deriving DecidableEq, Repr

/-- One half of the flash as the device left it (R425, R431): untouched, or touched since and holding a whole image or none. -/
structure Half where
  touched : Bool := false
  img : Option OptCopy := none
deriving DecidableEq, Repr

/-- Reset, release and the option block (R419 to R443) beyond their objects. `released` says that PORn has risen, `step` is the last
release step done (R422), `handed` that a handover has been since cold reset. `asks` holds the resets asked for with the edges left and
the interface (R421), `warmSource` the SOURCE of a warm reset in hand, `resumeAt` the stride at which service resumes after it.
`carried` are the legs that a return to warm-up carries, `returnDue` says that full service has lost its channels (R346, R437);
`pImages` are the values that P images gave (R65); `tapReset` that TRSTn has reset the TAP controller (R419). -/
structure Reset where
  released : Bool := false
  inWarm : Bool := false
  warmSource : Nat := 1
  step : Nat := 0
  packetPll : Bool := false
  ddrPll : Bool := false
  fabricPll : List Nat := []
  fabricFailed : List Nat := []
  optDone : Bool := false
  handed : Bool := false
  asks : List (Nat × (ResetAsk × Bool)) := []
  standing : List Standing := []
  halfA : Half := {}
  halfB : Half := {}
  writeHalf : Nat := 0
  writing : Option OptCopy := none
  handoverAt : Option Nat := none
  resumeAt : Option Nat := none
  carried : List Nat := []
  returnDue : Bool := false
  pImages : List (Key × Val) := []
  tapReset : Bool := false
deriving DecidableEq, Repr

end Sys2Proof.Machine
end

