-- ==== Sys2Proof/Machine/PartsNet.lean ====
section
/-! DEFINITION. The state of the packet path and of a leg's line: ports, policers, receive slots, jitter buffers,
the video hold, send records, the adaptation loop and the egress queues. -/

namespace Sys2Proof.Machine

/-- A replay window (R142): the highest accepted index and a mask whose bit i is set when the index `high - i` was
accepted. -/
structure Window where
  high : Nat := 0
  mask : Nat := 0
deriving DecidableEq, Repr

/-- What a receive slot counts for its RR blocks (R163), as RFC 3550 has them: the first index and how many packets came, both figures
as they stood at the last report, sixteen times the jitter with the last transit time, and the last SR with its stamp. -/
structure RxCount where
  first : Option Nat := none
  count : Nat := 0
  expectedAt : Nat := 0
  countAt : Nat := 0
  jitter16 : Nat := 0
  transit : Option Int := none
  lsr : Nat := 0
  lsrAt : Nat := 0
deriving DecidableEq, Repr

/-- A receive SSRC slot (R141): the SSRC, its SRTP and SRTCP windows, the stride of its last authenticated packet and its counts. -/
structure SsrcSlot where
  ssrc : Nat := 0
  rtp : Window := {}
  rtcp : Window := {}
  last : Nat := 0
  stats : RxCount := {}
deriving DecidableEq, Repr

/-- Token buckets of a policer (R138), in units of 2^-16 byte: committed, and excess or peak; `last` is the last
stamp in ns, `remC` and `remP` the remainders of the divisions. -/
structure Bucket where
  tc : Nat := 0
  tx : Nat := 0
  last : Nat := 0
  remC : Nat := 0
  remP : Nat := 0
  full : Bool := true
deriving DecidableEq, Repr

/-- The values of a policer profile (R137): its mode, committed rate and burst, excess or peak burst, peak rate, what it does with yellow
packets, and the colours that DSCPs arrive in. -/
structure Profile where
  mode : Nat := 0
  cir : Nat := 0
  cbs : Nat := 0
  ebs : Nat := 0
  pir : Nat := 0
  action : Nat := 0
  floor : Nat := 0
  dscpYellow : Nat := 0
  dscpRed : Nat := 0
deriving DecidableEq, Repr

/-- A packet waiting in a jitter buffer: its timestamp and its length in units of the RTP clock, its codec slot, its payload and its
pool buffer. -/
structure JbPkt where
  ts : Nat := 0
  duration : Nat := 0
  slot : Nat := 0
  payload : Octets := []
  buf : Option Nat := none
deriving DecidableEq, Repr

/-- Decoded samples that wait to be played, in Q1.23 (R145, R176): the position of the first and the distance between two, in half units
of the RTP clock, and whether they are of two channels. -/
structure Pcm where
  at_ : Nat := 0
  unit : Nat := 2
  stereo : Bool := false
  samples : List (Int × Int) := []
deriving DecidableEq, Repr

/-- The jitter buffer of one audio stream (R145, R146). `play` is the play point in half units of the RTP clock, `jitter16` sixteen times the
interarrival jitter and `transit` the last packet's, `depth` the strides from the play point to the end of the newest packet as it came,
`lastMove` the stride of the last play-point move, `slot` the codec slot of the newest packet, `candidates` the timestamps of consecutive packets
outside the timeline, each with its timeline: timestamp less arrival, in units of the RTP clock; `decoders` the decoder state of each codec
slot and `pcm` what has been decoded. -/
structure Jitter where
  anchored : Bool := false
  play : Nat := 0
  clock : Nat := 8000
  pkts : List JbPkt := []
  jitter16 : Nat := 0
  transit : Option Int := none
  frameStrides : Nat := 0
  target : Nat := 0
  depth : Nat := 0
  lastMove : Option Nat := none
  slot : Nat := 0
  candidates : List (Nat × Int) := []
  reanchor : Option Nat := none
  decoders : List (Nat × Octets) := []
  pcm : List Pcm := []
deriving DecidableEq, Repr

/-- A packet of a frame as the hold gathered it (R147): its index, its layer, whether the decoder takes that layer, what its payload
tells and its octets, how many there are, and the buffer that keeps it. -/
structure FramePart where
  index : Nat := 0
  layer : Nat := 0
  wanted : Bool := true
  number : Nat := 0
  seq : Option SeqParams := none
  head : Option FrameHead := none
  payload : Octets := []
  len : Nat := 0
  buf : Option Nat := none
deriving DecidableEq, Repr

/-- A frame gathered in the video hold for decode slot `slot` (R147): its packets, the index that begins it and the one that carries its
marker, the stride of its first packet, and the buffers that keep it. -/
structure HeldFrame where
  ssrc : Nat := 0
  ts : Nat := 0
  slot : Nat := 0
  first : Nat := 0
  parts : List FramePart := []
  begins : Option Nat := none
  marker : Option Nat := none
  bufs : List Nat := []
deriving DecidableEq, Repr

/-- A packet received, as the reports of R163 name it: its SSRC and sequence number, its transport-wide number and its stamp. -/
structure Heard where
  ssrc : Nat := 0
  seq : Nat := 0
  twcc : Option Nat := none
  stamp : Nat := 0
deriving DecidableEq, Repr

/-- A video packet held for NACK and FEC (R148, R305): its SSRC, its index, the stride it came in and its pool buffer. -/
structure HeldPkt where
  ssrc : Nat := 0
  index : Nat := 0
  stride : Nat := 0
  buf : Option Nat := none
deriving DecidableEq, Repr

/-- A FlexFEC packet that waits for the packets it covers (R148): the receive entry that it protects, what it holds and the stride
it came in. -/
structure FecHeld where
  entry : Nat := 0
  info : FecInfo := {}
  stride : Nat := 0
deriving DecidableEq, Repr

/-- A missing video packet that is being requested (R150). -/
structure Gap where
  ssrc : Nat := 0
  seq : Nat := 0
  seen : Nat := 0
  asked : Nat := 0
  lastAsk : Nat := 0
deriving DecidableEq, Repr

/-- The receive side of a leg (R129 to R153): `hold` the frames gathered and `released` those released lately, `vhigh` the highest index
of each video SSRC, `held` the video packets still held (R148), `lastOf` the SSRC each receive entry had most
recently, `nominated` the remote to be adopted at the next edge (R136), `heard` the packets since the last report (R163), `fecs` the parity
packets kept (R148); `jbs` holds the jitter buffers by SSRC, and `voice` the SSRC of the stream that the leg is heard by. -/
structure Rx where
  slots : List (Nat × SsrcSlot) := []
  flush : Bool := false
  bucket : Bucket := {}
  jbs : List (Nat × Jitter) := []
  voice : Nat := 0
  hold : List HeldFrame := []
  released : List (Nat × (Nat × Nat)) := []
  vhigh : List (Nat × Nat) := []
  held : List HeldPkt := []
  gaps : List Gap := []
  lastOf : List (Nat × Nat) := []
  nominated : Option (Octets × Nat) := none
  bye : Bool := false
  heard : List Heard := []
  fecs : List FecHeld := []
deriving DecidableEq, Repr

/-- A send record (R154): what feedback has said of it, as the stride of the latest and the arrival in ns (R155), none for a packet
reported lost. -/
structure SendRec where
  ssrc : Nat := 0
  seq : Nat := 0
  twcc : Option Nat := none
  len : Nat := 0
  stamp : Nat := 0
  stride : Nat := 0
  report : Option (Nat × Option Int) := none
deriving DecidableEq, Repr

/-- The four queues of a leg (R164). -/
inductive LegQueue where
  | control
  | audio
  | retransmission
  | video
deriving DecidableEq, Repr

/-- What stands in an egress queue (R164): an RTP packet, or RTCP parts, PUNT_TX bytes or a STUN answer, and its pool buffer (R305). -/
structure QPkt where
  pkt : TxPkt := {}
  stride : Nat := 0
  rtcp : List RtcpTx := []
  raw : Option Octets := none
  stun : Option StunTx := none
  buf : Option Nat := none
deriving DecidableEq, Repr

/-- A packet kept for retransmission (R151). -/
structure Sent where
  pkt : TxPkt := {}
  stride : Nat := 0
  resends : Nat := 0
  lastResend : Nat := 0
  buf : Option Nat := none
deriving DecidableEq, Repr

/-- The states of the line (R156, R172). -/
inductive LineState where
  | normal
  | overuse
  | underuse
  | noFeedback
deriving DecidableEq, Repr

/-- The number of a line state (R172). -/
def LineState.num : LineState → Nat
  | .normal => 0
  | .overuse => 1
  | .underuse => 2
  | .noFeedback => 3

/-- Feedback that waits for a loop item (R158): the loss and round trip of an RR, or what a report says of packets, by SSRC and sequence
number with the arrival in ns, none for one reported lost. -/
inductive Feedback where
  | rr (loss rtt : Nat)
  | report (packets : List ((Nat × Nat) × Option Int))
deriving DecidableEq, Repr

/-- The adaptation loop of a leg (R155 to R160). Rates are in bit/s; `rtt` is in 2^-16 s and `rttSeen` says that it was measured;
`useRtt` and `useLoss` are those the loop works with. `waiting` holds feedback not yet used, with the stride it came in; `group` is the stride of
the last send group that completed; `acked`, `unpaced`, `resent` and `sentBytes` are the windows of R155 and R161 as (stride, amount). `tmmbr`
holds the bounds in force by the SSRC that asks, the SSRC bounded and whether a TMMBN names it, and `tmmbn` the SSRCs whose TMMBR awaits its
answer. -/
structure Loop where
  e : Nat := 0
  lastCut : Nat := 0
  sinceCut : Nat := 1000000
  sinceLossCut : Nat := 1000000
  sinceFb : Nat := 0
  acc : Int := 0
  sm : Int := 0
  sms : List Int := []
  overCount : Nat := 0
  state : LineState := .normal
  prev : Option (Int × Int) := none
  group : Option Nat := none
  acked : List (Nat × Nat) := []
  rrLoss : Nat := 0
  rtt : Nat := 7864
  rttSeen : Bool := false
  useLoss : Nat := 0
  useRtt : Nat := 7864
  tmmbr : List ((Nat × (Nat × Bool)) × Nat) := []
  tmmbn : List Nat := []
  unpaced : List (Nat × Nat) := []
  resent : List (Nat × Nat) := []
  sentBytes : List (Nat × Nat) := []
  waiting : List (Nat × Feedback) := []
  pending : Option Nat := none
  ran : Bool := false
deriving DecidableEq, Repr

/-- A FlexFEC group of one media SSRC (R162): its size, how many packets have entered it, and the parity so far. -/
structure FecGroup where
  k : Nat := 0
  count : Nat := 0
  parity : FecTx := {}
  most : Nat := 0
deriving DecidableEq, Repr

/-- The send side of a leg (R154 to R175). `credit` is a of R29; `eligible` the packet-engine cycle before which the
next paced packet may not begin (R169); `dropFull` and `dropAge` are, by SSRC, the frame whose later packets are dropped (R164); `audioAt` the
stride at which the next audio frame begins, `due` the kind of each feedback item by its number (R163, R325); `repair` gives, for each media SSRC
and for retransmission or parity, the SSRC and the next sequence number of the stream that repairs it (R151, R162); `counts` the packets and
octets sent by SSRC, `fbCount` the transport-wide reports sent (R163). -/
structure Tx where
  control : List QPkt := []
  audio : List QPkt := []
  retransmission : List QPkt := []
  video : List QPkt := []
  dropFull : List (Nat × Nat) := []
  dropAge : List (Nat × Nat) := []
  credit : Int := 0
  target : Nat := 0
  deficit : Nat := 0
  eligible : Nat := 0
  records : List SendRec := []
  history : List Sent := []
  twcc : Nat := 0
  rtcpIndex : Nat := 0
  fecK : Nat := 0
  fecGroup : List (Nat × FecGroup) := []
  repair : List ((Nat × Bool) × (Nat × Nat)) := []
  counts : List (Nat × (Nat × Nat)) := []
  fbCount : Nat := 0
  audioSeq : Nat := 0
  audioTs : Nat := 0
  audioAt : Nat := 0
  audioSsrc : Nat := 0
  rtpIndex : List (Nat × Nat) := []
  due : List (Nat × ReportKind) := []
deriving DecidableEq, Repr

/-- A port (R121, R164 to R167): its system queues, its system bucket, and the round robin places; `visitNormal` and `visitLow` say
that the visit of a weighted group to the leg at its place is still open. -/
structure Port where
  sys : List (Nat × List NetOut) := []
  bucket : Bucket := {}
  rrControl : Nat := 0
  rrAudio : Nat := 0
  rrNormal : Nat := 0
  rrLow : Nat := 0
  visitNormal : Bool := false
  visitLow : Bool := false
  upSince : Nat := 0
  fecStride : Nat := 0
  fecBurst : Bool := false
deriving DecidableEq, Repr

/-- A port pair (R123 to R125): the port that is to become active at the next edge. -/
structure PortPair where
  force : Option Nat := none
deriving DecidableEq, Repr

end Sys2Proof.Machine
end

