-- ==== Sys2Proof/Machine/PartsAudio.lean ====
section
/-! DEFINITION. The state of the audio path: a leg's conditioning, ramps, limiter, frames and events, and a
conference's mixed set. Samples are signed integers in the formats of R176. -/

namespace Sys2Proof.Machine

/-- A linear gain ramp (R199): from `start` to `goal` over `len` samples, `t` of them done. -/
structure Ramp where
  start : Int := 0
  goal : Int := 0
  t : Nat := 0
  len : Nat := 0
deriving DecidableEq, Repr

/-- One biquad section's memory (R186). -/
structure Biquad where
  x1 : Int := 0
  x2 : Int := 0
  y1 : Int := 0
  y2 : Int := 0
deriving DecidableEq, Repr

/-- The limiter's memory (R200): the delayed samples, the gains r that lie ahead, and the h of the last 31. -/
structure Limiter where
  xs : List Int := List.replicate 32 0
  rs : List Nat := List.replicate 32 0x8000
  hs : List Nat := List.replicate 32 0x8000
deriving DecidableEq, Repr

/-- A rate converter's memory (R185): the input samples before this stride's, newest first. -/
structure Conv where
  hist : List Int := []
deriving DecidableEq, Repr

/-- An entry of the event FIFO (R195). -/
structure LegEvent where
  start : Nat := 0
  duration : Nat := 0
  code : Nat := 0
  inband : Bool := false
deriving DecidableEq, Repr

/-- An RFC 4733 event (R194): its timestamp, its code, the stride it began in, its duration and the stride of its last packet. One that
has ended is kept so that its further end packets are known. -/
structure OpenEvent where
  ts : Nat := 0
  code : Nat := 0
  start : Nat := 0
  duration : Nat := 0
  heard : Nat := 0
  ended : Bool := false
deriving DecidableEq, Repr

/-- The DTMF detector (R192, R193): the samples of the block in hand, the digit carried by the last block, the digit in progress with its
stride, the blocks without it and the stride of the first. -/
structure Dtmf where
  block : List Int := []
  last : Option Nat := none
  active : Option (Nat × Nat) := none
  misses : Nat := 0
  missAt : Nat := 0
  suppress : Bool := false
deriving DecidableEq, Repr

/-- A leg's audio (R176 to R206). `x` is the stage-8 output of this stride, `done` says the input item completed in
it; `last8` and `last14` are the previous stride's outputs, `hist` the last 960 stage-5 samples; `frame` gathers the
samples of the send frame in hand, `ready` a whole frame with its timestamp; `want` says that this stride's items were
dispatched, `outDone` that the output item completed; `rep` is the period that pitch repetition repeats. `move` is a play-point move that waits,
with its strides; `events` the event FIFO and `openEv` the RFC 4733 events known; `blank` says that tone suppression holds the contribution,
and whether the leg was in the mixed set as it began (R193); `concealedAt` is the stride last counted as concealed; `enc` is the state of
the send codec (R179). -/
structure LegAudio where
  gate : Bool := false
  gateHold : Nat := 0
  gateGain : Int := 0
  gamma : Int := 0
  agcGain : Int := 0x1000
  lambda : Nat := 0
  alpha : Int := 0
  closedFor : Nat := 0
  inPeakAge : Nat := 0
  outPeakAge : Nat := 0
  x : List Int := []
  done : Bool := false
  cut : Bool := false
  last8 : List Int := List.replicate 80 0
  last14 : List Int := List.replicate 80 0
  hist : List Int := []
  lossRun : Nat := 0
  period : Nat := 0
  join : Bool := false
  cuts8 : Nat := 0
  cuts14 : Nat := 0
  srcIn : Conv := {}
  srcOut : Conv := {}
  inBq : List Biquad := List.replicate 4 {}
  outBq : List Biquad := List.replicate 4 {}
  g : Ramp := {}
  h : Ramp := {}
  lim : Limiter := {}
  frame : List Int := []
  frameStrides : Nat := 0
  ready : Option (List Int) := none
  marker : Bool := true
  move : Option (Bool × Nat) := none
  dtmf : Dtmf := {}
  events : List LegEvent := []
  openEv : List OpenEvent := []
  outCut : Bool := false
  want : Bool := false
  outDone : Bool := false
  rep : List Int := []
  readyTs : Nat := 0
  fresh : Option (List Int × Nat) := none
  blank : Option Bool := none
  concealedAt : Option Nat := none
  enc : Octets := []
deriving DecidableEq, Repr

/-- A member of a conference's mixed set: its leg and the stride it entered (R196). -/
structure Member where
  leg : Nat := 0
  since : Nat := 0
  pinned : Bool := false
deriving DecidableEq, Repr

/-- A conference's mix (R196 to R199): the mixed set, the lead counts, the legs in ramp-out places, the legs that
wait for one, the contributions of this stride and their sum. `cap` is the CONF_MIX_N of the last stride, and `barred` the pinned legs that a
lowered one put out (R203). -/
structure ConfMix where
  set : List Member := []
  lead : List (Nat × Nat) := []
  places : List Nat := []
  waiting : List Nat := []
  w : List (Nat × List Int) := []
  m : List Int := []
  mixed : Bool := false
  want : Bool := false
  homes : List Nat := []
  cap : Nat := 8
  barred : List Nat := []
deriving DecidableEq, Repr

end Sys2Proof.Machine
end

