-- ==== Sys2Proof/Machine/PartsMem.lean ====
section
/-! DEFINITION. The state of the DRAM channels and of the pool manager beyond their objects. -/

namespace Sys2Proof.Machine

/-- One free list of a pool (R363). `stack` holds the freed indices, head first; below them stand the indices of the
list that were never taken, the highest on top: `late` of them from the `lateFrom`-th on, then `virgin` of them from the list's first
on; their GENERATION is `virginGen`. `given` counts the buffers that initialisation has handed to the list (R348). -/
structure PoolList where
  stack : List Nat := []
  virgin : Nat := 0
  virginGen : Nat := 0
  late : Nat := 0
  lateFrom : Nat := 0
  given : Nat := 0
deriving DecidableEq, Repr

/-- A buffer descriptor (R361), with the use it was allocated for. `copying` says that the mirror placement waits for
its copy (R345). -/
structure Desc where
  allocated : Bool := false
  lost : Bool := false
  keep : Bool := false
  mirrored : Bool := false
  gen : Nat := 0
  owner : Nat := 0
  share : Nat := 0
  refs : Nat := 0
  primary : Nat := 0
  mirror : Nat := 0
  account : Option Nat := none
  shadow : Bool := false
  use : PoolUse := .rxPacket
  copying : Bool := false
  waiting : Bool := false
deriving DecidableEq, Repr

/-- The pool manager (R358 to R371): the lists by pool and channel (channel 4 is region 0 memory, R360), the descriptors
by pool and index, the bytes charged to each domain and conference, and the failed allocations of this lap by pool. `managed` are the
handles that the packet path and the coders hold, with the references counted for each; `current` the buffer of the packet in
the ingress pipeline (R122, R305). -/
structure Pool where
  lists : List ((Nat × Nat) × PoolList) := []
  descs : List ((Nat × Nat) × Desc) := []
  dom : List (Nat × Nat) := []
  conf : List (Nat × Nat) := []
  failed : List (Nat × Nat) := []
  managed : List (Nat × Nat) := []
  current : Option Nat := none
  images : List ((Nat × Nat) × List Nat) := []
deriving DecidableEq, Repr

/-- The predictor of one bank (R352): k, the row last accessed, and whether its page is open. -/
structure Bank where
  k : Nat := 2
  row : Option Nat := none
  isOpen : Bool := false
deriving DecidableEq, Repr

/-- A DRAM channel beyond its objects (R335 to R356). `hits` counts corrected bursts of this lap by rank and device, `ue`
its uncorrectable ones, `alerts` the strides with CA parity errors among the last 16, `due` the postponed refreshes,
`sweeps` those since the last pause, `lanes` the distance of the centres from their trained
place, by twice the rank, plus 1 for writes; `held` is
CH_STATE before self-refresh, `inited` the bytes that initialisation has written (R348), `interval` the ns from the last refresh due to the
next (R350). -/
structure Chan where
  hits : List (Nat × Nat) := []
  ue : Nat := 0
  alerts : List Nat := []
  due : Nat := 0
  sweeps : Nat := 0
  pauseRank : Nat := 0
  pauseWrite : Bool := false
  lanes : List (Nat × Int) := []
  banks : List ((Nat × Nat) × Bank) := []
  neighbours : List (Nat × (Nat × Nat)) := []
  scan : Option Nat := none
  held : Nat := 0
  step : Nat := 0
  ms : Nat := 0
  retrain : Bool := false
  inited : Nat := 0
  interval : Nat := 0
deriving DecidableEq, Repr

end Sys2Proof.Machine
end

