-- ==== Sys2Proof/Machine/PartsSched.lean ====
section
/-! DEFINITION. The state of the cells, the block schedulers and the arbiters beyond their objects. -/

namespace Sys2Proof.Machine

/-- A work item (R317). `unit` is its leg, conference or cell, `ready` the packet-engine cycle since release at which it
became ready, `carried` says that it comes from an earlier stride, `counted` that ITEMS_DEFERRED has counted it (R28, R324), `seq`
numbers the items of an ordered flow (R325). -/
structure Item where
  kind : ItemKind
  unit : Nat := 0
  ready : Nat := 0
  carried : Bool := false
  counted : Bool := false
  est : Nat := 0
  seq : Nat := 0
deriving DecidableEq, Repr

/-- How a result of an ordered flow stands (R325). -/
inductive OrderSlot where
  | unfinished
  | held (parts : List RtcpTx)
  | void
deriving DecidableEq, Repr

/-- A block (R320 to R325): its ready items, the order of the feedback results of each leg, the cycles its audio ended at
in this lap, whether it waits to name a new reserve cell (R326), whether a re-run raised its clock (R379), and whether it is in a
reset of its own (R382). -/
structure Blk where
  ready : List Item := []
  order : List (Nat × (Nat × OrderSlot)) := []
  nextSeq : Nat := 0
  peak : Nat := 0
  renameReserve : Bool := false
  boost : Bool := false
  halted : Bool := false
deriving DecidableEq, Repr

/-- The state home of a flow (R318): the lines whose current copy is in the second slot, and the lines written since the last
checkpoint, into the slot that is not current. -/
structure FlowLines where
  second : List Nat := []
  written : List Nat := []
deriving DecidableEq, Repr

/-- A cell (R321, R322, R328): the item it runs, its prefetch slots, first filled first, the packet-engine cycle its item
began at, its busy cycles of this stride, the cycle its clock stopped at, whether a fault keeps it from placement until the next
edge (R378), the lines of state that its local memory holds of the flows that it ran, the latest first (R313, R319), and the fetches of
kernel ROM that its loop cache holds, the latest first (R314). -/
structure Cell where
  running : Option Item := none
  slots : List Item := []
  began : Nat := 0
  busy : Nat := 0
  stopped : Option Nat := none
  gatedAcc : Nat := 0
  halted : Bool := false
  kept : List ((ItemKind × Nat) × List Nat) := []
  tags : List Nat := []
deriving DecidableEq, Repr

/-- An arbiter (R329, R330): its pointer, the requester it serves, the grants to panic among the last three, the
requester a sweep interrupted, and whether a sweep holds the grant. -/
structure Arbiter where
  ptr : Nat := 0
  panicPtr : Nat := 0
  current : Option Nat := none
  recent : List Bool := []
  interrupted : Option Nat := none
deriving DecidableEq, Repr

end Sys2Proof.Machine
end

