-- ==== Sys2Proof/Machine/PartsVideo.lean ====
section
/-! DEFINITION. The state of video: decode slots, encodes, composer items, spliced views and forwarding. -/

namespace Sys2Proof.Machine

/-- A picture a decode slot holds (R217, R224): its RTP timestamp, its layer, its coded and displayed size and depth, whether it is
CONCEALED or intra, its POC and frame_num, the AV1 slots that hold it, whether it is a reference, whether it waits for its turn in output order, its
motion vectors and its pool buffers. -/
structure Picture where
  ts : Nat := 0
  layer : Nat := 0
  width : Nat := 0
  height : Nat := 0
  shown : Nat × Nat := (0, 0)
  deep : Bool := false
  concealed : Bool := false
  intra : Bool := false
  order : Int := 0
  number : Nat := 0
  slots : Nat := 0
  reference : Bool := false
  waits : Bool := false
  motion : List (Option (Int × Int)) := []
  bufs : List Nat := []
deriving DecidableEq, Repr

/-- A frame the video hold released, waiting for an edge, or a decode item on its pair (R218, R219). `complete` says
that no packet of it was missing; `parts` and `bufs` are its packets and the buffers that keep them (R227); `ctx` says that the pair has a context
open for it, `pair` is the other pair that a fault moved it to (R384). `parsed` says that its headers were read, `ended` that its last record was
written, `runs` are the coding blocks reconstructed and `errors` the syntax errors found; `out` are the buffers of its pictures, by layer. -/
structure DecItem where
  ts : Nat := 0
  complete : Bool := true
  parts : List FramePart := []
  bufs : List Nat := []
  deadline : Nat := 0
  released : Nat := 0
  ctx : Bool := false
  pair : Option Nat := none
  parsed : Bool := false
  ended : Bool := false
  runs : List BlockRun := []
  errors : Nat := 0
  out : List (Nat × List Nat) := []
deriving DecidableEq, Repr

/-- A decode slot (R215 to R229): frames waiting for release, items on the pair, the picture allowance, the last output, and whether a
random access point has been decoded since it began. `seq` are the parameters in force, `pics` the references and the pictures that wait for
output, `newest` the most recent decoded picture of each layer, `begun` the layers decoded from a random access point on, `prev` the last frame_num,
`numbers` the frame numbers decoded lately, `stale` the AV1 slots that a lost frame may have refreshed, `skipRasl` whether RASL pictures are discarded (R223);
`context` is its context buffer (R227). -/
structure DecSlot where
  waiting : List DecItem := []
  active : List DecItem := []
  allowance : Nat := 0
  seq : Option SeqParams := none
  pics : List Picture := []
  newest : List (Nat × Picture) := []
  last : Option Picture := none
  concealing : Bool := false
  started : Bool := false
  begun : List Nat := []
  prev : Option Nat := none
  numbers : List Nat := []
  stale : Nat := 0
  skipRasl : Bool := false
  context : List Nat := []
deriving DecidableEq, Repr

/-- A picture being encoded (R239 to R246): its period, deadline, budget, weighted share, type, temporal ID and rows.
`bits` and `qps` are those of rows finished and chosen, `satd` the SATD of rows analysed, `fresh` the complexity of rows finished,
`coastAt` the first coast row; `serves` says that it codes an entry
version, `ctx` that the pair has a context open for it, `pair` the other pair that a fault moved it to (R384). `ref` is the reference it
predicts from and `refresh` the one it becomes (R235), `hints` the motion hints by coding block (R254), `vectors` those chosen (R250), `input`
and `recon` the buffers of its input and of its reconstruction (R238). -/
structure EncPic where
  period : Nat := 0
  deadline : Nat := 0
  released : Nat := 0
  budget : Int := 0
  share : Int := 0
  intra : Bool := false
  tid : Nat := 0
  rows : Nat := 1
  header : Nat := 0
  bits : List Nat := []
  qps : List Nat := []
  satd : List Nat := []
  fresh : List (Nat × Nat) := []
  coastAt : Option Nat := none
  serves : Bool := false
  ctx : Bool := false
  pair : Option Nat := none
  ref : Option Nat := none
  refresh : Option Nat := none
  hints : List (Nat × (Int × Int)) := []
  vectors : List (Nat × (Int × Int)) := []
  input : List Nat := []
  recon : List Nat := []
deriving DecidableEq, Repr

/-- The outcome of a period's picture: emitted or replaced (R246, R288), with its temporal ID, its bits, and the bits of the
entry version that it carries. -/
structure EncOut where
  period : Nat := 0
  skip : Bool := false
  tid : Nat := 0
  bits : Nat := 0
  entry : Option Nat := none
deriving DecidableEq, Repr

/-- An encode (R232 to R258). `cur` are its pictures in progress, oldest first. `cls`, `fps` and `top` are the class, the frame rate and the highest temporal ID in force, `down`
the steps taken for a limit cut (R118). `x` holds the complexity of rows by kind (0 intra, 1 + t otherwise) and row, `base` the mean QP
of the last picture of each kind; `final` is the last picture that became final. `asked` is an intra request (R249), with the
FIR it answers; `entryAsked` an entry request, `sinceEntry` the pictures since the last entry version (R251). `shown` is the
picture each layer of its composition showed last, `scales` the sizes that the layer was last scaled from and to (R254), `refs` the buffers of its
references by slot (R235, R246), `context` its context buffer (R257); `blanks` counts privacy blanks in consecutive periods (R288). -/
structure Enc where
  running : Bool := false
  cls : Nat := 0
  fps : Nat := 30
  top : Nat := 0
  down : Nat := 0
  carry : Int := 0
  cur : List EncPic := []
  x : List ((Nat × Nat) × Nat) := []
  base : List (Nat × Nat) := []
  hasRef : Bool := false
  lastIntra : Option (Nat × Nat) := none
  asked : Bool := false
  lastFir : Option Nat := none
  entryAsked : Bool := false
  sinceEntry : Nat := 8
  final : Option EncOut := none
  ssrc : Nat := 0
  seq : Nat := 0
  ts : Nat := 0
  s0 : Option Nat := none
  shown : List (Nat × Picture) := []
  scales : List (Nat × ((Nat × Nat) × (Nat × Nat))) := []
  refs : List (Nat × List Nat) := []
  context : List Nat := []
  blanks : Nat := 0
deriving DecidableEq, Repr

/-- A layer as a composition draws it (R266, R269): its KIND, its mapped rectangle on the picture before clipping (left, top,
right, bottom), its opacity, its crop, and the scaler set, colour or image it uses. `shown` says that a leg-video layer has a
picture. -/
structure DrawLayer where
  layer : Nat := 0
  kind : Nat := 0
  left : Int := 0
  top : Int := 0
  right : Int := 0
  bottom : Int := 0
  alpha : Nat := 1024
  crop : Nat := 0x10001000
  colour : Nat := 0
  scaler : Octets := []
  image : Octets := []
  shown : Bool := false
deriving DecidableEq, Repr

/-- What a composition draws, with the sets in force at its start (R268, R270): its size, its depth, its background, its mode (0
plain, 1 LUT, 2 dither), the LUTs, and its layers in ascending number. -/
structure DrawPlan where
  w : Nat := 0
  h : Nat := 0
  depth : Nat := 8
  bg : Nat := 0
  mode : Nat := 0
  lutPre : Octets := []
  lutPost : Octets := []
  layers : List DrawLayer := []
deriving DecidableEq, Repr

/-- A composer item (R259, R272 to R274, R288): its window, the layers' wanted pictures (layer, source leg, decode slot,
wanted timestamp), how it stands, the motion hints it passes on (R254) and the buffer it writes (R238). -/
structure CompItem where
  id : CompId
  composer : Nat := 0
  period : Nat := 0
  earliest : Nat := 0
  cutoff : Nat := 0
  deadline : Nat := 0
  wanted : List (Nat × (Nat × (Nat × Option Nat))) := []
  plan : DrawPlan := {}
  started : Bool := false
  finished : Bool := false
  withheld : Bool := false
  hints : List (Nat × (Int × Int)) := []
  buf : List Nat := []
deriving DecidableEq, Repr

/-- A composer (R260): its items, oldest first, and whether it is in reset until the next edge (R385). -/
structure Composer where
  items : List CompItem := []
  halted : Bool := false
deriving DecidableEq, Repr

/-- A spliced view, or the slot targets of a composed viewer (R263, R276 to R283). `shown` is the leg each slot shows (0xFFFF
for the filler), `need` the slots that need an entry, `fillers` the slots whose intra filler a position-0 picture has not yet
carried, `sent` the stride each packet was sent in and the slots whose data it carries, by sequence number, `suspects` those
reported lost (R283); `ups` counts the edges each layer has been allowed; `strip` says that the strip is shown; `kept` are the periods, counted from
the chip's frame grid, of the pictures sent lately, and `idr` that of the last IDR picture (R276). -/
structure View where
  active : Bool := false
  ssrc : Nat := 0
  seq : Nat := 0
  ts : Nat := 0
  s0 : Option Nat := none
  lastPeriod : Option Nat := none
  top : Nat := 0
  ups : List Nat := []
  target : List Nat := []
  shown : List Nat := []
  need : List Nat := []
  fillers : List Nat := []
  strip : Bool := false
  sent : List (Nat × (Nat × List Nat)) := []
  suspects : List Nat := []
  lastFir : Option Nat := none
  kept : List Nat := []
  idr : Nat := 0
deriving DecidableEq, Repr

/-- A segment of a forwarding slot (R302, R303): the source and stream, the highest input h and its output o, the
reserved numbers as (input, output), the timestamp and frame offsets. -/
structure Segment where
  src : Nat := 0
  stream : Nat := 0
  h : Nat := 0
  o : Nat := 0
  reserved : List (Nat × Nat) := []
  tsOff : Nat := 0
  frameOff : Nat := 0
deriving DecidableEq, Repr

/-- A forwarding slot (R294 to R303). `source` is the leg resolved, `point` the point in force with the leg it belongs to,
`wanted` the change that waits and since when; `run` holds the points chosen at the last edges, oldest first, while higher; `ended` is the last
segment's source, stream and highest input; `t0` the stamp of the last packet forwarded. `drawn` says that the random first
numbers have been drawn; `outTs`, `outSeq` and `outFrame` are the last ones sent. `srRtp` is the source's latest SR relation. -/
structure FwdSlot where
  source : Nat := 0xFFFF
  ssrc : Nat := 0
  point : Option (Nat × (Nat × Nat)) := none
  wanted : Option (Nat × Nat) := none
  since : Nat := 0
  run : List (Nat × Nat) := []
  paused : Bool := false
  seg : Option Segment := none
  ended : Option (Nat × (Nat × Nat)) := none
  drawn : Bool := false
  outTs : Nat := 0
  outSeq : Nat := 0
  outFrame : Nat := 0
  t0 : Option Nat := none
  bitmask : Bool := false
  lastFir : Option Nat := none
  srRtp : Option (Nat × Nat) := none
deriving DecidableEq, Repr

/-- The keyframe request of one stream of a source (R225, R306). `consumers` are those that joined it: 16 r + j for slot j of
receiver r, 0x10000 + s for decode slot s, 0x20000 for the template structure; `fir` says that a receiver's FIR called; `lastFirst` and
`lastSent` are the strides of the last first request and of the last sending. -/
structure KfReq where
  consumers : List Nat := []
  fir : Bool := false
  sent : Bool := false
  lastFirst : Option Nat := none
  lastSent : Nat := 0
  repeats : Nat := 0
  firSeq : Nat := 0
  firOut : Bool := false
deriving DecidableEq, Repr

/-- The video of a source leg as forwarding sees it (R291, R293, R304): layer bytes of the last 60 strides as (stride,
(layer, bytes)), whether a template structure has been received, the timestamp of each stream's newest frame, the SSRC and
the latest SR relation of each stream, and the open requests. -/
structure FwdSource where
  bytes : List (Nat × (Nat × Nat)) := []
  structureSeen : Bool := false
  ssrcs : List (Nat × Nat) := []
  sr : List (Nat × (Nat × Nat)) := []
  reqs : List (Nat × KfReq) := []
deriving DecidableEq, Repr

/-- The end marks of coupling packets (R209), ERROR_END with the first coding block not delivered and the block at which the engine
resumes, 0xFFFF_FFFF where there is none. -/
inductive EndMark where
  | rowEnd
  | split
  | segmentEnd
  | pictureEnd
  | errorEnd (first next : Nat)
  | abandon
deriving DecidableEq, Repr

/-- The picture a context of a pair decodes: its leg, its decode slot and its timestamp. -/
structure CtxKey where
  leg : Nat
  slot : Nat
  ts : Nat
deriving DecidableEq, Repr

/-- A closed packet of the coupling buffer (R209): its context, its lines, its end mark, the coding blocks it holds, and whether nothing
follows it in its picture. -/
structure CouplePkt where
  ctx : CtxKey
  lines : Nat := 0
  mark : EndMark := .rowEnd
  run : BlockRun := {}
  last : Bool := false
deriving DecidableEq, Repr

/-- A coding pair beyond its objects (R208 to R211, R384): admitted bitstream in kbit/s, whether it is in reset until the next edge; the
closed packets of its coupling buffer, oldest first, the lines of the open one, the picture that the entropy engine is on and that at the head of the pixel
engine, the contexts to be abandoned at the next packet boundary, and the cycles of stall and underrun not yet counted. -/
structure PairX where
  kbps : Nat := 0
  halted : Bool := false
  ring : List CouplePkt := []
  open_ : Nat := 0
  on : Option CtxKey := none
  head : Option CtxKey := none
  abandons : List CtxKey := []
  stall : Nat := 0
  underrun : Nat := 0
deriving DecidableEq, Repr

end Sys2Proof.Machine
end

