-- ==== Sys2Proof/Machine/Dev.lean ====
section
/-! DEFINITION. The device: the dictionary's values and every part of the state beside them. Tables are sparse,
with the default of their type for what is not listed. -/

namespace Sys2Proof.Machine

/-- What a leg's life holds beside its objects (R104 to R117): the edge its drain ends at, the stride from
which its silence counts (R109), whether its video demand is admitted, the pair, kpx/s and kbit/s of each admitted stream, the composer and its kpx/s, the
state its media follow (that of the last edge, R105), its state homes, the buffer need reserved, the strip it brought, and whether it drains
without sending (R108, R119). -/
structure LegLife where
  drainEnd : Option Nat := none
  silentFrom : Nat := 0
  videoIn : Bool := false
  charges : List (Nat × (Nat × (Nat × Nat))) := []
  composer : Option (Nat × Nat) := none
  suspended : Bool := false
  media : Nat := 0
  homes : List Nat := []
  need : Nat := 0
  strip : Option Nat := none
  silentDrain : Bool := false
deriving DecidableEq, Repr

/-- The device beside its DRAM and its queue of commands. `out` is everything it has sent since reset, oldest first;
`free` is the model's own counter of free values drawn (log entry 1); `trig` the photo-finish causes met by the
command in hand; `loads` the home load of each cell (R327), `polOld` the policer profiles that the last edge replaced (R139); `waking` are the power domains asked to wake, `tapFrom` the stride from which a tap captures. -/
structure Dev where
  out : List Output := []
  free : Nat := 0
  trig : List (Nat × Nat) := []
  dict : List (Key × Val) := []
  stage : List (Key × Val) := []
  resultBefore : Nat := 0
  tb : List (Nat × TimeBase) := []
  gen : StrideGen := {}
  pulses : List (Nat × Pulse) := []
  caps : List (Nat × CaptureIn) := []
  ptp : List (Nat × PtpPort) := []
  can : Can := {}
  hdp : Hdp := {}
  sec : Sec := {}
  faults : Faults := {}
  gov : Gov := {}
  pins : Pins := {}
  rst : Reset := {}
  ports : List (Nat × Port) := []
  pairs : List (Nat × PortPair) := []
  addrBuckets : List (Nat × Bucket) := []
  polOld : List (Nat × Profile) := []
  life : List (Nat × LegLife) := []
  rx : List (Nat × Rx) := []
  loop : List (Nat × Loop) := []
  tx : List (Nat × Tx) := []
  audio : List (Nat × LegAudio) := []
  mix : List (Nat × ConfMix) := []
  pool : Pool := {}
  chan : List (Nat × Chan) := []
  panic : List RtPort := []
  panicAcc : Nat := 0
  blk : List (Nat × Blk) := []
  cell : List (Nat × Cell) := []
  homes : List (Nat × Nat) := []
  loads : List (Nat × Nat) := []
  flows : List ((ItemKind × Nat) × Nat) := []
  flowHomes : List ((ItemKind × Nat) × FlowLines) := []
  arb : List (Arb × Arbiter) := []
  pairx : List (Nat × PairX) := []
  dec : List ((Nat × Nat) × DecSlot) := []
  enc : List (EncId × Enc) := []
  comp : List (Nat × Composer) := []
  view : List (Nat × View) := []
  fwd : List ((Nat × Nat) × FwdSlot) := []
  fsrc : List (Nat × FwdSource) := []
  waking : List Nat := []
  tapFrom : Nat := 0
deriving DecidableEq, Repr

end Sys2Proof.Machine
end

