-- ==== Sys2Proof/Machine/Fixed.lean ====
section
/-! DEFINITION. The arithmetic of the manual's pseudocode: rounding, saturation, truncating division and the level
code (Scope, Pseudocode operators; R188). -/

namespace Sys2Proof.Machine

/-- `rne(x, k)`: drop k fraction bits, rounding half to even. -/
def rne (x : Int) (k : Nat) : Int :=
  if k = 0 then x else
    let q := x / (2 : Int) ^ k
    let r := x % (2 : Int) ^ k
    let half := (2 : Int) ^ (k - 1)
    if r < half then q else if r > half then q + 1 else if q % 2 = 0 then q else q + 1

/-- Clamp to a range. -/
def clamp (lo hi x : Int) : Int := if x < lo then lo else if hi < x then hi else x

/-- `sat(x, w)`: clamp to the range of a w-bit signed value. -/
def sat (x : Int) (w : Nat) : Int := clamp (-((2 : Int) ^ (w - 1))) ((2 : Int) ^ (w - 1) - 1) x

/-- `/`: division truncated toward zero. -/
def tdiv (a b : Int) : Int := Int.tdiv a b

/-- `>>`: arithmetic shift right. -/
def asr (x : Int) (k : Nat) : Int := x / (2 : Int) ^ k

/-- Division rounded up. -/
def ceilDiv (a b : Nat) : Nat := if b = 0 then 0 else (a + b - 1) / b

/-- The position of the leading one, within `fuel` bits. -/
def leadingOne (n : Nat) : Nat := Nat.log2 n

/-- The level code λ of a sum of squares (R188). -/
def levelCode (e : Nat) : Nat :=
  if e = 0 then 0 else
    let p := leadingOne e
    16 * p + (e * 16 / 2 ^ p - 16)

/-- The sum of squares of samples (R188). -/
def sumSquares (xs : List Int) : Nat := xs.foldl (fun a x => a + (x * x).toNat) 0

/-- The largest magnitude of samples. -/
def peakOf (xs : List Int) : Nat := xs.foldl (fun a x => max a x.natAbs) 0

/-- The share of a stride of a quantity that runs at `f` per second (R21). -/
def strideShare (f s : Nat) : Nat := (s + 1) * f / 600 - s * f / 600

/-- The two's complement word of an integer. -/
def toWord (w : Nat) (x : Int) : Nat := (x % (2 : Int) ^ w).toNat

/-- The signed value of a two's complement word. -/
def ofWord (w : Nat) (n : Nat) : Int := if n < 2 ^ (w - 1) then (n : Int) else (n : Int) - (2 : Int) ^ w

end Sys2Proof.Machine
end

