-- ==== Sys2Proof/Machine/Src.lean ====
section
/-! DEFINITION. The rate conversion filters of R185 and R205: linear-phase prototypes whose delay is the table's, their polyphase
branches in both directions, and SRC_COEFS, which prints them (R474). -/

namespace Sys2Proof.Machine

/-- A filter between a codec rate and the internal rate: its number, `l` internal samples for `m` codec samples, and its group delay in
internal samples. -/
structure RateFilter where
  r : Nat
  l : Nat
  m : Nat
  delay : Nat
deriving DecidableEq, Repr

/-- The filters of R185, and that of warm-up (R205). -/
def rateFilters : List RateFilter :=
  [⟨0, 6, 1, 36⟩, ⟨1, 4, 1, 33⟩, ⟨2, 3, 1, 30⟩, ⟨3, 2, 1, 27⟩, ⟨4, 3, 2, 24⟩, ⟨5, 160, 147, 40⟩, ⟨6, 2, 1, 10⟩]

/-- The filter of a codec rate, none where no conversion is needed; `warm` for the internal rate of 16 kHz (R205). -/
def rateFilter (warm : Bool) (rate : Nat) : Option RateFilter :=
  if warm then (if rate = 8000 then rateFilters[6]? else none)
  else match rate with
    | 8000 => rateFilters[0]?
    | 12000 => rateFilters[1]?
    | 16000 => rateFilters[2]?
    | 24000 => rateFilters[3]?
    | 32000 => rateFilters[4]?
    | 44100 => rateFilters[5]?
    | _ => none

/-- Coefficient `i` of the prototype in Q2.22: symmetric about its delay, so of linear phase, and zero past its length. -/
def RateFilter.coef (f : RateFilter) (i : Nat) : Int :=
  let last := 2 * f.delay * f.m
  if i ≤ last then sat (Config.srcHalf f.r (min i (last - i))) 24 else 0

/-- Coefficients per branch of the prototype cut into `phases`. -/
def RateFilter.taps (f : RateFilter) (phases : Nat) : Nat := ceilDiv (2 * f.delay * f.m + 1) phases

/-- Newest-first history and the samples of a stride: the sample `i` from its first, where a negative `i` lies before it. -/
def sampleAt (hist xs : List Int) (i : Int) : Int := if i < 0 then hist.getD (-i - 1).toNat 0 else xs.getD i.toNat 0

/-- A branch of the prototype over the samples that end at `i`, in 56 bits (R185). -/
def RateFilter.branch (f : RateFilter) (phases phase : Nat) (hist xs : List Int) (i : Int) : Int :=
  ((List.range (f.taps phases)).map fun c => f.coef (phase + phases * c) * sampleAt hist xs (i - c)).foldl (· + ·) 0

/-- The `n` internal samples from number `j0` on, where the codec samples begin at number `i0` (R185). -/
def RateFilter.up (f : RateFilter) (hist xs : List Int) (i0 j0 n : Nat) : List Int :=
  (List.range n).map fun k =>
    let p := (j0 + k) * f.m
    sat (rne (f.branch f.l (p % f.l) hist xs ((p / f.l : Nat) - (i0 : Int))) 22) 24

/-- The `n` codec samples from number `j0` on, where the internal samples begin at number `i0`; the same prototype, scaled by m/l for a
gain of one (DESIGN CHOICE, log entry 2). -/
def RateFilter.down (f : RateFilter) (hist xs : List Int) (i0 j0 n : Nat) : List Int :=
  (List.range n).map fun k =>
    let p := (j0 + k) * f.l
    sat (rne (tdiv (f.branch f.m (p % f.m) hist xs ((p / f.m : Nat) - (i0 : Int)) * f.m) f.l) 22) 24

/-- SRC_COEFS of filter `r` (R474): coefficients per phase, phases, and the coefficients phase by phase. -/
def srcCoefs (r : Nat) : Octets :=
  match rateFilters[r]? with
  | none => []
  | some f =>
    let t := f.taps f.l
    natToOctets 2 t ++ natToOctets 2 f.l ++
      ((List.range f.l).map fun p => ((List.range t).map fun c => natToOctets 4 (toWord 32 (f.coef (p + f.l * c)))).flatten).flatten

end Sys2Proof.Machine
end

