-- ==== Sys2Proof/Machine/Table.lean ====
section
/-! DEFINITION. Sparse tables: lists of key and value, read with a default for a key that is not listed. -/

namespace Sys2Proof.Machine

/-- The value under `k`, or `d` where `k` is not listed. -/
def tget {κ α : Type} [DecidableEq κ] (d : α) (k : κ) : List (κ × α) → α
  | [] => d
  | (k', v) :: r => if k = k' then v else tget d k r

/-- Puts `v` under `k`. -/
def tset {κ α : Type} [DecidableEq κ] (k : κ) (v : α) : List (κ × α) → List (κ × α)
  | [] => [(k, v)]
  | (k', v') :: r => if k = k' then (k, v) :: r else (k', v') :: tset k v r

/-- Takes every entry under `k` out. -/
def tdel {κ α : Type} [DecidableEq κ] (k : κ) : List (κ × α) → List (κ × α)
  | [] => []
  | (k', v') :: r => if k = k' then tdel k r else (k', v') :: tdel k r

/-- Is `k` listed? -/
def thas {κ α : Type} [DecidableEq κ] (k : κ) : List (κ × α) → Bool
  | [] => false
  | (k', _) :: r => if k = k' then true else thas k r

/-- The value under `k`, if listed. -/
def tfind {κ α : Type} [DecidableEq κ] (k : κ) : List (κ × α) → Option α
  | [] => none
  | (k', v) :: r => if k = k' then some v else tfind k r

/-- Keeps a table without default entries: `v` under `k`, or no entry where `v` is the default. -/
def tput {κ α : Type} [DecidableEq κ] [DecidableEq α] (d : α) (k : κ) (v : α)
    (t : List (κ × α)) : List (κ × α) :=
  if v = d then tdel k t else tset k v t

/-- The minimum of a measure over a list, with the first element that reaches it. -/
def minBy? {α : Type} (f : α → Nat) : List α → Option α
  | [] => none
  | a :: r =>
    match minBy? f r with
    | none => some a
    | some b => if f a ≤ f b then some a else some b

/-- Puts an element into an ascending list. -/
def insertAsc {α : Type} (f : α → Nat) (a : α) : List α → List α
  | [] => [a]
  | b :: r => if f a ≤ f b then a :: b :: r else b :: insertAsc f a r

/-- Sorts by a measure, ascending; elements of one measure keep their order. -/
def sortAsc {α : Type} (f : α → Nat) (l : List α) : List α := l.foldr (insertAsc f) []

end Sys2Proof.Machine
end

