-- ==== Sys2Proof/Machine/Ops.lean ====
section
/-! DEFINITION. The named operations every family shares: reading and setting objects of the dictionary, counters,
the outbox, free values, the parts of a leg, and the classes of state. -/

namespace Sys2Proof.Machine

/-- The width in bits a number of this type takes. -/
def Ty.bits : Ty → Nat
  | .u n => n
  | .i n => n
  | .bool => 8
  | .time80 => 80
  | .mapping => 32
  | _ => 0

/-- The identity table of a LUT set (R268). -/
def identityLut : Octets := ((List.range 4096).map fun i => [i / 256, i % 256]).flatten

/-- The default of an object, with the defaults that differ from unit to unit: PAIR_ACTIVE (R123), BLK_RESERVE_CELL
(R332), POOL_RESERVE and POOL_SHARE (R358, R372, R495), PD_KIND (R398), GOV_K (R409), the PDO identifiers (R72) and
the b0 coefficients (R186). -/
def dfltOf (o : Obj) (u k : Nat) : Val :=
  match o with
  | .PAIR_ACTIVE => .num (2 * u)
  | .BLK_RESERVE_CELL => .num (16 * u + 15)
  | .POOL_RESERVE => .num ([16, 16, 8, 0, 0, 0].getD u 0)
  | .POOL_SHARE => .num ([2, 24, 24, 16, 32, 158].getD u 0)
  | .PD_KIND => .num (if u < 16 then 0 else if u < 32 then 1 else if u < 36 then 2 else if u < 40 then 3
      else if u < 44 then 4 else if u < 48 then 5 else if u = 48 then 6 else 7)
  | .GOV_K => .num ([2600, 2600, 2000, 400, 4500].getD k 0)
  | .RPDO_COB_ID => .num (0x80000200 + 0x100 * u + 127)
  | .TPDO_COB_ID => .num (0x80000180 + 0x100 * u + 127)
  | .AF_COEF => .num (if k % 5 = 0 then 0x200000 else 0)
  | .SERIAL => .num (Config.serial % 2 ^ 32)
  | .IDENTITY_PUBKEY => .bytes Config.identityKey
  | .IDENTITY_DIGEST => .bytes Config.identityDigest
  | .SRC_COEFS => .bytes (srcCoefs k)
  | .COST_TABLE => .bytes (Config.romBytes 6)
  | .SCALER_SET => .bytes (Config.romBytes 7)
  | .LUT_PRE => .bytes identityLut
  | .LUT_POST => .bytes identityLut
  | .CELL_STATE => .num (if u % 16 = 15 then 1 else 0)
  | o => o.row.dflt

/-- The value an object holds. -/
def Dev.get (d : Dev) (o : Obj) (u : Nat := 0) (k : Nat := 0) : Val := tget (dfltOf o u k) ⟨o, u, k⟩ d.dict

/-- The number an object holds. -/
def Dev.int (d : Dev) (o : Obj) (u : Nat := 0) (k : Nat := 0) : Int := (d.get o u k).toInt

/-- The number an object of an unsigned type holds. -/
def Dev.nat (d : Dev) (o : Obj) (u : Nat := 0) (k : Nat := 0) : Nat := (d.int o u k).toNat

/-- The octets an object holds. -/
def Dev.bytes (d : Dev) (o : Obj) (u : Nat := 0) (k : Nat := 0) : Octets := (d.get o u k).toBytes

/-- Is the number an object holds other than 0? -/
def Dev.flag (d : Dev) (o : Obj) (u : Nat := 0) (k : Nat := 0) : Bool := d.int o u k != 0

/-- Sets the value of an object; the store lists no value equal to its default. -/
def Dev.put (d : Dev) (o : Obj) (u k : Nat) (v : Val) : Dev :=
  { d with dict := tput (dfltOf o u k) ⟨o, u, k⟩ v d.dict }

/-- Sets a number. -/
def Dev.setI (d : Dev) (o : Obj) (u k : Nat) (v : Int) : Dev := d.put o u k (.num v)

/-- Sets an unsigned number of an object that stands once in its unit. -/
def Dev.setN (d : Dev) (o : Obj) (u : Nat) (v : Nat) : Dev := d.put o u 0 (.num v)

/-- Adds to a counter, which wraps at its width (R37, R68, and the chapters' own words). -/
def Dev.add (d : Dev) (o : Obj) (u k n : Nat) : Dev :=
  d.put o u k (.num (((d.nat o u k + n) % 2 ^ o.row.ty.bits : Nat)))

/-- Counts one. -/
def Dev.bump (d : Dev) (o : Obj) (u : Nat := 0) (k : Nat := 0) : Dev := d.add o u k 1

/-- Takes from a use figure. -/
def Dev.sub (d : Dev) (o : Obj) (u n : Nat) : Dev := d.setN o u (d.nat o u - n)

/-- Sends something. -/
def Dev.emit (d : Dev) (x : Output) : Dev := { d with out := d.out ++ [x] }

/-- Draws the next free value (log entry 1). -/
def Dev.draw (d : Dev) : Nat × Dev := (Config.freeValue d.free, { d with free := d.free + 1 })

/-- BRINGUP_MS entry `k` takes the time of its milestone, which no command carries (R441; log entry 43). -/
def Dev.bringup (d : Dev) (k : Nat) : Dev :=
  if d.nat .BRINGUP_MS 0 k = 0xFFFF then
    let r := d.draw
    r.2.put .BRINGUP_MS 0 k (.num ((r.1 % 0xFFFF : Nat)))
  else d

/-- STRIDE_COUNT. -/
def Dev.stride (d : Dev) : Nat := d.nat .STRIDE_COUNT

/-- SERVICE_STATE values (R67). -/
inductive Service where
  | boot
  | minimum
  | warmup
  | full
  | doze
deriving DecidableEq, Repr

/-- The number of a service state. -/
def Service.num : Service → Nat
  | .boot => 0
  | .minimum => 1
  | .warmup => 2
  | .full => 3
  | .doze => 4

/-- The service state of the chip. -/
def Dev.service (d : Dev) : Service :=
  match d.nat .SERVICE_STATE with
  | 0 => .boot
  | 1 => .minimum
  | 2 => .warmup
  | 3 => .full
  | _ => .doze

/-- Sets the service state. -/
def Dev.setService (d : Dev) (s : Service) : Dev := d.setN .SERVICE_STATE 0 s.num

/-- The leg states (R104). -/
inductive LegState where
  | idle
  | configured
  | active
  | held
  | rekey
  | draining
  | failed
deriving DecidableEq, Repr

/-- The number of a leg state. -/
def LegState.num : LegState → Nat
  | .idle => 0
  | .configured => 1
  | .active => 2
  | .held => 3
  | .rekey => 4
  | .draining => 5
  | .failed => 6

/-- The state of leg `n`. -/
def Dev.legState (d : Dev) (n : Nat) : LegState :=
  match d.nat .LEG_STATE n with
  | 0 => .idle
  | 1 => .configured
  | 2 => .active
  | 3 => .held
  | 4 => .rekey
  | 5 => .draining
  | _ => .failed

/-- A leg that holds a reservation or a place (any state but IDLE and CONFIGURED, R101). -/
def LegState.member : LegState → Bool
  | .idle => false
  | .configured => false
  | _ => true

/-- Is any alarm latched (R455)? -/
def Dev.alarmed (d : Dev) : Bool := d.nat .ALARM_LATCH != 0

/-- Parts of the device by unit. -/
def Dev.tbOf (d : Dev) (n : Nat) : TimeBase := tget {} n d.tb
/-- Sets time base `n`. -/
def Dev.setTb (d : Dev) (n : Nat) (x : TimeBase) : Dev := { d with tb := tput {} n x d.tb }
/-- The life of leg `n`. -/
def Dev.lifeOf (d : Dev) (n : Nat) : LegLife := tget {} n d.life
/-- Sets the life of leg `n`. -/
def Dev.setLife (d : Dev) (n : Nat) (x : LegLife) : Dev := { d with life := tput {} n x d.life }
/-- The receive side of leg `n`. -/
def Dev.rxOf (d : Dev) (n : Nat) : Rx := tget {} n d.rx
/-- Sets the receive side of leg `n`. -/
def Dev.setRx (d : Dev) (n : Nat) (x : Rx) : Dev := { d with rx := tput {} n x d.rx }
/-- The loop of leg `n`. -/
def Dev.loopOf (d : Dev) (n : Nat) : Loop := tget {} n d.loop
/-- Sets the loop of leg `n`. -/
def Dev.setLoop (d : Dev) (n : Nat) (x : Loop) : Dev := { d with loop := tput {} n x d.loop }
/-- The send side of leg `n`. -/
def Dev.txOf (d : Dev) (n : Nat) : Tx := tget {} n d.tx
/-- Sets the send side of leg `n`. -/
def Dev.setTx (d : Dev) (n : Nat) (x : Tx) : Dev := { d with tx := tput {} n x d.tx }
/-- The audio of leg `n`. -/
def Dev.audioOf (d : Dev) (n : Nat) : LegAudio := tget {} n d.audio
/-- Sets the audio of leg `n`. -/
def Dev.setAudio (d : Dev) (n : Nat) (x : LegAudio) : Dev := { d with audio := tput {} n x d.audio }
/-- The mix of conference `k`. -/
def Dev.mixOf (d : Dev) (k : Nat) : ConfMix := tget {} k d.mix
/-- Sets the mix of conference `k`. -/
def Dev.setMix (d : Dev) (k : Nat) (x : ConfMix) : Dev := { d with mix := tput {} k x d.mix }
/-- The keys of leg `n`. -/
def Dev.keysOf (d : Dev) (n : Nat) : LegKeys := tget {} n d.sec.legKeys
/-- Sets the keys of leg `n`. -/
def Dev.setKeys (d : Dev) (n : Nat) (x : LegKeys) : Dev :=
  { d with sec := { d.sec with legKeys := tput {} n x d.sec.legKeys } }
/-- Port `p`. -/
def Dev.portOf (d : Dev) (p : Nat) : Port := tget {} p d.ports
/-- Sets port `p`. -/
def Dev.setPort (d : Dev) (p : Nat) (x : Port) : Dev := { d with ports := tput {} p x d.ports }
/-- Capture input `j`. -/
def Dev.capOf (d : Dev) (j : Nat) : CaptureIn := tget {} j d.caps
/-- Sets capture input `j`. -/
def Dev.setCap (d : Dev) (j : Nat) (x : CaptureIn) : Dev := { d with caps := tput {} j x d.caps }

/-- The legs with a state of their own listed, ascending: those that some table names. -/
def Dev.legs (d : Dev) : List Nat :=
  sortAsc id (d.dict.filterMap fun kv => if kv.1.o = .LEG_STATE then some kv.1.u else none)

/-- The conferences that are not CLOSED, ascending. -/
def Dev.confs (d : Dev) : List Nat :=
  sortAsc id (d.dict.filterMap fun kv => if kv.1.o = .CONF_STATE then some kv.1.u else none)

/-- Units of 100 µs as strides, rounded up and at least 1 (R73). -/
def usStrides (t : Nat) : Nat := max 1 ((t * 600 + 9999) / 10000)

end Sys2Proof.Machine
end

