-- ==== Sys2Proof/Machine/Flags.lean ====
section
/-! DEFINITION. Single bits of objects, and the status words that are computed from other state: ERROR_REGISTER (R78) and the
resting value of SNAP_STATE (R470). The status words that need more than the dictionary stand beside what they need: TB_STATUS in
Time, LEG_KEY_STATE in Keys, HEALTHY_CAUSE in Faults. -/

namespace Sys2Proof.Machine

/-- Is the bit `i` of an object set? -/
def Dev.bitOf (d : Dev) (o : Obj) (u k i : Nat) : Bool := bit (d.nat o u k) i

/-- Sets or clears bit `i` of an object. -/
def Dev.setBit (d : Dev) (o : Obj) (u k i : Nat) (b : Bool) : Dev := d.setI o u k (withBit (d.nat o u k) i b)

/-- Is a unit retired or fenced, or a rail failed or a block fenced (R78, R396)? -/
def Dev.unitRetired (d : Dev) : Bool :=
  d.flag .RETIRED_CELLS || d.flag .RETIRED_PAIRS || d.flag .RETIRED_BLOCKS || d.flag .RETIRED_COMPOSERS

/-- ERROR_REGISTER (R78): MANUFACTURER, COMMUNICATION, TEMPERATURE, VOLTAGE and GENERIC. -/
def Dev.errorRegister (d : Dev) : Nat :=
  let l := d.nat .ALARM_LATCH
  let r := (if bit l 1 || bit l 3 || d.unitRetired then 128 else 0) + (if d.can.commBit then 16 else 0) +
    (if bit l 2 then 8 else 0) + (if bit l 0 then 4 else 0)
  if r = 0 then 0 else r + 1

/-- SNAP_STATE while nothing is latched (R470, R471). -/
def Dev.snapRest (d : Dev) : Nat := if d.nat .SNAP_SOURCES % 8 = 0 then 0 else 1

end Sys2Proof.Machine
end

