-- ==== Sys2Proof/Machine/Time.lean ====
section
/-! DEFINITION. Counting time: the time bases (R38 to R46), the grid of stride edges (R18, R19) and TB_STATUS. -/

namespace Sys2Proof.Machine

/-- TIME80 wraps at 2^80 units of 2^-16 ns. -/
def timeMod : Nat := 2 ^ 80

/-- The fraction units added in `n` packet-engine cycles that begin at place `p` of the 25-cycle sequence: 83,886 in
each, and one more on cycles 12 and 24, counted from 0 (R38; log entry 10). -/
def incUnits (p n : Nat) : Nat :=
  let upTo := fun (c : Nat) => 2 * (c / 25) + (if c % 25 ≥ 13 then 1 else 0)
  83886 * n + (upTo (p + n) - upTo p)

/-- A time base `n` packet-engine cycles later, at rate adjustment `adj` (R38). -/
def TimeBase.run (b : TimeBase) (adj : Int) (p n : Nat) : TimeBase :=
  let i := incUnits p n
  let a := (b.acc : Int) + adj * i
  { b with
    t := (((b.t + i : Nat) : Int) + a / 2 ^ 32).toNat % timeMod
    acc := (a % 2 ^ 32).toNat }

/-- The signed difference of two times (R39: every comparison is by signed difference). -/
def timeDiff (a b : Nat) : Int :=
  let x := ((a : Int) - b) % (2 : Int) ^ 80
  if x < 2 ^ 79 then x else x - 2 ^ 80

/-- The time base that time base `n` follows to its end, with the offsets added on the way (R40); `fuel` bounds the
chain of seven links (R41). -/
def Dev.rootOf (d : Dev) : Nat → Nat → Nat × Int
  | 0, n => (n, 0)
  | f + 1, n =>
    if d.nat .TB_MODE n = 3 then
      let r := d.rootOf f (d.nat .TB_SOURCE n % 8)
      (r.1, r.2 + d.int .TB_FOLLOW_OFFSET n)
    else (n, 0)

/-- The time that time base `n` shows (R40). -/
def Dev.now (d : Dev) (n : Nat) : Nat :=
  let r := d.rootOf 8 n
  ((((d.tbOf r.1).t : Int) + r.2) % (timeMod : Int)).toNat

/-- The rate in force of time base `n` (R39). -/
def Dev.rateOf (d : Dev) (n : Nat) : Int := d.int .TB_RATE_ADJ (d.rootOf 8 n).1

/-- Is time base `n` VALID (R45)? -/
def Dev.tbValid (d : Dev) (n : Nat) : Bool := (d.tbOf (d.rootOf 8 n).1).valid

/-- The STATE of TB_STATUS (R45). -/
def Dev.tbState (d : Dev) (n : Nat) : Nat :=
  let b := d.tbOf n
  match d.nat .TB_MODE n with
  | 0 => if b.written then 1 else 0
  | 3 => 5
  | _ => if b.holdover then 4 else if b.locked then 3 else 2

/-- TB_STATUS (R45). -/
def Dev.tbStatus (d : Dev) (n : Nat) : Nat :=
  let b := d.tbOf n
  b.lockCount * 256 + (if b.source then 32 else 0) + (if d.tbValid n then 16 else 0) + d.tbState n

/-- The stride time base. -/
def Dev.stb (d : Dev) : Nat := d.nat .STRIDE_TIMEBASE % 8

/-- Does a stamp on the stride time base lie before the edge that began the present stride (R139, R153, R158)? -/
def Dev.beforeEdge (d : Dev) (stamp : Nat) : Bool := decide (timeDiff stamp (d.gen.start % (timeMod : Int)).toNat < 0)

/-- currentUtcOffset of time base `n` (R42, R157): the grandmaster's in PTP mode while its Announce gives one, else the written value. -/
def Dev.utcOf (d : Dev) (n : Nat) : Int :=
  match decide (d.nat .TB_MODE n = 1), (d.tbOf n).utc with
  | true, some u => u
  | _, _ => d.int .TB_UTC_OFFSET n

/-- NTP time in 2^-32 s of a time of time base `n` (R157): TAI less currentUtcOffset, counted from 1900. -/
def Dev.ntpOf (d : Dev) (n t : Nat) : Nat :=
  toWord 64 (((t : Int) + (2208988800 - d.utcOf n) * 65536000000000) * 65536 / 1000000000)

/-- Now on the stride time base, in whole ns. -/
def Dev.stbNs (d : Dev) : Nat := d.now d.stb / 65536

/-- The start of grid stride `s` of a lap, in ns after the lap edge (R18). -/
def gridStart (s : Nat) : Nat := s * 5000000 / 3

/-- The grid edge nearest to a time in ns: its lap and its number in the lap (R19). Halfway goes to the later. -/
def nearestGrid (t : Int) : Int × Nat :=
  let lap := t / 1000000000
  let x := (t % 1000000000).toNat
  let s := x * 3 / 5000000
  let s := if gridStart (s + 1) ≤ x then s + 1 else s
  let lo := gridStart s
  let hi := if s + 1 = 600 then 1000000000 else gridStart (s + 1)
  if 2 * x < lo + hi then (lap, s) else if s + 1 = 600 then (lap + 1, 0) else (lap, s + 1)

/-- The grid stride that holds a time in ns (R58). -/
def gridHolding (t : Int) : Nat :=
  let x := (t % 1000000000).toNat
  let s := x * 3 / 5000000
  if gridStart (s + 1) ≤ x ∧ s + 1 < 600 then s + 1 else s

/-- The nominal length of grid stride `s` in ns (R18). -/
def gridLen (s : Nat) : Nat := (if s + 1 = 600 then 1000000000 else gridStart (s + 1)) - gridStart s

/-- The length of the next stride, given its grid length and the offset still to be closed, positive when the edges
are late: at most 667 ns of slew, and never outside 1,666,000 to 1,667,334 ns (R19). -/
def strideLength (len : Nat) (offset : Int) : Int :=
  clamp 1666000 1667334 ((len : Int) - clamp (-667) 667 offset)

/-- The fewest packet-engine cycles of a stride: 1,666,000 ns of 1.28 ns (R19). -/
def leastCycles : Nat := 1301563

/-- The most packet-engine cycles of a stride of `len` ns under R18: at most 667 ns longer (R19). -/
def mostCycles (len : Nat) : Nat := (len + 667) * 25 / 32

/-- The packet-engine cycles until the next edge: those until the stride time base reaches `edge` at the rate in force, but never
a stride shorter or longer than R19 allows. A base that is slewed by more than the 400 ppm of R19 therefore leaves its edges behind.
The bounds count in the packet engine's own cycles of 1.28 ns, not on the adjusted base (DEDUCED, log entry 117). -/
def Dev.cyclesTo (d : Dev) (edge : Int) : Nat :=
  let left := timeDiff (edge % (timeMod : Int)).toNat (d.now d.stb)
  let rate := ((83886 * 25 + 2 : Nat) : Int) * (2 ^ 32 + d.rateOf d.stb)
  let want := if left ≤ 0 then 0 else ((left * 25 * 2 ^ 32 + rate - 1) / rate).toNat
  let most := mostCycles (gridLen (d.nat .STRIDE_IN_LAP))
  if d.gen.first then want
  else max (leastCycles - d.gen.cycle) (min want (most - d.gen.cycle))

/-- The edge in hand falls: where the stride time base has come to it, the planned moment stands, to the fraction of a ns; where the
bounds of R19 held it off, the time that the base shows. The count of ns wraps with the base (R39). -/
def Dev.meetEdge (d : Dev) : Dev :=
  let now := d.now d.stb
  let edge := (d.gen.edge % (timeMod : Int)).toNat
  let late := timeDiff now edge
  { d with gen := { d.gen with edge := if 0 ≤ late ∧ late < 2 * 65536 then (edge : Int) else (now : Int), first := false } }

/-- CH_PANIC_CYCLES over `n` packet-engine cycles while a panic is raised (R353): 2.048 controller cycles each, counted in
units of 1,024. -/
def Dev.panicTime (d : Dev) (n : Nat) : Dev :=
  if d.panic = [] then d else
    let acc := d.panicAcc + n * 256
    let d := { d with panicAcc := acc % 128000 }
    if acc < 128000 then d else (List.range 4).foldl (fun d c => d.add .CH_PANIC_CYCLES c 0 (acc / 128000)) d

/-- Every time base `n` packet-engine cycles later (R38); a pulse's active level runs down with them (R53). -/
def Dev.runCycles (d : Dev) (n : Nat) : Dev :=
  let d := d.panicTime n
  let tb := (List.range 8).foldl (fun t i =>
    tput {} i ((tget {} i d.tb).run (d.int .TB_RATE_ADJ i) d.gen.phase n) t) d.tb
  { d with
    tb := tb
    gen := { d.gen with phase := (d.gen.phase + n) % 25, cycle := d.gen.cycle + n, total := d.gen.total + n }
    pulses := d.pulses.map fun kv => (kv.1, { kv.2 with left := kv.2.left - n }) }

/-- The stride time base has moved by `delta` against the edges: the next edge keeps its moment (R19). -/
def Dev.shiftEdge (d : Dev) (delta : Int) : Dev :=
  { d with gen := { d.gen with edge := d.gen.edge + delta, start := d.gen.start + delta } }

/-- Steps time base `n` to `t`; where it is the root of the stride time base, the edge keeps its moment (R19, R43,
R46). -/
def Dev.stepTb (d : Dev) (n : Nat) (t : Nat) : Dev :=
  let old := d.now d.stb
  let d := d.setTb n { d.tbOf n with t := t % timeMod }
  d.shiftEdge (timeDiff (d.now d.stb) old)

end Sys2Proof.Machine
end

