-- ==== Sys2Proof/Machine/Log.lean ====
section
/-! DEFINITION. EMCY (R78, R79) and the error log (R392 to R396). -/

namespace Sys2Proof.Machine

/-- Puts a frame on the CAN bus. -/
def Dev.canSend (d : Dev) (cob : Nat) (data : Octets) : Dev := d.emit (.can (cob % 0x800) data)

/-- An EMCY falls due (R79): it enters the error field, and is sent unless the inhibit time of the last one runs or
the NMT state is stopped. Before boot-up no EMCY service runs (R75; log entry 40). An EMCY that no record causes carries zeros in bytes 3
to 7 (DESIGN CHOICE, log entry 137). -/
def Dev.emcy (d : Dev) (code : Nat) (levelClass unit low : Nat) (clear : Bool := false) : Dev :=
  let word := unit * 65536 + code
  let n := min 8 (d.nat .ERROR_COUNT + 1)
  let d := (List.range 7).foldl (fun e i => e.put .ERROR_FIELD 0 (i + 1) (d.get .ERROR_FIELD 0 i)) d
  let d := (d.setI .ERROR_FIELD 0 0 word).setN .ERROR_COUNT 0 n
  let inhibit := d.nat .INHIBIT_TIME_EMCY
  let held := match d.can.lastEmcy with
    | some s => inhibit ≠ 0 && decide (d.can.ticks < s + usStrides inhibit)
    | none => false
  if d.can.nmt = .initialising then d
  else if d.can.nmt = .stopped || held then d.bump .EMCY_SUPPRESSED
  else
    let data := natToOctets 1 (code % 256) ++ natToOctets 1 (code / 256) ++
      (if clear then List.replicate 6 0
       else [d.errorRegister, levelClass * 16, unit % 256, unit / 256 % 256, low % 256, low / 256 % 256])
    { d.canSend (d.nat .COB_ID_EMCY) data with can := { d.can with lastEmcy := some d.can.ticks } }

/-- EMCY 0x0000 when ERROR_REGISTER has returned to 0 (R79); `old` is its value before. -/
def Dev.registerCleared (d : Dev) (old : Nat) : Dev :=
  if old ≠ 0 ∧ d.errorRegister = 0 then d.emcy 0 0 0 0 true else d

/-- Level and class as byte 3 of an EMCY carries them, in its upper four bits (R79). -/
def Rec.levelClass (r : Rec) : Nat := r.level * 4 + r.cls.num

/-- The EMCY code of a record that no alarm logs (R79, EMCY codes). -/
def Rec.emcyCode (r : Rec) : Nat :=
  match r.cls with
  | .degraded => 0x5000
  | .serviceAffecting => 0x5000
  | _ => 0xFF00

/-- Logs a record (R392): its time is that of its detection, and it takes its sequence number when every record of the cycle is known. -/
def Dev.logRec (d : Dev) (r : Rec) (alarmCode : Option Nat := none) : Dev :=
  { d with faults := { d.faults with cycle := d.faults.cycle ++ [({ r with time := d.now 0 }, alarmCode)] } }

/-- Puts a record into the ring, or coalesces a corrected one (R395); reports it over CAN when its class bit is set in
EMCY_CLASS_MASK, or always with the alarm's own code (R79, R396); asks for the photo finish where its class bit is
set in SNAP_RECORD_CLASS (R466). -/
def Dev.enterRec (d : Dev) (r : Rec) (alarmCode : Option Nat) : Dev :=
  if r.cls = .corrected ∧ d.faults.seen.contains (r.code, r.unit) then d.bump .LOG_COALESCED
  else
    let seq := d.nat .LOG_NEXT_SEQ
    let slot := seq % 4096
    let r := { r with seq := seq }
    let held := thas slot d.faults.slots
    let d := if held then d.bump .LOG_OVERWRITTEN else d.setN .LOG_COUNT 0 (min 4096 (d.nat .LOG_COUNT + 1))
    let d := d.bump .LOG_NEXT_SEQ
    let d := { d with faults := { d.faults with
      slots := tset slot r d.faults.slots
      fresh := d.faults.fresh ++ [r]
      seen := if r.cls = RecClass.corrected then (r.code, r.unit) :: d.faults.seen else d.faults.seen
      resetAdvised := d.faults.resetAdvised || decide (r.action = RecAction.resetAdvised) } }
    let d := match alarmCode with
      | some c => d.emcy c r.levelClass r.unit r.code
      | none =>
        if d.bitOf .EMCY_CLASS_MASK 0 0 r.cls.num then d.emcy r.emcyCode r.levelClass r.unit r.code else d
    if d.bitOf .SNAP_SOURCES 0 0 2 && d.bitOf .SNAP_RECORD_CLASS 0 0 r.cls.num
    then { d with trig := d.trig ++ [(2, seq)] } else d

/-- The records logged in one cycle enter the ring by ascending LEVEL, then ascending UNIT (R395). -/
def Dev.settleRecs (d : Dev) : Dev :=
  let rs := sortAsc (fun (x : Rec × Option Nat) => x.1.level * 65536 + x.1.unit) d.faults.cycle
  rs.foldl (fun d x => d.enterRec x.1 x.2) { d with faults := { d.faults with cycle := [] } }

/-- LOG_CLEAR (R395): every slot is emptied and SEQ goes on. -/
def Dev.clearLog (d : Dev) : Dev :=
  { d.setN .LOG_COUNT 0 0 with faults := { d.faults with slots := [] } }

/-- LOG_RECORD at index 6910 + `i`, subindex 1 + `j` (R395). -/
def Dev.logSlot (d : Dev) (i j : Nat) : Option Octets := (tfind (64 * i + j) d.faults.slots).map Rec.octets

/-- An event of R439: the epoch counts it, the mask gathers what was lost, and LAST_RESET names it. -/
def Dev.resetEvent (d : Dev) (kind source unit mask : Nat) : Dev :=
  let d := (d.bump .RESET_EPOCH).setN .REVERTED_MASK 0 (d.nat .REVERTED_MASK ||| mask)
  d.setN .LAST_RESET 0 (kind * 2 ^ 24 + source * 2 ^ 16 + unit)

/-- Bit 63 of DETAIL where the fault was injected, and the device with the injection spent (R475). -/
def Dev.spend (d : Dev) (kind unit : Nat) : Nat × Dev :=
  let t := kind * 2 ^ 28 + unit
  if d.faults.injected.contains t then
    (2 ^ 63, { d with faults := { d.faults with injected := d.faults.injected.erase t } })
  else (0, d)

/-- The L objects that report what K objects hold: states and reserves of units, and the sums of reservations (R440). -/
def reported : List Obj :=
  [.CELL_STATE, .BLK_RESERVE_CELL, .PAIR_STATE, .COMPOSER_STATE, .BLK_STATE, .BLK_CAPACITY, .BLK_ADMIT_CYCLES,
   .RGN_ADMIT_CYCLES, .BLK_LEGS, .PAIR_ADMIT_PIXELS, .COMPOSER_ADMIT_PIXELS, .RGN_BLOCKS]

/-- Is a key of the block `b`, its cells or its snapshot? -/
def keyOfBlock (b : Nat) (k : Key) : Bool :=
  ((decide (k.o.row.base = 0x6100) || decide (k.o.row.base = 0x6810)) && decide (k.u = b)) ||
    (decide (k.o.row.base = 0x6200) && decide (k.u / 16 = b))

/-- Is a key of coding pair `p`? -/
def keyOfPair (p : Nat) (k : Key) : Bool :=
  decide (k.o.row.base = 0x6140) && decide (64 ≤ k.o.row.sub) && decide (k.o.row.sub < 88) && decide (4 * k.u + k.k = p)

/-- Is a key of composer `c`? -/
def keyOfComposer (c : Nat) (k : Key) : Bool :=
  decide (k.o.row.base = 0x6140) && decide (96 ≤ k.o.row.sub) && decide (k.o.row.sub < 112) && decide (k.u = c)

/-- The L objects of the units that `mine` names take their defaults (R439, R440). -/
def Dev.loseL (d : Dev) (mine : Key → Bool) : Dev :=
  { d with dict := d.dict.filter fun kv =>
      !(decide (kv.1.o.row.cls = .L) && mine kv.1 && !reported.contains kv.1.o) }

/-- Is a coding pair, or a composer, retired and not only isolated (R387, R390)? -/
def Dev.pairRetired (d : Dev) : Bool :=
  (List.range 16).any fun p => bit (d.nat .RETIRED_PAIRS) p && !d.faults.isolated.contains (.pair p)
def Dev.composerRetired (d : Dev) : Bool :=
  (List.range 4).any fun k => bit (d.nat .RETIRED_COMPOSERS) k && !d.faults.isolated.contains (.composer k)

/-- The conditions of R390 that hold. -/
def Dev.healthBase (d : Dev) (channelFailed deviceMarked portFailed regionFailed : Bool) : Nat :=
  let b := fun (i : Nat) (c : Bool) => if c then 2 ^ i else 0
  b 0 (d.service ≠ .full) + b 1 d.alarmed + b 2 (d.flag .RETIRED_CELLS) + b 3 (d.flag .RETIRED_BLOCKS) +
  b 4 d.pairRetired + b 5 d.composerRetired + b 6 (d.flag .FAILED_RAILS) + b 7 regionFailed +
  b 8 channelFailed + b 9 deviceMarked + b 10 portFailed + b 11 d.faults.resetAdvised +
  b 12 (d.faults.overcommitted ≠ [])

end Sys2Proof.Machine
end

