-- ==== Sys2Proof/Machine/Pools.lean ====
section
/-! DEFINITION. The pool manager: shares and counts (R358 to R360), handles and descriptors (R361), free lists (R363),
allocation (R364, R365), references (R367, R368), quotas (R369), channel loss and the reset sweep (R370, R371). -/

namespace Sys2Proof.Machine

/-- The buffer sizes of the pools in bytes (R358). -/
def poolSize (p : Nat) : Nat := [256, 2048, 16384, 131072, 1048576, 8388608].getD p 0

/-- Ranks of each channel. -/
def Dev.ranks (d : Dev) : Nat := d.nat .DRAM_RANKS

/-- Pool memory of a channel in bytes (R359). -/
def Dev.channelBytes (d : Dev) : Nat := d.ranks * (2 ^ 34 - 2 ^ 17)

/-- The buffers of pool `p` on each channel (R359). -/
def Dev.perChannel (d : Dev) (p : Nat) : Nat := d.channelBytes * d.nat .POOL_SHARE p / 256 / (poolSize p + 32)

/-- The first DRAM index of a pool; those below it are warm-up buffers (R360). -/
def poolFirst (p : Nat) : Nat := if p = 0 then 1024 else if p = 1 then 768 else 0

/-- The channel of index `i` of pool `p`; 4 is region 0 memory (R359, R360). -/
def listOf (p i : Nat) : Nat := if i < poolFirst p then 4 else i % 4

/-- The `j`-th index of a list, in ascending order. -/
def nthIndex (p c j : Nat) : Nat := if c = 4 then j else poolFirst p + 4 * j + c

/-- A handle (R361). -/
def mkHandle (p gen i : Nat) : Nat := p * 2 ^ 29 + gen * 2 ^ 25 + i

/-- The null handle. -/
def nullHandle : Nat := 0xFFFFFFFF

/-- The pool a handle names. -/
def handlePool (h : Nat) : Nat := h / 2 ^ 29 % 8

/-- The generation a handle carries. -/
def handleGen (h : Nat) : Nat := h / 2 ^ 25 % 16

/-- The index a handle names. -/
def handleIndex (h : Nat) : Nat := h % 2 ^ 25

/-- A free list. -/
def Dev.listAt (d : Dev) (p c : Nat) : PoolList := tget {} (p, c) d.pool.lists

/-- Sets a free list. -/
def Dev.setList (d : Dev) (p c : Nat) (l : PoolList) : Dev :=
  { d with pool := { d.pool with lists := tput {} (p, c) l d.pool.lists } }

/-- The descriptor of an index; one never taken carries its list's generation. -/
def Dev.descOf (d : Dev) (p i : Nat) : Desc :=
  (tfind (p, i) d.pool.descs).getD { gen := (d.listAt p (listOf p i)).virginGen }

/-- Sets a descriptor. -/
def Dev.setDesc (d : Dev) (p i : Nat) (x : Desc) : Dev :=
  { d with pool := { d.pool with descs := tset (p, i) x d.pool.descs } }

/-- Is the content of a buffer gone with the channel of its only placement (R344)? Its holder treats what it held as missing. -/
def Dev.contentLost (d : Dev) (h : Option Nat) : Bool :=
  match h with
  | none => false
  | some h =>
    let x := d.descOf (handlePool h) (handleIndex h)
    x.lost && !x.mirrored && !x.copying && !x.waiting && decide (x.gen = handleGen h)

/-- A line of single placement does not read, though its channel stays in service (R344): a recovered record with the handle. -/
def Dev.lineLost (d : Dev) (c detail : Nat) : Dev :=
  d.logRec { level := 3, cls := .recovered, action := .lost, unit := 0x2000 + c, code := 0x0907, detail := detail }

/-- Buffers on a list. -/
def PoolList.length (l : PoolList) : Nat := l.stack.length + l.late + l.virgin

/-- CH_STATE of channel `c`. -/
def Dev.chState (d : Dev) (c : Nat) : Nat := d.nat .CH_STATE c

/-- May channel `c` serve allocations (R341, R365): INITIALISING, IN_SERVICE or DEGRADED? -/
def Dev.chServes (d : Dev) (c : Nat) : Bool := decide (2 ≤ d.chState c) && decide (d.chState c ≤ 4)

/-- Does a holder read a buffer from its only placement, in a channel that serves? -/
def Dev.readsSingle (d : Dev) (h : Nat) : Bool :=
  let x := d.descOf (handlePool h) (handleIndex h)
  x.allocated && !x.mirrored && decide (x.gen = handleGen h) && d.chServes (listOf (handlePool h) x.primary)

/-- Reads of the buffers `hs` came back uncorrectable, the retry too (R344). -/
def Dev.linesLost (d : Dev) (hs : List Nat) : Dev :=
  hs.foldl (fun d h => d.lineLost (listOf (handlePool h) (d.descOf (handlePool h) (handleIndex h)).primary) h) d

/-- The lists that serve pool `p` now: region 0 memory in warm-up (R360), the serving channels otherwise. -/
def Dev.serving (d : Dev) (p : Nat) : List Nat :=
  if d.service = .warmup then (if p < 2 then [4] else []) else (List.range 4).filter d.chServes

/-- The buffers on the free lists of pool `p` (R372): those of the channels that hold them, and of region 0 memory. -/
def Dev.poolFree (d : Dev) (p : Nat) : Nat :=
  ((List.range 4).filter d.chServes ++ [4]).foldl (fun n c => n + (d.listAt p c).length) 0

/-- Brings POOL_FREE and POOL_LOW_WATER of pool `p` up to date. -/
def Dev.poolTouch (d : Dev) (p : Nat) : Dev :=
  let f := d.poolFree p
  let d := d.setN .POOL_FREE p f
  if f < d.nat .POOL_LOW_WATER p then d.setN .POOL_LOW_WATER p f else d

/-- The index a list gives next, and the list without it. -/
def PoolList.take (l : PoolList) (p c : Nat) : Option (Nat × PoolList) :=
  match l.stack with
  | i :: r => some (i, { l with stack := r })
  | [] =>
    if l.late ≠ 0 then some (nthIndex p c (l.lateFrom + l.late - 1), { l with late := l.late - 1 })
    else if l.virgin = 0 then none else some (nthIndex p c (l.virgin - 1), { l with virgin := l.virgin - 1 })

/-- The handle of the next buffer of a list, or the null handle (R361, R363). -/
def Dev.nextHandle (d : Dev) (l : PoolList) (p c : Nat) : Nat :=
  match l.take p c with
  | none => nullHandle
  | some (i, _) => mkHandle p (d.descOf p i).gen i

/-- The handle of the buffer at the head of a list (R363). -/
def Dev.headHandle (d : Dev) (p c : Nat) : Nat := d.nextHandle (d.listAt p c) p c

/-- The link in the first 16 bytes of the buffer at the head of a list (R363): the next handle, its own, the check word, and zeros. -/
def Dev.linkOf (d : Dev) (p c : Nat) : Octets :=
  let own := d.headHandle p c
  let next := match (d.listAt p c).take p c with
    | none => nullHandle
    | some (_, l) => d.nextHandle l p c
  natToOctets 4 next ++ natToOctets 4 own ++ natToOctets 4 (next ^^^ own ^^^ 0x4C4E0B0F) ++ natToOctets 4 0

/-- Does a link of the buffer with handle `own` pass its check in full (R363)? -/
def linkHolds (own : Nat) (b : Octets) : Bool :=
  let word := fun (i : Nat) => Octets.toNat ((b.drop (4 * i)).take 4)
  decide (word 2 = word 0 ^^^ word 1 ^^^ 0x4C4E0B0F) && decide (word 1 = own) && decide (word 3 = 0)

/-- The list with the most free buffers, ties to the lower channel (R365 step 2). -/
def Dev.fullest (d : Dev) (p : Nat) (except : Option Nat) : Option Nat :=
  let cs := ((d.serving p).filter fun c => (d.listAt p c).length ≠ 0).filter fun c => some c ≠ except
  minBy? (fun c => 2 ^ 26 - (d.listAt p c).length) cs

/-- The mirror channel for index `i` of pool `p` with its primary on channel `c` (R341). -/
def Dev.mirrorChannel (d : Dev) (c i : Nat) : Option Nat :=
  let l := ([(c + 1) % 4, (c + 2) % 4, (c + 3) % 4]).filter d.chServes
  if l = [] then none else l[i % l.length]?

/-- Puts an index back on its list's head; a warm-up buffer returns to none after the handover (R360). -/
def Dev.giveBack (d : Dev) (p i : Nat) : Dev :=
  let c := listOf p i
  let l := d.listAt p c
  if c = 4 ∧ d.service ≠ .warmup then d else d.setList p c { l with stack := i :: l.stack }

/-- KiB, rounded up (R369). -/
def kib (bytes : Nat) : Nat := (bytes + 1023) / 1024

/-- Charges or credits `bytes` to a domain and an account (R369). -/
def Dev.chargeBytes (d : Dev) (dom : Nat) (account : Option Nat) (bytes : Int) : Dev :=
  let b := (((tget 0 dom d.pool.dom : Nat) : Int) + bytes).toNat
  let d := ({ d with pool := { d.pool with dom := tput 0 dom b d.pool.dom } }).setN .DOM_USE dom (kib b)
  match account with
  | none => d
  | some k =>
    let b := (((tget 0 k d.pool.conf : Nat) : Int) + bytes).toNat
    ({ d with pool := { d.pool with conf := tput 0 k b d.pool.conf } }).setN .CONF_BUFFER_USE k (kib b)

/-- Would `bytes` more exceed a quota in KiB, 0xFFFF_FFFF being none (R365 step 1, R369)? -/
def quotaBlocks (quota used bytes : Nat) : Bool := quota != 0xFFFFFFFF && decide (quota * 1024 < used + bytes)

/-- What a use fixes (R364). -/
structure UseRow where
  ceiling : Nat
  mirrored : Bool
  keep : Bool
  share : Nat
  account : Bool
  guarded : Bool
deriving DecidableEq, Repr

/-- The row of a use, for the owner's domain `dom` (R364). -/
def useRow (u : PoolUse) (dom : Nat) : UseRow :=
  match u with
  | .rxPacket => ⟨2, false, false, 0x0FF3, false, false⟩
  | .txAudio => ⟨2, false, false, 2 ||| 2 ^ dom, true, true⟩
  | .txVideo => ⟨2, false, false, 2 ||| 2 ^ dom, true, false⟩
  | .home => ⟨2, true, true, 0x00F0, true, true⟩
  | .picture => ⟨5, true, true, 0xFF00, true, false⟩
  | .context => ⟨2, true, true, 0x0F00, true, false⟩
  | .composed => ⟨5, false, false, 2 ^ dom ||| 0x0F00, true, false⟩
  | .image => ⟨5, true, true, 0xF004, false, false⟩
  | .bulk => ⟨4, false, false, 0x0004, false, false⟩

/-- The first pool of a use for a size in bytes (R364). -/
def firstPool (u : PoolUse) (size : Nat) : Nat :=
  match u with
  | .home => 2
  | .context => 2
  | .bulk => 4
  | .picture => if size ≤ poolSize 3 then 3 else if size ≤ poolSize 4 then 4 else 5
  | .composed => if size ≤ poolSize 3 then 3 else if size ≤ poolSize 4 then 4 else 5
  | .image => if size ≤ poolSize 3 then 3 else if size ≤ poolSize 4 then 4 else 5
  | _ => if size ≤ poolSize 0 then 0 else if size ≤ poolSize 1 then 1 else 2

/-- Free buffers a pool must keep back from an unprotected use (R364). -/
def Dev.reserveOf (d : Dev) (p : Nat) : Nat := d.nat .POOL_BUFFERS p * d.nat .POOL_RESERVE p / 256

/-- Takes one buffer of pool `p` with its shadow where the use has one (R365 step 2). `except` is a list whose link
failed its check. -/
def Dev.takeOne (d : Dev) (p : Nat) (u : PoolUse) (row : UseRow) (dom : Nat) (account : Option Nat)
    (except : Option Nat) : Option (Nat × Dev) :=
  match d.fullest p except with
  | none => none
  | some c =>
    match (d.listAt p c).take p c with
    | none => none
    | some (i, l) =>
      let old := d.descOf p i
      let d := d.setList p c l
      let gen := (old.gen + 1) % 16
      let x : Desc :=
        { allocated := true, keep := row.keep, gen := gen, owner := dom, share := row.share, refs := 1,
          primary := i, mirror := i, account := account, use := u }
      let d := if d.nat .POOL_PEAK_REFS p < 1 then d.setN .POOL_PEAK_REFS p 1 else d
      if row.mirrored && c != 4 then
        match d.mirrorChannel c i with
        | none => none
        | some m =>
          match (d.listAt p m).take p m with
          | none => none
          | some (j, lm) =>
            let s := d.descOf p j
            let d := d.setList p m lm
            let d := d.setDesc p j { gen := s.gen, shadow := true, primary := j, mirror := j }
            some (mkHandle p gen i, d.setDesc p i { x with mirrored := true, mirror := j })
      else some (mkHandle p gen i, d.setDesc p i x)

/-- Takes `n` buffers together or none. -/
def Dev.takeMany (d : Dev) (p : Nat) (u : PoolUse) (row : UseRow) (dom : Nat) (account : Option Nat)
    (except : Option Nat) : Nat → Option (List Nat × Dev)
  | 0 => some ([], d)
  | n + 1 =>
    match d.takeOne p u row dom account except with
    | none => none
    | some (h, e) => (e.takeMany p u row dom account except n).map fun r => (h :: r.1, r.2)

/-- How many buffers a use takes: a picture that no pool holds takes as many P5 buffers as its footprint fills, a home
and a bulk transfer the number asked for, any other use one (R217, R364). -/
def useCount (u : PoolUse) (size n : Nat) : Nat :=
  match u with
  | .home => n
  | .bulk => n
  | .picture => if size ≤ poolSize 5 then 1 else (size + poolSize 5 - 1) / poolSize 5
  | _ => 1

/-- Does the ceiling of a use hold its size (R364)? A use that names its pool, or takes several, always fits. -/
def useFits (u : PoolUse) (row : UseRow) (size : Nat) : Bool :=
  match u with
  | .home => true
  | .context => true
  | .bulk => true
  | .picture => true
  | _ => decide (size ≤ poolSize row.ceiling)

/-- A failed allocation of R365 step 5: counted in the first pool, for the lap's record. -/
def Dev.poolFailed (d : Dev) (first : Nat) : Dev :=
  let d := d.bump .POOL_EXHAUSTED first
  { d with pool := { d.pool with failed := tset first (tget 0 first d.pool.failed + 1) d.pool.failed } }

/-- The steps of R365 from pool `p` on; `fuel` bounds the fallback. -/
def Dev.allocFrom (d : Dev) (u : PoolUse) (row : UseRow) (dom : Nat) (account : Option Nat) (n first : Nat)
    (except : Option Nat) : Nat → Nat → List Nat × Dev
  | 0, _ => ([], d)
  | fuel + 1, p =>
    let placements := if row.mirrored && d.service ≠ .warmup then 2 else 1
    let bytes := n * placements * poolSize p
    let confBlocks := match account with
      | some k => quotaBlocks (d.nat .CONF_BUFFER_QUOTA k) (tget 0 k d.pool.conf) bytes
      | none => false
    if quotaBlocks (d.nat .DOM_QUOTA dom) (tget 0 dom d.pool.dom) bytes || confBlocks then
      ([], d.bump .DOM_QUOTA_FAILS dom)
    else
      let enough := row.guarded || decide (d.reserveOf p + n * placements ≤ d.poolFree p)
      let got := if enough then d.takeMany p u row dom account except n else none
      match got with
      | some (hs, e) => (hs, (e.chargeBytes dom account bytes).poolTouch p)
      | none =>
        if p < row.ceiling then (d.bump .POOL_FALLBACKS p).allocFrom u row dom account n first none fuel (p + 1)
        else ([], d.poolFailed first)

/-- An allocation (R364, R365): the handles, none on failure. `n` is the number of homes or of bulk buffers. -/
def Dev.alloc (d : Dev) (u : PoolUse) (dom size : Nat) (conf : Option Nat) (n : Nat)
    (except : Option Nat := none) : List Nat × Dev :=
  let row := useRow u dom
  let p := firstPool u size
  if useFits u row size then
    d.allocFrom u row dom (if row.account then conf else none) (useCount u size n) p except 6 p
  else ([], d.poolFailed p)

/-- An allocation whose references the packet path or a coder keeps (R367): the manager counts one for each handle. -/
def Dev.allocKept (d : Dev) (u : PoolUse) (dom size : Nat) (conf : Option Nat) : List Nat × Dev :=
  let r := d.alloc u dom size conf 1
  (r.1, { r.2 with pool := { r.2.pool with managed := r.2.pool.managed ++ r.1.map fun h => (h, 1) } })

/-- The list of pool `p` on channel `c` is rebuilt from the descriptors (R363), ascending. -/
def Dev.rebuildList (d : Dev) (p c : Nat) : Dev :=
  let l := d.listAt p c
  let d := d.setList p c { l with stack := sortAsc id l.stack }
  let d := d.bump .POOL_LIST_REBUILDS
  d.logRec
    { level := 3, cls := .corrected, action := .corrected, unit := 0x3000 + p, code := 0x0B07, detail := p * 8 + c }

/-- Frees a buffer whose last reference was dropped (R367): its index unless LOST, each shadow, and its charge. -/
def Dev.freeDesc (d : Dev) (p i : Nat) : Dev :=
  let x := d.descOf p i
  let shadows := ([x.primary, x.mirror].eraseDups).filter (· ≠ i)
  let bytes := (1 + shadows.length) * poolSize p
  let d := if x.copying then
      d.put .DRAM_REMIRROR_LEFT 0 0 (.num (d.nat .DRAM_REMIRROR_LEFT - poolSize p : Nat))
    else d
  let live := d.chServes (listOf p i) || decide (listOf p i = 4)
  let x' : Desc := { gen := x.gen, lost := x.lost }
  let d :=
    if x.lost && !live then d.setDesc p i x'
    else if x.lost then (d.setDesc p i { x' with lost := false, gen := (x.gen + 1) % 16 }).giveBack p i
    else (d.setDesc p i x').giveBack p i
  let d := if x.lost && live then
      (d.setN .POOL_LOST p (d.nat .POOL_LOST p - 1)).add .POOL_BUFFERS p 0 1
    else d
  let d := shadows.foldl (fun d j =>
    let s := d.descOf p j
    let d := d.setDesc p j { s with shadow := false }
    if s.lost then d else d.giveBack p j) d
  (d.chargeBytes x.owner x.account (-(bytes : Int))).poolTouch p

/-- The checks of R368 on an add or a drop by domain `dom`, in order: the code and the counter of the one that fails. -/
def Dev.refCheck (d : Dev) (dom h add : Nat) : Option (Nat × Obj) :=
  let p := handlePool h
  let i := handleIndex h
  let x := d.descOf p i
  if h = nullHandle ∨ 6 ≤ p ∨ poolFirst p + 4 * d.perChannel p ≤ i ∨ x.shadow then some (0x0B05, .POOL_INVALID)
  else if handleGen h ≠ x.gen then some (0x0B03, .POOL_STALE_FREES)
  else if !x.allocated then some (0x0B02, .POOL_DOUBLE_FREES)
  else if !bit x.share dom then some (0x0B04, .POOL_FOREIGN_FREES)
  else if 65535 < x.refs + add then some (0x0B06, .POOL_REF_LIMIT)
  else none

/-- An operation that R368 rejects: its counter and its record, nothing else. -/
def Dev.refReject (d : Dev) (h : Nat) (r : Nat × Obj) : Dev :=
  (d.bump r.2).logRec { level := 3, cls := .recovered, unit := 0x3000 + handlePool h, code := r.1, detail := h }

/-- Adds `n` references (R367, R368). A count outside 1 to 4,096 is no operation of R367 and changes nothing. -/
def Dev.refAdd (d : Dev) (dom h n : Nat) : Dev :=
  if n < 1 ∨ 4096 < n then d else
    match d.refCheck dom h n with
    | some r => d.refReject h r
    | none =>
      let p := handlePool h
      let x := d.descOf p (handleIndex h)
      let d := d.setDesc p (handleIndex h) { x with refs := x.refs + n }
      if d.nat .POOL_PEAK_REFS p < x.refs + n then d.setN .POOL_PEAK_REFS p (x.refs + n) else d

/-- Drops one reference, and frees the buffer at 0 (R367, R368). -/
def Dev.refDrop (d : Dev) (dom h : Nat) : Dev :=
  match d.refCheck dom h 0 with
  | some r => d.refReject h r
  | none =>
    let p := handlePool h
    let x := d.descOf p (handleIndex h)
    if x.refs ≤ 1 then (d.setDesc p (handleIndex h) { x with refs := 0 }).freeDesc p (handleIndex h)
    else d.setDesc p (handleIndex h) { x with refs := x.refs - 1 }

/-- Drops one reference of each handle. -/
def Dev.dropAll (d : Dev) (dom : Nat) (hs : List Nat) : Dev := hs.foldl (fun d h => d.refDrop dom h) d

/-- A read of POOL_LOW_WATER or POOL_PEAK_REFS returns the value and restarts it (R372). -/
def Dev.readLowWater (d : Dev) (p : Nat) (peak : Bool) : Nat × Dev :=
  if peak then
    let top := d.pool.descs.foldl (fun m kv => if kv.1.1 = p then max m kv.2.refs else m) 0
    (d.nat .POOL_PEAK_REFS p, d.setN .POOL_PEAK_REFS p top)
  else (d.nat .POOL_LOW_WATER p, d.setN .POOL_LOW_WATER p (d.poolFree p))

/-- The order in which lost placements are copied (R345): homes, contexts, pictures and images. -/
def copyRank (u : PoolUse) : Nat :=
  match u with
  | .home => 0
  | .context => 1
  | _ => 2

/-- A mirrored buffer without a second placement gets a new shadow under R341 for its copy, or waits (R370). -/
def Dev.reshadow (d : Dev) (p i : Nat) : Dev :=
  let x := d.descOf p i
  let c := listOf p x.primary
  let got := match d.mirrorChannel c i with
    | none => none
    | some m => ((d.listAt p m).take p m).map fun r => (m, r)
  match got with
  | some (m, (j, l)) =>
    let s := d.descOf p j
    let d := (d.setList p m l).setDesc p j { gen := s.gen, shadow := true, primary := j, mirror := j }
    let d := d.setDesc p i { x with mirror := j, mirrored := false, copying := true, waiting := false }
    (d.add .DRAM_REMIRROR_LEFT 0 0 (poolSize p)).poolTouch p
  | none =>
    let d := d.setDesc p i { x with mirror := x.primary, mirrored := false, copying := false, waiting := true }
    if x.waiting then d else
      (d.bump .POOL_REMIRROR_WAIT).logRec
        { level := 3, cls := .degraded, unit := 0x3000 + p, code := 0x0B08, detail := mkHandle p x.gen i }

/-- A channel fails: every index stored on it is LOST, and mirrored buffers go to their survivor (R344, R370). -/
def Dev.poolChannelLost (d : Dev) (c : Nat) : Dev :=
  let mine := fun (p i : Nat) => decide (listOf p i = c)
  let touched := d.pool.descs.filter fun kv => mine kv.1.1 kv.1.2 || mine kv.1.1 kv.2.primary || mine kv.1.1 kv.2.mirror
  let touched := sortAsc (fun kv => copyRank kv.2.use) touched
  let d := touched.foldl (fun d kv =>
    let p := kv.1.1
    let i := kv.1.2
    let x := d.descOf p i
    let x := if mine p i && (x.allocated || x.shadow) then { x with lost := true } else x
    let d := d.setDesc p i x
    if x.allocated && (x.mirrored || x.copying) && x.primary ≠ x.mirror then
      if mine p x.primary then
        if x.copying then
          (d.setDesc p i { x with copying := false, mirrored := false, lost := true })
        else (d.setDesc p i { x with primary := x.mirror, mirror := x.mirror }).reshadow p i
      else if mine p x.mirror then
        let d := if x.copying then
            d.put .DRAM_REMIRROR_LEFT 0 0 (.num (d.nat .DRAM_REMIRROR_LEFT - poolSize p : Nat))
          else d
        (d.setDesc p i { x with mirror := x.primary }).reshadow p i
      else d
    else if x.allocated && x.waiting && mine p x.primary then d.setDesc p i { x with waiting := false, lost := true }
    else d) d
  (List.range 6).foldl (fun d p =>
    let l := d.listAt p c
    ((d.setN .POOL_BUFFERS p (d.nat .POOL_BUFFERS p - l.given)).setN .POOL_LOST p
      (d.nat .POOL_LOST p + d.perChannel p)).poolTouch p) d

/-- Initialisation of channel `c` reaches its end and its indices enter the lists (R348, R355, R359). At a retraining the
free indices return with their generation incremented, and those whose buffer still stands wait for its last drop. -/
def Dev.poolChannelReady (d : Dev) (c : Nat) (again : Bool) : Dev :=
  (List.range 6).foldl (fun d p =>
    let n := d.perChannel p
    if again then
      let standing := d.pool.descs.filter fun kv => kv.1.1 = p && listOf p kv.1.2 = c
      let waiting := (standing.filter fun kv => kv.2.lost && kv.2.allocated).length
      let l := d.listAt p c
      let more := n - l.given
      let g := { l with virginGen := (l.virginGen + 1) % 16 }
      let d := d.setList p c (if more = 0 then g else { g with late := more, lateFrom := l.given, given := n })
      let d := standing.foldl (fun d kv =>
        let x := kv.2
        if x.allocated then d
        else
          let inList := l.stack.contains kv.1.2
          let d := d.setDesc p kv.1.2 { gen := (x.gen + 1) % 16 }
          if inList then d else d.giveBack p kv.1.2) d
      (((d.setN .POOL_LOST p (d.nat .POOL_LOST p - (n - waiting))).add .POOL_BUFFERS p 0 (n - waiting))).poolTouch p
    else
      let l := d.listAt p c
      let more := n - l.given
      ((d.setList p c { l with late := more, lateFrom := l.given, given := n }).add .POOL_BUFFERS p 0 more).poolTouch p) d

/-- What has entered the lists of channel `c` when a first part of `bytes` has been initialised (R348, R359): that share of each
pool's buffers (log entry 42). -/
def Dev.poolChannelPart (d : Dev) (c bytes : Nat) : Dev :=
  (List.range 6).foldl (fun d p =>
    let n := d.perChannel p * bytes / d.channelBytes
    let l := d.listAt p c
    if l.given ≠ 0 then d
    else ((d.setList p c { l with virgin := n, given := n }).add .POOL_BUFFERS p 0 n).poolTouch p) d

/-- Pool exhaustion records at a lap edge, and another try for waiting shadows (R365, R370). -/
def Dev.poolLapEdge (d : Dev) : Dev :=
  let d := (sortAsc (fun x => x.1) d.pool.failed).foldl (fun d x =>
    d.logRec { level := 3, cls := .degraded, unit := 0x3000 + x.1, code := 0x0B01, detail := x.2 }) d
  let d := { d with pool := { d.pool with failed := [] } }
  d.pool.descs.foldl (fun d kv => if kv.2.waiting then d.reshadow kv.1.1 kv.1.2 else d) d

/-- The sweep of a warm reset (R371). -/
def Dev.poolSweep (d : Dev) : Dev :=
  let gone := d.pool.descs.filter fun kv => kv.2.allocated && !kv.2.keep
  let d := gone.foldl (fun d kv => (d.freeDesc kv.1.1 kv.1.2).bump .POOL_RESET_FREED) d
  d.pool.lists.foldl (fun d kv =>
    d.setList kv.1.1 kv.1.2 { kv.2 with stack := sortAsc id (d.listAt kv.1.1 kv.1.2).stack }) d

/-- Warm-up memory serves P0 and P1 (R360); after the handover its free buffers leave the lists. -/
def Dev.poolWarm (d : Dev) (on : Bool) : Dev :=
  let d := (d.setList 0 4 { virgin := if on then 1024 else 0 }).setList 1 4 { virgin := if on then 768 else 0 }
  let d :=
    if on then (d.add .POOL_BUFFERS 0 0 1024).add .POOL_BUFFERS 1 0 768
    else (d.setN .POOL_BUFFERS 0 (d.nat .POOL_BUFFERS 0 - 1024)).setN .POOL_BUFFERS 1 (d.nat .POOL_BUFFERS 1 - 768)
  (d.poolTouch 0).poolTouch 1

end Sys2Proof.Machine
end

