-- ==== Sys2Proof/Machine/Sched.lean ====
section
/-! DEFINITION. The block schedulers (R317 to R325), the reserve cell (R326), homes (R327), stopped clocks (R328) and the
arbiters (R329, R330). -/

namespace Sys2Proof.Machine

/-- Block `b` beyond its objects. -/
def Dev.blkOf (d : Dev) (b : Nat) : Blk := tget {} b d.blk
/-- Sets block `b`. -/
def Dev.setBlk (d : Dev) (b : Nat) (x : Blk) : Dev := { d with blk := tput {} b x d.blk }
/-- Cell `c` beyond its objects. -/
def Dev.cellOf (d : Dev) (c : Nat) : Cell := tget {} c d.cell
/-- Sets cell `c`. -/
def Dev.setCell (d : Dev) (c : Nat) (x : Cell) : Dev := { d with cell := tput {} c x d.cell }

/-- The guaranteed work phase of a DVFS step in cycles (R22, R400). -/
def workPhase (step : Nat) : Nat := [1995100, 1495325, 995550].getD step 995550

/-- The admitted cycles of a whole block (R9, R113). -/
def blockFull : Nat := 15 * 1995100

/-- Block cycles per 125 packet-engine cycles at a DVFS step (R400). -/
def blockRate (step : Nat) : Nat := [192, 144, 96].getD step 96

/-- The DVFS step that block `b` runs at now: 0 under a re-run boost (R379, R401). -/
def Dev.blockStep (d : Dev) (b : Nat) : Nat := if (d.blkOf b).boost then 0 else d.nat .BLK_DVFS_STEP b

/-- Block cycles since the edge. -/
def Dev.blockNow (d : Dev) (b : Nat) : Nat := d.gen.cycle * blockRate (d.blockStep b) / 125

/-- Cycles left in the guaranteed work phase, which follows a boundary phase of 4,000 (R22, R28, R321). -/
def Dev.cyclesLeft (d : Dev) (b : Nat) : Nat := workPhase (d.blockStep b) + 4000 - d.blockNow b

/-- The class of an item (R317). -/
def kindClass : ItemKind → Nat
  | .loop => 1
  | .feedback => 2
  | .check => 3
  | _ => 0

/-- The largest estimate of an item (R317). -/
def kindLimit : ItemKind → Nat
  | .input => 450000
  | .mix => 100000
  | .output => 350000
  | .encode => 400000
  | .loop => 250000
  | .feedback => 250000
  | .check => 4000

/-- The number of an item kind, as SB_CELL has it (R472). -/
def kindNum : ItemKind → Nat
  | .input => 0
  | .mix => 1
  | .output => 2
  | .encode => 3
  | .loop => 4
  | .feedback => 5
  | .check => 6

/-- The parameters of an item: the members of a conference, the codecs of a leg (R316). -/
def Dev.itemParams (d : Dev) (k : ItemKind) (u : Nat) : Nat × Nat :=
  match k with
  | .mix => (d.nat .CONF_LEG_COUNT u, 0)
  | .check => (0, 0)
  | _ => (d.nat .LEG_RX_CODEC u, d.nat .LEG_TX_CODEC u)

/-- The kernel ROM's estimate of an item (R316; log entry 2). -/
def Dev.estimate (d : Dev) (k : ItemKind) (u : Nat) : Nat :=
  min (kindLimit k) (Config.itemCost (kindNum k) (d.itemParams k u).1 (d.itemParams k u).2)

/-- The flow of an item: what carries its state (R317). -/
def Item.flow (i : Item) : ItemKind × Nat := (i.kind, i.unit)

/-- Does the leg of an item have low priority (R320)? -/
def Dev.lowItem (d : Dev) (i : Item) : Bool :=
  match i.kind with
  | .mix => false
  | .check => false
  | _ => d.flag .LEG_LOW_PRIORITY i.unit

/-- The keys of R320 as one number. -/
def Dev.orderKey (d : Dev) (i : Item) : Nat :=
  let b := fun (x : Bool) => if x then 1 else 0
  (((kindClass i.kind * 2 + b (!i.carried)) * 2 + b (d.lowItem i)) * 2 ^ 64 + i.ready) * 8192 + i.unit +
    (if i.kind = .mix then 4096 else 0)

/-- The home cell of a unit's flows (R327): legs by number, conferences from 4096. -/
def Dev.homeOf (d : Dev) (k : ItemKind) (u : Nat) : Option Nat :=
  tfind (if k = .mix then 4096 + u else u) d.homes

/-- The block in which a leg's or a conference's items run. -/
def Dev.itemBlock (d : Dev) (k : ItemKind) (u : Nat) : Nat :=
  match k with
  | .mix => d.nat .CONF_HOME_BLOCK u
  | .check => u / 16
  | _ => d.nat .LEG_ADMIT_BLOCK u

/-- An item becomes ready in its block. -/
def Dev.addItem (d : Dev) (k : ItemKind) (u : Nat) (seq : Nat := 0) : Dev :=
  let b := d.itemBlock k u
  if 64 ≤ b then d else
    let x := d.blkOf b
    d.setBlk b { x with ready := x.ready ++ [⟨k, u, d.gen.total, false, false, d.estimate k u, seq⟩] }

/-- Is cell `c` usable (R321): in service, not the reserve cell, not fenced? -/
def Dev.usable (d : Dev) (c : Nat) : Bool :=
  decide (d.nat .CELL_STATE c = 0) && !(d.cellOf c).halted && !(d.blkOf (c / 16)).halted

/-- Does cell `c` have nothing running and both slots free? -/
def Dev.cellEmpty (d : Dev) (c : Nat) : Bool :=
  let x := d.cellOf c
  x.running.isNone && x.slots.isEmpty

/-- Has a fault ended the item of a kind and unit for this stride (R380)? It no longer completes. -/
def Dev.itemFailed (d : Dev) (k : ItemKind) (u : Nat) : Bool := d.faults.failed.contains (k, u)

/-- A fault ends an item for this stride (R380). -/
def Dev.failItem (d : Dev) (k : ItemKind) (u : Nat) : Dev :=
  if d.itemFailed k u then d else { d with faults := { d.faults with failed := d.faults.failed ++ [(k, u)] } }

/-- The affinity cell of an item: the cell that last ran its flow, or its home cell (R321). -/
def Dev.affinity (d : Dev) (i : Item) : Option Nat :=
  match tfind i.flow d.flows with
  | some c => some c
  | none => d.homeOf i.kind i.unit

/-- The cell at which an item can be placed now (R321). -/
def Dev.placeAt (d : Dev) (b : Nat) (i : Item) : Option Nat :=
  let cells := (List.range 16).map (16 * b + ·)
  let room := fun c => d.usable c && decide ((d.cellOf c).slots.length < 2)
  let x := d.blkOf b
  let ordered := i.kind = .feedback &&
    decide (32 ≤ (x.order.filter fun o => match o.2.2 with
      | .held _ => true
      | _ => false).length) &&
    x.order.any fun o => o.1 = i.unit && decide (o.2.1 < i.seq) && decide (o.2.2 = .unfinished)
  if (decide (0 < kindClass i.kind) && decide (d.cyclesLeft b < i.est)) || ordered then none
  else match d.affinity i with
    | some a =>
      if room a && decide (a / 16 = b) then some a
      else match cells.find? fun c => d.usable c && d.cellEmpty c with
        | some c => some c
        | none => cells.find? room
    | none =>
      match cells.find? fun c => d.usable c && d.cellEmpty c with
      | some c => some c
      | none => cells.find? room

/-- Adds the stopped time of cell `c` up to now to CELL_GATED (R328). -/
def Dev.gatedTime (d : Dev) (c : Nat) : Dev :=
  let x := d.cellOf c
  match x.stopped with
  | none => d
  | some s =>
    let acc := x.gatedAcc + (d.gen.total - s) * blockRate (d.blockStep (c / 16)) / 125
    (d.setCell c { x with stopped := some d.gen.total, gatedAcc := acc % 1024 }).add .CELL_GATED c 0 (acc / 1024)

/-- Puts an item into a prefetch slot of cell `c`; a stopped clock restarts (R322, R328). -/
def Dev.place (d : Dev) (b c : Nat) (i : Item) : Dev :=
  let x := d.blkOf b
  let d := (d.setBlk b { x with ready := x.ready.erase i }).gatedTime c
  let y := d.cellOf c
  d.setCell c { y with slots := y.slots ++ [i], stopped := none }

/-- Does the cost check of R28 defer an item of block `b` now? -/
def Dev.tooLong (d : Dev) (b : Nat) (i : Item) : Bool := decide (0 < kindClass i.kind) && decide (d.cyclesLeft b < i.est)

/-- Items of block `b` are deferred: each counts once (R28, R324). -/
def Dev.countDeferred (d : Dev) (b : Nat) (items : List Item) : Dev :=
  let n := (items.filter (!·.counted)).length
  (d.add .ITEMS_DEFERRED 0 0 n).add .BLK_DEFERRED b 0 n

/-- One placement of block `b` (R321): the first item in order that can be placed; the others wait, and those before it that the cost
check defers are counted (R28). -/
def Dev.placement (d : Dev) (b : Nat) : Dev :=
  let items := sortAsc d.orderKey (d.blkOf b).ready
  let pick := items.findSome? fun i => (d.placeAt b i).map fun c => (i, c)
  let seen := match pick with
    | some (i, _) => items.takeWhile (· ≠ i)
    | none => items
  let late := seen.filter (d.tooLong b)
  let x := d.blkOf b
  let mark := fun (i : Item) => if late.contains i then { i with counted := true } else i
  let d := (d.countDeferred b late).setBlk b { x with ready := x.ready.map mark }
  match pick with
  | some (i, c) => d.place b c i
  | none => d

/-! ### What a cell keeps (R313, R314, R318, R319) -/

/-- One part of kernel code runs: how many fetches it makes, and the fetches that the loop cache of 64 bundles then holds. A loop that
fits runs from the cache after its first pass; longer loops and straight-line code fetch as they run and leave the cache as it is
(R314; the least recently run fetches leave it, log entry 136). -/
def runCode (tags : List Nat) (part : Nat × (Nat × Nat)) : Nat × List Nat :=
  let lines := (List.range part.2.1).map (part.1 + ·)
  if 1 < part.2.2 ∧ part.2.1 ≤ 8 then
    ((lines.filter (!tags.contains ·)).length, (lines ++ tags.filter (!lines.contains ·)).take 8)
  else (part.2.1 * part.2.2, tags)

/-- The kept state of flows, the latest first, as far as `room` bytes allow (R313). -/
def keepRoom : Nat → List ((ItemKind × Nat) × List Nat) → List ((ItemKind × Nat) × List Nat)
  | _, [] => []
  | room, x :: r => if 64 * x.2.length ≤ room then x :: keepRoom (room - 64 * x.2.length) r else []

/-- Cell `c` loads an item: its code is fetched, and its flow's state is the latest that local memory keeps (R313, R314). -/
def Dev.loadCell (d : Dev) (c : Nat) (i : Item) : Dev :=
  let x := d.cellOf c
  let q := d.itemParams i.kind i.unit
  let r := (Config.kernelCode (kindNum i.kind) q.1 q.2).foldl (fun (a : Nat × List Nat) part =>
    let t := runCode a.2 part
    (a.1 + t.1, t.2)) (0, x.tags)
  let lines := List.range (Config.flowLines (kindNum i.kind))
  let kept := keepRoom Config.localRoom ((i.flow, lines) :: x.kept.filter fun k => decide (k.1 ≠ i.flow))
  (d.setCell c { x with tags := r.2, kept := kept }).add .CELL_LOOP_MISSES c 0 r.1

/-- An item of a flow has completed: the lines that it changed are written in the home, and no other cell keeps them (R318, R319). -/
def Dev.writeLines (d : Dev) (k : ItemKind) (u : Nat) : Dev :=
  let q := d.itemParams k u
  let w := Config.linesWritten (kindNum k) q.1 q.2 d.gen.total
  let h := tget {} (k, u) d.flowHomes
  let last := tfind (k, u) d.flows
  let lose := fun (l : (ItemKind × Nat) × List Nat) => if l.1 = (k, u) then (l.1, l.2.filter (!w.contains ·)) else l
  { d with
    flowHomes := tput {} (k, u) { h with written := h.written ++ w.filter (!h.written.contains ·) } d.flowHomes
    cell := d.cell.map fun kv => if some kv.1 = last then kv else (kv.1, { kv.2 with kept := kv.2.kept.map lose }) }

/-- Step 5 of an edge: every line written in the stride that ends becomes current (R25, R318). -/
def Dev.checkpoint (d : Dev) : Dev :=
  { d with flowHomes := d.flowHomes.map fun kv =>
      (kv.1, { second := kv.2.second.filter (!kv.2.written.contains ·) ++ kv.2.written.filter (!kv.2.second.contains ·), written := [] }) }

/-- The flows of a unit end: legs by number, conferences from 4096 (R318, R327). -/
def Dev.endFlows (d : Dev) (key : Nat) : Dev :=
  let mine := fun (f : ItemKind × Nat) => decide ((if f.1 = .mix then 4096 + f.2 else f.2) = key) && decide (f.1 ≠ .check)
  { d with
    flows := d.flows.filter (!mine ·.1), flowHomes := d.flowHomes.filter (!mine ·.1)
    cell := d.cell.map fun kv => (kv.1, { kv.2 with kept := kv.2.kept.filter (!mine ·.1) }) }

/-- The cycles that cell `c` has spent on its item up to now join its stride's count (R333). -/
def Dev.spendCell (d : Dev) (c : Nat) : Dev :=
  let x := d.cellOf c
  if x.running.isNone then d
  else d.setCell c { x with
    began := d.gen.total, busy := x.busy + (d.gen.total - x.began) * blockRate (d.blockStep (c / 16)) / 125 }

/-- Cell `c` starts the item in its first filled slot (R322): a class 1 or later item that fails the cost check returns
to the ready list as deferred. Nothing starts while an item runs. -/
def Dev.startItem (d : Dev) (c : Nat) : Dev :=
  let x := d.cellOf c
  let b := c / 16
  match x.running, x.slots with
  | none, i :: rest =>
    if d.tooLong b i then
      let y := d.blkOf b
      let d := d.setCell c { x with slots := rest }
      (d.setBlk b { y with ready := y.ready ++ [{ i with counted := true }] }).countDeferred b [i]
    else
      let d := (d.setCell c { x with running := some i, slots := rest, began := d.gen.total }).loadCell c i
      let d := d.bump .CELL_ITEMS c
      let d := match tfind i.flow d.flows with
        | some a => if a = c then d.bump .CELL_AFFINITY_HITS c else d.bump .BLK_MIGRATIONS b
        | none => d
      { d with flows := tset i.flow c d.flows }
  | _, _ => d

/-- An item of a kind and unit completes wherever it stands: its cell is free again, the lines that it changed are written, and audio sets
the block's peak. -/
def Dev.endItem (d : Dev) (k : ItemKind) (u : Nat) : Dev :=
  let b := d.itemBlock k u
  if 64 ≤ b then d else
    let is := fun (i : Item) => i.kind = k && i.unit = u
    let far := (d.cell.filter fun kv => decide (kv.1 / 16 ≠ b) && kv.2.running.any is).map (·.1)
    let cells := (List.range 16).map (16 * b + ·) ++ far
    let d := cells.foldl (fun d c =>
      let x := d.cellOf c
      match x.running with
      | some i =>
        if is i then
          let d := d.spendCell c
          d.setCell c { d.cellOf c with running := none }
        else if x.slots.any is then d.setCell c { x with slots := x.slots.filter (!is ·) } else d
      | none => if x.slots.any is then d.setCell c { x with slots := x.slots.filter (!is ·) } else d) d
    let d := d.writeLines k u
    let x := d.blkOf b
    d.setBlk b { x with
      ready := x.ready.filter (!is ·), peak := if kindClass k = 0 then max x.peak (d.blockNow b) else x.peak }

/-- A write of LEG_LOW_PRIORITY re-sorts the leg's waiting items (R323): those in slots return to the ready list. -/
def Dev.resort (d : Dev) (leg : Nat) : Dev :=
  let b := d.nat .LEG_ADMIT_BLOCK leg
  if 64 ≤ b then d else
    let mine := fun (i : Item) => decide (i.unit = leg) && decide (i.kind ≠ .mix) && decide (i.kind ≠ .check)
    ((List.range 16).map (16 * b + ·)).foldl (fun d c =>
      let x := d.cellOf c
      let back := x.slots.filter mine
      if back = [] then d
      else
        let d := d.setCell c { x with slots := x.slots.filter (!mine ·) }
        let y := d.blkOf b
        (d.setBlk b { y with ready := y.ready ++ back }).add .BLK_PRIO_RESORTS b 0 back.length) d

/-- A feedback build falls due for a leg: an item of its ordered flow becomes ready (R163, R325). -/
def Dev.addFeedback (d : Dev) (leg : Nat) : Dev :=
  let b := d.nat .LEG_ADMIT_BLOCK leg
  if 64 ≤ b then d else
    let x := d.blkOf b
    let d := d.setBlk b { x with nextSeq := x.nextSeq + 1, order := x.order ++ [(leg, (x.nextSeq, .unfinished))] }
    d.addItem .feedback leg x.nextSeq

/-- The results of a leg that are free to go, in order, and what stays (R325). -/
def releaseOrder (leg : Nat) (free : Bool) : List (Nat × (Nat × OrderSlot)) →
    List (List RtcpTx) × List (Nat × (Nat × OrderSlot))
  | [] => ([], [])
  | (l, (q, s)) :: r =>
    if l = leg ∧ free then
      match s with
      | .unfinished =>
        let t := releaseOrder leg false r
        (t.1, (l, (q, s)) :: t.2)
      | .held p =>
        let t := releaseOrder leg true r
        (p :: t.1, t.2)
      | .void => releaseOrder leg true r
    else
      let t := releaseOrder leg free r
      (t.1, (l, (q, s)) :: t.2)

/-- The oldest unfinished result of a leg takes its outcome; those then free go out in order (R325). -/
def Dev.orderResult (d : Dev) (b leg : Nat) (seq : Nat) (s : OrderSlot) : List (List RtcpTx) × Dev :=
  let x := d.blkOf b
  let order := x.order.map fun o => if o.1 = leg ∧ o.2.1 = seq then (leg, (seq, s)) else o
  let r := releaseOrder leg true order
  let d := d.setBlk b { x with order := r.2 }
  let waits := r.2.any fun o => o.1 = leg && decide (o.2.1 = seq)
  (r.1, if waits then d.bump .BLK_REORDER_HELD b else d)

/-- The feedback item of a leg that runs, or else the oldest unfinished one. -/
def Dev.feedbackSeq (d : Dev) (b leg : Nat) : Option Nat :=
  let running := ((List.range 16).map (16 * b + ·)).findSome? fun c =>
    match (d.cellOf c).running with
    | some i => if i.kind = .feedback ∧ i.unit = leg then some i.seq else none
    | none => none
  match running with
  | some q => some q
  | none => ((d.blkOf b).order.find? fun o => o.1 = leg && decide (o.2.2 = .unfinished)).map fun o => o.2.1

/-- The home cell for a demand in block `b` (R327). -/
def Dev.chooseHome (d : Dev) (b demand : Nat) : Option Nat :=
  let cells := ((List.range 16).map (16 * b + ·)).filter fun c =>
    decide (d.nat .CELL_STATE c = 0) || (decide (d.nat .CELL_STATE c = 2) && decide (d.nat .BLK_RESERVE_CELL b ≠ c))
  match cells.find? fun c => tget 0 c d.loads + demand ≤ 1995100 with
  | some c => some c
  | none => minBy? (fun c => tget 0 c d.loads) cells

/-- The home load of a cell becomes `v`, and the objects follow (R327, R330). -/
def Dev.setLoad (d : Dev) (c v : Nat) : Dev :=
  let d := { d with loads := tput 0 c v d.loads }
  (d.setN .CELL_HOME_LOAD c v).setN .BLK_HOME_LOAD (c / 16)
    (((List.range 16).map fun j => tget 0 (16 * (c / 16) + j) d.loads).foldl (· + ·) 0)

/-- Gives the flows of a unit a home cell (R327); legs by number, conferences from 4096. -/
def Dev.giveHome (d : Dev) (key b demand : Nat) : Dev :=
  match d.chooseHome b demand with
  | none => d
  | some c => ({ d with homes := tset key c d.homes } : Dev).setLoad c (tget 0 c d.loads + demand)

/-- Releases a home load (R327). -/
def Dev.dropHome (d : Dev) (key demand : Nat) : Dev :=
  match tfind key d.homes with
  | none => d
  | some c => ({ d with homes := tdel key d.homes } : Dev).setLoad c (tget 0 c d.loads - demand)

/-- The flows of a unit end, and their home is released (R318, R327). -/
def Dev.endHome (d : Dev) (key demand : Nat) : Dev := (d.endFlows key).dropHome key demand

/-- A cell idle for 256 cycles stops its clock (R328). -/
def Dev.stopClock (d : Dev) (c : Nat) : Dev :=
  let x := d.cellOf c
  if d.cellEmpty c ∧ x.stopped.isNone then d.setCell c { x with stopped := some d.gen.total } else d

/-- The slots of an arbiter's rotation by requester; a requester with two slots holds them half a rotation apart (R329;
log entry 22). -/
def rotation (a : Arb) : List Nat :=
  match a with
  | .block _ => List.range 19
  | .region _ => [0, 1, 2, 3, 4, 5, 6, 7, 16, 17, 18, 19, 20, 21, 8, 9, 10, 11, 12, 13, 14, 15, 16, 17, 18, 19, 20, 22]
  | .chip _ => [0, 1, 2, 3, 4, 5, 6, 0, 1, 2, 3, 4, 5, 7]

/-- The first slot at or after the pointer whose requester is wanted, as its distance from the pointer. -/
def firstSlot (rot : List Nat) (ptr : Nat) (want : Nat → Bool) : Option Nat :=
  (List.range rot.length).find? fun i => want (rot.getD ((ptr + i) % rot.length) 99)

/-- Arbiter `a`. -/
def Dev.arbOf (d : Dev) (a : Arb) : Arbiter := tget {} a d.arb
/-- Sets arbiter `a`. -/
def Dev.setArb (d : Dev) (a : Arb) (x : Arbiter) : Dev := { d with arb := tput {} a x d.arb }

/-- The current transfer ends and the next winner is granted (R329, R330): an interrupted requester first, then, on a
chip arbiter, requesters in panic for at most three of any four consecutive transfers, then the rotation. -/
def Dev.grant (d : Dev) (a : Arb) (waiting panic : List Nat) : Dev :=
  let x := d.arbOf a
  let rot := rotation a
  let isChip := match a with
    | .chip _ => true
    | _ => false
  match x.interrupted with
  | some r => d.setArb a { x with interrupted := none, current := some r }
  | none =>
    let hot := waiting.filter panic.contains
    let cold := waiting.filter (!panic.contains ·)
    let full := decide ((x.recent.take 3).length = 3) && (x.recent.take 3).all id
    let pick := if isChip && hot ≠ [] && !(full && cold ≠ []) then
        (firstSlot rot x.panicPtr hot.contains).map fun i => (i, true)
      else (firstSlot rot x.ptr (if isChip && full then cold.contains else waiting.contains)).map fun i => (i, false)
    match pick with
    | none => d.setArb a { x with current := none }
    | some (i, p) =>
      let from_ := if p then x.panicPtr else x.ptr
      let s := (from_ + i) % rot.length
      let next := (s + 1) % rot.length
      d.setArb a { x with
        current := rot[s]?, ptr := if p then x.ptr else next, panicPtr := if p then next else x.panicPtr
        recent := p :: x.recent.take 2 }

/-- A sweep takes the grant at the next line boundary; the requester it interrupts is granted next (R330). -/
def Dev.sweepArb (d : Dev) (a : Arb) : Dev :=
  let x := d.arbOf a
  let d := d.setArb a { x with interrupted := x.current, current := none }
  match a with
  | .block b => d.bump .BLK_SWEEPS b
  | .region g => d.bump .RGN_SWEEPS g
  | .chip c => if x.current.isSome then d.bump .REFRESH_STOPS 0 c else d

/-- The stride's counts of the cells end at an edge (R333), and those of a lap at a lap edge (R332). -/
def Dev.cellEdge (d : Dev) (lapEdge : Bool) : Dev :=
  let d := d.cell.foldl (fun d kv =>
    let d := (d.gatedTime kv.1).spendCell kv.1
    let x := d.cellOf kv.1
    (d.setN .CELL_BUSY kv.1 x.busy).setCell kv.1 { x with busy := 0, halted := false }) d
  let d := d.blk.foldl (fun d kv => d.setBlk kv.1 { d.blkOf kv.1 with boost := false }) d
  if lapEdge then
    d.blk.foldl (fun d kv => (d.setN .BLK_PEAK_AUDIO kv.1 kv.2.peak).setBlk kv.1 { d.blkOf kv.1 with peak := 0 }) d
  else d

/-- R324 at step 1 of an edge: audio items are cut, line-loop items missed, other unstarted items carried, a running
feedback item goes on. Answers the items cut and those missed. Within a warm-up period the audio items stand (R24): `audio` is false. -/
def Dev.cutItems (d : Dev) (audio : Bool) : List Item × Dev :=
  let stays := fun (i : Item) => !audio && decide (kindClass i.kind = 0)
  let gone := fun (i : Item) => decide (kindClass i.kind ≤ 1) && !stays i
  let fromCells := (d.cell.map fun kv =>
    (kv.2.running.toList ++ kv.2.slots).filter gone).flatten
  let fromReady := (d.blk.map fun kv => kv.2.ready.filter gone).flatten
  let d := d.blk.foldl (fun d kv =>
    let b := kv.1
    let slots := ((List.range 16).map fun j => (d.cellOf (16 * b + j)).slots.filter (!gone ·)).flatten
    let x := d.blkOf b
    let waiting := (x.ready ++ slots).filter fun i => !gone i && !stays i && i.kind ≠ .check
    let carry := fun (i : Item) => { i with carried := true, counted := true }
    (d.setBlk b { x with ready := waiting.map carry ++ x.ready.filter stays }).countDeferred b waiting) d
  let d := d.cell.foldl (fun d kv =>
    let d := d.spendCell kv.1
    let x := d.cellOf kv.1
    d.setCell kv.1 { x with
      slots := x.slots.filter stays
      running := match x.running with
        | some i => if gone i || i.kind = .check then none else some i
        | none => none }) d
  let kept := d.faults.failed.filter fun f => !audio && decide (kindClass f.1 = 0)
  (fromCells ++ fromReady, { d with faults := { d.faults with failed := kept } })

end Sys2Proof.Machine
end

