-- ==== Sys2Proof/Machine/Demand.lean ====
section
/-! DEFINITION. What a leg demands: cell cycles (R112), coded pixels and bitstream of its streams (R114, R216, R238, R265),
buffers (R106, R217, R238, R318) and power (R409); and the reservations that admission makes of them (R113, R114, R327). -/

namespace Sys2Proof.Machine

/-- Bits `hi` down to `lo` of an object. -/
def Dev.fld (d : Dev) (o : Obj) (u k hi lo : Nat) : Nat := bits (d.nat o u k) hi lo

/-- Frames per second of an FPS field (R236). -/
def fpsOf (code : Nat) : Nat := [60, 50, 30, 25, 15].getD code 15

/-- The picture period in strides: floor(600 / fps), at least 10 (R23). -/
def period (fps : Nat) : Nat := max 10 (600 / max 1 fps)

/-- Coded size of a resolution class (R234). -/
def classSize (c : Nat) : Nat × Nat :=
  [(1920, 1088), (1280, 720), (960, 544), (640, 368), (480, 272), (320, 192)].getD c (320, 192)

/-- Size of a tile class, T1, T4, T9 and T16 in order (R262). -/
def tileSize (k : Nat) : Nat × Nat := [(1920, 1088), (960, 544), (640, 352), (480, 272)].getD k (480, 272)

/-- The coded size of an encode (R234, R262, R265). -/
def Dev.encSize (d : Dev) (e : EncId) : Nat × Nat :=
  match e with
  | .composed n => classSize (d.fld .ENC_CTRL n 0 25 23)
  | .tile _ k => tileSize k
  | .strip _ => (1920, 32)

/-- Cycles of a codec at a bandwidth code (R112). -/
def codecCycles (codec bw : Nat) : Nat :=
  match codec with
  | 1 => 24000
  | 2 => 24000
  | 3 => 52000
  | 4 => if bw ≤ 2 then 180000 else 260000
  | 5 => 14000
  | _ => 0

/-- The figures R112 compares: cycles, and whether the stereo factor applies when the figure is taken; of equal figures that of an L16 slot
with STEREO is taken (R112, step 2). -/
def Dev.cycleFigures (d : Dev) (n : Nat) : List (Nat × Bool) :=
  let tx := d.fld .LEG_TX_CODEC n 0 3 0
  let bw := d.fld .LEG_TX_CODEC n 0 16 14
  let stereo := d.bitOf .LEG_TX_CODEC n 0 7
  (codecCycles tx bw, stereo) :: (List.range 4).map fun i =>
    let c := d.fld .LEG_RX_CODEC n i 3 0
    (codecCycles c (if tx = 4 then bw else 3), stereo || (decide (c = 5) && d.bitOf .LEG_RX_CODEC n i 11))

/-- A leg's cycle demand (R112). -/
def Dev.cycleDemand (d : Dev) (n : Nat) : Nat :=
  let best := (d.cycleFigures n).foldl (fun m x => if m.1 < x.1 ∨ (m.1 = x.1 ∧ x.2 ∧ !m.2) then x else m) (0, false)
  let f := if best.2 && (best.1 = 14000 || 180000 ≤ best.1) then best.1 * 3 / 2 else best.1
  let f := if d.fld .LEG_TX_CODEC n 0 3 0 = 0 then f
    else match d.fld .LEG_TX_CODEC n 0 13 11 with
      | 0 => f * 7 / 5
      | 1 => f * 6 / 5
      | _ => f
  f + 5500

/-- The conference base cost (R112). -/
def confBase : Nat := 20000

/-- The video demand of decode slot `s` of leg `n` in kpx/s (R216). -/
def Dev.decodeDemand (d : Dev) (n s : Nat) : Nat :=
  let px := d.nat .DEC_MAX_WIDTH n s * d.nat .DEC_MAX_HEIGHT n s * d.nat .DEC_MAX_FPS n s
  let sp := d.fld .DEC_CTRL n s 11 8
  if d.bitOf .DEC_CTRL n s 12 ∨ sp = 0 then ceilDiv px 1000
  else if sp = 1 then ceilDiv (px * 5) 4000
  else ceilDiv (px * 21) 16000

/-- The streams a leg's video calls for, as (stream, (kpx/s, kbit/s)): decode slots 0 and 1, the composed encode 2, the
tile encodes 3 to 6 (R114, R216, R238). -/
def Dev.streamsOf (d : Dev) (n : Nat) : List (Nat × (Nat × Nat)) :=
  let dec := (List.range 2).filterMap fun s =>
    if d.bitOf .DEC_CTRL n s 31 then some (s, (d.decodeDemand n s, d.nat .DEC_MAX_KBPS n s)) else none
  let enc := if d.bitOf .ENC_CTRL n 0 31 then
      let z := classSize (d.fld .ENC_CTRL n 0 25 23)
      [(2, (ceilDiv (z.1 * z.2 * fpsOf (d.fld .ENC_CTRL n 0 22 20)) 1000, d.nat .LEG_MAX_RATE n))]
    else []
  let tiles := (List.range 4).filterMap fun k =>
    if d.bitOf .TILE_CTRL n k 31 then
      let z := tileSize k
      let x := z.1 * z.2 * fpsOf (d.fld .TILE_CTRL n k 23 21)
      let kb := d.fld .TILE_CTRL n k 19 0
      some (3 + k, if d.bitOf .TILE_CTRL n k 26 then (ceilDiv x 1000, kb)
        else (ceilDiv (x * 9) 8000, kb + ceilDiv (x * 12) 8000))
    else none
  dec ++ enc ++ tiles

/-- What composition of a leg's pictures costs its composer, in kpx/s of output (R259). -/
def Dev.composeDemand (d : Dev) (n : Nat) : Nat :=
  let enc := if d.bitOf .ENC_CTRL n 0 31 then
      let z := classSize (d.fld .ENC_CTRL n 0 25 23)
      ceilDiv (z.1 * z.2 * fpsOf (d.fld .ENC_CTRL n 0 22 20)) 1000
    else 0
  (List.range 4).foldl (fun a k =>
    if d.bitOf .TILE_CTRL n k 31 then
      let z := tileSize k
      a + ceilDiv (z.1 * z.2 * fpsOf (d.fld .TILE_CTRL n k 23 21)) 1000
    else a) enc

/-- The G9 layout a leg is a spliced viewer of. -/
def Dev.stripLayout (d : Dev) (n : Nat) : Option Nat :=
  let k := d.nat .VIEW_LAYOUT n
  if d.bitOf .VIEW_CTRL n 0 31 && decide (k < 1024) && decide (d.nat .LAYOUT_KIND k = 2) &&
      decide (d.fld .LAYOUT_SPLICE k 0 31 28 = 3) then some k else none

/-- The strip that a leg's admission brings: that of a G9 layout which has no strip yet (R265). -/
def Dev.stripDue (d : Dev) (n : Nat) : Option Nat :=
  match d.stripLayout n with
  | none => none
  | some k => if (d.life.any fun kv => kv.1 ≠ n && kv.2.strip = some k) then none else some k

/-- The demand of layout `k`'s strip in kpx/s and kbit/s (R265). -/
def Dev.stripDemand (d : Dev) (k : Nat) : Nat × Nat :=
  (ceilDiv (1920 * 32 * fpsOf (d.fld .LAYOUT_SPLICE k 0 22 20)) 1000, d.fld .LAYOUT_SPLICE k 0 18 0)

/-- Footprint of a picture in bytes (R217). -/
def footprint (w h depth : Nat) : Nat :=
  let w := (w + 15) / 16 * 16
  let h := (h + 15) / 16 * 16
  w * h * 3 / 2 * depth + w / 16 * (h / 16) * 16

/-- KiB that a picture takes of the pools (R217). -/
def pictureKib (w h depth : Nat) : Nat :=
  let b := footprint w h depth
  if b ≤ poolSize 3 then 128 else if b ≤ poolSize 4 then 1024 else ceilDiv b (poolSize 5) * 8192

/-- Depth factor of an encode: 2 at 10 bits (R217). -/
def Dev.encDepth (d : Dev) (e : EncId) : Nat :=
  match e with
  | .composed n => if 2 ≤ d.fld .ENC_CTRL n 0 30 28 && d.fld .ENC_CTRL n 0 27 26 = 1 then 2 else 1
  | .tile n k => if d.bitOf .TILE_CTRL n k 27 then 2 else 1
  | .strip k => if d.bitOf .LAYOUT_SPLICE k 0 25 then 2 else 1

/-- KiB of an encode of `refs` references (R238). -/
def encodeKib (w h depth refs : Nat) : Nat := ((refs + 1) * pictureKib w h depth + 16) * 2 + pictureKib w h depth

/-- The flows of a leg: input, output, encode, line loop and feedback (R318). -/
def legFlows : Nat := 5

/-- LEG_BUFFER_NEED in KiB (R106, R217, R238, R318). -/
def Dev.bufferNeed (d : Dev) (n : Nat) : Nat :=
  let dec := (List.range 2).foldl (fun a s =>
    if d.bitOf .DEC_CTRL n s 31 then
      a + ((d.nat .DEC_MAX_DPB n s + 2) * pictureKib (d.nat .DEC_MAX_WIDTH n s) (d.nat .DEC_MAX_HEIGHT n s)
        (if d.bitOf .DEC_CTRL n s 0 then 2 else 1) + 16) * 2
    else a) 0
  let enc := if d.bitOf .ENC_CTRL n 0 31 then
      let z := classSize (d.fld .ENC_CTRL n 0 25 23)
      encodeKib z.1 z.2 (d.encDepth (.composed n)) 1
    else 0
  let tiles := (List.range 4).foldl (fun a k =>
    if d.bitOf .TILE_CTRL n k 31 then
      let z := tileSize k
      a + encodeKib z.1 z.2 (d.encDepth (.tile n k)) (if d.fld .TILE_CTRL n k 25 24 = 2 then 2 else 1)
    else a) 0
  legFlows * 16 * 2 + dec + enc + tiles

/-- Does leg `n` count as a video leg of the estimate (R409)? -/
def Dev.videoLeg (d : Dev) (n : Nat) : Bool :=
  d.bitOf .ENC_CTRL n 0 31 || d.bitOf .VIEW_CTRL n 0 31 || d.bitOf .FWD_SRC_CTRL n 0 31 ||
    (List.range 16).any fun j => d.fld .FWD_SLOT n j 31 16 != 0xFFFF

/-- Does leg `n` hold a reservation? -/
def Dev.reserved (d : Dev) (n : Nat) : Bool := d.nat .LEG_ADMIT_CYCLES n != 0

/-- The estimate of R409 in mW, for a load of `cycles`, `pixels`, `compose` kpx/s and `legs` video legs beside the
present one, rounded once, a half up. -/
def Dev.estimateWith (d : Dev) (cycles pixels compose legs : Nat) : Nat :=
  let y := (List.range 4).foldl (fun a g => a + d.nat .COMPOSER_ADMIT_PIXELS g) 0
  let l := (d.legs.filter fun n => d.reserved n && d.videoLeg n).length
  let k := fun i => d.nat .GOV_K 0 i
  let num := k 0 * 10 ^ 9 + (d.nat .ADMIT_CYCLES_USE + cycles) * k 1 + (d.nat .ADMIT_PIXELS_USE + pixels) * k 2 * 1000 +
    (y + compose) * k 3 * 1000 + (l + legs) * k 4 * 10 ^ 6
  (num + 5 * 10 ^ 8) / 10 ^ 9

/-- Free admitted cycles of block `b` (R113). -/
def Dev.freeCycles (d : Dev) (b : Nat) : Nat := d.nat .BLK_CAPACITY b - d.nat .BLK_ADMIT_CYCLES b

/-- Is block `b` in service, gated or not, in a region in service? -/
def Dev.blockServes (d : Dev) (b : Nat) : Bool :=
  decide (d.nat .BLK_STATE b ≤ 2) && decide (d.nat .BLK_CAPACITY b ≠ 0) && decide (d.nat .RGN_STATE (b / 16) = 0)

/-- The warm-up blocks: the first four of region 0 in service (R433). -/
def Dev.warmBlocks (d : Dev) : List Nat := ((List.range 16).filter d.blockServes).take 4

/-- The block with the least free cycles that still holds the demand, ties to the lower number (R113). -/
def Dev.tightest (d : Dev) (bs : List Nat) (demand : Nat) : Option Nat :=
  minBy? d.freeCycles (bs.filter fun b => d.blockServes b && decide (demand ≤ d.freeCycles b))

/-- The block for a leg's audio items (R113, R403, R433). -/
def Dev.placeBlock (d : Dev) (region : Nat) (spill : Bool) (demand : Nat) : Option Nat :=
  if d.service = .warmup then d.tightest d.warmBlocks demand
  else
    let home := (List.range 16).map (16 * region + ·)
    let all := List.range 64
    let up := fun b => decide (d.nat .BLK_STATE b = 0)
    let tries := [home.filter up, home] ++ (if spill then [all.filter up, all] else [])
    tries.findSome? fun bs => d.tightest bs demand

/-- Admitted kpx/s of pair `p`. -/
def Dev.pairPx (d : Dev) (p : Nat) : Nat := d.nat .PAIR_ADMIT_PIXELS (p / 4) (p % 4)

/-- Admitted kbit/s of pair `p`. -/
def Dev.pairKbps (d : Dev) (p : Nat) : Nat := (tget {} p d.pairx).kbps

/-- Changes what pair `p` has admitted. -/
def Dev.chargePair (d : Dev) (p : Nat) (px kbps : Int) : Dev :=
  let d := d.put .PAIR_ADMIT_PIXELS (p / 4) (p % 4) (.num (((d.pairPx p : Nat) : Int) + px))
  { d with pairx := tput {} p { tget {} p d.pairx with kbps := (((d.pairKbps p : Nat) : Int) + kbps).toNat } d.pairx }

/-- Is pair `p` in service, gated or not (R230)? -/
def Dev.pairServes (d : Dev) (p : Nat) : Bool :=
  decide (d.nat .PAIR_STATE (p / 4) (p % 4) ≠ 2) && decide (d.nat .RGN_STATE (p / 4) = 0)

/-- The pair for a stream (R114): home region first, the least free that holds it, ties to the lower number. -/
def Dev.placePair (d : Dev) (region px kbps : Nat) : Option Nat :=
  let fits := fun p => d.pairServes p && decide (d.pairPx p + px ≤ 375000) && decide (d.pairKbps p + kbps ≤ 187500)
  let pick := fun (ps : List Nat) => minBy? (fun p => 375000 - d.pairPx p) (ps.filter fits)
  match pick ((List.range 4).map (4 * region + ·)) with
  | some p => some p
  | none => pick (List.range 16)

/-- Places streams one after another, each seeing those before it; none when one finds no pair. -/
def Dev.placeStreams (d : Dev) (region : Nat) : List (Nat × (Nat × Nat)) → Option (List (Nat × (Nat × (Nat × Nat))) × Dev)
  | [] => some ([], d)
  | (s, (px, kb)) :: r =>
    match d.placePair region px kb with
    | none => none
    | some p => ((d.chargePair p px kb).placeStreams region r).map fun t => ((s, (p, (px, kb))) :: t.1, t.2)

/-- A domain gated or on; a block quad's blocks and cells, a pair and a composer follow it (R398, R403). -/
def Dev.ungate (d : Dev) (dom : Nat) : Dev :=
  let st := d.nat .PD_STATE dom
  if st = 1 ∨ st = 2 then { d with waking := if d.waking.contains dom then d.waking else d.waking ++ [dom] } else d

/-- The power domain of block `b`. -/
def blockDomain (b : Nat) : Nat := b / 4
/-- The power domain of pair `p`. -/
def pairDomain (p : Nat) : Nat := 16 + p
/-- The power domain of composer `k`. -/
def composerDomain (k : Nat) : Nat := 32 + k

/-- Records the pair of a stream in its object (R215, R236, R261). -/
def Dev.setStreamPair (d : Dev) (n s p : Nat) : Dev :=
  if s < 2 then d.put .DEC_PAIR n s (.num p) else if s = 2 then d.setN .ENC_PAIR n p else d

/-- Charges or releases cycles of block `b` and the chip. -/
def Dev.chargeCycles (d : Dev) (b : Nat) (cycles : Int) : Dev :=
  let add := fun (d : Dev) (o : Obj) (u : Nat) => d.setI o u 0 (d.int o u 0 + cycles)
  add (add (add d .BLK_ADMIT_CYCLES b) .RGN_ADMIT_CYCLES (b / 16)) .ADMIT_CYCLES_USE 0

end Sys2Proof.Machine
end

