-- ==== Sys2Proof/Machine/Crypto.lean ====
section
/-! DEFINITION. The ciphers and digests the spec names: AES, its modes of R452, the key wrap of RFC 5649 (R447),
SHA3-256 (R86, R427, R458) and the CRCs. Octets are most significant first. -/

namespace Sys2Proof.Machine

/-- Bytewise exclusive or, to the length of the shorter string. -/
def xorOctets : Octets → Octets → Octets
  | a :: x, b :: y => (a ^^^ b) :: xorOctets x y
  | _, _ => []

/-- Doubling in the field of AES. -/
def xtime (b : Nat) : Nat := if b < 128 then 2 * b else (2 * b) ^^^ 0x11B

/-- Product in the field of AES, over the eight bits of `b`. -/
def gmul (a b : Nat) : Nat :=
  ((List.range 8).foldl (fun (p : Nat × Nat) i => (if bit b i then p.1 ^^^ p.2 else p.1, xtime p.2)) (0, a)).1

/-- The S-box of AES. -/
def aesSbox : List Nat :=
  [0x63,0x7c,0x77,0x7b,0xf2,0x6b,0x6f,0xc5,0x30,0x01,0x67,0x2b,0xfe,0xd7,0xab,0x76] ++
  [0xca,0x82,0xc9,0x7d,0xfa,0x59,0x47,0xf0,0xad,0xd4,0xa2,0xaf,0x9c,0xa4,0x72,0xc0] ++
  [0xb7,0xfd,0x93,0x26,0x36,0x3f,0xf7,0xcc,0x34,0xa5,0xe5,0xf1,0x71,0xd8,0x31,0x15] ++
  [0x04,0xc7,0x23,0xc3,0x18,0x96,0x05,0x9a,0x07,0x12,0x80,0xe2,0xeb,0x27,0xb2,0x75] ++
  [0x09,0x83,0x2c,0x1a,0x1b,0x6e,0x5a,0xa0,0x52,0x3b,0xd6,0xb3,0x29,0xe3,0x2f,0x84] ++
  [0x53,0xd1,0x00,0xed,0x20,0xfc,0xb1,0x5b,0x6a,0xcb,0xbe,0x39,0x4a,0x4c,0x58,0xcf] ++
  [0xd0,0xef,0xaa,0xfb,0x43,0x4d,0x33,0x85,0x45,0xf9,0x02,0x7f,0x50,0x3c,0x9f,0xa8] ++
  [0x51,0xa3,0x40,0x8f,0x92,0x9d,0x38,0xf5,0xbc,0xb6,0xda,0x21,0x10,0xff,0xf3,0xd2] ++
  [0xcd,0x0c,0x13,0xec,0x5f,0x97,0x44,0x17,0xc4,0xa7,0x7e,0x3d,0x64,0x5d,0x19,0x73] ++
  [0x60,0x81,0x4f,0xdc,0x22,0x2a,0x90,0x88,0x46,0xee,0xb8,0x14,0xde,0x5e,0x0b,0xdb] ++
  [0xe0,0x32,0x3a,0x0a,0x49,0x06,0x24,0x5c,0xc2,0xd3,0xac,0x62,0x91,0x95,0xe4,0x79] ++
  [0xe7,0xc8,0x37,0x6d,0x8d,0xd5,0x4e,0xa9,0x6c,0x56,0xf4,0xea,0x65,0x7a,0xae,0x08] ++
  [0xba,0x78,0x25,0x2e,0x1c,0xa6,0xb4,0xc6,0xe8,0xdd,0x74,0x1f,0x4b,0xbd,0x8b,0x8a] ++
  [0x70,0x3e,0xb5,0x66,0x48,0x03,0xf6,0x0e,0x61,0x35,0x57,0xb9,0x86,0xc1,0x1d,0x9e] ++
  [0xe1,0xf8,0x98,0x11,0x69,0xd9,0x8e,0x94,0x9b,0x1e,0x87,0xe9,0xce,0x55,0x28,0xdf] ++
  [0x8c,0xa1,0x89,0x0d,0xbf,0xe6,0x42,0x68,0x41,0x99,0x2d,0x0f,0xb0,0x54,0xbb,0x16]

/-- Substitution of one byte. -/
def subByte (b : Nat) : Nat := aesSbox.getD b 0

/-- Inverse substitution of one byte. -/
def invSubByte (b : Nat) : Nat := (aesSbox.findIdx? (· == b)).getD 0

/-- The words of the expanded key: `nk` key words, `n` words still to make, the newest word first. -/
def expandWords (nk : Nat) : Nat → Nat → Nat → List Octets → List Octets
  | 0, _, _, ws => ws
  | n + 1, i, rcon, ws =>
    let prev := ws.headD []
    let back := ws.getD (nk - 1) []
    if i % nk = 0 then
      let t := match prev.map subByte with
        | a :: r => r ++ [a]
        | [] => []
      let t := match t with
        | a :: r => (a ^^^ rcon) :: r
        | [] => []
      expandWords nk n (i + 1) (xtime rcon) (xorOctets back t :: ws)
    else if nk = 8 ∧ i % nk = 4 then
      expandWords nk n (i + 1) rcon (xorOctets back (prev.map subByte) :: ws)
    else expandWords nk n (i + 1) rcon (xorOctets back prev :: ws)

/-- Cuts a string into pieces of `n` octets. -/
def chunks (n : Nat) : Nat → Octets → List Octets
  | 0, _ => []
  | _ + 1, [] => []
  | f + 1, b => b.take n :: chunks n f (b.drop n)

/-- The round keys of a 16- or 32-byte key, 16 octets each. -/
def roundKeys (key : Octets) : List Octets :=
  let nk := key.length / 4
  let ws := (chunks 4 8 key).reverse
  let all := (expandWords nk (4 * (nk + 7) - nk) nk 1 ws).reverse
  chunks 16 15 all.flatten

/-- Rows of the state shifted, columns first. -/
def shiftRows (s : Octets) : Octets :=
  (List.range 16).map fun i => s.getD ((i + 4 * (i % 4)) % 16) 0

/-- The inverse of `shiftRows`. -/
def invShiftRows (s : Octets) : Octets :=
  (List.range 16).map fun i => s.getD ((i + 12 * (i % 4)) % 16) 0

/-- One column times the matrix with first row `c`. -/
def mixColumn (c : List Nat) (col : Octets) : Octets :=
  (List.range 4).map fun r =>
    (List.range 4).foldl (fun a j => a ^^^ gmul (col.getD j 0) (c.getD ((j + 4 - r) % 4) 0)) 0

/-- Every column of the state times the matrix with first row `c`. -/
def mixColumns (c : List Nat) (s : Octets) : Octets := ((chunks 4 4 s).map (mixColumn c)).flatten

/-- AES encryption of one block. -/
def aesEncrypt (key block : Octets) : Octets :=
  match roundKeys key with
  | k0 :: ks =>
    let last := ks.length
    (ks.foldl (fun (p : Octets × Nat) k =>
      let s := shiftRows (p.1.map subByte)
      let s := if p.2 = last then s else mixColumns [2, 3, 1, 1] s
      (xorOctets s k, p.2 + 1)) (xorOctets block k0, 1)).1
  | [] => []

/-- AES decryption of one block. -/
def aesDecrypt (key block : Octets) : Octets :=
  match (roundKeys key).reverse with
  | k0 :: ks =>
    let last := ks.length
    (ks.foldl (fun (p : Octets × Nat) k =>
      let s := xorOctets ((invShiftRows p.1).map invSubByte) k
      (if p.2 = last then s else mixColumns [14, 11, 13, 9] s, p.2 + 1)) (xorOctets block k0, 1)).1
  | [] => []

/-- The key check value (R446): the first four octets of the encrypted zero block; 0 reads as 1. -/
def kcv (key : Octets) : Nat :=
  let v := Octets.toNat ((aesEncrypt key (List.replicate 16 0)).take 4)
  if v = 0 then 1 else v

/-- CBC encryption over whole blocks. -/
def cbcEncrypt (key : Octets) : Nat → Octets → Octets → Octets
  | 0, _, _ => []
  | n + 1, iv, b =>
    if b = [] then [] else
      let c := aesEncrypt key (xorOctets (b.take 16) iv)
      c ++ cbcEncrypt key n c (b.drop 16)

/-- CBC decryption over whole blocks. -/
def cbcDecrypt (key : Octets) : Nat → Octets → Octets → Octets
  | 0, _, _ => []
  | n + 1, iv, b =>
    if b = [] then [] else
      xorOctets (aesDecrypt key (b.take 16)) iv ++ cbcDecrypt key n (b.take 16) (b.drop 16)

/-- The PKCS#7 padding of a string. -/
def pkcs7 (b : Octets) : Octets :=
  let n := 16 - b.length % 16
  b ++ List.replicate n n

/-- Checks and removes PKCS#7 padding. -/
def unpkcs7 (b : Octets) : Option Octets :=
  match b.getLast? with
  | none => none
  | some n =>
    if 1 ≤ n ∧ n ≤ 16 ∧ n ≤ b.length ∧ b.drop (b.length - n) = List.replicate n n
    then some (b.take (b.length - n)) else none

/-- CTR over a 128-bit counter (R452). -/
def aesCtr (key : Octets) : Nat → Nat → Octets → Octets
  | 0, _, _ => []
  | n + 1, c, b =>
    if b = [] then [] else
      xorOctets (b.take 16) (aesEncrypt key (natToOctets 16 c)) ++
        aesCtr key n ((c + 1) % 2 ^ 128) (b.drop 16)

/-- Product of two field elements of GHASH. -/
def ghashMul (x y : Nat) : Nat :=
  ((List.range 128).foldl (fun (p : Nat × Nat) i =>
    (if bit x (127 - i) then p.1 ^^^ p.2 else p.1,
     if p.2 % 2 = 1 then (p.2 / 2) ^^^ 0xE1000000000000000000000000000000 else p.2 / 2)) (0, y)).1

/-- A string padded with zeros to whole blocks. -/
def pad16 (b : Octets) : Octets := b ++ List.replicate ((16 - b.length % 16) % 16) 0

/-- GHASH over whole blocks. -/
def ghash (h : Nat) (b : Octets) : Nat :=
  (chunks 16 (b.length / 16 + 1) b).foldl (fun y x => ghashMul (y ^^^ Octets.toNat x) h) 0

/-- The counter of GCM: the low 32 bits wrap by themselves. -/
def gcmCtr (key iv : Octets) : Nat → Nat → Octets → Octets
  | 0, _, _ => []
  | n + 1, c, b =>
    if b = [] then [] else
      xorOctets (b.take 16) (aesEncrypt key (iv ++ natToOctets 4 (c % 2 ^ 32))) ++ gcmCtr key iv n (c + 1) (b.drop 16)

/-- The GCM tag over associated data and ciphertext. -/
def gcmTag (key iv aad cipher : Octets) : Octets :=
  let h := Octets.toNat (aesEncrypt key (List.replicate 16 0))
  let s := ghash h (pad16 aad ++ pad16 cipher ++ natToOctets 8 (8 * aad.length) ++ natToOctets 8 (8 * cipher.length))
  xorOctets (natToOctets 16 s) (aesEncrypt key (iv ++ natToOctets 4 1))

/-- GCM encryption with a 12-byte nonce: ciphertext and tag. -/
def gcmEncrypt (key iv aad plain : Octets) : Octets × Octets :=
  let c := gcmCtr key iv (plain.length / 16 + 1) 2 plain
  (c, gcmTag key iv aad c)

/-- GCM decryption: the plaintext where the tag verifies. -/
def gcmDecrypt (key iv aad cipher tag : Octets) : Option Octets :=
  if gcmTag key iv aad cipher = tag then some (gcmCtr key iv (cipher.length / 16 + 1) 2 cipher) else none

/-- The six rounds of the key wrap over registers `r`, as RFC 3394 states them. -/
def wrapRounds (key : Octets) (a : Octets) (r : List Octets) : Octets × List Octets :=
  (List.range 6).foldl (fun (p : Octets × List Octets) j =>
    let q := p.2.foldl (fun (q : Octets × List Octets × Nat) ri =>
      let b := aesEncrypt key (q.1 ++ ri)
      let t := p.2.length * j + q.2.2
      (xorOctets (b.take 8) (natToOctets 8 t), b.drop 8 :: q.2.1, q.2.2 + 1)) (p.1, [], 1)
    (q.1, q.2.1.reverse)) (a, r)

/-- The six rounds undone. -/
def unwrapRounds (key : Octets) (a : Octets) (r : List Octets) : Octets × List Octets :=
  (List.range 6).foldl (fun (p : Octets × List Octets) j =>
    let n := p.2.length
    let q := p.2.reverse.foldl (fun (q : Octets × List Octets × Nat) ri =>
      let t := n * (5 - j) + q.2.2
      let b := aesDecrypt key (xorOctets q.1 (natToOctets 8 t) ++ ri)
      (b.take 8, b.drop 8 :: q.2.1, q.2.2 - 1)) (p.1, [], n)
    (q.1, q.2.1)) (a, r)

/-- RFC 5649 wrap of a key, with the default alternative IV. -/
def keyWrap (kek plain : Octets) : Octets :=
  let aiv := [0xA6, 0x59, 0x59, 0xA6] ++ natToOctets 4 plain.length
  let p := plain ++ List.replicate ((8 - plain.length % 8) % 8) 0
  if p.length = 8 then aesEncrypt kek (aiv ++ p)
  else
    let (a, r) := wrapRounds kek aiv (chunks 8 (p.length / 8) p)
    a ++ r.flatten

/-- RFC 5649 unwrap: the plaintext where the integrity check and the padding verify. -/
def keyUnwrap (kek cipher : Octets) : Option Octets :=
  let (a, p) :=
    if cipher.length = 16 then
      let b := aesDecrypt kek cipher
      (b.take 8, b.drop 8)
    else
      let (a, r) := unwrapRounds kek (cipher.take 8) (chunks 8 (cipher.length / 8 - 1) (cipher.drop 8))
      (a, r.flatten)
  let len := Octets.toNat (a.drop 4)
  if a.take 4 = [0xA6, 0x59, 0x59, 0xA6] ∧ len ≤ p.length ∧ p.length < len + 8 ∧ 0 < len ∧
      p.drop len = List.replicate (p.length - len) 0
  then some (p.take len) else none

/-- A 64-bit lane rotated left. -/
def rotl64 (x n : Nat) : Nat := ((x * 2 ^ (n % 64)) % 2 ^ 64) ||| (x / 2 ^ (64 - n % 64))

/-- The round constants of Keccak-f[1600]. -/
def keccakRC : List Nat :=
  [0x0000000000000001, 0x0000000000008082, 0x800000000000808A, 0x8000000080008000, 0x000000000000808B,
   0x0000000080000001, 0x8000000080008081, 0x8000000000008009] ++
  [0x000000000000008A, 0x0000000000000088, 0x0000000080008009, 0x000000008000000A, 0x000000008000808B,
   0x800000000000008B, 0x8000000000008089, 0x8000000000008003] ++
  [0x8000000000008002, 0x8000000000000080, 0x000000000000800A, 0x800000008000000A, 0x8000000080008081,
   0x8000000000008080, 0x0000000080000001, 0x8000000080008008]

/-- The rotation offsets of Keccak, lane `x + 5 y`. -/
def keccakRot : List Nat :=
  [0, 1, 62, 28, 27, 36, 44, 6, 55, 20, 3, 10, 43, 25, 39, 41, 45, 15, 21, 8, 18, 2, 61, 56, 14]

/-- One round of Keccak-f[1600] on 25 lanes. -/
def keccakRound (a : List Nat) (rc : Nat) : List Nat :=
  let g := fun (l : List Nat) i => l.getD i 0
  let c := (List.range 5).map fun x => g a x ^^^ g a (x + 5) ^^^ g a (x + 10) ^^^ g a (x + 15) ^^^ g a (x + 20)
  let d := (List.range 5).map fun x => g c ((x + 4) % 5) ^^^ rotl64 (g c ((x + 1) % 5)) 1
  let a := (List.range 25).map fun i => g a i ^^^ g d (i % 5)
  let b := (List.range 25).map fun j =>
    let x := j % 5
    let y := j / 5
    let i := (x + 3 * y) % 5 + 5 * x
    rotl64 (g a i) (g keccakRot i)
  let a := (List.range 25).map fun i =>
    let y5 := i / 5 * 5
    g b i ^^^ ((2 ^ 64 - 1 - g b (y5 + (i + 1 - y5) % 5)) &&& g b (y5 + (i + 2 - y5) % 5))
  match a with
  | l :: r => (l ^^^ rc) :: r
  | [] => []

/-- The lanes of a block of octets, least significant octet first. -/
def lanesOf (b : Octets) : List Nat := (chunks 8 25 b).map fun l => Octets.toNat l.reverse

/-- SHA3-256. -/
def sha3_256 (m : Octets) : Octets :=
  let q := 136 - m.length % 136
  let p := if q = 1 then m ++ [0x86] else m ++ [0x06] ++ List.replicate (q - 2) 0 ++ [0x80]
  let s := (chunks 136 (p.length / 136) p).foldl (fun s blk =>
    let l := lanesOf blk
    keccakRC.foldl keccakRound ((List.range 25).map fun i => s.getD i 0 ^^^ l.getD i 0)) (List.replicate 25 0)
  ((s.take 4).map fun l => (natToOctets 8 l).reverse).flatten

/-- A CRC of `w` bits with polynomial `poly`, bits reflected. -/
def crcReflected (poly init xorOut : Nat) (b : Octets) : Nat :=
  (b.foldl (fun c x =>
    (List.range 8).foldl (fun c _ => if c % 2 = 1 then (c / 2) ^^^ poly else c / 2) (c ^^^ x)) init) ^^^ xorOut

/-- CRC-32 of IEEE 802.3 (R96). -/
def crc32 (b : Octets) : Nat := crcReflected 0xEDB88320 0xFFFFFFFF 0xFFFFFFFF b

/-- The session key of R86. -/
def sessionKey (master clientNonce deviceNonce : Octets) (session : Nat) : Octets :=
  sha3_256 (master ++ [0x4C, 0x4E, 0x41, 0x2D, 0x48, 0x44, 0x50, 0x2D, 0x31] ++ clientNonce ++ deviceNonce ++
    natToOctets 4 session)

end Sys2Proof.Machine
end

