-- ==== Sys2Proof/Machine/Operands.lean ====
section
/-! DEFINITION. How the dictionary is addressed and how its values are carried: the lookup of an index and a
subindex (R60, R61), the octets of a value by type (R62), ranges and their aborts (R496), and access by interface
(R14, R65, R70). -/

namespace Sys2Proof.Machine

/-- What an index and a subindex name (R60, R61). -/
inductive Found where
  | at (key : Key)
  | highest (n : Nat)
  | noSub
  | noObject
deriving DecidableEq, Repr

/-- Is `index` one of the row's indexes? -/
def Row.covers (r : Row) (index : Nat) : Bool := decide (r.base + r.lo ≤ index) && decide (index ≤ r.base + r.hi)

/-- The highest subindex of the row. -/
def Row.top (r : Row) : Nat := r.sub + (r.count - 1) * r.step

/-- The place of a subindex in the row. -/
def Row.place (r : Row) (sub : Nat) : Option Nat :=
  if r.sub ≤ sub ∧ (sub - r.sub) % r.step = 0 ∧ (sub - r.sub) / r.step < r.count then some ((sub - r.sub) / r.step)
  else none

/-- Looks an index and a subindex up (R60, R61). -/
def lookup (index sub : Nat) : Found :=
  match Obj.all.filter fun o => o.row.covers index with
  | [] => .noObject
  | os =>
    match os.findSome? fun o => (o.row.place sub).map fun k => (Key.mk o (index - o.row.base) k) with
    | some key => .at key
    | none =>
      if sub = 0 ∧ os.all (fun o => decide (0 < o.row.sub)) then .highest (os.foldl (fun m o => max m o.row.top) 0)
      else .noSub

/-- The index of a key. -/
def Key.index (k : Key) : Nat := k.o.row.base + k.u

/-- The subindex of a key. -/
def Key.sub (k : Key) : Nat := k.o.row.sub + k.k * k.o.row.step

/-- The width in bits of the value at a place of an object: a PDO mapping count is 8 bits (R72). -/
def Key.bits (k : Key) : Nat := if k.o.row.ty = .mapping ∧ k.k = 0 then 8 else k.o.row.ty.bits

/-- The octets that carry a value, most significant first (R62, R82). -/
def Key.encode (k : Key) (v : Val) : Octets :=
  match v with
  | .num n => natToOctets (k.bits / 8) (toWord k.bits n)
  | .bytes b => b

/-- The value that octets carry, or the abort for a wrong length or a wrong Boolean (R62; log entry 12). -/
def Key.decode (k : Key) (data : Octets) : Except Abort Val :=
  match k.o.row.ty with
  | .octets ls => if ls.contains data.length then .ok (.bytes data) else .error .lengthMismatch
  | .upTo lo hi => if lo ≤ data.length ∧ data.length ≤ hi then .ok (.bytes data) else .error .lengthMismatch
  | .domain => .ok (.bytes data)
  | .i n => if data.length = n / 8 then .ok (.num (ofWord n (Octets.toNat data))) else .error .lengthMismatch
  | .bool =>
    if data.length ≠ 1 then .error .lengthMismatch
    else if Octets.toNat data ≤ 1 then .ok (.num (Octets.toNat data)) else .error .range
  | _ => if data.length = k.bits / 8 then .ok (.num (Octets.toNat data)) else .error .lengthMismatch

/-- Checks a value against its object's own range (R33, R496); reserved bits are ignored (R6). -/
def Range.check (r : Range) (v : Val) : Except Abort Val :=
  match v with
  | .bytes _ => .ok v
  | .num n =>
    match r with
    | .full => .ok v
    | .special => .ok v
    | .between lo hi => if n < lo then .error .tooLow else if hi < n then .error .tooHigh else .ok v
    | .oneOf vs => if vs.contains n then .ok v else .error .range
    | .orElse lo hi x => if (lo ≤ n ∧ n ≤ hi) ∨ n = x then .ok v else .error .range
    | .mask m => .ok (.num ((n.toNat &&& m : Nat)))
    | .atMost hi => if hi < n then .error .range else if n < 1 then .error .tooLow else .ok v

/-- May CAN write this index (R14)? -/
def canWritable (index sub : Nat) : Bool :=
  (decide (0x1000 ≤ index) && decide (index ≤ 0x1FFF)) || (decide (0x2100 ≤ index) && decide (index ≤ 0x2140)) ||
  (decide (0x2180 ≤ index) && decide (index ≤ 0x21BF)) || (decide (index = 0x2000) && decide (sub = 0x10))

/-- The one-time programming objects of class P that accept a write (R65). -/
def oneTime : Obj → Bool
  | .TK_PROGRAM => true
  | .OWNER_PROGRAM => true
  | .OWNER_REVOKE => true
  | _ => false

/-- Access of a write by interface, access code and class (R14, R65). -/
def Key.mayWrite (k : Key) (src : Src) : Except Abort Unit :=
  if src = .can ∧ !canWritable k.index k.sub then .error .readOnly
  else if k.o.row.acc = .ro then .error .readOnly
  else if k.o.row.cls = .P ∧ !oneTime k.o then .error .readOnly
  else .ok ()

/-- Access of a read by service state and access code (R3, R70). -/
def Dev.mayRead (d : Dev) (k : Key) : Except Abort Unit :=
  if d.service = .minimum ∧ 0x2800 ≤ k.index ∧ k.index ≤ 0x5FFF then .error .deviceState
  else if k.o.row.acc = .wo then .error .writeOnly
  else .ok ()

/-- The result of a write: the device after it, or the abort with the device as the refusal leaves it. -/
abbrev Res := Except (Abort × Dev) Dev

/-- A refusal that leaves the device as it is. -/
def Dev.orRefuse {α : Type} (d : Dev) (e : Except Abort α) : Except (Abort × Dev) α :=
  match e with
  | .ok a => .ok a
  | .error x => .error (x, d)

/-- Refuses with `a` where a check fails. -/
def Dev.need (d : Dev) (c : Bool) (a : Abort) : Except (Abort × Dev) Unit := if c then .ok () else .error (a, d)

/-- A write is counted in DICT_WRITES or DICT_ABORTS (R67): the code it draws, and the device after it. -/
def counted (r : Res) : Nat × Dev :=
  match r with
  | .ok e => (0, e.bump .DICT_WRITES)
  | .error (a, e) => (a.code, e.bump .DICT_ABORTS)

/-- The answer to a write of an object that is a command of its own: the code it draws goes out (R67). -/
def answerWrite (src : Src) (k : Key) (r : Res) : Dev :=
  (counted r).2.emit (.answer src k.index k.sub (counted r).1)

/-- Puts a value into the staging set; a value staged before is replaced and does not count twice (R32, R66). -/
def Dev.stageVal (d : Dev) (k : Key) (v : Val) : Except Abort Dev :=
  if thas k d.stage ∨ d.stage.length < 8192 then .ok { d with stage := tset k v d.stage } else .error .deviceState

end Sys2Proof.Machine
end

