-- ==== Sys2Proof/Machine/Keys.lean ====
section
/-! DEFINITION. Keys and the service cipher: unwrapping (R447), key slots (R448), leg keys (R449, R450), the
transport key (R446), the lock and its jobs (R451 to R453), owner slots (R461) and attestation (R462, R463). -/

namespace Sys2Proof.Machine

/-- The security unit of an error record (R393). -/
def secUnit : Nat := 0x9000

/-- The key that slot `s` names for unwrapping: 0 is TK (R445). -/
def Dev.kek (d : Dev) (s : Nat) : Option Octets := if s = 0 then d.sec.tk else tfind s d.sec.slots

/-- The alarm check that comes before every other check of a wrapped-key write (R447). -/
def Dev.alarmCheck (d : Dev) (src : Src) : Except (Abort × Dev) Unit :=
  d.need (!d.alarmed) (if src = .can then .deviceState else .alarm)

/-- The unwrap checks of R447, in order: length, key loaded, KEY use, integrity. -/
def Dev.unwrap (d : Dev) (src : Src) (s : Nat) (lengths : List (Nat × Nat)) (wrap : Octets) :
    Except (Abort × Dev) Octets :=
  match lengths.find? fun l => l.1 = wrap.length with
  | none => .error (.lengthMismatch, d)
  | some (_, plain) =>
    match d.kek s with
    | none => .error (if src = .can then .deviceState else .keySlotEmpty, d)
    | some kek =>
      if s ≠ 0 ∧ !d.bitOf .SLOT_USE s 0 0 then .error (.deviceState, d)
      else match keyUnwrap kek wrap with
        | some p => if p.length = plain then .ok p else .error (.range, d.bump .KEY_UNWRAP_FAILS)
        | none => .error (.range, d.bump .KEY_UNWRAP_FAILS)

/-- A write of SLOT_WRAP of slot `s` (R448). -/
def Dev.writeSlotWrap (d : Dev) (src : Src) (s : Nat) (wrap : Octets) : Res := do
  d.alarmCheck src
  let p ← d.unwrap src (d.nat .SLOT_PARENT s) [(24, 16), (40, 32)] wrap
  let d := { d with sec := { d.sec with slots := tset s p d.sec.slots } }
  .ok ((d.setN .SLOT_STATE s (if p.length = 16 then 1 else 2)).setN .SLOT_KCV s (kcv p))

/-- A write of HDP_KEY of slot `s` (R85, R88). -/
def Dev.writeHdpKey (d : Dev) (src : Src) (s : Nat) (wrap : Octets) : Res := do
  d.alarmCheck src
  let p ← d.unwrap src 0 [(40, 32)] wrap
  .ok { d with sec := { d.sec with hdpKeys := tset s p d.sec.hdpKeys } }

/-- Wrap length and plaintext length of a leg key by suite (R447). -/
def legKeyLengths : Nat → List (Nat × Nat)
  | 1 => [(40, 30)]
  | 2 => [(40, 30)]
  | 3 => [(40, 28)]
  | 4 => [(56, 44)]
  | _ => []

/-- A write of LEG_TX_KEY or LEG_RX_KEY of leg `n` (R449, R450): held in IDLE or CONFIGURED, pending in REKEY. -/
def Dev.writeLegKey (d : Dev) (src : Src) (n : Nat) (tx : Bool) (wrap : Octets) : Res := do
  d.alarmCheck src
  let st := d.legState n
  d.need (decide (st = .idle ∨ st = .configured ∨ st = .rekey)) .deviceState
  let suite := d.nat .LEG_SUITE n
  d.need (suite ≠ 0) .deviceState
  let p ← d.unwrap src (d.nat .LEG_KEK n) (legKeyLengths suite) wrap
  let k := d.keysOf n
  let k :=
    if st = .rekey then
      if tx then { k with txPending := some p, txNew := true } else { k with rxPending := some p, rxNew := true }
    else if tx then { k with tx := some p, suite := suite } else { k with rx := some p, suite := suite }
  .ok ((d.setKeys n k).bump .LEG_KEY_LOADS n)

/-- The key derivation of RFC 3711 with rate 0 (R140): `n` octets under `label`; a salt of 12 octets is taken as 14 with zeros after it, as
RFC 7714 has it (PRESUMED, log entry 122). -/
def srtpDerive (key salt : Octets) (label n : Nat) : Octets :=
  let x := Octets.toNat (salt ++ List.replicate (14 - salt.length) 0) ^^^ (label * 2 ^ 48)
  aesCtr key (n / 16 + 1) (x * 65536) (List.replicate n 0)

/-- The session keys of SRTP, or of SRTCP, under a master key and salt (R140). -/
def srtpKeys (suite : Nat) (master : Octets) (srtcp : Bool) : SrtpKeys :=
  let k := if suite = 4 then 32 else 16
  let salt := master.drop k
  let base := if srtcp then 3 else 0
  let get := srtpDerive (master.take k) salt
  { enc := get base k, auth := if suite ≤ 2 then get (base + 1) 20 else [], salt := get (base + 2) salt.length }

/-- The session key that a packet's tag verifies under: the authentication key, or of an AEAD suite the encryption key with its salt. -/
def SrtpKeys.proof (k : SrtpKeys) : Octets := if k.auth = [] then k.enc ++ k.salt else k.auth

/-- Does the tag of a packet for leg `n` verify under master key `master`? `key` is the session key that it verifies under. -/
def Dev.verifies (d : Dev) (n : Nat) (srtcp : Bool) (master : Option Octets) (key : Octets) : Bool :=
  match master with
  | some m => (srtpKeys (d.nat .LEG_SUITE n) m srtcp).proof == key
  | none => false

/-- Erases the held and pending keys of leg `n` (R450). -/
def Dev.eraseLegKeys (d : Dev) (n : Nat) : Dev := d.setKeys n {}

/-- A write of LEG_SUITE of leg `n` (R449), which erases its keys. -/
def Dev.writeLegSuite (d : Dev) (n suite : Nat) : Dev := (d.setN .LEG_SUITE n suite).eraseLegKeys n

/-- LEG_KEY_STATE (R449). -/
def Dev.legKeyState (d : Dev) (n : Nat) : Nat :=
  let k := d.keysOf n
  let b := fun (i : Nat) (x : Option Octets) => if x.isSome then 2 ^ i else 0
  (if k.tx.isSome || k.rx.isSome then k.suite * 256 else 0) + b 3 k.rxPending + b 2 k.txPending + b 1 k.rx + b 0 k.tx

/-- A write of TK_PROGRAM (R446): over CAN only, and only once. -/
def Dev.writeTk (d : Dev) (src : Src) (key : Octets) : Res := do
  d.need (decide (src = .can)) .readOnly
  d.need (d.nat .TK_KCV = 0) .readOnly
  .ok ({ d with sec := { d.sec with tk := some key } }.setN .TK_KCV 0 (kcv key))

/-- Is the lock held (R451)? -/
def Dev.locked (d : Dev) : Bool := d.flag .SC_LOCK

/-- Does the interface hold the lock? -/
def Dev.holder (d : Dev) (src : Src) : Bool :=
  match src with
  | .hdp s => d.locked && decide (d.nat .SC_LOCK_OWNER = s)
  | _ => false

/-- A write of SC_LOCK (R451). -/
def Dev.writeLock (d : Dev) (src : Src) (take : Bool) : Res := do
  match src with
  | .hdp s =>
    d.need (!d.locked || d.holder src) .deviceState
    if take then
      let d := (d.setN .SC_LOCK 0 1).setN .SC_LOCK_OWNER 0 s
      .ok { d with sec := { d.sec with leaseEnd := d.stride + 1200 } }
    else .ok ((d.setN .SC_LOCK 0 0).setN .SC_LOCK_OWNER 0 0)
  | _ => .error (.deviceState, d)

/-- Clears the service-cipher buffers (R451, R456). -/
def Dev.clearScBuffers (d : Dev) : Dev :=
  ((((d.put .SC_INPUT 0 0 (.bytes [])).put .SC_OUTPUT 0 0 (.bytes [])).put .SC_AAD 0 0 (.bytes [])).put
    .SC_IV 0 0 (.bytes (List.replicate 16 0))).put .SC_TAG 0 0 (.bytes (List.replicate 16 0))

/-- The device releases the lock itself (R451): the job is abandoned, the buffers cleared, LOCK_EXPIRED logged. -/
def Dev.lockExpire (d : Dev) (cause : Nat) : Dev :=
  if d.locked then
    let owner := d.nat .SC_LOCK_OWNER
    let d := { d with sec := { d.sec with job := none } }
    let d := ((d.setN .SC_LOCK 0 0).setN .SC_LOCK_OWNER 0 0).setN .SC_STATUS 0 6
    d.clearScBuffers.logRec
      { level := 3, cls := .recovered, unit := secUnit, code := 0x0E06, detail := Config.detail 0x0E06 [owner, cause] }
  else d

/-- Strides left of the lease (R453). -/
def Dev.leaseLeft (d : Dev) : Nat := if d.locked then d.sec.leaseEnd - d.stride else 0

/-- Is the length of SC_INPUT one that the mode allows (R452)? -/
def scLengthOk (mode len : Nat) (pad : Bool) (aad : Nat) : Bool :=
  match mode with
  | 1 => decide (1 ≤ len ∧ len ≤ 65536) && (pad || decide (len % 16 = 0))
  | 2 => decide (16 ≤ len ∧ len ≤ 65536 ∧ len % 16 = 0)
  | 3 => decide (1 ≤ len ∧ len ≤ 65536)
  | 4 => decide (len ≤ 65536 ∧ aad ≤ 1024)
  | 5 => decide (len ≤ 65536 ∧ aad ≤ 1024)
  | 6 => decide (1 ≤ len ∧ len ≤ 4096)
  | 7 => decide (16 ≤ len ∧ len ≤ 4104 ∧ len % 8 = 0)
  | _ => false

/-- The outcome of a job (R452, R453): its status, output and output tag. -/
def scRun (mode : Nat) (key input iv aad tag : Octets) (pad : Bool) : ScJob :=
  let blocks := input.length / 16 + 2
  match mode with
  | 1 => { output := cbcEncrypt key blocks iv (if pad then pkcs7 input else input) }
  | 2 =>
    let p := cbcDecrypt key blocks iv input
    if pad then match unpkcs7 p with
      | some q => { output := q }
      | none => { status := 3 }
    else { output := p }
  | 3 => { output := aesCtr key blocks (Octets.toNat iv) input }
  | 4 =>
    let r := gcmEncrypt key (iv.take 12) aad input
    { output := r.1, tag := some r.2 }
  | 5 =>
    match gcmDecrypt key (iv.take 12) aad input tag with
    | some p => { output := p }
    | none => { status := 4 }
  | 6 => { output := keyWrap key input }
  | _ =>
    match keyUnwrap key input with
    | some p => { output := p }
    | none => { status := 5 }

/-- A write of 1 to SC_CMD (R452, R453). -/
def Dev.scStart (d : Dev) (src : Src) : Res := do
  d.need (d.holder src) .deviceState
  d.need d.sec.job.isNone .deviceState
  let mode := d.nat .SC_MODE
  let slot := d.nat .SC_KEY_SLOT
  let input := d.bytes .SC_INPUT
  d.need (scLengthOk mode input.length (d.flag .SC_PAD) (d.bytes .SC_AAD).length) .range
  match tfind slot d.sec.slots with
  | none => .error (.deviceState, d)
  | some key =>
    d.need (d.bitOf .SLOT_USE slot 0 (if mode = 6 then 2 else 1)) .deviceState
    let job := scRun mode key input (d.bytes .SC_IV) (d.bytes .SC_AAD) (d.bytes .SC_TAG) (d.flag .SC_PAD)
    let d := { d with sec := { d.sec with job := some job } }
    .ok ((d.setN .SC_STATUS 0 1).put .SC_OUTPUT 0 0 (.bytes []))

/-- A job ends (R453). -/
def Dev.scComplete (d : Dev) : Dev :=
  match d.sec.job with
  | none => d
  | some j =>
    let d := { d with sec := { d.sec with job := none } }
    let d := ((d.setN .SC_STATUS 0 j.status).put .SC_OUTPUT 0 0 (.bytes j.output)).bump .SC_JOBS
    match j.tag with
    | some t => d.put .SC_TAG 0 0 (.bytes t)
    | none => d

/-- The owner slots fused so far, those of this power cycle included (R461). -/
def Dev.ownerFused (d : Dev) (s : Nat) : Bool := d.bitOf .OWNER_STATE 0 0 s || thas s d.sec.ownerNext

/-- The revoke bits fused so far (R461). -/
def Dev.ownerRevoked (d : Dev) (s : Nat) : Bool := d.bitOf .OWNER_STATE 0 0 (4 + s) || bit d.sec.ownerRevokeNext s

/-- Logs OWNER_CHANGED (R464). -/
def Dev.ownerLog (d : Dev) (s : Nat) (revoked : Bool) : Dev :=
  d.logRec
    { level := 3, cls := .degraded, unit := secUnit, code := 0x0E07,
      detail := Config.detail 0x0E07 [s, if revoked then 1 else 0] }

/-- A write of OWNER_PROGRAM (R461). A slot byte above 3 names no slot and draws RANGE. -/
def Dev.writeOwner (d : Dev) (src : Src) (s : Nat) (digest : Octets) : Res := do
  d.need (decide (src ≠ .can)) .readOnly
  d.need (s < 4) .range
  d.need (!d.ownerFused s) .deviceState
  .ok ({ d with sec := { d.sec with ownerNext := tset s digest d.sec.ownerNext } }.ownerLog s false)

/-- A write of OWNER_REVOKE (R461). -/
def Dev.writeRevoke (d : Dev) (src : Src) (s : Nat) : Res := do
  d.need (decide (src ≠ .can)) .readOnly
  d.need (s < 4) .range
  d.need (d.nat .OWNER_BOOT_SLOT ≠ s) .deviceState
  let live := (List.range 4).filter fun i => d.ownerFused i && !d.ownerRevoked i
  d.need (live ≠ [s]) .deviceState
  .ok ({ d with sec := { d.sec with ownerRevokeNext := withBit d.sec.ownerRevokeNext s true } }.ownerLog s true)

/-- What the OTP fuses of this power cycle become at a cold reset (R461). -/
def Dev.ownerTakeEffect (d : Dev) : Dev :=
  let d := d.sec.ownerNext.foldl (fun d x => (d.put .OWNER_DIGEST 0 x.1 (.bytes x.2)).setBit .OWNER_STATE 0 0 x.1 true) d
  let d := (List.range 4).foldl (fun d s =>
    if bit d.sec.ownerRevokeNext s then d.setBit .OWNER_STATE 0 0 (4 + s) true else d) d
  { d with sec := { d.sec with ownerNext := [], ownerRevokeNext := 0 } }

/-- A write of 1 to ATTEST_CMD (R462). -/
def Dev.attestStart (d : Dev) : Res := do
  d.need (d.nat .ATTEST_STATE ≠ 1) .deviceState
  let d := { d with sec := { d.sec with
    attestNonce := d.bytes .ATTEST_NONCE, attestFields := none, attestAsked := true } }
  .ok ((d.setN .ATTEST_STATE 0 1).put .ATTEST_REPORT 0 0 (.bytes []))

/-- The signed part of a report, 256 octets, with the values of this moment (R463). -/
def Dev.attestFieldsNow (d : Dev) (nonce : Octets) : Octets :=
  let n := fun (w : Nat) (o : Obj) => natToOctets w (d.nat o)
  [0x4C, 0x4E, 0x41, 0x54, 0, 1, 0, 0] ++ n 4 .SERIAL ++ n 4 .REVISION ++
  natToOctets 4 (d.nat .ATTEST_COUNT + 1) ++ n 4 .BOOT_NONCE ++ n 4 .RESET_EPOCH ++ n 4 .LAST_RESET ++
  nonce ++ d.bytes .IDENTITY_DIGEST ++ Config.romDigest ++ d.bytes .OPT_DIGEST ++ n 4 .OPT_SEQUENCE ++
  n 1 .OPT_COPY ++ n 1 .OWNER_BOOT_SLOT ++ n 1 .OWNER_STATE ++ n 1 .SERVICE_STATE ++ n 8 .STRIDE_COUNT ++
  natToOctets 10 (d.now 0) ++ [if d.tbValid 0 then 1 else 0] ++ n 1 .ALARM_LATCH ++ n 1 .ALARM_ACTIVE ++
  n 1 .ALARM_ERASE_STATE ++ n 1 .GOV_STEP ++ [0] ++ n 4 .ALARM_COUNT ++ n 2 .HEALTHY_CAUSE ++ n 2 .RETIRED_CELLS ++
  n 8 .RETIRED_BLOCKS ++ n 2 .RETIRED_PAIRS ++ n 1 .RETIRED_COMPOSERS ++ n 1 .FAILED_RAILS ++ n 4 .TK_KCV ++
  ((List.range 7).map fun s => natToOctets 4 (d.nat .SLOT_KCV (s + 1))).flatten ++ List.replicate 12 0

/-- At the edge after the command, the fields of the report are taken (R463). -/
def Dev.attestLatch (d : Dev) : Dev :=
  if d.sec.attestAsked then
    { d with sec := { d.sec with
      attestAsked := false, attestFields := some (d.attestFieldsNow d.sec.attestNonce) } }
  else d

/-- The signed report is ready (R463). -/
def Dev.attestReady (d : Dev) : Dev :=
  match d.sec.attestFields with
  | none => d
  | some f =>
    if d.nat .ATTEST_STATE = 1 then
      let c := d.draw
      let sig := Config.identitySign c.1 f
      ((c.2.setN .ATTEST_STATE 0 2).put .ATTEST_REPORT 0 0 (.bytes (f ++ sig))).bump .ATTEST_COUNT
    else d

end Sys2Proof.Machine
end

