-- ==== Sys2Proof/Machine/Legs.lean ====
section
/-! DEFINITION. Conferences and legs: the leg states and commands (R104 to R109), admission (R110 to R116) and the
reservations it makes. -/

namespace Sys2Proof.Machine

/-- The members of conference `k` outside IDLE and CONFIGURED, ascending (R101). -/
def Dev.confMembers (d : Dev) (k : Nat) : List Nat :=
  d.legs.filter fun n => (d.legState n).member && decide (d.nat .LEG_CONFERENCE n = k)

/-- CONF_LEG_COUNT and CONF_PIXEL_USE follow the members (R101). -/
def Dev.confRecount (d : Dev) (k : Nat) : Dev :=
  if 1024 ≤ k then d else
    let ms := d.confMembers k
    (d.setN .CONF_LEG_COUNT k ms.length).setN .CONF_PIXEL_USE k (ms.foldl (fun a n => a + d.nat .LEG_ADMIT_PIXELS n) 0)

/-- LEG_STATE and LEG_STATE_STRIDE change together (R105); the timeout of R109 starts afresh at each entry into ACTIVE. -/
def Dev.setLegState (d : Dev) (n : Nat) (s : LegState) : Dev :=
  let d := (d.setN .LEG_STATE n s.num).setN .LEG_STATE_STRIDE n d.stride
  let d := if s = .active then d.setLife n { d.lifeOf n with silentFrom := d.stride } else d
  d.confRecount (d.nat .LEG_CONFERENCE n)

/-- The home region of an open conference: that of its home block (R102). -/
def Dev.confRegion (d : Dev) (k : Nat) : Nat := d.nat .CONF_HOME_BLOCK k / 16 % 4

/-- The composer that serves a region: its own, or while that is retired the one with the most free output (R385). -/
def Dev.composerFor (d : Dev) (g : Nat) : Nat :=
  if d.nat .COMPOSER_STATE g ≠ 2 then g
  else (minBy? (fun k => d.nat .COMPOSER_ADMIT_PIXELS k)
    ((List.range 4).filter fun k => decide (d.nat .COMPOSER_STATE k ≠ 2))).getD g

/-- The permission of R116 and R205: codecs that warm-up carries. A receive Opus slot carries whatever bandwidth its
packets signal, so only the send codec's bandwidth is checked (log entry 23). -/
def Dev.warmCodecs (d : Dev) (n : Nat) : Bool :=
  let ok := fun c => decide (c ≤ 4)
  ok (d.fld .LEG_TX_CODEC n 0 3 0) &&
    !(decide (d.fld .LEG_TX_CODEC n 0 3 0 = 4) && decide (3 ≤ d.fld .LEG_TX_CODEC n 0 16 14)) &&
    (List.range 4).all fun i => ok (d.fld .LEG_RX_CODEC n i 3 0)

/-- Can warm-up carry leg `n` beside those it carries (R116)? -/
def Dev.warmFits (d : Dev) (n : Nat) : Bool :=
  let k := d.nat .LEG_CONFERENCE n
  let others := d.legs.filter fun m => decide (m ≠ n) && d.reserved m
  let confs := ((others.map fun m => d.nat .LEG_CONFERENCE m) ++ [k]).eraseDups
  decide (k < 1024) && d.flag .CONF_STANDING k && d.warmCodecs n && decide (others.length < 256) &&
    decide (confs.length ≤ 64)

/-- What a leg's admission asks for: cycles, the streams with the strip it brings as stream 7, composer output, coded
pixels, buffers. -/
structure Ask where
  cycles : Nat := 0
  streams : List (Nat × (Nat × Nat)) := []
  compose : Nat := 0
  px : Nat := 0
  need : Nat := 0
  strip : Option Nat := none
  video : Bool := true
deriving DecidableEq, Repr

/-- The demand of leg `n`, with its video or for audio alone (R111, R112, R114, R265). -/
def Dev.askOf (d : Dev) (n : Nat) (video : Bool) : Ask :=
  let base : Ask := { cycles := d.cycleDemand n, need := d.nat .LEG_BUFFER_NEED n, video := video }
  if !video then base else
    let strip := d.stripDue n
    let extra := match strip with
      | some k => [(7, d.stripDemand k)]
      | none => []
    let ss := d.streamsOf n ++ extra
    let stripPx := match strip with
      | some k => (d.stripDemand k).1
      | none => 0
    { base with
      streams := ss, compose := d.composeDemand n + stripPx, px := ss.foldl (fun a s => a + s.2.1) 0, strip := strip }

/-- What leg `n` holds of each capacity. -/
def Dev.heldBy (d : Dev) (n : Nat) : Ask :=
  let l := d.lifeOf n
  { cycles := d.nat .LEG_ADMIT_CYCLES n, px := d.nat .LEG_ADMIT_PIXELS n, need := l.need
    compose := (l.composer.map (·.2)).getD 0, strip := l.strip, video := l.videoIn }

/-- Places streams; one whose demand has not grown keeps the pair it holds (R107, R114). -/
def Dev.keepStreams (d : Dev) (region : Nat) (held : List (Nat × (Nat × (Nat × Nat)))) :
    List (Nat × (Nat × Nat)) → Option (List (Nat × (Nat × (Nat × Nat))) × Dev)
  | [] => some ([], d)
  | (s, (px, kb)) :: r =>
    let keep := match tfind s held with
      | some (p, (hx, hk)) => if px ≤ hx ∧ kb ≤ hk then some p else none
      | none => none
    match keep.orElse fun _ => d.placePair region px kb with
    | none => none
    | some p =>
      ((d.chargePair p px kb).keepStreams region held r).map fun t => ((s, (p, (px, kb))) :: t.1, t.2)

/-- Gives up the pairs, the composer and the strip that a leg's video holds. A strip that other admitted viewers share
passes to the lowest of them (R265; log entry 24). -/
def Dev.releaseVideo (d : Dev) (n : Nat) : Dev :=
  let l := d.lifeOf n
  let heir := match l.strip with
    | none => none
    | some k => d.legs.find? fun m => decide (m ≠ n) && d.reserved m && (d.lifeOf m).videoIn && d.stripLayout m = some k
  let stripPx := match tfind 7 l.charges with
    | some x => x.2.1
    | none => 0
  let gone := if heir.isSome then l.charges.filter (·.1 ≠ 7) else l.charges
  let px := gone.foldl (fun a c => a + c.2.2.1) 0
  let d := gone.foldl (fun d c => d.chargePair c.2.1 (-(c.2.2.1 : Int)) (-(c.2.2.2 : Int))) d
  let d := d.sub .ADMIT_PIXELS_USE 0 px
  let kept := if heir.isSome then stripPx else 0
  let d := match l.composer with
    | some (k, y) => d.sub .COMPOSER_ADMIT_PIXELS k (y - kept)
    | none => d
  let d := match heir, tfind 7 l.charges, l.composer with
    | some m, some c, some (k, _) =>
      let x := d.lifeOf m
      let d := d.setLife m { x with
        strip := l.strip, charges := x.charges ++ [(7, c)]
        composer := some (k, stripPx + match x.composer with
          | some y => y.2
          | none => 0) }
      (d.setN .LEG_ADMIT_PIXELS m (d.nat .LEG_ADMIT_PIXELS m + stripPx)).confRecount (d.nat .LEG_CONFERENCE m)
    | _, _, _ =>
      match l.strip with
      | some k => d.setN .LAYOUT_PAIR k 0xFF
      | none => d
  let d := d.setLife n { d.lifeOf n with charges := [], composer := none, videoIn := false, strip := none }
  (d.setN .LEG_ADMIT_PIXELS n 0).confRecount (d.nat .LEG_CONFERENCE n)

/-- Releases the whole reservation of leg `n` (R109); its state homes go back to the pool. -/
def Dev.releaseLeg (d : Dev) (n : Nat) : Dev :=
  if !d.reserved n then d else
    let c := d.nat .LEG_ADMIT_CYCLES n
    let b := d.nat .LEG_ADMIT_BLOCK n
    let d := (d.releaseVideo n).chargeCycles b (-(c : Int))
    let d := ((d.endHome n c).sub .BLK_LEGS b 1).dropAll (4 + b / 16) (d.lifeOf n).homes
    let d := d.setLife n { d.lifeOf n with homes := [], need := 0 }
    ((d.setN .LEG_ADMIT_CYCLES n 0).setN .LEG_ADMIT_BLOCK n 0xFF).sub .LEGS_ADMITTED 0 1

/-- The block for an ask: the one held, while the demand has not grown or still fits there, else by R113. -/
def Dev.blockFor (d : Dev) (base : Dev) (n : Nat) (q : Ask) : Option Nat :=
  let k := d.nat .LEG_CONFERENCE n
  let b := d.nat .LEG_ADMIT_BLOCK n
  let held := d.nat .LEG_ADMIT_CYCLES n
  if held ≠ 0 ∧ (q.cycles ≤ held ∨ q.cycles ≤ base.freeCycles b) then some b
  else base.placeBlock (d.confRegion k) (d.flag .CONF_SPILL k) q.cycles

/-- Bytes free in the pools. -/
def Dev.freeBytes (d : Dev) : Nat := (List.range 6).foldl (fun a p => a + d.poolFree p * poolSize p) 0

/-- Does check `v` of R110 fail for ask `q` of leg `n`? `base` is the device without what the leg gives up for the
ask; what the leg already holds is not asked again (R107, R118). -/
def Dev.checkFails (d base : Dev) (n : Nat) (q : Ask) (v : Nat) : Bool :=
  let k := d.nat .LEG_CONFERENCE n
  let h := d.heldBy n
  let video := decide (0 < q.px)
  match v with
  | 2 => decide (d.service ≠ .full) && !(decide (d.service = .warmup) && d.warmFits n)
  | 3 => decide (d.nat .CONF_STATE k ≠ 1)
  | 4 => !(d.legState n).member && decide (d.nat .CONF_MAX_LEGS k < d.nat .CONF_LEG_COUNT k + 1)
  | 5 => decide (h.need < q.need) && decide (d.nat .CONF_BUFFER_QUOTA k ≠ 0xFFFFFFFF) &&
      decide (d.nat .CONF_BUFFER_QUOTA k < d.nat .CONF_BUFFER_USE k + (q.need - h.need))
  | 6 => video && decide (h.px < q.px) && decide (d.nat .CONF_PIXEL_QUOTA k ≠ 0xFFFFFFFF) &&
      decide (d.nat .CONF_PIXEL_QUOTA k < base.nat .CONF_PIXEL_USE k + q.px)
  | 7 => decide (h.cycles < q.cycles) && decide (d.nat .ADMIT_CYCLES_CAP < base.nat .ADMIT_CYCLES_USE + q.cycles)
  | 8 => (d.blockFor base n q).isNone
  | 9 => video && decide (h.px < q.px) && decide (d.nat .ADMIT_PIXELS_CAP < base.nat .ADMIT_PIXELS_USE + q.px)
  | 10 => video && (base.keepStreams (d.confRegion k) (d.lifeOf n).charges q.streams).isNone
  | 11 => video && decide (h.compose < q.compose) &&
      decide (800000 < base.nat .COMPOSER_ADMIT_PIXELS (d.composerFor (d.confRegion k)) + q.compose)
  | 12 => decide (d.freeBytes < (q.need - h.need) * 1024)
  | 13 => video && decide (h.px < q.px) && decide (0 < d.nat .GOV_STEP)
  | 14 =>
    let est := fun (e : Dev) (q : Ask) =>
      e.estimateWith (if e.reserved n then 0 else q.cycles) q.px q.compose
        (if e.reserved n || !d.videoLeg n then 0 else 1)
    let limit := if video then d.nat .GOV_LIMIT - d.nat .GOV_ADMIT_MARGIN else d.nat .GOV_LIMIT
    decide (limit < est base q) && (!d.reserved n || decide (d.estimateWith 0 0 0 0 < est base q))
  | _ => false

/-- The checks that LEG_AUDIO_ONLY_FALLBACK relaxes (R110). -/
def videoChecks : List Nat := [6, 9, 10, 11, 13]

/-- The checks of R110 in order (R111): the value LEG_REFUSAL takes with what is admitted, or the check that refuses. -/
def Dev.decide110 (d base : Dev) (n : Nat) (checks : List Nat) (relax : Bool) : Except Nat (Nat × Ask) :=
  let q := base.askOf n true
  match checks.find? (d.checkFails base n q) with
  | none => .ok (0, q)
  | some v =>
    if relax && videoChecks.contains v then
      let q0 := base.askOf n false
      match checks.find? (d.checkFails base n q0) with
      | none => .ok (v, q0)
      | some w => .error w
    else .error v

/-- Reserves the video of an ask (R114, R259, R265). -/
def Dev.reserveVideo (base : Dev) (n : Nat) (q : Ask) (held : List (Nat × (Nat × (Nat × Nat)))) : Dev :=
  let region := base.confRegion (base.nat .LEG_CONFERENCE n)
  match base.keepStreams region held q.streams with
  | none => base
  | some (placed, d) =>
    let k := d.composerFor region
    let d := d.setN .ADMIT_PIXELS_USE 0 (d.nat .ADMIT_PIXELS_USE + q.px)
    let d := d.setN .COMPOSER_ADMIT_PIXELS k (d.nat .COMPOSER_ADMIT_PIXELS k + q.compose)
    let d := placed.foldl (fun d s => (d.setStreamPair n s.1 s.2.1).ungate (pairDomain s.2.1)) d
    let d := match q.strip, tfind 7 placed with
      | some l, some (p, _) => d.setN .LAYOUT_PAIR l p
      | _, _ => d
    let d := if 0 < q.compose then d.ungate (composerDomain k) else d
    let d := d.setLife n { d.lifeOf n with
      charges := placed, videoIn := q.video, strip := q.strip
      composer := if 0 < q.compose then some (k, q.compose) else none }
    (d.setN .LEG_ADMIT_PIXELS n q.px).confRecount (d.nat .LEG_CONFERENCE n)

/-- Gives leg `n` the state homes of its flows (R318), where it has none; region 0 memory holds them in warm-up. -/
def Dev.giveHomes (d : Dev) (n : Nat) : Dev :=
  if d.service = .warmup ∨ (d.lifeOf n).homes ≠ [] then d else
    let b := d.nat .LEG_ADMIT_BLOCK n
    let r := d.alloc .home (4 + b / 16) 6144 (some (d.nat .LEG_CONFERENCE n)) legFlows
    r.2.setLife n { r.2.lifeOf n with homes := r.1 }

/-- Reserves an ask on `base` in block `b` (R110, R113, R327, R403). -/
def Dev.reserveLeg (base : Dev) (n b : Nat) (q : Ask) (held : List (Nat × (Nat × (Nat × Nat)))) : Dev :=
  let d := (base.reserveVideo n q held).chargeCycles b q.cycles
  let d := (d.giveHome n b q.cycles).setN .BLK_LEGS b (d.nat .BLK_LEGS b + 1)
  let d := d.setLife n { d.lifeOf n with videoIn := q.video, need := q.need }
  let d := ((d.setN .LEG_ADMIT_CYCLES n q.cycles).setN .LEG_ADMIT_BLOCK n b).ungate (blockDomain b)
  (d.setN .LEGS_ADMITTED 0 (d.nat .LEGS_ADMITTED + 1)).giveHomes n

/-- Refuses a leg command with a check's value (R105). -/
def Dev.refuseLeg (d : Dev) (n v : Nat) (counted : Bool) : Abort × Dev :=
  let d := d.setN .LEG_REFUSAL n v
  (.deviceState, if counted then d.bump .ADMIT_REFUSALS else d)

/-- A random SSRC that is not 0, where the object gives none (R201, R237, R276, R302). -/
def Dev.drawSsrc (d : Dev) (o : Obj) (u k : Nat) : Nat × Dev :=
  let v := d.nat o u k
  if v ≠ 0 then (v, d) else
    let c := d.draw
    (c.1 % (2 ^ 32 - 1) + 1, c.2)

/-- The RTP identities that ACTIVATE draws: sequence number, timestamp and SSRC of the leg's audio (R201), composed
encode (R237), spliced view (R276, R278) and forwarding slots (R302). -/
def Dev.drawStreams (d : Dev) (n : Nat) : Dev :=
  let q := d.draw
  let t := q.2.draw
  let s := t.2.drawSsrc .LEG_TX_AUDIO_SSRC n 0
  let d := s.2.setTx n { s.2.txOf n with audioSeq := q.1 % 65536, audioTs := t.1 % 2 ^ 32, audioSsrc := s.1 }
  let q := d.draw
  let t := q.2.draw
  let s := t.2.drawSsrc .ENC_SSRC n 0
  let e : Enc := tget {} (EncId.composed n) s.2.enc
  let e := { e with seq := q.1 % 65536, ts := t.1 % 2 ^ 32, ssrc := s.1 }
  let d := { s.2 with enc := tput {} (EncId.composed n) e s.2.enc }
  let q := d.draw
  let t := q.2.draw
  let s := t.2.drawSsrc .VIEW_SSRC n 0
  let e : View := tget {} n s.2.view
  let e := { e with seq := q.1 % 65536, ts := t.1 % 2 ^ 32, ssrc := s.1 }
  let d := { s.2 with view := tput {} n e s.2.view }
  (List.range 16).foldl (fun d j =>
    let s := d.drawSsrc .FWD_OUT_SSRC n j
    let x : FwdSlot := tget {} (n, j) s.2.fwd
    { s.2 with fwd := tput {} (n, j) { x with ssrc := s.1 } s.2.fwd }) d

/-- Is the address IPv4-mapped? -/
def isMapped (ip : Octets) : Bool := ip.take 12 == List.replicate 10 0 ++ [0xFF, 0xFF]

/-- Is the address all zero? -/
def isZero (ip : Octets) : Bool := ip.all (· == 0)

/-- The completeness of R106. -/
def Dev.complete (d : Dev) (n : Nat) : Bool :=
  let a := d.nat .LEG_LOCAL_ADDR n
  let port := d.nat .LEG_LOCAL_PORT n
  let ip := d.bytes .ADDR_IP a
  let remote := d.bytes .LEG_REMOTE_IP n
  let k := d.keysOf n
  decide (d.nat .LEG_CONFERENCE n ≠ 0xFFFF) && decide (a ≠ 0xFF) && !isZero ip && decide (port ≠ 0) &&
    !isZero remote && (isMapped ip == isMapped remote) && decide (d.nat .LEG_REMOTE_PORT n ≠ 0) &&
    (List.range 4).any (fun i => d.fld .LEG_RX_CODEC n i 3 0 != 0) && decide (d.fld .LEG_TX_CODEC n 0 3 0 ≠ 0) &&
    k.tx.isSome && k.rx.isSome &&
    !(d.legs.any fun m => decide (m ≠ n) && decide (d.nat .LEG_LOCAL_ADDR m = a) && decide (d.nat .LEG_LOCAL_PORT m = port))

/-- Gives every buffer and every piece of media state of leg `n` up (R109). -/
def Dev.clearMedia (d : Dev) (n : Nat) : Dev :=
  let mine := fun (e : EncId) => match e with
    | .composed m => decide (m = n)
    | .tile m _ => decide (m = n)
    | .strip _ => false
  { d with
    rx := tdel n d.rx
    loop := tdel n d.loop
    tx := tdel n d.tx
    audio := tdel n d.audio
    view := tdel n d.view
    dec := d.dec.filter (fun kv => decide (kv.1.1 ≠ n))
    enc := d.enc.filter (fun kv => !mine kv.1)
    fwd := d.fwd.filter (fun kv => decide (kv.1.1 ≠ n))
    fsrc := tdel n d.fsrc }

/-- The end of a drain (R109): keys erased, references dropped, reservation released, IDLE. -/
def Dev.endDrain (d : Dev) (n : Nat) : Dev :=
  let was := d.lifeOf n
  let d := (((d.eraseLegKeys n).clearMedia n).releaseLeg n).setLegState n .idle
  let d := if was.suspended then d.sub .LEGS_SUSPENDED 0 1 else d
  d.setLife n {}

/-- DELETE accepted (R105, R109): the drain begins; a suspended leg drains nothing (R437). A leg that was HELD, REKEY or FAILED sends no media
in it (R107, R108, R119). -/
def Dev.startDrain (d : Dev) (n : Nat) : Dev :=
  let l := d.lifeOf n
  let sends := decide (d.legState n = .active)
  let d := d.setLegState n .draining
  d.setLife n { d.lifeOf n with
    silentDrain := !sends
    drainEnd := some (d.stride + (if l.suspended then 1 else d.nat .LEG_DRAIN_STRIDES n)) }

/-- A leg enters REKEY (R108): LEG_PRIOR_STATE takes its state, and keys are to be written anew. -/
def Dev.enterRekey (d : Dev) (n : Nat) : Dev :=
  let d := d.setN .LEG_PRIOR_STATE n (d.nat .LEG_STATE n)
  (d.setKeys n { d.keysOf n with txNew := false, rxNew := false }).setLegState n .rekey

/-- What an alarm does to leg `n`'s state (R108). -/
def Dev.alarmLeg (d : Dev) (n : Nat) : Dev :=
  match d.legState n with
  | .configured => d.enterRekey n
  | .active => d.enterRekey n
  | .held => d.enterRekey n
  | .draining => d.endDrain n
  | _ => d

/-- A service-affecting record names leg `n` (R109). -/
def Dev.failLeg (d : Dev) (n : Nat) : Dev :=
  match d.legState n with
  | .active => d.setLegState n .failed
  | .held => d.setLegState n .failed
  | .rekey => d.setLegState n .failed
  | .configured => (d.eraseLegKeys n).setLegState n .idle
  | .draining => d.endDrain n
  | _ => d

/-- Logs a record that names a leg; a service-affecting one fails the leg (R109). -/
def Dev.logLeg (d : Dev) (r : Rec) : Dev :=
  let d := d.logRec r
  if r.cls = .serviceAffecting ∧ r.leg < 4096 then d.failLeg r.leg else d

/-- Is a return to warm-up in force, in which RESUME and READMIT_VIDEO are refused (R437)? -/
def Dev.returned (d : Dev) : Bool := decide (d.service = .warmup) && d.rst.handed

/-- CONFIGURE (R105, R106). -/
def Dev.configureLeg (d : Dev) (n : Nat) : Res := do
  d.need (d.legState n = .idle) .deviceState
  if d.complete n then .ok ((d.setN .LEG_BUFFER_NEED n (d.bufferNeed n)).setLegState n .configured)
  else .error (d.refuseLeg n 1 true)

/-- UNCONFIGURE (R105). -/
def Dev.unconfigureLeg (d : Dev) (n : Nat) : Res := do
  d.need (d.legState n = .configured) .deviceState
  .ok (d.setLegState n .idle)

/-- An admitted leg becomes ACTIVE (R107): its policer's buckets are full (R138) and its streams begin. -/
def Dev.enterActive (d : Dev) (n : Nat) : Dev :=
  ((d.setRx n { d.rxOf n with bucket := {} }).setLegState n .active).drawStreams n

/-- ACTIVATE (R105, R110); refused in DOZE (R404). -/
def Dev.activateLeg (d : Dev) (n : Nat) : Res := do
  d.need (d.legState n = .configured) .deviceState
  d.need (d.service ≠ .doze) .deviceState
  match d.decide110 d n [2, 3, 4, 5, 6, 7, 8, 9, 10, 11, 12, 13, 14] (d.flag .LEG_AUDIO_ONLY_FALLBACK n) with
  | .error v => .error (d.refuseLeg n v true)
  | .ok (v, q) =>
    let d := (d.reserveLeg n ((d.blockFor d n q).getD 0) q []).setN .LEG_REFUSAL n v
    let d := if v = 0 then d else d.bump .ADMIT_REFUSALS
    .ok (d.enterActive n)

/-- HOLD (R105). -/
def Dev.holdLeg (d : Dev) (n : Nat) : Res := do
  d.need (d.legState n = .active) .deviceState
  .ok (d.setLegState n .held)

/-- RESUME (R105, R107): the present configuration is admitted against what the leg holds. -/
def Dev.resumeLeg (d : Dev) (n : Nat) : Res := do
  d.need (d.legState n = .held) .deviceState
  d.need (!d.returned) .deviceState
  let homes := (d.lifeOf n).homes
  let base := (d.setLife n { d.lifeOf n with homes := [] }).releaseLeg n
  let base := (base.setLife n { base.lifeOf n with homes := homes }).setN .LEG_BUFFER_NEED n (d.bufferNeed n)
  match d.decide110 base n [2, 3, 5, 6, 7, 8, 9, 10, 11, 12, 13, 14] (d.flag .LEG_AUDIO_ONLY_FALLBACK n) with
  | .error v => .error (d.refuseLeg n v true)
  | .ok (v, q) =>
    let e := (base.reserveLeg n ((d.blockFor base n q).getD 0) q (d.lifeOf n).charges).setN .LEG_REFUSAL n v
    let e := if v = 0 then e else e.bump .ADMIT_REFUSALS
    .ok (e.setLegState n .active)

/-- REKEY (R105). -/
def Dev.rekeyLeg (d : Dev) (n : Nat) : Res := do
  d.need (d.legState n = .active || d.legState n = .held) .deviceState
  .ok (d.enterRekey n)

/-- REKEY_DONE (R105): both keys written anew and no alarm latched; they are installed at the next edge (R450). -/
def Dev.rekeyDoneLeg (d : Dev) (n : Nat) : Res := do
  d.need (d.legState n = .rekey) .deviceState
  let k := d.keysOf n
  if k.txNew && k.rxNew && !d.alarmed then
    let d := d.setKeys n { k with install := true }
    let prior := match d.nat .LEG_PRIOR_STATE n with
      | 1 => LegState.configured
      | 3 => LegState.held
      | _ => LegState.active
    .ok (d.setLegState n prior)
  else .error (d.refuseLeg n 15 false)

/-- DELETE (R105, R109). -/
def Dev.deleteLeg (d : Dev) (n : Nat) : Res := do
  let s := d.legState n
  d.need (s = .active || s = .held || s = .rekey || s = .failed) .deviceState
  .ok (d.startDrain n)

/-- READMIT_VIDEO (R105, R111): the video demand alone is admitted. -/
def Dev.readmitLeg (d : Dev) (n : Nat) : Res := do
  d.need (d.legState n = .active) .deviceState
  d.need (!d.returned) .deviceState
  let base := d.releaseVideo n
  match d.decide110 base n [6, 9, 10, 11, 13, 14] false with
  | .error v => .error (d.refuseLeg n v true)
  | .ok (_, q) => .ok ((base.reserveVideo n q (d.lifeOf n).charges).setN .LEG_REFUSAL n 0)

/-- A write of LEG_CMD (R105). -/
def Dev.writeLegCmd (d : Dev) (n v : Nat) : Res :=
  match v with
  | 1 => d.configureLeg n
  | 2 => d.unconfigureLeg n
  | 3 => d.activateLeg n
  | 4 => d.holdLeg n
  | 5 => d.resumeLeg n
  | 6 => d.rekeyLeg n
  | 7 => d.rekeyDoneLeg n
  | 8 => d.deleteLeg n
  | 9 => d.readmitLeg n
  | _ => .error (.range, d)

/-- The drain of leg `n` ends at an edge (R109). -/
def Dev.drainEnds (d : Dev) (n : Nat) : Dev := if d.legState n = .draining then d.endDrain n else d

/-- LEG_RX_TIMEOUT laps pass in ACTIVE without an authenticated packet (R109); 0 disables the timeout. -/
def Dev.rxTimeout (d : Dev) (n : Nat) : Dev :=
  if d.legState n = .active ∧ d.nat .LEG_RX_TIMEOUT n ≠ 0 ∧
      (d.lifeOf n).silentFrom + 600 * d.nat .LEG_RX_TIMEOUT n ≤ d.stride then
    (d.setLegState n .failed).logRec
      { level := 3, cls := .degraded, action := .legFailed, unit := 0x4000, code := 0x0F03, leg := n
        detail := d.nat .LEG_RX_TIMEOUT n }
  else d

/-- The home block that OPEN chooses (R102, R433): the most free admitted cycles, ties to the lower number. -/
def Dev.chooseHomeBlock (d : Dev) (k : Nat) : Option Nat :=
  let most := fun (bs : List Nat) => minBy? (fun b => blockFull - d.freeCycles b) (bs.filter d.blockServes)
  let region := if d.nat .CONF_REGION k ≤ 3 then d.nat .CONF_REGION k
    else
      let free := fun g => ((List.range 16).map (16 * g + ·)).foldl
        (fun a b => a + if d.blockServes b then d.freeCycles b else 0) 0
      (minBy? (fun g => 64 * blockFull - free g) (List.range 4)).getD 0
  let blocks := if d.service = .warmup then d.warmBlocks else (List.range 16).map (16 * region + ·)
  match most blocks with
  | some b => if confBase ≤ d.freeCycles b then some b else none
  | none => none

/-- Opens conference `k` in block `b` (R102, R318, R327). -/
def Dev.openIn (d : Dev) (k b : Nat) : Dev :=
  let d := ((d.setN .CONF_STATE k 1).setN .CONF_HOME_BLOCK k b).chargeCycles b confBase
  let d := (d.giveHome (4096 + k) b confBase).setN .CONFS_OPEN 0 (d.nat .CONFS_OPEN + 1)
  if d.service = .warmup then d
  else if d.service = .doze then d
  else
    let r := (d.ungate (blockDomain b)).alloc .home (4 + b / 16) 6144 (some k) 1
    r.2.setMix k { r.2.mixOf k with homes := r.1 }

/-- OPEN of conference `k` (R102). -/
def Dev.openConf (d : Dev) (k : Nat) : Res := do
  d.need (d.nat .CONF_STATE k = 0) .deviceState
  match d.chooseHomeBlock k with
  | none => .error (.deviceState, d)
  | some b => .ok (d.openIn k b)

/-- CLOSE of conference `k` (R103). -/
def Dev.closeConf (d : Dev) (k : Nat) : Res := do
  d.need (d.nat .CONF_STATE k = 1) .deviceState
  let d := d.setN .CONF_STATE k 2
  .ok ((d.confMembers k).foldl (fun d n => if d.legState n = .draining then d else d.startDrain n) d)

/-- The conference is closed once no member is outside IDLE and CONFIGURED, and its base cost is released (R103). -/
def Dev.closeDone (d : Dev) (k : Nat) : Dev :=
  if d.nat .CONF_STATE k = 2 ∧ d.confMembers k = [] then
    let b := d.nat .CONF_HOME_BLOCK k
    let d := (d.chargeCycles b (-(confBase : Int))).endHome (4096 + k) confBase
    let d := (d.dropAll (4 + b / 16) (d.mixOf k).homes).setMix k {}
    ((d.setN .CONF_STATE k 0).setN .CONF_HOME_BLOCK k 0xFF).sub .CONFS_OPEN 0 1
  else d

/-- A write of CONF_CMD (R102, R103). -/
def Dev.writeConfCmd (d : Dev) (k v : Nat) : Res :=
  match v with
  | 1 => d.openConf k
  | 2 => d.closeConf k
  | _ => .error (.range, d)

end Sys2Proof.Machine
end

