-- ==== Sys2Proof/Machine/TimeOps.lean ====
section
/-! DEFINITION. Disciplining and using the time bases: writes of TB_TIME (R46), the servo and holdover (R43, R44),
pulses (R51 to R54), captures (R55, R56), stamps (R50) and PTP (R47 to R49). -/

namespace Sys2Proof.Machine

/-- A write of TB_TIME (R46): only in FREE mode; it steps the time base and sets VALID. -/
def Dev.writeTbTime (d : Dev) (n t : Nat) : Except Abort Dev :=
  if d.nat .TB_MODE n ≠ 0 then .error .deviceState
  else
    let d := d.stepTb n t
    let d := d.setTb n { d.tbOf n with valid := true, written := true }
    .ok (d.bump .TB_STEPS n)

/-- The largest rate adjustment (R39). -/
def rateLimit : Int := 4294967

/-- The servo on an offset sample `o` in 2^-16 ns over `t` ns (R43). When the source returns from a holdover, it
resumes from the integrator (R44). -/
def Dev.servo (d : Dev) (n : Nat) (o : Int) (t : Nat) : Dev :=
  let mode := d.nat .TB_MODE n
  if mode ≠ 1 ∧ mode ≠ 2 then d else
    let b := { d.tbOf n with holdover := false, ended := false, source := true, sample := some (o, t) }
    let d := d.setTb n b
    if o.natAbs > d.nat .TB_STEP_THRESHOLD n * 65536 then
      let d := d.stepTb n (((b.t : Int) + o) % (2 : Int) ^ 80).toNat
      let d := d.setTb n { d.tbOf n with integ := 0, valid := false, locked := false, lockCount := 0 }
      d.bump .TB_STEPS n
    else
      let f := tdiv (o * 65536) t
      let i := clamp (-rateLimit) rateLimit (b.integ + asr f (d.nat .TB_SERVO_KI n))
      let adj := clamp (-rateLimit) rateLimit (i + asr f (d.nat .TB_SERVO_KP n))
      let lc := if o.natAbs ≤ d.nat .TB_LOCK_THRESHOLD n * 65536 then min (b.lockCount + 1) 16 else 0
      let b := { b with
        integ := i, lockCount := lc
        valid := b.valid || decide (lc = 16), locked := b.locked || decide (lc = 16) }
      (d.setTb n b).setI .TB_RATE_ADJ n 0 adj

/-- A time base in PTP or TIN mode loses its source (R44): the rate is frozen at the integrator. -/
def Dev.holdoverEnter (d : Dev) (n : Nat) : Dev :=
  let mode := d.nat .TB_MODE n
  let b := d.tbOf n
  if (mode = 1 ∨ mode = 2) ∧ !b.holdover then
    (d.setTb n { b with holdover := true, source := false }).setI .TB_RATE_ADJ n 0 b.integ
  else d

/-- TB_HOLDOVER_LAPS laps in holdover run out (R44, R45): VALID clears, the base is LOCKED no more, and a degraded record is logged
once; 0 laps allow unlimited holdover. -/
def Dev.holdoverExpiry (d : Dev) (n : Nat) : Dev :=
  let b := d.tbOf n
  if b.holdover ∧ d.nat .TB_HOLDOVER_LAPS n ≠ 0 ∧ !b.ended then
    (d.setTb n { b with valid := false, locked := false, ended := true }).logRec
      { level := 3, cls := .degraded, unit := 0x6000 + n, code := 0x1001, detail := n }
  else d

/-- `T − now` of a pulse target on its time base, as a signed 64-bit difference of whole ns (R52). -/
def Dev.targetAhead (d : Dev) (k t : Nat) : Int :=
  let tb := d.nat .PULSE_TIMEBASE k % 8
  ofWord 64 (toWord 64 ((t / 65536 : Nat) - (d.now tb / 65536 : Nat) : Int))

/-- The target window of R52 for a mode and a target: the target to hold, or RANGE. With the output OFF no window
applies (log entry 14). -/
def Dev.pulseWindow (d : Dev) (k mode t : Nat) : Except Abort Nat :=
  let ahead := d.targetAhead k t
  if mode = 1 then
    if 2000 ≤ ahead ∧ ahead ≤ 2 ^ 40 then .ok t else .error .range
  else if mode = 2 then
    if 2 ^ 40 < ahead then .error .range
    else if ahead < 2000 then
      let p := d.nat .PULSE_PERIOD k
      let m := ((2000 - ahead).toNat + p - 1) / p
      .ok ((t + m * p * 65536) % timeMod)
    else .ok t
  else .ok t

/-- Ends the active level of output `k` (R53, R54). -/
def Dev.pulseEnd (d : Dev) (k : Nat) : Dev :=
  if (tget {} k d.pulses).active then
    { d with pulses := tput {} k {} d.pulses }.emit (.pulse k false (d.nat .PULSE_POLARITY k = 1))
  else d

/-- A write of PULSE_TARGET (R52). -/
def Dev.writePulseTarget (d : Dev) (k t : Nat) : Except Abort Dev := do
  let t ← d.pulseWindow k (d.nat .PULSE_MODE k) t
  .ok (d.setN .PULSE_TARGET k t)

/-- A write of PULSE_MODE (R52, R54): 0 returns an active output to inactive at once. -/
def Dev.writePulseMode (d : Dev) (k mode : Nat) : Except Abort Dev := do
  let t ← d.pulseWindow k mode (d.nat .PULSE_TARGET k)
  let d := (d.setN .PULSE_TARGET k t).setN .PULSE_MODE k mode
  .ok (if mode = 0 then d.pulseEnd k else d)

/-- PULSE_WIDTH as whole packet-engine cycles of 1.28 ns, rounded to nearest (R53). -/
def widthCycles (ns : Nat) : Nat := (ns * 25 + 16) / 32

/-- A time base reaches or passes the target of output `k` (R53). Nothing happens while the target lies ahead or
the output is OFF. Targets passed by 16 ns or more are each counted missed; in PERIODIC mode the target advances. -/
def Dev.pulseTarget (d : Dev) (k : Nat) : Dev :=
  let mode := d.nat .PULSE_MODE k
  let tb := d.nat .PULSE_TIMEBASE k % 8
  let t := d.nat .PULSE_TARGET k
  let e := timeDiff (d.now tb) t
  let window : Int := 16 * 65536
  if mode = 0 ∨ e < 0 then d
  else
    let p := d.nat .PULSE_PERIOD k * 65536
    let fire := decide (e < window) && d.tbValid tb
    let passed := if e < window ∨ mode = 1 then 1 else (e - window).toNat / p + 1
    let d := if mode = 2 then d.setN .PULSE_TARGET k ((t + passed * p) % timeMod) else d.setN .PULSE_MODE k 0
    if fire then
      let d := d.bump .PULSE_FIRED k
      { d with pulses := tput {} k ⟨true, widthCycles (d.nat .PULSE_WIDTH k)⟩ d.pulses }.emit (.pulse k true (d.nat .PULSE_POLARITY k = 0))
    else d.add .PULSE_MISSED k 0 passed

/-- A rising edge feeds the servo of a time base in TIN mode (R43, R56): its time against the nearest whole second, over one second.
Halfway between two seconds it belongs to the later (DESIGN CHOICE, log entry 119). -/
def Dev.tinSample (d : Dev) (n : Nat) : Dev :=
  let t := d.now n
  let sec := 1000000000 * 65536
  d.servo n (((t + sec / 2) / sec * sec : Int) - t) 1000000000

/-- An edge on capture input `j` (R55, R56): a selected one is stamped and queued, or counted as an overflow. A
rising edge that disciplines a time base is queued too, and feeds that base's servo. -/
def Dev.captureEdge (d : Dev) (j : Nat) (rising : Bool) : Dev :=
  let sel := d.nat .CAPTURE_EDGE j
  let users := (List.range 8).filter fun n => d.nat .TB_MODE n = 2 && d.nat .TB_SOURCE n % 2 = j
  let wanted := if rising then sel = 1 ∨ sel = 3 ∨ users ≠ [] else sel = 2 ∨ sel = 3
  let c := { d.capOf j with level := rising }
  let d := d.setCap j c
  let d := if wanted then
      let stamp := d.now (d.nat .CAPTURE_TIMEBASE j % 8)
      let seq := (c.seq + 1) % 65536
      if c.fifo.length < 16 then d.setCap j { c with seq := seq, fifo := c.fifo ++ [⟨stamp, seq, rising⟩] }
      else (d.setCap j { c with seq := seq }).bump .CAPTURE_OVERFLOWS j
    else d
  if rising then users.foldl Dev.tinSample d else d

/-- A read of CAPTURE_TIME (R56): the oldest capture, which it removes, or the one last read again. -/
def Dev.readCapture (d : Dev) (j : Nat) : Nat × Dev :=
  let c := d.capOf j
  match c.fifo with
  | [] => (c.last.time, d)
  | x :: r =>
    let d := d.setCap j { c with fifo := r, last := x }
    (x.time, d.setN .CAPTURE_INFO j (x.seq * 65536 + (if x.rising then 1 else 0)))

/-- Fixed PCS latency of a port mode in 2^-16 ns, receive or transmit (R50). -/
def pcsLatency (mode : Nat) (rx : Bool) : Nat :=
  let ns100 := match mode with
    | 1 => if rx then 9600 else 8064
    | 2 => if rx then 4736 else 3968
    | 3 => if rx then 22400 else 18176
    | _ => 0
  ns100 * 65536 / 100

/-- Picoseconds in 2^-16 ns, truncated toward zero (DESIGN CHOICE, log entry 120). -/
def psUnits (ps : Int) : Int := tdiv (ps * 65536) 1000

/-- The receive stamp of port `p` on time base `n`, at the connector (R50): the sample at the PCS, corrected for the delimiter's place
in the SerDes word and, with RS-FEC, in its codeword. -/
def Dev.rxStamp (d : Dev) (p n : Nat) (at_ : PcsPos) : Nat :=
  (((d.now n : Int) + at_.word - pcsLatency (d.nat .PORT_MODE p) true - (if d.nat .PORT_MODE p = 3 then at_.codeword else 0) -
    psUnits (d.int .PTP_ASYM_RX p)) % (2 : Int) ^ 80).toNat

/-- The transmit stamp of port `p` on time base `n`, at the connector (R50), of a frame whose delimiter passes the PCS now. -/
def Dev.txStamp (d : Dev) (p n : Nat) (word : Int) : Nat :=
  (((d.now n : Int) + word + pcsLatency (d.nat .PORT_MODE p) false + psUnits (d.int .PTP_ASYM_TX p)) % (2 : Int) ^ 80).toNat

/-- A packet enters system queue `q` of port `p`, or is dropped when 64 wait (R165). A pair's active port carries its egress, but
PTP stays on its own port (R49, R123). -/
def Dev.sysEnqueue (d : Dev) (p q : Nat) (x : NetOut) : Dev :=
  let p := if 2 ≤ q ∧ d.nat .PAIR_MODE (p / 2) ≠ 0 then d.nat .PAIR_ACTIVE (p / 2) else p
  let port := d.portOf p
  let l := tget [] q port.sys
  if l.length < 64 then d.setPort p { port with sys := tset q (l ++ [x]) port.sys } else d.bump .PORT_TX_DROPS p

/-- The clockIdentity: port 0's MAC address with 0xFFFE in its middle (R48). -/
def Dev.clockIdentity (d : Dev) : Nat :=
  let m := d.bytes .PORT_MAC 0
  Octets.toNat (m.take 3 ++ [0xFF, 0xFE] ++ m.drop 3)

/-- The identity of PTP port `p`: the device's clockIdentity and portNumber p + 1 (R48). -/
def Dev.ptpSelf (d : Dev) (p : Nat) : PtpId := ⟨d.clockIdentity, p + 1⟩

/-- The data set of the instance's own clock (R47, R48). -/
def Dev.ownData (d : Dev) (n : Nat) : PtpData :=
  { priority1 := d.nat .PTP_PRIORITY1 n, priority2 := d.nat .PTP_PRIORITY2 n, identity := d.clockIdentity
    sender := ⟨d.clockIdentity, 0⟩ }

/-- The order of two grandmasters' data sets: priority1, class, accuracy, variance, priority2, identity (R47). -/
def ptpRank (x : PtpData) : Nat :=
  ((((x.priority1 * 256 + x.clockClass) * 256 + x.accuracy) * 65536 + x.variance) * 256 + x.priority2) * 2 ^ 64 + x.identity

/-- Is data set `a`, heard on port `pa`, better than `b`, heard on `pb`, by the comparison of IEEE 1588-2019 clause 9 (R47)? Of one
grandmaster the nearer is better, then the lower sender, then the lower port that hears it. -/
def ptpBetter (a : PtpData) (pa : Nat) (b : PtpData) (pb : Nat) : Bool :=
  if a.identity = b.identity then
    let key := fun (x : PtpData) (p : Nat) => ((x.steps * 2 ^ 64 + x.sender.clock) * 65536 + x.sender.port) * 8 + p
    decide (key a pa < key b pb)
  else decide (ptpRank a < ptpRank b)

/-- Is a better data set `b` better than `a` by topology alone, for a clock of identity `own` (IEEE 1588-2019 clause 9)? Then the port
that hears `a` is PASSIVE. -/
def ptpByTopology (own : Nat) (b a : PtpData) : Bool :=
  decide (a.identity = b.identity) && (decide (a.steps = b.steps) || (decide (a.steps = b.steps + 1) && decide (a.sender.clock < own)))

/-- PTP port `p`. -/
def Dev.ptpOf (d : Dev) (p : Nat) : PtpPort := tget {} p d.ptp
/-- Sets PTP port `p`. -/
def Dev.setPtp (d : Dev) (p : Nat) (x : PtpPort) : Dev := { d with ptp := tput {} p x d.ptp }

/-- The ports assigned to instance `n` (R41). -/
def Dev.ptpPorts (d : Dev) (n : Nat) : List Nat :=
  (List.range 4).filter fun p => d.nat .PTP_ROLE p ≠ 0 && d.nat .PTP_INSTANCE p = n

/-- A port that has left INITIALIZING is taken out of PTP by PTP_ROLE 0: it is DISABLED (R48). -/
def Dev.ptpDisable (d : Dev) (p : Nat) : Dev :=
  if d.nat .PTP_PORT_STATE p = 1 then d else (d.setPtp p {}).setN .PTP_PORT_STATE p 3

/-- Has instance `n` a source (R44): samples that come, a SLAVE port, or a MASTER port, which makes it the grandmaster? -/
def Dev.ptpSourced (d : Dev) (n : Nat) : Bool :=
  (d.tbOf n).source || (d.ptpPorts n).any fun p => decide (d.nat .PTP_PORT_STATE p = 9 ∨ d.nat .PTP_PORT_STATE p = 6)

/-- The interval of 2^`l` s in ns. -/
def logInterval (l : Int) : Nat := if l < 0 then 1000000000 / 2 ^ l.natAbs else 1000000000 * 2 ^ l.toNat

/-- A foreign master is qualified by two Announces within four of the port's Announce intervals, and fewer than 255 steps away (R47). -/
def Dev.ptpQualified (d : Dev) (p : Nat) (f : Foreign) : Bool :=
  let window := logInterval (d.int .PTP_LOG_ANNOUNCE p) * 4 * 600 / 1000000000
  decide (f.data.steps < 255) && (match f.heard with
    | _ :: b :: _ => decide (d.stride ≤ b + window)
    | _ => false)

/-- The best qualified foreign master of port `p`: none on a master-only port, or with the link down. -/
def Dev.ptpErbest (d : Dev) (p : Nat) : Option PtpData :=
  if d.nat .PTP_ROLE p = 2 ∨ d.nat .PORT_LINK p ≠ 1 then none
  else (((d.ptpOf p).foreign.filter (d.ptpQualified p)).map (·.data)).foldl (fun best x =>
    match best with
    | none => some x
    | some y => if ptpBetter x p y p then some x else some y) none

/-- The state that the BMCA gives port `p`, with the best master of the instance and the port that hears it (R47; IEEE 1588-2019 clause
9). `expired` says that no master was heard for announceReceiptTimeout. A port that has heard none yet LISTENs; one that becomes MASTER
beside a SLAVE of the instance is first PRE_MASTER (5). A selected master is taken at once: UNCALIBRATED is not shown (DESIGN CHOICE,
log entry 121). -/
def Dev.ptpDecide (d : Dev) (n : Nat) (best : Option (Nat × PtpData)) (expired : Bool) (p : Nat) : Nat :=
  let cur := d.nat .PTP_PORT_STATE p
  let cur := if cur ≤ 3 then 4 else cur
  let role := d.nat .PTP_ROLE p
  let master := if role = 3 then 4 else 6
  if d.nat .PORT_LINK p ≠ 1 then 2
  else match best with
    | none => if cur = 4 ∧ !expired then 4 else master
    | some (bp, b) =>
      if ptpBetter (d.ownData n) 4 b bp then master
      else if bp = p then 9
      else if role = 3 then 4
      else match d.ptpErbest p with
        | some a => if ptpByTopology d.clockIdentity b a then 7 else if cur = 6 then 6 else 5
        | none => if cur = 6 then 6 else 5

/-- The BMCA over the ports of instance `n` (R47, R49): each port's state, the UTC offset of the selected grandmaster (R42), and HOLDOVER
when the instance had a source and now no port is SLAVE and it is not grandmaster (R44). `expired` is a port whose
announceReceiptTimeout has run out. -/
def Dev.bmca (d : Dev) (n : Nat) (expired : Option Nat := none) : Dev :=
  let ports := d.ptpPorts n
  let heard := ports.filterMap fun p => (d.ptpErbest p).map fun x => (p, x)
  let best := heard.foldl (fun (b : Option (Nat × PtpData)) x =>
    match b with
    | none => some x
    | some y => if ptpBetter x.2 x.1 y.2 y.1 then some x else some y) none
  let states := ports.map fun p => (p, d.ptpDecide n best (decide (expired = some p)) p)
  let had := d.ptpSourced n
  let d := states.foldl (fun d x =>
    let q := d.ptpOf x.1
    let new := decide (x.2 = 5) && decide (d.nat .PTP_PORT_STATE x.1 ≠ 5)
    let steps := (best.map (·.2.steps)).getD 0
    (d.setPtp x.1 { q with best := d.ptpErbest x.1, qualify := if new then steps + 2 else q.qualify }).setN .PTP_PORT_STATE x.1 x.2) d
  let slave := states.any fun x => x.2 = 9
  let master := !slave && states.any fun x => x.2 = 6
  let d := d.setTb n { d.tbOf n with utc := if slave then best.bind (·.2.utc) else none }
  if d.nat .TB_MODE n = 1 ∧ had ∧ !slave ∧ !master then d.holdoverEnter n else d

/-- The mean of two one-way differences in 2^-16 ns. -/
def meanDelay (a b : Int) : Int := tdiv (a + b) 2

/-- Is a message with header `h` for the instance of port `p` (R47), and not the device's own? -/
def Dev.ptpMine (d : Dev) (p : Nat) (h : PtpHdr) : Bool :=
  decide (d.nat .PTP_ROLE p ≠ 0) && decide (h.domain = d.nat .PTP_DOMAIN (d.nat .PTP_INSTANCE p)) &&
    decide (h.src.clock ≠ d.clockIdentity)

/-- Does a SLAVE port `p` take a message from `src`? Only from the master it has selected (R47). -/
def Dev.ptpParent (d : Dev) (p : Nat) (src : PtpId) : Bool :=
  decide (d.nat .PTP_PORT_STATE p = 9) && ((d.ptpOf p).best.map (·.sender)) == some src

/-- A sample of the servo of instance `n`, in PTP mode, from a Sync on port `p` (R43): the master's time `t1`, with its corrections and the path delay,
less the receive stamp `t2`. The interval is the port's own PTP_LOG_SYNC (DESIGN CHOICE, log entry 15). -/
def Dev.ptpSample (d : Dev) (n p t1 t2 : Nat) : Dev :=
  if d.nat .TB_MODE n = 1 then d.servo n (timeDiff t1 t2 + d.int .PTP_PATH_DELAY p) (logInterval (d.int .PTP_LOG_SYNC p)) else d

/-- A time and a correction. -/
def corrected (t : Nat) (c : Int) : Nat := (((t : Int) + c) % (timeMod : Int)).toNat

/-- An Announce is heard (R47): its sender is kept among the foreign masters, at most eight, and the BMCA evaluates. -/
def Dev.ptpAnnounce (d : Dev) (p : Nat) (src : PtpId) (data : PtpData) : Dev :=
  let x := d.ptpOf p
  let data := { data with sender := src }
  let mine := fun (f : Foreign) => decide (f.data.sender = src)
  let heard := ((x.foreign.find? mine).map (·.heard)).getD []
  let others := x.foreign.filter fun f => !mine f
  (d.setPtp p { x with foreign := (⟨data, (d.stride :: heard).take 2⟩ :: others).take 8 }).bmca (d.nat .PTP_INSTANCE p)

/-- The mean path delay from a Delay_Resp (R47), end to end. -/
def Dev.ptpDelay (d : Dev) (p seq received : Nat) (corr : Int) : Dev :=
  let x := d.ptpOf p
  match x.delayTx, x.t1, x.lastSync with
  | some t3, some t1, some t2 =>
    if seq = x.delaySeq then d.setI .PTP_PATH_DELAY p 0 (meanDelay (timeDiff t2 t1) (timeDiff received t3 - corr)) else d
  | _, _, _ => d

/-- The mean path delay from a Pdelay_Resp_Follow_Up (R47), peer to peer. -/
def Dev.ptpPeer (d : Dev) (p : Nat) (src : PtpId) (sent : Nat) (corr : Int) : Dev :=
  let x := d.ptpOf p
  match x.peerTx, x.peer with
  | some t1, some (who, (t2, t4)) =>
    if who = src then d.setI .PTP_PATH_DELAY p 0 (meanDelay (timeDiff t4 t1) (-(timeDiff sent t2) - x.peerCorr - corr)) else d
  | _, _ => d

/-- A PTP message of port `p` enters a system queue (R47, R165): event messages the first, general ones the second. -/
def Dev.ptpSend (d : Dev) (p : Nat) (type seq : Nat) (m : PtpTx := { type := type }) : Dev :=
  let n := d.nat .PTP_INSTANCE p
  d.sysEnqueue p (if type ≤ 3 then 0 else 1)
    (.ptp n (d.nat .PTP_TRANSPORT p)
      { m with type := type, hdr := { m.hdr with domain := d.nat .PTP_DOMAIN n, src := d.ptpSelf p, seq := seq } })

/-- A received PTP message (R47), with where its delimiter stood. -/
def Dev.ptpRx (d : Dev) (p : Nat) (m : PtpMsg) (pcs : PcsPos) : Dev :=
  let n := d.nat .PTP_INSTANCE p
  let x := d.ptpOf p
  let rx := d.rxStamp p n pcs
  match m with
  | .announce h data => if d.ptpMine p h then d.ptpAnnounce p h.src data else d
  | .sync h two origin =>
    if d.ptpMine p h && d.ptpParent p h.src then
      if two then d.setPtp p { x with syncSeq := h.seq, syncRx := some rx, syncCorr := h.correction }
      else
        let t1 := corrected origin h.correction
        (d.setPtp p { x with t1 := some t1, lastSync := some rx, syncRx := none }).ptpSample n p t1 rx
    else d
  | .followUp h origin =>
    if d.ptpMine p h && d.ptpParent p h.src && decide (h.seq = x.syncSeq) then
      match x.syncRx with
      | some t2 =>
        let t1 := corrected origin (x.syncCorr + h.correction)
        (d.setPtp p { x with t1 := some t1, lastSync := some t2, syncRx := none }).ptpSample n p t1 t2
      | none => d
    else d
  | .delayReq h =>
    if d.ptpMine p h && decide (d.nat .PTP_PORT_STATE p = 6) && decide (d.nat .PTP_DELAY_MECH p = 0)
    then d.ptpSend p 9 h.seq { type := 9, hdr := { correction := h.correction }, time := rx, dest := some h.src } else d
  | .delayResp h dest received =>
    if d.ptpMine p h && d.ptpParent p h.src && decide (dest = d.ptpSelf p) then d.ptpDelay p h.seq received h.correction else d
  | .pdelayReq h =>
    if d.ptpMine p h && decide (d.nat .PTP_DELAY_MECH p = 1)
    then d.ptpSend p 3 h.seq { type := 3, hdr := { correction := h.correction }, time := rx, dest := some h.src } else d
  | .pdelayResp h dest received =>
    if d.ptpMine p h && decide (dest = d.ptpSelf p) && decide (h.seq = x.peerSeq)
    then d.setPtp p { x with peer := some (h.src, (received, rx)), peerCorr := h.correction } else d
  | .pdelayRespFollowUp h dest sent =>
    if d.ptpMine p h && decide (dest = d.ptpSelf p) && decide (h.seq = x.peerSeq) then d.ptpPeer p h.src sent h.correction else d
  | .management => d.setPtp p { x with discarded := x.discarded + 1 }
  | .signaling => d.setPtp p { x with discarded := x.discarded + 1 }

/-- The data set that instance `n` announces (R47): its own, or where another port is SLAVE that of its grandmaster, one step on. -/
def Dev.ptpAnnounced (d : Dev) (n : Nat) : PtpData :=
  match (d.ptpPorts n).findSome? fun q => if d.nat .PTP_PORT_STATE q = 9 then (d.ptpOf q).best else none with
  | some b => { b with steps := b.steps + 1 }
  | none => { d.ownData n with utc := some (d.int .TB_UTC_OFFSET n) }

/-- A PTP interval runs out on port `p` and its message is sent (R47): Sync and Announce as master, Delay_Req as an end-to-end slave,
Pdelay_Req on a peer-to-peer port. A PRE_MASTER counts its Announce intervals instead. -/
def Dev.ptpDue (d : Dev) (p : Nat) (due : PtpDue) : Dev :=
  let n := d.nat .PTP_INSTANCE p
  let x := d.ptpOf p
  let seq := (x.txSeq + 1) % 65536
  let d' := d.setPtp p { x with txSeq := seq }
  let st := d.nat .PTP_PORT_STATE p
  if d.nat .PTP_ROLE p = 0 then d
  else match due with
    | .sync => if st = 6 then d'.ptpSend p 0 seq else d
    | .announce =>
      if st = 6 then d'.ptpSend p 11 seq { type := 11, data := some (d.ptpAnnounced n) }
      else if st = 5 then
        if x.qualify ≤ 1 then (d.setPtp p { x with qualify := 0 }).setN .PTP_PORT_STATE p 6
        else d.setPtp p { x with qualify := x.qualify - 1 }
      else d
    | .delayReq =>
      if st = 9 ∧ d.nat .PTP_DELAY_MECH p = 0 then (d'.setPtp p { d'.ptpOf p with delaySeq := seq, delayTx := none }).ptpSend p 1 seq else d
    | .pdelayReq =>
      if d.nat .PTP_DELAY_MECH p = 1 then (d'.setPtp p { d'.ptpOf p with peerSeq := seq, peerTx := none, peer := none }).ptpSend p 2 seq else d

/-- A PTP event message of port `p` passes the PCS at stamp `t` (R47, R50): a Sync's Follow_Up and a Pdelay_Resp's carry it, and a
request keeps it. -/
def Dev.ptpSent (d : Dev) (p : Nat) (m : PtpTx) (t : Nat) : Dev :=
  let x := d.ptpOf p
  match m.type with
  | 0 => d.ptpSend p 8 m.hdr.seq { type := 8, time := t }
  | 1 => if m.hdr.seq = x.delaySeq then d.setPtp p { x with delayTx := some t } else d
  | 2 => if m.hdr.seq = x.peerSeq then d.setPtp p { x with peerTx := some t } else d
  | 3 => d.ptpSend p 10 m.hdr.seq { type := 10, time := t, dest := m.dest }
  | _ => d

/-- announceReceiptTimeout runs out on port `p`: its masters are forgotten and the BMCA evaluates again (R47, R49). -/
def Dev.ptpTimeout (d : Dev) (p : Nat) : Dev :=
  if d.nat .PTP_ROLE p = 0 then d
  else (d.setPtp p { d.ptpOf p with best := none, foreign := [] }).bmca (d.nat .PTP_INSTANCE p) (some p)

end Sys2Proof.Machine
end

