-- ==== Sys2Proof/Machine/Line.lean ====
section
/-! DEFINITION. A leg's line: its queues and the port scheduler (R164 to R170), the line monitor and the loop
(R154 to R162) and the feedback the device sends (R163). -/

namespace Sys2Proof.Machine

/-- The traffic class profile of leg `n`. -/
def Dev.tc (d : Dev) (n : Nat) : Nat := d.nat .LEG_TC n % 32

/-- Is pair `q` in an active/standby mode (R123)? -/
def Dev.pairMode (d : Dev) (q : Nat) : Bool := decide (d.nat .PAIR_MODE q ≠ 0)

/-- The port that a set of enabled ports sends on (R164). -/
def Dev.portFor (d : Dev) (ports : Nat) : Option Nat :=
  match (List.range 4).find? (bit ports) with
  | none => none
  | some p =>
    match (List.range 2).find? fun q => d.pairMode q && bit ports (2 * q) && bit ports (2 * q + 1) with
    | some q => some (d.nat .PAIR_ACTIVE q)
    | none => some p

/-- The port that HDP's own datagrams leave by: R164's choice among the ports of MGMT_PORTS that are up, and among all
of them where none is (DESIGN CHOICE, log entry 45: chapter 4 says on which ports the device answers, not which one an
answer takes). -/
def Dev.mgmtPort (d : Dev) : Option Nat :=
  let ports := d.nat .MGMT_PORTS
  let live := ((List.range 4).filter fun p => bit ports p && decide (d.nat .PORT_LINK p = 1)).foldl (fun m p => m + 2 ^ p) 0
  d.portFor (if live = 0 then ports else live)

/-- The port that leg `n` sends on (R164). -/
def Dev.legPort (d : Dev) (n : Nat) : Option Nat :=
  let a := d.nat .LEG_LOCAL_ADDR n
  if a < 32 then d.portFor (d.nat .ADDR_PORTS a) else none

/-- Does the leg's address entry name a next hop (R127)? -/
def Dev.hasNexthop (d : Dev) (n : Nat) : Bool :=
  let a := d.nat .LEG_LOCAL_ADDR n
  decide (a < 32) && !(d.bytes .ADDR_NEXTHOP_MAC a).all (· == 0)

/-- The MTU of the leg's port. -/
def Dev.legMtu (d : Dev) (n : Nat) : Nat := d.nat .PORT_MTU ((d.legPort n).getD 0)

/-- The sampling rate code of L16 (R178). -/
def l16Rate (c : Nat) : Nat := [8000, 12000, 16000, 24000, 32000, 44100, 48000].getD c 48000

/-- The RTP clock of a codec word of R178: 8 kHz for G.711 and G.722, 48 kHz for Opus (RFC 3551, RFC 7587). -/
def codecClock (w : Nat) : Nat :=
  match bits w 3 0 with
  | 4 => 48000
  | 5 => l16Rate (bits w 10 8)
  | _ => 8000

/-- The SSRCs of media that leg `n` sends on: audio, composed encode, spliced view, forwarding slots. -/
def Dev.mediaSsrcs (d : Dev) (n : Nat) : List Nat :=
  let video := (tget {} (EncId.composed n) d.enc).ssrc :: (tget {} n d.view).ssrc ::
    ((List.range 16).map fun j => (tget {} (n, j) d.fwd).ssrc)
  ((d.txOf n).audioSsrc :: video).filter (· ≠ 0)

/-- The SSRCs leg `n` sends on: those of its media, and of the retransmissions and parity that repair them. -/
def Dev.sendSsrcs (d : Dev) (n : Nat) : List Nat := d.mediaSsrcs n ++ (d.txOf n).repair.map (·.2.1)

/-- The octets of a protection suite's tag on an RTP packet (R140). -/
def suiteTag (suite : Nat) : Nat := [0, 10, 4, 16, 16].getD suite 16

/-- The octets of a protection suite's tag on an RTCP packet (R140). -/
def suiteRtcpTag (suite : Nat) : Nat := if suite ≤ 2 then 10 else 16

/-- The octets of the IP and UDP headers toward leg `n`. -/
def Dev.ipHead (d : Dev) (n : Nat) : Nat := (if isMapped (d.bytes .LEG_REMOTE_IP n) then 20 else 40) + 8

/-- The IP length of an RTP packet of leg `n` with `len` bytes of payload. -/
def Dev.rtpLen (d : Dev) (n len : Nat) : Nat := d.ipHead n + 12 + len + suiteTag (d.nat .LEG_SUITE n)

/-- The SRTP index of sequence number `seq` against the highest index `high`, per RFC 3711 Appendix A: the rollover counter counts
modulo 2^32. -/
def srtpIndex (high seq : Nat) : Nat :=
  let sl := high % 65536
  let roc := high / 65536
  if sl < 32768 then
    if sl + 32768 < seq then (roc + 2 ^ 32 - 1) % 2 ^ 32 * 65536 + seq else roc * 65536 + seq
  else if seq + 32768 < sl then (roc + 1) % 2 ^ 32 * 65536 + seq else roc * 65536 + seq

/-- The SRTP index that the device sends sequence number `seq` of an SSRC with: its own stream never lies before rollover counter 0. -/
def Tx.sendIndex (x : Tx) (ssrc seq : Nat) : Nat :=
  let high := tget seq ssrc x.rtpIndex
  if high / 65536 = 0 ∧ high % 65536 < 32768 ∧ high % 65536 + 32768 < seq then seq else srtpIndex high seq

/-- A key event of R143: an ACTIVE or HELD leg goes to REKEY with a recovered record. -/
def Dev.keyEvent (d : Dev) (n ssrc : Nat) (receive srtcp : Bool) : Dev :=
  if d.legState n = .active ∨ d.legState n = .held then
    (d.enterRekey n).logRec
      { level := 3, cls := .recovered, unit := 0x5000, code := 0x0F02, leg := n
        detail := ssrc + (if receive then 2 ^ 32 else 0) + (if srtcp then 2 ^ 33 else 0) }
  else d

/-- The line cipher protects an RTP packet that falls due (R143, R455): false where it may not be sent. -/
def Dev.protectRtp (d : Dev) (n ssrc seq : Nat) : Bool × Dev :=
  if d.alarmed then (false, d.bump .ALARM_TX_DROPS)
  else if (d.keysOf n).tx.isNone then (false, d)
  else
    let x := d.txOf n
    let i := x.sendIndex ssrc seq
    if 2 ^ 48 - 2 ^ 16 ≤ i then (false, d.keyEvent n ssrc false false)
    else (true, d.setTx n { x with rtpIndex := tset ssrc (max i (tget seq ssrc x.rtpIndex)) x.rtpIndex })

/-- The line cipher protects an RTCP packet that falls due. -/
def Dev.protectRtcp (d : Dev) (n : Nat) : Bool × Dev :=
  if d.alarmed then (false, d.bump .ALARM_TX_DROPS)
  else if (d.keysOf n).tx.isNone then (false, d)
  else
    let x := d.txOf n
    if 2 ^ 31 - 2 ^ 16 ≤ x.rtcpIndex + 1 then (false, d.keyEvent n (tget 0 0 [(0, x.audioSsrc)]) false true)
    else (true, d.setTx n { x with rtcpIndex := x.rtcpIndex + 1 })

/-- How a protected packet of leg `n` leaves the line cipher (R140): under the session keys of its send key, with its index; SRTCP with
the E flag set. -/
def Dev.sealOf (d : Dev) (n : Nat) (srtcp : Bool) (index : Nat) : Seal :=
  { keys := srtpKeys (d.nat .LEG_SUITE n) ((d.keysOf n).tx.getD []) srtcp, index := index }

/-- The octets waiting in a video queue. -/
def queueBytes (q : List QPkt) : Nat := q.foldl (fun a x => a + x.pkt.len) 0

/-- The pool buffer of a packet that the device itself builds for leg `n` (R364): audio and control are protected uses. RTCP, STUN
answers and PUNT_TX count as control packets. -/
def Dev.sendBuffer (d : Dev) (n : Nat) (k : LegQueue) (len : Nat) : Option Nat × Dev :=
  let u : PoolUse := match k with
    | .control => .txAudio
    | .audio => .txAudio
    | _ => .txVideo
  let r := d.allocKept u 1 len (some (d.nat .LEG_CONFERENCE n))
  (r.1.head?, r.2)

/-- The octets of one part of an RTCP packet (RFC 3550, RFC 4585, RFC 5104, RFC 8888; log entry 123). -/
def RtcpTx.size : RtcpTx → Nat
  | .sr _ _ _ _ _ b => 28 + 24 * b.length
  | .rr _ b => 8 + 24 * b.length
  | .nack _ l => 12 + 4 * l.length
  | .tmmbn _ _ => 20
  | .pli _ => 12
  | .fir _ _ => 20
  | .rfc8888 _ l => 12 + 8 * (l.map (·.1)).eraseDups.length + 2 * (l.length + l.length % 2)
  | .transportWide _ _ _ l => 20 + 4 * l.length

/-- The IP length of what a queue holds for leg `n`: STUN and RTCP by their own formats, SRTCP with its index and tag (R140). -/
def Dev.ipLenOf (d : Dev) (n : Nat) (q : QPkt) : Nat :=
  match q.raw with
  | some b => b.length + d.ipHead n
  | none =>
    if q.rtcp ≠ [] then d.ipHead n + q.rtcp.foldl (fun a x => a + x.size) 0 + 4 + suiteRtcpTag (d.nat .LEG_SUITE n)
    else if q.stun.isSome then d.ipHead n + 92 else q.pkt.len

/-- Do leg `n`'s media bar the RTP that is no audio: HELD, REKEY, draining and FAILED send none (R107, R108, R109, R174)? -/
def Dev.sendBarred (d : Dev) (n : Nat) : Bool := decide (3 ≤ (d.lifeOf n).media)

/-- A packet of leg `n` gets its pool buffer, unless it holds one or there is none: then it is not queued (log entry 124). -/
def Dev.enqueueWith (d : Dev) (n : Nat) (k : LegQueue) (q : QPkt) (f : Tx → QPkt → Tx) : Dev :=
  match q.buf with
  | some _ => d.setTx n (f (d.txOf n) q)
  | none =>
    let r := d.sendBuffer n k (d.ipLenOf n q)
    match r.1 with
    | some h => r.2.setTx n (f (r.2.txOf n) { q with buf := some h })
    | none => r.2

/-- A packet enters a queue of leg `n` (R127, R164). A full audio queue loses its oldest packet; a lowered limit costs no other (R173).
A video packet that finds no room takes the rest of its frame with it. A draining leg still takes the audio that it ramps out (R109;
log entry 25). -/
def Dev.enqueue (d : Dev) (n : Nat) (k : LegQueue) (q : QPkt) : Dev :=
  let q := { q with stride := d.stride, pkt := { q.pkt with leg := n } }
  let x := d.txOf n
  let t := d.tc n
  if !d.hasNexthop n then d.bump .TX_NO_NEXTHOP n
  else match k with
    | .control =>
      if x.control.length < d.nat .TC_CONTROL_LIMIT t then
        d.enqueueWith n k q fun x q => { x with control := x.control ++ [q] }
      else d.bump .TX_DROP_FULL n
    | .audio =>
      let full := decide (d.nat .TC_AUDIO_LIMIT t ≤ x.audio.length)
      let d := if full then (d.setTx n { x with audio := x.audio.drop 1 }).bump .TX_DROP_FULL n else d
      d.enqueueWith n k q fun x q => { x with audio := x.audio ++ [q] }
    | .retransmission =>
      if d.sendBarred n then d
      else if x.retransmission.length < 64 then
        d.enqueueWith n k q fun x q => { x with retransmission := x.retransmission ++ [q] }
      else d.bump .TX_DROP_FULL n
    | .video =>
      let frame := q.pkt.ts
      if d.sendBarred n then d
      else if tfind q.pkt.ssrc x.dropFull = some frame then d.bump .TX_DROP_FULL n
      else if tfind q.pkt.ssrc x.dropAge = some frame then d.bump .TX_DROP_AGE n
      else if queueBytes x.video + q.pkt.len ≤ d.nat .TC_VIDEO_LIMIT t then
        d.enqueueWith n k q fun x q => { x with video := x.video ++ [q] }
      else (d.setTx n { x with dropFull := tset q.pkt.ssrc frame x.dropFull }).bump .TX_DROP_FULL n

/-- The lead of a compound RTCP packet of leg `n` with these RR blocks (R163): an SR for each of these SSRCs, or an RR where there is
none. -/
def Dev.rtcpLead (d : Dev) (n : Nat) (srs : List RtcpTx) : List RtcpTx :=
  if srs = [] then [.rr (d.txOf n).audioSsrc []] else srs

/-- An RTCP packet for leg `n` enters its control queue, led by an RR (R163). -/
def Dev.sendRtcp (d : Dev) (n : Nat) (parts : List RtcpTx) : Dev := d.enqueue n .control { rtcp := d.rtcpLead n [] ++ parts }

/-- Does leg `n` send FlexFEC (R162)? -/
def Dev.fecOn (d : Dev) (n : Nat) : Bool := decide (d.nat .VTX_FEC_PT n ≤ 127) && decide (d.nat .LEG_FEC_MODE n ≠ 0)

/-- The FEC group size of leg `n`: LEG_FEC_K in mode 2, and in mode 1 the size last evaluated (R162). -/
def Dev.fecSize (d : Dev) (n : Nat) : Nat :=
  if !d.fecOn n then 0 else if d.nat .LEG_FEC_MODE n = 2 then d.nat .LEG_FEC_K n else (d.txOf n).fecK

/-- The stream of leg `n` that repairs a media SSRC by retransmission or by parity: its SSRC and its next sequence number, both drawn at
random when the stream begins (R151, R162; log entry 125). -/
def Dev.repairOf (d : Dev) (n ssrc : Nat) (parity : Bool) : (Nat × Nat) × Dev :=
  let x := d.txOf n
  match tfind (ssrc, parity) x.repair with
  | some r => (r, d.setTx n { x with repair := tset (ssrc, parity) (r.1, (r.2 + 1) % 65536) x.repair })
  | none =>
    let a := d.draw
    let b := a.2.draw
    let r := (a.1 % (2 ^ 32 - 1) + 1, b.1 % 65536)
    (r, b.2.setTx n { x with repair := tset (ssrc, parity) (r.1, (r.2 + 1) % 65536) x.repair })

/-- Exclusive or of two strings, the shorter one continued with zeros. -/
def xorPadded : Octets → Octets → Octets
  | a :: x, b :: y => (a ^^^ b) :: xorPadded x y
  | [], y => y
  | x, [] => x

/-- A packet enters a FEC group (R162). -/
def FecGroup.add (g : FecGroup) (p : TxPkt) : FecGroup :=
  let c := g.parity
  { g with
    count := g.count + 1, most := max g.most p.len
    parity := {
      ssrc := p.ssrc, seqs := c.seqs ++ [p.seq], ts := c.ts ^^^ p.ts, len := c.len ^^^ p.len, pt := c.pt ^^^ p.pt
      marker := c.marker ^^ p.marker, payload := xorPadded c.payload p.payload } }

/-- What a parity packet has beyond the longest packet it covers: the CSRC that names the protected SSRC and the FlexFEC header with a mask of
15, 46 or 110 bits (RFC 8627; log entry 125). -/
def fecHead (k : Nat) : Nat := 4 + if k ≤ 15 then 12 else if k ≤ 46 then 16 else 24

/-- A video packet of the leg enters its video queue with the parity of its group (R162); a new group size takes
effect for each stream at its next frame boundary. -/
def Dev.sendVideo (d : Dev) (n : Nat) (p : TxPkt) (first : Bool) (buf : Option Nat := none) : Dev :=
  let k := d.fecSize n
  let d := d.enqueue n .video { pkt := p, buf := buf }
  let x := d.txOf n
  let g := tget {} p.ssrc x.fecGroup
  let g : FecGroup := if first && decide (g.k ≠ k) then { k := k } else g
  if g.k = 0 then d.setTx n { x with fecGroup := tdel p.ssrc x.fecGroup }
  else
    let g := g.add p
    if g.count < g.k then d.setTx n { x with fecGroup := tset p.ssrc g x.fecGroup }
    else
      let d := d.setTx n { x with fecGroup := tset p.ssrc { k := g.k } x.fecGroup }
      let r := d.repairOf n p.ssrc true
      r.2.enqueue n .video { pkt := {
        ssrc := r.1.1, seq := r.1.2, ts := p.ts, pt := d.nat .VTX_FEC_PT n, len := g.most + fecHead g.k, fec := some g.parity } }

/-- The FEC group size that LINE_LOSS calls for (R162). -/
def fecFromLoss (loss : Nat) : Nat :=
  let pm := loss * 1000
  if pm < 5 * 65536 then 0 else if pm < 20 * 65536 then 16 else if pm < 50 * 65536 then 8
  else if pm < 100 * 65536 then 4 else 2

/-- The FEC group size of leg `n` is re-evaluated (R162). -/
def Dev.fecEvaluate (d : Dev) (n : Nat) : Dev :=
  let d := d.setTx n { d.txOf n with fecK := fecFromLoss (d.nat .LINE_LOSS n) }
  d.setN .LINE_FEC_K n (d.fecSize n)

/-- Sums the amounts of the last `w` strides. -/
def windowSum (now w : Nat) (l : List (Nat × Nat)) : Nat :=
  l.foldl (fun a x => if now < x.1 + w then a + x.2 else a) 0

/-- Adds an amount to a window of `w` strides. -/
def windowAdd (now w amount : Nat) (l : List (Nat × Nat)) : List (Nat × Nat) :=
  (l.filter fun x => decide (now < x.1 + w)) ++ [(now, amount)]

/-- The video budget v of leg `n` in bit/s (R161). -/
def Dev.videoBudget (d : Dev) (n : Nat) : Nat :=
  let t := (d.txOf n).target
  let k := d.fecSize n
  let v := if k = 0 then t else t * k / (k + 1)
  v - windowSum d.stride 60 (d.loopOf n).resent * 8 * 10

/-- The video queue without the frames whose first packet is over age at the head (R164): the frames dropped, and what stays. -/
def ageVideo (old : QPkt → Bool) : Nat → List QPkt → List (Nat × Nat) → List (Nat × Nat) × List QPkt
  | 0, q, gone => (gone, q)
  | _ + 1, [], gone => (gone, [])
  | f + 1, x :: r, gone =>
    if old x then
      ageVideo old f (r.filter fun y => decide (¬(y.pkt.ssrc = x.pkt.ssrc ∧ y.pkt.ts = x.pkt.ts))) (gone ++ [(x.pkt.ssrc, x.pkt.ts)])
    else (gone, x :: r)

/-- Drops packets at the heads of the leg's queues that are over age (R164): a video packet takes the rest of its frame with it, what is
still to come included. A head whose buffer was lost with its channel is dropped and counted in the same way, and so is one of `unread` (R344). -/
def Dev.ageOut (unread : List Nat) (d : Dev) (n : Nat) : Dev :=
  let x := d.txOf n
  let t := d.tc n
  let old := fun (limit : Nat) (q : QPkt) => decide (q.stride + limit < d.stride)
  let lost := fun (q : QPkt) => d.contentLost q.buf || match q.buf with
    | some h => unread.contains h
    | none => false
  let control := x.control.dropWhile lost
  let audio := x.audio.dropWhile fun q => old (d.nat .TC_AUDIO_AGE t) q || lost q
  let rtx := x.retransmission.dropWhile fun q => old (d.nat .LEG_RTX_HISTORY n) q || lost q
  let aged := ageVideo (old (d.nat .TC_VIDEO_AGE t)) x.video.length x.video []
  let video := (aged.1, aged.2.dropWhile lost)
  let gone := x.control.length + x.audio.length + x.retransmission.length + x.video.length - control.length - audio.length -
    rtx.length - video.2.length
  if gone = 0 then d
  else
    let frames := video.1.foldl (fun l f => tset f.1 f.2 l) x.dropAge
    (d.setTx n { x with
      control := control, audio := audio, retransmission := rtx, video := video.2, dropAge := frames }).add .TX_DROP_AGE n 0 gone

/-- Discards the leg's audio, retransmission and video queues (R174). -/
def Dev.discardQueues (d : Dev) (n : Nat) : Dev :=
  d.setTx n { d.txOf n with audio := [], retransmission := [], video := [], dropFull := [], dropAge := [] }

/-- Counts a frame of `len` bytes sent on port `p`. -/
def Dev.countFrame (d : Dev) (p len : Nat) : Dev := (d.bump .PORT_TX_FRAMES p).add .PORT_TX_BYTES p 0 (max 64 len)

/-- The octets of a PTP message's body (IEEE 1588-2019): Announce, the delay answers, the peer messages and the rest. -/
def ptpLen (type : Nat) : Nat := if type = 11 then 64 else if type = 0 ∨ type = 1 ∨ type = 8 then 44 else 54

/-- Frame length of what a system queue holds, FCS included. -/
def sysLen : NetOut → Nat
  | .arpReply _ _ => 64
  | .naReply _ _ => 90
  | .ptp _ transport m => 18 + ptpLen m.type + (if transport = 0 then 28 else if transport = 1 then 48 else 0)
  | .hdp dest _ _ _ _ _ b => b.length + 36 + 18 + 8 + (if isMapped dest.ip then 20 else 40)
  | _ => 64

/-- Sends a system packet. A PTP event message is stamped as it passes the PCS (R50). -/
def Dev.sendSystem (d : Dev) (p : Nat) (x : NetOut) (word : Int) : Dev :=
  let m : Marks := match x with
    | .hdp .. => { dscp := some (d.nat .MGMT_DSCP), vlan := d.nat .MGMT_VLAN }
    | .arpReply v _ => { vlan := v }
    | .naReply v _ => { vlan := v }
    | _ => {}
  let d := (d.emit (.net p m x)).countFrame p (sysLen x)
  match x with
  | .ptp i _ y => if y.type ≤ 3 then d.ptpSent p y (d.txStamp p i word) else d
  | _ => d

/-- The parts of the send side that an RTP packet sent from queue `k` leaves behind (R151, R154, R163): its record, its transport-wide
number, its counts and the copy kept for retransmission. -/
def Dev.noteSent (d : Dev) (n : Nat) (k : LegQueue) (q : QPkt) (stamp : Nat) : Dev :=
  let x := d.txOf n
  let now := d.stride
  let p := q.pkt
  let c := tget (0, 0) p.ssrc x.counts
  let rec_ : SendRec := { ssrc := p.ssrc, seq := p.seq, twcc := p.twcc, len := p.len, stamp := stamp, stride := now }
  d.setTx n { x with
    records := (x.records ++ [rec_]).drop (x.records.length + 1 - 2048)
    twcc := if p.twcc.isSome then (x.twcc + 1) % 65536 else x.twcc
    counts := tset p.ssrc ((c.1 + 1) % 2 ^ 32, (c.2 + (p.len - d.rtpLen n 0)) % 2 ^ 32) x.counts
    history := if k = .retransmission then x.history
      else (x.history.filter fun s => decide (now ≤ s.stride + d.nat .LEG_RTX_HISTORY n)) ++ [{ pkt := p, stride := now, buf := q.buf }] }

/-- Sends a packet of leg `n` from queue `k` on port `p`: protection, DSCP, counters, what it leaves behind, and the windows of R155 and
R161. Audio was protected when it fell due. -/
def Dev.sendPkt (d : Dev) (p n : Nat) (k : LegQueue) (q : QPkt) (word : Int) : Dev :=
  let isRtp := q.rtcp = [] ∧ q.raw.isNone ∧ q.stun.isNone
  let q := if isRtp ∧ d.nat .LEG_TWCC_EXT_ID n ≠ 0 then { q with pkt := { q.pkt with twcc := some (d.txOf n).twcc } } else q
  let r := if isRtp then (if k = .audio then (true, d) else d.protectRtp n q.pkt.ssrc q.pkt.seq)
    else if q.rtcp ≠ [] then d.protectRtcp n else (true, d)
  let d := r.2
  if !r.1 then d else
    let t := d.tc n
    let len := d.ipLenOf n q
    let dscp := match k with
      | .control => d.nat .TC_DSCP_CONTROL t
      | .audio => d.nat .TC_DSCP_AUDIO t
      | _ => d.nat .TC_DSCP_VIDEO t
    let out := match q.stun, q.raw with
      | some m, _ => NetOut.stun n m
      | none, some b => .raw n b
      | none, none =>
        if q.rtcp ≠ [] then .rtcp n q.rtcp (d.sealOf n true (d.txOf n).rtcpIndex)
        else .rtp q.pkt (d.sealOf n false ((d.txOf n).sendIndex q.pkt.ssrc q.pkt.seq))
    let vlan := d.nat .ADDR_VLAN (d.nat .LEG_LOCAL_ADDR n)
    let pcp := match k with
      | .control => d.nat .TC_PCP_AUDIO t
      | .audio => d.nat .TC_PCP_AUDIO t
      | _ => d.nat .TC_PCP_VIDEO t
    let marks : Marks := { dscp := some dscp, vlan := vlan, pcp := if vlan = 0 then none else some pcp }
    let d := (d.emit (.net p marks out)).countFrame p (len + 18 + (if vlan = 0 then 0 else 4))
    let d := (d.bump .TX_PACKETS n).add .TX_BYTES n 0 len
    let l := d.loopOf n
    let now := d.stride
    let l := { l with sentBytes := windowAdd now 30 len l.sentBytes }
    let l := match k with
      | .control => { l with unpaced := windowAdd now 60 len l.unpaced }
      | .audio => { l with unpaced := windowAdd now 60 len l.unpaced }
      | .retransmission => { l with resent := windowAdd now 60 len l.resent }
      | .video => l
    let d := d.setLoop n l
    let d := if k = .retransmission then d.bump .RTX_SENT n else d
    if isRtp then d.noteSent n k q (d.txStamp p d.stb word) else d

/-- The spacing that a packet of `len` bytes leaves behind it, in packet-engine cycles (R169). -/
def spacing (len gain target : Nat) : Nat :=
  if gain = 0 ∨ target = 0 then 0 else len * 8 * 781250000 * 16 / (gain * target)

/-- The head of a leg's weighted queues, and the queue it stands in (R167). -/
def Tx.head (x : Tx) : Option (LegQueue × QPkt) :=
  match x.retransmission, x.video with
  | q :: _, _ => some (.retransmission, q)
  | [], q :: _ => some (.video, q)
  | [], [] => none

/-- The eligible head of leg `n`: released by R29 and past its spacing time (R167, R169). -/
def Dev.eligible (d : Dev) (n : Nat) : Option (LegQueue × QPkt) :=
  let x := d.txOf n
  match x.head with
  | none => none
  | some (k, q) =>
    if decide (0 < x.target) && decide (0 < x.credit) && decide ((q.pkt.len : Int) ≤ x.credit + d.legMtu n) &&
        decide (x.eligible ≤ d.gen.total) then some (k, q) else none

/-- Sends the head of leg `n` from a weighted queue: deficit, credit and spacing (R29, R167, R169). -/
def Dev.sendWeighted (d : Dev) (p n : Nat) (k : LegQueue) (q : QPkt) (word : Int) : Dev :=
  let x := d.txOf n
  let x := match k with
    | .retransmission => { x with retransmission := x.retransmission.drop 1 }
    | _ => { x with video := x.video.drop 1 }
  let empty := x.head.isNone
  let x := { x with
    credit := x.credit - q.pkt.len
    deficit := if empty then 0 else x.deficit - q.pkt.len
    eligible := d.gen.total + spacing q.pkt.len (d.nat .LEG_PACE_GAIN n) x.target }
  ((d.setTx n x).setI .LINE_CREDIT n 0 x.credit).sendPkt p n k q word

/-- The legs in rotation order from `from_` on. -/
def rotate (from_ : Nat) (ls : List Nat) : List Nat := ls.filter (from_ ≤ ·) ++ ls.filter (· < from_)

/-- Deficit round robin over a weighted group from leg `cur` on (R167): the leg whose head goes, with the deficits
raised on the way; `fresh` says that the visit to the first leg is a new one. -/
def Dev.drr (d : Dev) (ls : List Nat) (fresh : Bool) : Nat → List Nat → Option (Nat × Dev)
  | 0, _ => none
  | fuel + 1, [] => if ls = [] then none else d.drr ls true fuel ls
  | fuel + 1, n :: r =>
    match d.eligible n with
    | none => d.drr ls true fuel r
    | some (_, q) =>
      let x := d.txOf n
      let quantum := d.nat .TC_WEIGHT (d.tc n) * 256
      let deficit := if fresh then min (x.deficit + quantum) (quantum + d.legMtu n) else x.deficit
      let d := d.setTx n { x with deficit := deficit }
      if q.pkt.len ≤ deficit then some (n, d) else d.drr ls true fuel r

/-- One round robin visit of a strict class: the first leg from `from_` on with a packet waiting. -/
def Dev.firstWaiting (d : Dev) (ls : List Nat) (from_ : Nat) (q : Tx → List QPkt) : Option (Nat × QPkt) :=
  (rotate from_ ls).findSome? fun n => ((q (d.txOf n)).head?).map fun x => (n, x)

/-- Sets the place of port `p` in a weighted group, and whether the visit there is still open. -/
def Port.place (x : Port) (low : Bool) (leg : Nat) (visit : Bool) : Port :=
  if low then { x with rrLow := leg, visitLow := visit } else { x with rrNormal := leg, visitNormal := visit }

/-- Port `p` looks for a packet in a weighted group (R167): true where one was sent. An open visit goes on with its leg; it ends when the head is
not released, does not fit the deficit, or both queues are empty, and the next choice begins behind that leg. -/
def Dev.sendGroup (d : Dev) (p : Nat) (low : Bool) (legs : List Nat) (word : Int) : Bool × Dev :=
  let port := d.portOf p
  let cur := if low then port.rrLow else port.rrNormal
  let going := if low then port.visitLow else port.visitNormal
  let ls := rotate cur (legs.filter fun n => decide (d.nat .TC_GROUP (d.tc n) = if low then 1 else 0))
  match d.drr ls (!(going && decide (ls.head? = some cur))) (100 * (ls.length + 1)) ls with
  | none => (false, if going then d.setPort p (port.place low (cur + 1) false) else d)
  | some (n, e) =>
    match e.eligible n with
    | none => (false, e)
    | some (k, q) =>
      let e := e.sendWeighted p n k q word
      let more := (e.txOf n).head.isSome
      (true, e.setPort p ((e.portOf p).place low (if more then n else n + 1) more))

/-- Port `p` begins a frame: the choice of R166. `word` is where its delimiter will stand in the SerDes word (R50). -/
def Dev.selectFrame (d : Dev) (turn : PortTurn) : Dev :=
  let p := turn.port
  let word := turn.word
  let legs := d.legs.filter fun n => d.legPort n = some p
  let idle := decide (d.nat .PORT_LINK p ≠ 1) || (d.bytes .PORT_MAC p).all (· == 0)
  let unread := if idle then [] else turn.unread.filter d.readsSingle
  let d := legs.foldl (Dev.ageOut unread) (d.linesLost unread)
  let port := d.portOf p
  if idle then d else
    match (List.range 8).findSome? fun q => ((tget [] q port.sys).head?).map fun x => (q, x) with
    | some (q, x) => (d.setPort p { port with sys := tset q ((tget [] q port.sys).drop 1) port.sys }).sendSystem p x word
    | none =>
      match d.firstWaiting legs port.rrControl (·.control) with
      | some (n, q) =>
        let d := d.setTx n { d.txOf n with control := (d.txOf n).control.drop 1 }
        (d.setPort p { port with rrControl := n + 1 }).sendPkt p n .control q word
      | none =>
        match d.firstWaiting legs port.rrAudio (·.audio) with
        | some (n, q) =>
          let d := d.setTx n { d.txOf n with audio := (d.txOf n).audio.drop 1 }
          (d.setPort p { port with rrAudio := n + 1 }).sendPkt p n .audio q word
        | none =>
          let r := d.sendGroup p false legs word
          if r.1 then r.2 else (r.2.sendGroup p true legs word).2

/-- A leg moves to the other weighted group (R173): its deficit becomes 0; a new quantum cuts it. -/
def Dev.reweigh (d : Dev) (n : Nat) (moved : Bool) : Dev :=
  let x := d.txOf n
  let quantum := d.nat .TC_WEIGHT (d.tc n) * 256
  d.setTx n { x with deficit := if moved then 0 else min x.deficit (quantum + d.legMtu n) }

/-- Step 6 of an edge for leg `n`: the new target is installed and the credit refreshed (R158, R168). A leg whose media
are not ACTIVE keeps its target (R160). -/
def Dev.creditEdge (d : Dev) (n : Nat) : Dev :=
  let l := d.lifeOf n
  let lp := d.loopOf n
  let x := d.txOf n
  let active := decide (l.media = 2) && !l.suspended
  let d := if active && lp.pending.isNone && d.reserved n then d.bump .LINE_LOOP_MISSES else d
  let t := match active, lp.pending with
    | true, some t => t
    | _, _ => x.target
  let s := d.nat .STRIDE_IN_LAP
  let allow : Int := ((s + 1) * t / 4800 - s * t / 4800 : Nat)
  let ceiling : Int := (d.nat .LEG_CREDIT_STRIDES n * t / 4800 : Nat)
  let a := if t = 0 then x.credit
    else
      let a := min x.credit ceiling
      min (a + allow) ceiling
  let d := (d.setLoop n { lp with pending := none, ran := false }).setTx n { x with target := t, credit := a }
  ((d.setN .LINE_TARGET n (t / 1000)).setI .LINE_CREDIT n 0 a).setN .LINE_FEC_K n (d.fecSize n)

/-- One completed send group through R156, from the send and the arrival time of its packet in ns. -/
def Loop.gradientStep (l : Loop) (window thr : Nat) (snd arr : Int) : Loop :=
  match l.prev with
  | none => { l with prev := some (snd, arr), sms := [l.sm] }
  | some (s0, a0) =>
    let acc := l.acc + ((arr - a0) - (snd - s0))
    let sm := l.sm + asr (acc - l.sm) 4
    let sms := (l.sms ++ [sm]).drop (l.sms.length + 1 - (window + 1))
    let l := { l with prev := some (snd, arr), acc := acc, sm := sm, sms := sms }
    if sms.length ≤ window then { l with state := .normal, overCount := 0 }
    else
      let grad := tdiv (sm - sms.headD sm) 1000
      let many := if (thr : Int) < grad then l.overCount + 1 else 0
      { l with overCount := many, state := if 3 ≤ many then .overuse else if grad < -(thr : Int) then .underuse else .normal }

/-- The gradient g that R156 last computed, in µs. -/
def Loop.gradient (l : Loop) (window : Nat) : Int :=
  if l.sms.length ≤ window then 0 else tdiv (l.sm - l.sms.headD l.sm) 1000

/-- The arrival that feedback reports for a record, none where it reports the packet lost or does not name it. -/
def SendRec.arrival (r : SendRec) : Option Int := r.report.bind (·.2)

/-- A send group completes (R155, R156): the bytes reported received count, and the last packet, or the last one received, gives its times; a
group with no packet received is skipped. -/
def Loop.complete (l : Loop) (now window thr : Nat) (members : List SendRec) : Loop :=
  let got := members.filter fun r => r.arrival.isSome
  let l := { l with acked := windowAdd now 30 (got.foldl (fun a r => a + r.len) 0) l.acked }
  match got.getLast? with
  | some r => l.gradientStep window thr ((r.stamp / 65536 : Nat) : Int) (r.arrival.getD 0)
  | none => l

/-- The send groups that have become complete since the last that completed, in send order (R156): the strides whose last packet feedback has
named. The stride in hand is no group yet. -/
def newGroups (records : List SendRec) (done : Option Nat) (now : Nat) : List (Nat × List SendRec) :=
  let after := fun (g : Nat) => decide (g < now) && match done with
    | some l => decide (l < g)
    | none => true
  (((records.map (·.stride)).eraseDups.filter after).map fun g => (g, records.filter fun r => decide (r.stride = g))).filter
    fun x => match x.2.getLast? with
      | some r => r.report.isSome
      | none => false

/-- A report names a packet (R154, R155): its record takes the stride and the arrival; once received it stays so. -/
def noteReport (now : Nat) (records : List SendRec) (x : (Nat × Nat) × Option Int) : List SendRec :=
  records.map fun r => if r.ssrc = x.1.1 ∧ r.seq = x.1.2 then { r with report := some (now, r.arrival.orElse fun _ => x.2) } else r

/-- A loop item takes one report (R154 to R156). -/
def Dev.takeReport (d : Dev) (n : Nat) (packets : List ((Nat × Nat) × Option Int)) : Dev :=
  let now := d.stride
  let x := d.txOf n
  let t := d.tc n
  let records := packets.foldl (noteReport now) x.records
  let l := d.loopOf n
  let groups := newGroups records l.group now
  let l := groups.foldl (fun l g =>
    { l.complete now (d.nat .TC_GRAD_WINDOW t) (d.nat .TC_GRAD_THRESHOLD t) g.2 with group := some g.1 }) { l with sinceFb := 0 }
  (d.setTx n { x with records := records }).setLoop n l

/-- A loop item takes one piece of feedback (R155, R158). An RR is feedback by itself in LEG_FB_MODE 0 alone. -/
def Dev.takeFeedback (d : Dev) (n : Nat) : Feedback → Dev
  | .rr loss rtt =>
    let l := d.loopOf n
    d.setLoop n { l with useLoss := loss, useRtt := rtt, sinceFb := if d.nat .LEG_FB_MODE n = 0 then 0 else l.sinceFb }
  | .report packets => d.takeReport n packets

/-- Loss as UQ0.16 (R155): of the records that feedback named in the last 60 strides, or of the latest RR. -/
def Loop.loss (l : Loop) (records : List SendRec) (now mode : Nat) : Nat :=
  if mode = 0 then l.useLoss
  else
    let named := records.filter fun r => match r.report with
      | some x => decide (now < x.1 + 60)
      | none => false
    let got := named.filter fun r => r.arrival.isSome
    if named = [] then 0 else min 65535 ((named.length - got.length) * 65536 / named.length)

/-- Acked rate r in bit/s, and whether it counts as measured (R155, R159). -/
def Loop.rate (l : Loop) (now mode : Nat) : Nat × Bool :=
  if mode = 0 then (windowSum now 30 l.sentBytes * (65536 - l.useLoss) / 65536 * 8 * 20, false)
  else (windowSum now 30 l.acked * 8 * 20, l.acked.any fun x => decide (now < x.1 + 30))

/-- The lowest bound of the TMMBR requests in force and of the TMMBN heard (R152, R159); none without any. -/
def Loop.bound (l : Loop) : Option Nat := minBy? id (l.tmmbr.map (·.2))

/-- Parameters of the loop (R159). -/
structure LoopPar where
  mode : Nat
  minRate : Nat
  maxRate : Nat
  beta : Nat
  incMult : Nat
  incAdd : Nat
  lossHigh : Nat
  lossLow : Nat
  timeout : Nat
deriving DecidableEq, Repr

/-- The estimate of R159. -/
def Loop.estimate (l : Loop) (p : LoopPar) (loss r : Nat) (measured : Bool) : Loop :=
  let clampE := fun (l : Loop) =>
    { l with e := (l.tmmbr.map (·.2)).foldl min (min (max l.e p.minRate) p.maxRate) }
  if p.mode = 0 then clampE { l with e := p.maxRate }
  else if p.timeout ≤ l.sinceFb then
    clampE { l with
      e := if l.sinceFb % p.timeout = 0 then max p.minRate (l.e / 2) else l.e, state := .noFeedback }
  else
    let l := if l.state = .noFeedback then { l with state := .normal } else l
    let cut := p.mode = 1 ∧ l.state = .overuse ∧ max 6 ((l.useRtt * 600 + 65535) / 65536) ≤ l.sinceCut
    let up := (p.mode = 2 ∨ l.state = .normal) ∧ ¬cut
    let l := if cut then
        let e := r * p.beta / 65536
        { l with e := e, lastCut := e, sinceCut := 0 }
      else l
    let l := if up ∧ loss < p.lossLow then
        let gap := if l.e < l.lastCut then l.lastCut - l.e else l.e - l.lastCut
        { l with e := if gap ≤ l.lastCut / 10 then l.e + p.incAdd else l.e + max p.incAdd (l.e * p.incMult / 65536) }
      else l
    let l := if p.lossHigh < loss ∧ 30 ≤ l.sinceLossCut
      then { l with e := l.e - l.e * loss / 131072, sinceLossCut := 0 } else l
    let l := if measured then { l with e := min l.e (3 * r / 2 + 10000) } else l
    clampE l

/-- The loop item of leg `n` completes (R158 to R160): feedback whose stamp precedes this stride is used, and the target for
the next edge formed. -/
def Dev.lineLoop (d : Dev) (n : Nat) : Dev :=
  if (d.lifeOf n).media ≠ 2 ∨ (d.lifeOf n).suspended ∨ (d.loopOf n).ran ∨ d.itemFailed .loop n then d else
    let t := d.tc n
    let l := d.loopOf n
    let now := d.stride
    let fb := d.nat .LEG_FB_MODE n
    let window := d.nat .TC_GRAD_WINDOW t
    let use := l.waiting.filter fun x => decide (x.1 < now)
    let d := d.setLoop n { l with
      waiting := l.waiting.filter fun x => decide (now ≤ x.1)
      sinceFb := l.sinceFb + 1, sinceCut := l.sinceCut + 1, sinceLossCut := l.sinceLossCut + 1 }
    let d := use.foldl (fun d x => d.takeFeedback n x.2) d
    let l := d.loopOf n
    let mode := d.nat .LEG_CC_MODE n
    let par : LoopPar :=
      { mode := if mode = 1 ∧ fb = 0 then 2 else mode
        minRate := d.nat .LEG_MIN_RATE n * 1000, maxRate := d.nat .LEG_MAX_RATE n * 1000
        beta := d.nat .TC_BETA t, incMult := d.nat .TC_INC_MULT t, incAdd := d.nat .TC_INC_ADD t
        lossHigh := d.nat .TC_LOSS_HIGH t, lossLow := d.nat .TC_LOSS_LOW t, timeout := d.nat .TC_FB_TIMEOUT t }
    let loss := l.loss (d.txOf n).records now fb
    let r := l.rate now fb
    let l := l.estimate par loss r.1 r.2
    let u := windowSum now 60 l.unpaced * 8 * 10
    let l := { l with pending := some (l.e - u), ran := true }
    let d := ((d.setLoop n l).setN .LINE_ESTIMATE n (l.e / 1000)).setN .LINE_STATE n l.state.num
    let d := ((d.setN .LINE_LOSS n loss).setN .LINE_ACKED_RATE n (r.1 / 1000)).setI .LINE_GRADIENT n 0 (l.gradient window)
    d.endItem .loop n

/-- The measurements of leg `n` before the first of a session (R155, R172). -/
def Dev.lineReset (d : Dev) (n : Nat) : Dev :=
  let d := (((d.setN .LINE_STATE n 0).setN .LINE_RTT n 120000).setN .LINE_LOSS n 0).setN .LINE_JITTER n 0
  (d.setI .LINE_GRADIENT n 0 0).setN .LINE_ACKED_RATE n 0

/-- The loop of a leg whose media begin (R160): from LEG_START_RATE, or from the frozen values with the gradient's
memory cleared. -/
def Dev.loopBegin (d : Dev) (n : Nat) (first : Bool) : Dev :=
  let l := d.loopOf n
  if first then
    let e := d.nat .LEG_START_RATE n * 1000
    let d := (d.lineReset n).setN .LINE_ESTIMATE n (e / 1000)
    (d.setLoop n { e := e, pending := some e }).setTx n { d.txOf n with target := e }
  else d.setLoop n { l with acc := 0, sm := 0, sms := [], overCount := 0, prev := none, pending := some (d.txOf n).target }

/-- Is one-way delay measured on leg `n` (R157)? -/
def Dev.owdOn (d : Dev) (n : Nat) : Bool :=
  d.flag .LEG_PTP_PEER n && decide (d.nat .TB_MODE d.stb = 1) && d.tbValid d.stb

/-- The value of the one-way delay objects while nothing is measured (R157). -/
def noOwd : Int := -(2 ^ 31)

/-- The ns of an arrival that an RFC 8888 report gives (R155, R157): its timestamp in 2^-16 s less the offset in 1/1,024 s. -/
def reportNs (time offset : Nat) : Int := ((time * 1000000000 / 65536 : Nat) : Int) - ((offset * 1000000000 / 1024 : Nat) : Int)

/-- Forward one-way delay (R157): arrival less send stamp of the last packet that an RFC 8888 report names received. The report's
timestamp counts modulo 2^16 s. -/
def Dev.owdForward (d : Dev) (n time : Nat) (reports : List (Nat × (Nat × Option Nat))) : Dev :=
  if !d.owdOn n then d else
    let records := (d.txOf n).records
    let samples := reports.filterMap fun x =>
      match x.2.2, records.find? fun r => decide (r.ssrc = x.1 ∧ r.seq = x.2.1) with
      | some offset, some r =>
        let send : Int := ((d.ntpOf d.stb r.stamp : Nat) : Int) * 1000000000 / 2 ^ 32
        let wrap : Int := 65536 * 1000000000
        let x := (reportNs time offset - send) % wrap
        some (if 2 * x < wrap then x else x - wrap)
      | _, _ => none
    match samples.getLast? with
    | some x => d.setI .LINE_OWD n 0 (tdiv x 1000)
    | none => d

/-- Receive one-way delay from an SR that came in at `stamp` (R157): its NTP time on the time base's scale. -/
def Dev.owdReceive (d : Dev) (n ntp stamp : Nat) : Dev :=
  if d.owdOn n then
    let ns : Int := (((ntp / 2 ^ 32 : Nat) : Int) - 2208988800 + d.utcOf d.stb) * 1000000000 + (ntp % 2 ^ 32 * 1000000000 / 2 ^ 32 : Nat)
    d.setI .LINE_OWD_RX n 0 (tdiv ((stamp / 65536 : Nat) - ns) 1000)
  else d

/-- The middle 32 bits of the NTP time of a stamp on the stride time base, as SRs carry it (log entry 26). -/
def Dev.ntpMid (d : Dev) (stamp : Nat) : Nat := d.ntpOf d.stb stamp / 65536 % 2 ^ 32

/-- The stride that feedback stamped `stamp` counts in (R158). -/
def Dev.fbStride (d : Dev) (stamp : Nat) : Nat := if d.beforeEdge stamp then d.stride - 1 else d.stride

/-- One RR block about an SSRC of leg `n` (R155), which came in at `stamp`. What the loop works with waits for its item (R158). -/
def Dev.lineRr (d : Dev) (n stamp ssrc fraction jitter lsr dlsr : Nat) : Dev :=
  if !(d.sendSsrcs n).contains ssrc then d else
    let l := d.loopOf n
    let l := if lsr = 0 then l else
      let sample := (toWord 32 ((d.ntpMid stamp : Int) - lsr - dlsr) : Nat)
      let sample := if sample < 2 ^ 31 then sample else 0
      { l with rtt := ((l.rtt : Int) + tdiv ((sample : Int) - l.rtt) 8).toNat, rttSeen := true }
    let l := { l with rrLoss := fraction * 256, waiting := l.waiting ++ [(d.fbStride stamp, .rr (fraction * 256) l.rtt)] }
    let d := if lsr = 0 then d.setLoop n l else (d.setLoop n l).setN .LINE_RTT n (l.rtt * 1000000 / 65536)
    if ssrc = (d.txOf n).audioSsrc
    then d.setN .LINE_JITTER n (jitter * 1000000 / codecClock (d.nat .LEG_TX_CODEC n)) else d

/-- A TMMBR caps e, in the place of the same sender's earlier one for the same SSRC, and will be answered with a TMMBN at the next edge
(R159, R163; log entry 27). A TMMBN caps it too, and is not answered (R152). -/
def Dev.lineTmmbr (d : Dev) (n sender ssrc bps : Nat) (named : Bool) : Dev :=
  let l := d.loopOf n
  d.setLoop n { l with
    tmmbr := tset (sender, (ssrc, named)) bps l.tmmbr, tmmbn := if named then l.tmmbn else l.tmmbn ++ [ssrc] }

/-- The TMMBNs that answer each TMMBR at the next edge, with the bound applied (R159, R163). -/
def Dev.tmmbnEdge (d : Dev) (n : Nat) : Dev :=
  let l := d.loopOf n
  match l.tmmbn, l.bound with
  | [], _ => d
  | asked, b => asked.foldl (fun d ssrc => d.sendRtcp n [.tmmbn ssrc (b.getD (2 ^ 32 - 1))]) (d.setLoop n { l with tmmbn := [] })

/-- What an RFC 8888 report says of each packet (R155): its arrival in ns, none where it was not received. -/
def reports8888 (time : Nat) (reports : List (Nat × (Nat × Option Nat))) : List ((Nat × Nat) × Option Int) :=
  reports.map fun x => ((x.1, x.2.1), x.2.2.map fun o => reportNs time o)

/-- What transport-wide feedback says of each packet that it numbers (R155): the deltas of 250 µs add up from the reference time of 64 ms. A
number that no record has is ignored (R154). -/
def reportsWide (records : List SendRec) (reference : Nat) : Nat → Int → List (Option Int) → List ((Nat × Nat) × Option Int)
  | _, _, [] => []
  | seq, at_, x :: r =>
    let now := at_ + x.getD 0
    let rest := reportsWide records reference ((seq + 1) % 65536) now r
    match records.find? fun y => decide (y.twcc = some seq) with
    | some y => ((y.ssrc, y.seq), x.map fun _ => (reference : Int) * 64000000 + now * 250000) :: rest
    | none => rest

/-- Feedback of the kind that LEG_FB_MODE names waits for the loop (R155, R158). -/
def Dev.lineFeedback (d : Dev) (n stamp mode : Nat) (packets : List ((Nat × Nat) × Option Int)) : Dev :=
  if d.nat .LEG_FB_MODE n ≠ mode then d else
    let l := d.loopOf n
    d.setLoop n { l with waiting := l.waiting ++ [(d.fbStride stamp, .report packets)] }

/-- RTT of leg `n` in strides, rounded up (R150); 0.12 s until measured. -/
def Dev.rttStrides (d : Dev) (n : Nat) : Nat :=
  let l := d.loopOf n
  if l.rttSeen then (l.rtt * 600 + 65535) / 65536 else 72

/-- A NACK from the leg (R151): each named packet of the history is resent, at most 3 times and not within the RTT; an RTX packet has the
SSRC and the number of its own stream. Only a leg whose media are ACTIVE is sent any (R107, R108). -/
def Dev.resend (d : Dev) (n : Nat) (ssrc : Nat) (seqs : List Nat) : Dev :=
  if !d.bitOf .LEG_NACK_MODE n 0 1 ∨ d.sendBarred n then d else
    seqs.foldl (fun d seq =>
      let x := d.txOf n
      match x.history.find? fun s => decide (s.pkt.ssrc = ssrc) && decide (s.pkt.seq = seq) with
      | none => d
      | some s =>
        if d.nat .LEG_RTX_HISTORY n + s.stride < d.stride ∨ 3 ≤ s.resends ∨
            (0 < s.resends ∧ d.stride < s.lastResend + d.rttStrides n) then d
        else
          let s' := { s with resends := s.resends + 1, lastResend := d.stride }
          let d := d.setTx n { x with history := x.history.map fun y => if y = s then s' else y }
          let rtx := d.nat .VTX_RTX_PT n
          if rtx ≤ 127 then
            let r := d.repairOf n ssrc false
            r.2.enqueue n .retransmission {
              pkt := { s.pkt with ssrc := r.1.1, seq := r.1.2, pt := rtx, len := s.pkt.len + 2, osn := some seq }, buf := s.buf }
          else d.enqueue n .retransmission { pkt := s.pkt, buf := s.buf }) d

/-- A report falls due on leg `n` (R163): a feedback build item becomes ready. -/
def Dev.reportDue (d : Dev) (n : Nat) (k : ReportKind) : Dev :=
  let m := (d.lifeOf n).media
  let on := decide (2 ≤ m ∧ m ≤ 4) && !(d.lifeOf n).suspended
  let wanted := match k with
    | .senderReport => true
    | .rfc8888 => decide (d.nat .LEG_FB_MODE n = 1)
    | .transportWide => decide (d.nat .LEG_FB_MODE n = 2)
  let b := d.nat .LEG_ADMIT_BLOCK n
  if on && wanted && decide (b < 64) then
    let seq := (d.blkOf b).nextSeq
    let d := d.setTx n { d.txOf n with due := (d.txOf n).due ++ [(seq, k)] }
    d.addFeedback n
  else d

/-- The RTP time of one of leg `n`'s own streams now, for its SR (R163): of audio, of the composed encode, of the spliced view, or of
the stream that a repair stream repairs. -/
def Dev.rtpNow (d : Dev) (n ssrc : Nat) : Nat :=
  let x := d.txOf n
  let base := ((x.repair.find? fun r => decide (r.2.1 = ssrc)).map (·.1.1)).getD ssrc
  let e : Enc := tget {} (EncId.composed n) d.enc
  let v : View := tget {} n d.view
  if base = x.audioSsrc then
    toWord 32 ((x.audioTs : Int) - ((x.audioAt : Int) - d.stride) * (codecClock (d.nat .LEG_TX_CODEC n) : Nat) / 600)
  else if base = e.ssrc then (e.ts + 150 * (d.stride - e.s0.getD d.stride)) % 2 ^ 32
  else (v.ts + 150 * (d.stride - v.s0.getD d.stride)) % 2 ^ 32

/-- The RR block of a receive slot (RFC 3550): what came since the last report. -/
def Dev.rrBlock (d : Dev) (s : SsrcSlot) : RrBlock :=
  let c := s.stats
  let first := c.first.getD 0
  let expected := s.rtp.high + 1 - first
  let due := expected - c.expectedAt
  let got := c.count - c.countAt
  { ssrc := s.ssrc, high := s.rtp.high % 2 ^ 32, jitter := c.jitter16 / 16, lsr := c.lsr
    fraction := if due = 0 ∨ due ≤ got then 0 else (due - got) * 256 / due
    lost := clamp (-(2 ^ 23)) (2 ^ 23 - 1) ((expected : Int) - c.count)
    dlsr := if c.lsr = 0 then 0 else toWord 32 (timeDiff (d.now d.stb) c.lsrAt / 1000000000) }

/-- The RR blocks of leg `n`'s receive slots, which begin to count anew (R163). -/
def Dev.rrBlocks (d : Dev) (n : Nat) : List RrBlock × Dev :=
  let r := d.rxOf n
  let fresh := fun (s : SsrcSlot) =>
    { s with stats := { s.stats with expectedAt := s.rtp.high + 1 - s.stats.first.getD 0, countAt := s.stats.count } }
  ((r.slots.filter fun s => s.2.stats.first.isSome).map fun s => d.rrBlock s.2,
    d.setRx n { r with slots := r.slots.map fun s => (s.1, fresh s.2) })

/-- The SRs of leg `n`'s sending SSRCs (R163). The SR of a forwarded output carries the source's relation, moved by the segment's offset,
and its own counts, and there is none before the source's (R304). -/
def Dev.senderReports (d : Dev) (n : Nat) (blocks : List RrBlock) : List RtcpTx :=
  let x := d.txOf n
  let fwd := (List.range 16).map fun j => (tget {} (n, j) d.fwd : FwdSlot)
  let own := (d.sendSsrcs n).filter fun s => fwd.all fun y => decide (y.ssrc ≠ s)
  let counts := fun (s : Nat) => tget (0, 0) s x.counts
  (own.map fun s => RtcpTx.sr s (d.ntpOf d.stb (d.now d.stb)) (d.rtpNow n s) (counts s).1 (counts s).2 blocks) ++
    fwd.filterMap fun y => y.srRtp.map fun r =>
      .sr y.ssrc r.1 ((r.2 + (y.seg.map (·.tsOff)).getD 0) % 2 ^ 32) (counts y.ssrc).1 (counts y.ssrc).2 blocks

/-- The sequence numbers from `a` on that a list of numbers reaches to, modulo 2^16. -/
def seqSpan (a : Nat) (l : List Nat) : List Nat :=
  let most := l.foldl (fun m s => let x := (s + 65536 - a) % 65536; if x < 32768 then max m x else m) 0
  (List.range (most + 1)).map fun i => (a + i) % 65536

/-- The RFC 8888 report of what leg `n` received since the last (R163): each SSRC's numbers from the first to the latest, with the arrival
time offset in 1/1,024 s. -/
def Dev.report8888 (d : Dev) (n : Nat) : RtcpTx :=
  let heard := (d.rxOf n).heard
  let now := d.now d.stb
  let offset := fun (h : Heard) => min 0x1FFE ((timeDiff now h.stamp).toNat * 1024 / 65536000000000)
  .rfc8888 (d.ntpMid now) ((heard.map (·.ssrc)).eraseDups.map fun s =>
    let mine := heard.filter fun h => decide (h.ssrc = s)
    let seqs := mine.map (·.seq)
    (seqSpan (seqs.headD 0) seqs).map fun q => (s, (q, (mine.find? fun h => decide (h.seq = q)).map offset))).flatten

/-- Deltas of 250 µs between arrivals, given in units of 250 µs. -/
def deltasOf : Int → List (Option Int) → List (Option Int)
  | _, [] => []
  | a, none :: r => none :: deltasOf a r
  | a, some b :: r => some (b - a) :: deltasOf b r

/-- Transport-wide feedback of what leg `n` received since the last (R163). -/
def Dev.reportWide (d : Dev) (n : Nat) : RtcpTx :=
  let heard := (d.rxOf n).heard.filterMap fun h => h.twcc.map fun q => (q, h.stamp / 65536)
  let first := heard.headD (0, 0)
  let reference := first.2 / 64000000
  let seen := (seqSpan first.1 (heard.map (·.1))).map fun q =>
    (heard.find? fun h => decide (h.1 = q)).map fun h => ((h.2 : Int) - (reference * 64000000 : Nat)) / 250000
  .transportWide ((d.txOf n).fbCount % 256) first.1 (reference % 2 ^ 24) (deltasOf 0 seen)

/-- The report of a kind for leg `n` (R163): compound, led by its SRs, or by an RR where nothing is sent. -/
def Dev.buildReport (d : Dev) (n : Nat) (k : ReportKind) : List RtcpTx × Dev :=
  match k with
  | .senderReport =>
    let r := d.rrBlocks n
    let srs := r.2.senderReports n r.1
    (if srs = [] then [.rr (d.txOf n).audioSsrc r.1] else srs, r.2)
  | .rfc8888 => (d.rtcpLead n [] ++ [d.report8888 n], d.setRx n { d.rxOf n with heard := [] })
  | .transportWide =>
    (d.rtcpLead n [] ++ [d.reportWide n],
      (d.setRx n { d.rxOf n with heard := [] }).setTx n { d.txOf n with fbCount := (d.txOf n).fbCount + 1 })

/-- A feedback build item of leg `n` completes; results leave in order (R163, R325). -/
def Dev.feedbackBuilt (d : Dev) (n : Nat) : Dev :=
  let b := d.nat .LEG_ADMIT_BLOCK n
  if 64 ≤ b then d else
    match d.feedbackSeq b n with
    | none => d
    | some seq =>
      let x := d.txOf n
      let k := tget .senderReport seq x.due
      let d := d.setTx n { x with due := tdel seq x.due }
      let p := d.buildReport n k
      let r := p.2.orderResult b n seq (.held p.1)
      (r.1.foldl (fun d parts => d.enqueue n .control { rtcp := parts }) r.2).endItem .feedback n

end Sys2Proof.Machine
end

