-- ==== Sys2Proof/Machine/Speech.lean ====
section
/-! DEFINITION. Voices (R177 to R180, R145, R146, R185): the codecs between octets and Q1.23, the jitter buffer of a stream, and the
samples that stage 1 takes from it. -/

namespace Sys2Proof.Machine

/-! ### Codecs -/

/-- A big-endian number in an octet string. -/
def octetsAt (b : Octets) (i n : Nat) : Nat := Octets.toNat ((b.drop i).take n)

/-- The sample rate of a codec word (R177); Opus runs at 16 kHz in warm-up (R205). -/
def codecRate (warm : Bool) (w : Nat) : Nat :=
  match bits w 3 0 with
  | 3 => 16000
  | 4 => if warm then 16000 else 48000
  | 5 => l16Rate (bits w 10 8)
  | _ => 8000

/-- Half units of the RTP clock between two samples: the RTP clock of G.722 is half its sample rate (RFC 3551). -/
def codecUnit (warm : Bool) (w : Nat) : Nat := 2 * codecClock w / codecRate warm w

/-- The position in the lap of sample 0 of stride `s`: floor(s * f / 600), whose steps are the n(s) of R21. -/
def strideStart (f s : Nat) : Nat := s * f / 600

/-- Left shift that places a decoded value in Q1.23 (R179). -/
def decodeShift (w : Nat) : Nat :=
  match bits w 3 0 with
  | 1 => 10
  | 2 => 11
  | 3 => 10
  | _ => 8

/-- The word an encoder takes from a Q1.23 sample (R179). -/
def encodeWord (w : Nat) (x : Int) : Int := sat (rne x (decodeShift w)) (24 - decodeShift w)

/-- G.711 µ-law compression of a 14-bit value. -/
def ulaw (x : Int) : Nat :=
  let m := min x.natAbs 8158 + 33
  let seg := Nat.log2 m - 5
  (if x < 0 then 0x7F else 0xFF) - (seg * 16 + m / 2 ^ (seg + 1) % 16)

/-- G.711 A-law compression of a 13-bit value. -/
def alaw (x : Int) : Nat :=
  let m := (if x < 0 then (-x - 1) else x).toNat / 2
  let v := if m < 32 then m else
    let e := Nat.log2 m - 4
    (e + 1) * 16 + (m / 2 ^ e - 16)
  (v + if x < 0 then 0 else 128) ^^^ 0x55

/-- G.711 µ-law expansion: the 14-bit value of an octet. -/
def ulawValue (o : Nat) : Int :=
  let c := 255 - o % 256
  let m : Int := (2 * (c % 16) + 33) * 2 ^ (c / 16 % 8) - 33
  if c < 128 then m else -m

/-- G.711 A-law expansion: the 13-bit value of an octet. -/
def alawValue (o : Nat) : Int :=
  let c := (o % 256) ^^^ 0x55
  let e := c / 16 % 8
  let m : Int := if e = 0 then 2 * (c % 16) + 1 else (2 * (c % 16) + 33) * 2 ^ (e - 1)
  if 128 ≤ c then m else -m

/-- The duration of one frame of an Opus packet, in samples at 48 kHz, by its TOC (RFC 6716). -/
def opusFrame (toc : Nat) : Nat :=
  let c := toc / 8 % 32
  if c < 12 then [480, 960, 1920, 2880].getD (c % 4) 0
  else if c < 16 then [480, 960].getD (c % 2) 0
  else [120, 240, 480, 960].getD (c % 4) 0

/-- The duration of an Opus packet at 48 kHz (RFC 6716). -/
def opusDuration (b : Octets) : Nat :=
  let toc := b.headD 0
  opusFrame toc * match toc % 4 with
    | 0 => 1
    | 1 => 2
    | 2 => 2
    | _ => b.getD 1 0 % 64

/-- The duration of a payload in units of the RTP clock (R145, R177). -/
def payloadDuration (w : Nat) (b : Octets) : Nat :=
  match bits w 3 0 with
  | 4 => opusDuration b
  | 5 => b.length / (if bit w 11 then 4 else 2)
  | _ => b.length

/-- Does a payload lie within the limits of R177: up to 120 ms for every codec but G.711 and G.722, whose packets hold up to 960 units? -/
def payloadOk (w : Nat) (b : Octets) : Bool :=
  let n := payloadDuration w b
  decide (0 < n) && (if bits w 3 0 ≤ 3 then decide (n ≤ 960) else decide (n * 1000 ≤ 120 * codecClock w))

/-- `n` entries of a list that a codec gave, each held to the range of `width` bits. -/
def fitSamples (width n : Nat) (xs : List (Int × Int)) : List (Int × Int) :=
  (List.range n).map fun i => (sat (xs.getD i (0, 0)).1 width, sat (xs.getD i (0, 0)).2 width)

/-- Decodes one payload into Q1.23 from a decoder's state (R179): the samples, both channels alike where there is one, and the state. -/
def decodePayload (warm : Bool) (w : Nat) (state b : Octets) : List (Int × Int) × Octets :=
  let raw : List (Int × Int) × Octets := match bits w 3 0 with
    | 1 => (b.map fun o => (ulawValue o, ulawValue o), state)
    | 2 => (b.map fun o => (alawValue o, alawValue o), state)
    | 3 =>
      let r := Config.g722Decode state b
      (fitSamples 14 (2 * b.length) (r.1.map fun x => (x, x)), r.2)
    | 4 =>
      let r := Config.opusDecode state (codecRate warm w) b
      (fitSamples 16 (opusDuration b * codecRate warm w / 48000) r.1, r.2)
    | _ =>
      let word := fun i => ofWord 16 (octetsAt b (2 * i) 2)
      ((List.range (payloadDuration w b)).map fun i => if bit w 11 then (word (2 * i), word (2 * i + 1)) else (word i, word i), state)
  (raw.1.map fun p => (p.1 * 2 ^ decodeShift w, p.2 * 2 ^ decodeShift w), raw.2)

/-- Is a payload of two channels (R177, R178)? -/
def payloadStereo (w : Nat) (b : Octets) : Bool :=
  match bits w 3 0 with
  | 4 => bit (b.headD 0) 2
  | 5 => bit w 11
  | _ => false

/-- Codes a frame of Q1.23 samples (R179, R201): the payload, none where Opus DTX sends nothing, and the encoder's state. -/
def encodeFrame (warm : Bool) (w : Nat) (state : Octets) (xs : List Int) : Option Octets × Octets :=
  let ys := xs.map (encodeWord w)
  match bits w 3 0 with
  | 1 => (some (ys.map ulaw), state)
  | 2 => (some (ys.map alaw), state)
  | 3 =>
    let r := Config.g722Encode state ys
    (some ((List.range (ys.length / 2)).map fun i => r.1.getD i 0 % 256), r.2)
  | 4 =>
    let r := Config.opusEncode w (codecRate warm w) state ys
    (if bit w 17 && r.2.1 then none else some (r.1.map (· % 256)), r.2.2)
  | _ =>
    (some ((ys.map fun y =>
      let o := natToOctets 2 (toWord 16 y)
      if bit w 7 then o ++ o else o).flatten), state)

/-! ### Conversion -/

/-- Stage 4: the `n` samples at the internal rate of a stride, or of a warm-up period, numbered `s` (R21, R185, R205). -/
def Conv.toInternal (c : Conv) (warm : Bool) (w s : Nat) (xs : List Int) (n : Nat) : List Int × Conv :=
  match rateFilter warm (codecRate warm w) with
  | some f =>
    (f.up c.hist xs (strideStart (codecRate warm w) s) (strideStart (if warm then 16000 else 48000) s) n,
      ⟨(xs.reverse ++ c.hist).take (f.taps f.l + 1)⟩)
  | none => ((xs ++ List.replicate n 0).take n, c)

/-- Stage 16: the `n` samples at the codec's rate of a stride or period numbered `s`. -/
def Conv.fromInternal (c : Conv) (warm : Bool) (w s : Nat) (xs : List Int) (n : Nat) : List Int × Conv :=
  match rateFilter warm (codecRate warm w) with
  | some f =>
    (f.down c.hist xs (strideStart (if warm then 16000 else 48000) s) (strideStart (codecRate warm w) s) n,
      ⟨(xs.reverse ++ c.hist).take (f.taps f.m + f.l)⟩)
  | none => ((xs ++ List.replicate n 0).take n, c)

/-- Samples that a codec rate gives the `strides` strides from `s` on (R21). -/
def samplesIn (rate s strides : Nat) : Nat :=
  ((List.range strides).map fun i => strideShare rate ((s + i) % 600)).foldl (· + ·) 0

/-! ### The jitter buffer -/

/-- The jitter buffer of the stream that a leg is heard by (log entry 28). -/
def Rx.jb (r : Rx) : Jitter := tget {} r.voice r.jbs
/-- Sets it. -/
def Rx.setJb (r : Rx) (j : Jitter) : Rx := { r with jbs := tput {} r.voice j r.jbs }

/-- How far position `a` lies past `b`, in half units of the RTP clock. -/
def posDiff (a b : Nat) : Int := ofWord 33 (toWord 33 ((a : Int) - b))

/-- How far a packet's end lies past the play point. -/
def Jitter.endsAt (j : Jitter) (p : JbPkt) : Int := posDiff (2 * p.ts) j.play + (2 * p.duration : Nat)

/-- What lies wholly behind the play point leaves (R145). -/
def Jitter.tidy (j : Jitter) : Jitter :=
  { j with
    pkts := j.pkts.filter fun p => decide (0 < j.endsAt p)
    pcm := j.pcm.filter fun c => decide (0 < posDiff c.at_ j.play + (c.unit * c.samples.length : Nat)) }

/-- The play point passes `units` half units (R145). -/
def Jitter.advance (j : Jitter) (units : Nat) : Jitter :=
  if !j.anchored then j else ({ j with play := (j.play + units) % 2 ^ 33 } : Jitter).tidy

/-- Sets the play point so that the end of the packet at `ts` lies the target depth past it: it waits for the target less its own length
(R145, R146, R204). -/
def Jitter.anchor (j : Jitter) (ts duration : Nat) : Jitter :=
  let play := toWord 33 (2 * (ts : Int) + (2 * duration : Nat) - (2 * j.target * j.clock / 600 : Nat))
  ({ j with anchored := true, play := play, depth := j.target, reanchor := none, candidates := [] } : Jitter).tidy

/-- The arrival of an audio packet of `duration` feeds the interarrival jitter of RFC 3550 and the target depth (R145). -/
def Jitter.arrive (j : Jitter) (lo hi slot arrival ts duration : Nat) : Jitter :=
  let transit := ofWord 32 (toWord 32 ((arrival : Int) - ts))
  let j16 := match j.transit with
    | some t => j.jitter16 + (ofWord 32 (toWord 32 (transit - t))).natAbs - (j.jitter16 + 8) / 16
    | none => j.jitter16
  let fs := ceilDiv (duration * 600) j.clock
  let t := fs + ceilDiv (3 * (j16 / 16) * 600) j.clock
  { j with transit := some transit, jitter16 := j16, frameStrides := fs, target := min hi (max lo t), slot := slot }

/-- An audio packet outside the timeline becomes a candidate; the third that agrees re-anchors at the next edge (R146). -/
def Jitter.outside (j : Jitter) (arrival ts : Nat) : Jitter :=
  let line := ofWord 32 (toWord 32 ((ts : Int) - arrival))
  let near := fun (x : Nat × Int) => decide ((ofWord 32 (toWord 32 (x.2 - line))).natAbs ≤ j.clock / 600)
  let l := if j.candidates.all near then j.candidates ++ [(ts, line)] else [(ts, line)]
  { j with candidates := l, reanchor := if 3 ≤ l.length then some ts else j.reanchor }

/-- A packet takes its place by its timestamp; one that ends past every other sets the depth, in strides rounded up (R145; log
entry 127). -/
def Jitter.place (j : Jitter) (p : JbPkt) : Jitter :=
  let newest := j.pkts.all fun q => decide (j.endsAt q ≤ j.endsAt p)
  { j with
    pkts := j.pkts ++ [p]
    depth := if newest then ceilDiv ((j.endsAt p).toNat * 600) (2 * j.clock) else j.depth }

/-- An audio packet reaches its stream's jitter buffer (R145, R146, R177): what became of it, and the buffer. -/
def Jitter.receive (j : Jitter) (lo hi arrival : Nat) (p : JbPkt) : Option Obj × Jitter :=
  let j := j.arrive lo hi p.slot arrival p.ts p.duration
  let j := if j.anchored then j else j.anchor p.ts p.duration
  if (hi + 24) * 2 * j.clock < (posDiff (2 * p.ts) j.play).natAbs * 600 then (some .JB_OVERFLOW, j.outside arrival p.ts)
  else
    let j := { j with candidates := [] }
    if j.endsAt p ≤ 0 then (some .LATE, j)
    else if 64 ≤ j.pkts.length then (some .JB_OVERFLOW, j)
    else (none, j.place p)

/-- Re-anchors a buffer at an edge (R146). -/
def Jitter.reanchored (j : Jitter) : Jitter :=
  match j.reanchor with
  | some ts => { j.anchor ts (j.frameStrides * j.clock / 600) with decoders := j.decoders, pcm := [] }
  | none => j

/-! ### Stage 1 -/

/-- The sample that stands decoded at a position. -/
def Jitter.heard (j : Jitter) (at_ : Nat) : Option (Int × Int) :=
  j.pcm.findSome? fun c =>
    let k := posDiff at_ c.at_
    if 0 ≤ k then c.samples[k.toNat / max 1 c.unit]? else none

/-- Opus has no packet at a position: LBRR data of the next packet where it has them for this frame, else concealment of `n` samples
(R180). The count says whether a frame came from LBRR data. -/
def Jitter.opusFill (j : Jitter) (warm : Bool) (w at_ n : Nat) : Nat × Jitter :=
  let next := minBy? (fun p : JbPkt => (posDiff (2 * p.ts) at_).toNat) (j.pkts.filter fun p => decide (0 < posDiff (2 * p.ts) at_))
  let state := tget [] j.slot j.decoders
  let rate := codecRate warm w
  let unit := codecUnit warm w
  let conceal := fun (n : Nat) =>
    let r := Config.opusConceal state rate n
    (0, { j with
      decoders := tset j.slot r.2 j.decoders
      pcm := j.pcm ++ [⟨at_, unit, false, (fitSamples 16 n r.1).map fun p => (p.1 * 256, p.2 * 256)⟩] })
  match next with
  | none => conceal n
  | some p =>
    let gap := (posDiff (2 * p.ts) at_).toNat
    let frame := opusFrame (p.payload.headD 0)
    if Config.opusLbrr p.payload ∧ gap ≤ 2 * frame then
      let r := Config.opusFec state rate p.payload
      (1, { j with
        decoders := tset j.slot r.2 j.decoders
        pcm := j.pcm ++ [⟨toWord 33 (2 * (p.ts : Int) - (2 * frame : Nat)), unit, payloadStereo w p.payload,
          (fitSamples 16 (2 * frame / max 1 unit) r.1).map fun p => (p.1 * 256, p.2 * 256)⟩] })
    else conceal (max 1 (min n (gap / max 1 unit)))

/-- Decodes what covers a position (R176): the packet there, or what Opus makes of its loss. `words` gives the codec word of a slot. -/
def Jitter.decodeAt (j : Jitter) (warm : Bool) (words : Nat → Nat) (at_ n : Nat) : Nat × Jitter :=
  let covers := fun (p : JbPkt) => decide (0 ≤ posDiff at_ (2 * p.ts)) && decide (posDiff at_ (2 * p.ts) < (2 * p.duration : Nat))
  match j.pkts.find? covers with
  | some p =>
    let w := words p.slot
    let r := decodePayload warm w (tget [] p.slot j.decoders) p.payload
    (0, { j with
      decoders := tset p.slot r.2 j.decoders
      pcm := j.pcm ++ [⟨2 * p.ts % 2 ^ 33, codecUnit warm w, payloadStereo w p.payload, r.1⟩] })
  | none => if bits (words j.slot) 3 0 = 4 then j.opusFill warm (words j.slot) at_ n else (0, j)

/-- The `n` samples from a position on, each none where it is missing; the count is of frames decoded from LBRR data. -/
def Jitter.pull (j : Jitter) (warm : Bool) (words : Nat → Nat) : Nat → Nat → List (Option (Int × Int)) × (Nat × Jitter)
  | _, 0 => ([], (0, j))
  | at_, n + 1 =>
    let r := match j.heard at_ with
      | some _ => (0, j)
      | none => j.decodeAt warm words at_ (n + 1)
    let rest := r.2.pull warm words ((at_ + codecUnit warm (words j.slot)) % 2 ^ 33) n
    (r.2.heard at_ :: rest.1, (r.1 + rest.2.1, rest.2.2))

/-- A stride's samples as stage 1 gives them: none where any of them is missing (log entry 128); whether they are of two channels. -/
structure StrideIn where
  samples : Option (List (Int × Int)) := none
  stereo : Bool := false
  fec : Nat := 0
  jb : Jitter := {}
deriving DecidableEq, Repr

/-- Stage 1 of R176: `n` samples of the stream from half unit `past` after the play point on, which stays where it is. -/
def Jitter.take (j : Jitter) (warm : Bool) (words : Nat → Nat) (past n : Nat) : StrideIn :=
  if !j.anchored ∨ bits (words j.slot) 3 0 = 0 then { jb := j }
  else
    let at_ := (j.play + past) % 2 ^ 33
    let r := j.pull warm words at_ n
    { samples := if r.1.all Option.isSome then some (r.1.filterMap id) else none
      stereo := r.2.2.pcm.any fun c => c.stereo && decide (0 ≤ posDiff at_ c.at_) &&
        decide (posDiff at_ c.at_ < (c.unit * c.samples.length : Nat))
      fec := r.2.1, jb := r.2.2 }

/-- Stage 2: a stereo pair folds to mono (R179). -/
def foldMono (stereo : Bool) (xs : List (Int × Int)) : List Int :=
  xs.map fun p => if stereo then rne (p.1 + p.2) 1 else p.1

end Sys2Proof.Machine
end

