-- ==== Sys2Proof/Machine/Audio.lean ====
section
/-! DEFINITION. The audio path (R176 to R206): sample arithmetic, the input, mix, output and encode items, tones and
events. Stage numbers are those of R176. -/

namespace Sys2Proof.Machine

/-- Is warm-up audio in force (R205)? -/
def Dev.warmAudio (d : Dev) : Bool := decide (d.service = .warmup)

/-- The linear blend of R182: `b` with its first 16 samples joined to the mirror of the end of `p`. -/
def crossfade (p b : List Int) : List Int :=
  let a := (p.drop (p.length - 16)).reverse
  (List.range b.length).map fun i =>
    if i < 16 then rne (a.getD i 0 * (16 - i) + b.getD i 0 * i) 4 else b.getD i 0

/-- The stride that conceals after `n` concealed ones, where the last stride given was `p` (R183). -/
def repeatStride (n : Nat) (p : List Int) : List Int :=
  if 12 ≤ n then List.replicate p.length 0
  else crossfade p (if 3 ≤ n then p.map fun s => rne s 1 else p)

/-- One biquad section (R186). -/
def Biquad.step (b : Biquad) (c : Nat → Int) (w : Nat) (x : Int) : Int × Biquad :=
  let y := sat (rne (c 0 * x + c 1 * b.x1 + c 2 * b.x2 - c 3 * b.y1 - c 4 * b.y2) 21) w
  (y, ⟨x, b.x1, y, b.y1⟩)

/-- One section over samples. -/
def Biquad.run (c : Nat → Int) (w : Nat) (b : Biquad) : List Int → List Int × Biquad
  | [] => ([], b)
  | x :: r =>
    let s := b.step c w x
    let t := Biquad.run c w s.2 r
    (s.1 :: t.1, t.2)

/-- Stages 6 and 13: the enabled sections of profile `e` in ascending order (R186). -/
def Dev.filterProfile (d : Dev) (e w : Nat) (bs : List Biquad) (xs : List Int) : List Int × List Biquad :=
  (List.range 4).foldl (fun s i =>
    let b := bs.getD i {}
    if d.bitOf .AF_SECTIONS e 0 i then
      let r := Biquad.run (fun c => d.int .AF_COEF e (5 * i + c)) w b s.1
      (r.1, s.2 ++ [r.2])
    else (s.1, s.2 ++ [b])) (xs, [])

/-- `b` to the power 512, by nine squarings. -/
def pow512 (b : Nat) : Nat := (List.range 9).foldl (fun x _ => x * x) b

/-- `tbl[f] = rne(4096 * 2^(f/512))` (R190): the least v with 4096 * 2^(f/512) below v + 1/2. -/
def agcTable (f : Nat) : Nat :=
  let x := pow512 8192 * 2 ^ f
  (List.range 13).foldl (fun v i =>
    let t := v + 2 ^ (12 - i)
    if pow512 (2 * t - 1) ≤ x then t else v) 4095

/-- The AGC gain at γ in UQ5.12 (R190). -/
def agcGainOf (gamma : Int) : Int :=
  let f := (gamma % 512).toNat
  let e := gamma / 512
  if 0 ≤ e then agcTable f * 2 ^ e.toNat else rne (agcTable f) e.natAbs

/-- A ramp's gain after `t` samples (R199). -/
def Ramp.valueAt (r : Ramp) (t : Nat) : Int :=
  if r.len ≤ t then r.goal else r.start + tdiv ((r.goal - r.start) * t) r.len

/-- A ramp's present value. -/
def Ramp.now (r : Ramp) : Int := r.valueAt r.t

/-- The value a ramp reaches with this stride's samples. -/
def Ramp.reached (r : Ramp) : Int := r.valueAt (r.t + 80)

/-- The gains of the next 80 samples. -/
def Ramp.gains (r : Ramp) : List Int := (List.range 80).map fun i => r.valueAt (r.t + i + 1)

/-- The samples of a stride have passed. -/
def Ramp.pass (r : Ramp) : Ramp := { r with t := min r.len (r.t + 80) }

/-- At an edge a changed target starts a new ramp from the present value (R199). -/
def Ramp.aim (r : Ramp) (goal : Int) (len : Nat) : Ramp := if goal = r.goal then r else ⟨r.now, goal, 0, len⟩

/-- The period of pitch repetition (R181): the lag from 120 to 720 of greatest normalised autocorrelation, ties to the
smaller; correlation and energies are taken over the samples that have a partner (log entry 30). -/
def pitchPeriod (h : List Int) : Nat :=
  let score := fun (t : Nat) =>
    let a := h.drop t
    let c := (a.zipWith (· * ·) h).foldl (· + ·) 0
    let ea := sumSquares a
    let eb := sumSquares (h.take (h.length - t))
    (c * (c.natAbs : Int), ea * eb)
  ((List.range 601).foldl (fun (best : Nat × (Int × Nat)) i =>
    let s := score (120 + i)
    if best.1 = 0 ∨ best.2.1 * (s.2 : Int) < s.1 * (best.2.2 : Int) then (120 + i, s) else best) (0, (0, 1))).1

/-- Stage 5 for a stride of missing samples: pitch repetition (R181). The scale's products are truncated (log entry 30). -/
def LegAudio.conceal (a : LegAudio) : List Int × LegAudio :=
  let t := if a.lossRun = 0 then pitchPeriod a.hist else a.period
  let rep := if a.lossRun = 0 then a.hist.drop (a.hist.length - t) else a.rep
  let at_ := a.lossRun * 80
  let raw := (List.range 80).map fun i => rep.getD ((at_ + i) % max 1 t) 0
  let raw := if a.lossRun = 0 then crossfade a.hist raw else raw
  let y := (List.range 80).map fun i =>
    let n := at_ + i
    if n < 480 then raw.getD i 0 else if n < 2880 then tdiv (raw.getD i 0 * (2880 - n : Nat)) 2400 else 0
  (y, { a with lossRun := a.lossRun + 1, period := t, rep := rep, join := true })

/-- Keeps the last 960 stage-5 samples. -/
def keepHist (h y : List Int) : List Int := (h ++ y).drop ((h ++ y).length - 960)

/-- Adds a captured stride to TAP_DATA when a tap captures the point of the leg (R474). -/
def Dev.tap (d : Dev) (n point : Nat) (xs : List Int) : Dev :=
  if d.nat .TAP_STATE = 1 ∧ d.nat .TAP_LEG = n ∧ d.nat .TAP_POINT = point ∧ d.tapFrom ≤ d.stride ∧
      d.stride < d.tapFrom + d.nat .TAP_STRIDES then
    d.put .TAP_DATA 0 0 (.bytes (d.bytes .TAP_DATA ++ (xs.map fun x => natToOctets 4 (toWord 32 x)).flatten))
  else d

/-- Counts a stride of leg `n` as concealed, once (R181, R183, LEG_CONCEALED). -/
def Dev.countConcealed (d : Dev) (n : Nat) : Dev :=
  let a := d.audioOf n
  if a.concealedAt = some d.stride then d else (d.setAudio n { a with concealedAt := some d.stride }).bump .LEG_CONCEALED n

/-- Enters an ended event in the FIFO of 16 (R195). -/
def Dev.enterEvent (d : Dev) (n : Nat) (e : LegEvent) : Dev :=
  let a := d.audioOf n
  if a.events.length < 16 then d.setAudio n { a with events := a.events ++ [e] } else d.bump .LEG_EVENT_LOST n

/-- LEG_EVENT as a number (R195). -/
def LegEvent.word (e : LegEvent) : Nat :=
  e.start % 2 ^ 32 * 2 ^ 32 + e.duration % 65536 * 65536 + e.code % 256 * 256 + if e.inband then 128 else 0

/-- The events still open, and the last 16 that have ended, whose further end packets are ignored (R194, log entry 100). -/
def keepEvents (es : List OpenEvent) : List OpenEvent :=
  let done := es.filter (·.ended)
  done.drop (done.length - 16) ++ es.filter fun e => !e.ended

/-- An RFC 4733 packet (R194): its event's duration, counted by the clock of the leg's audio (log entry 37), and its end. -/
def Dev.eventRx (d : Dev) (n : Nat) (p : RtpPkt) : Dev :=
  if !d.bitOf .LEG_DTMF_MODE n 0 2 then d else
    let a := d.audioOf n
    let same := fun (e : OpenEvent) => decide (e.ts = p.ts ∧ e.code = p.event.code)
    let o := (a.openEv.find? same).getD { ts := p.ts, code := p.event.code, start := d.stride }
    if o.ended then d
    else
      let o := { o with
        duration := ceilDiv (p.event.duration * 600) (max 1 (d.rxOf n).jb.clock), heard := d.stride, ended := p.event.ending }
      let d := d.setAudio n { a with openEv := keepEvents (a.openEv.filter (fun e => !same e) ++ [o]) }
      if o.ended then d.enterEvent n ⟨o.start, o.duration, o.code, false⟩ else d

/-- The RFC 4733 events end whose last packet came 60 strides ago or before (R194). -/
def Dev.eventTimeout (d : Dev) (n : Nat) : Dev :=
  let a := d.audioOf n
  let isOver := fun (e : OpenEvent) => !e.ended && decide (e.heard + 60 ≤ d.stride)
  let d' := d.setAudio n { a with openEv := keepEvents (a.openEv.map fun e => if isOver e then { e with ended := true } else e) }
  (a.openEv.filter isOver).foldl (fun d o => d.enterEvent n ⟨o.start, o.duration, o.code, false⟩) d'

/-- A read of LEG_EVENT (R195): the oldest entry, none where the FIFO is empty. -/
def Dev.readEvent (d : Dev) (n : Nat) : Option (Nat × Dev) :=
  let a := d.audioOf n
  match a.events with
  | [] => none
  | e :: r => some (e.word, d.setAudio n { a with events := r })

/-- The code of the DTMF key in row `r`, column `c` (R195). -/
def dtmfKey (r c : Nat) : Nat := [1, 2, 3, 12, 4, 5, 6, 13, 7, 8, 9, 14, 10, 0, 11, 15].getD (4 * r + c) 0

/-- The digit that a block of eight tone powers carries (R192). -/
def dtmfDigit (powers : List Nat) (least : Nat) : Option Nat :=
  let codes := powers.map levelCode
  let best := fun (l : List Nat) => ((List.range 4).foldl (fun b i => if l.getD b 0 < l.getD i 0 then i else b) 0)
  let row := codes.take 4
  let col := codes.drop 4
  let r := best row
  let c := best col
  let vr := row.getD r 0
  let vc := col.getD c 0
  let clear := fun (l : List Nat) (b : Nat) => (List.range 4).all fun i => i == b || decide (l.getD i 0 + 43 ≤ l.getD b 0)
  if least ≤ vr ∧ least ≤ vc ∧ vr ≤ vc + 43 ∧ vc ≤ vr + 21 ∧ clear row r ∧ clear col c then some (dtmfKey r c) else none

/-- Stage 3: one block of the detector (R192, R193). -/
def Dev.dtmfBlock (d : Dev) (n : Nat) (powers : List Nat) : Dev :=
  let a := d.audioOf n
  let t := a.dtmf
  let digit := dtmfDigit powers (d.nat .LEG_DTMF_MIN n)
  let (ended, t) := match t.active, digit with
    | some (k, since), some g =>
      if g = k then (none, { t with misses := 0 })
      else if t.misses = 0 then (none, { t with misses := 1, missAt := d.stride })
      else (some (k, (since, t.missAt)), { t with active := none, misses := 0 })
    | some (k, since), none =>
      if t.misses = 0 then (none, { t with misses := 1, missAt := d.stride })
      else (some (k, (since, t.missAt)), { t with active := none, misses := 0 })
    | none, _ => (none, t)
  let t := match t.active, digit with
    | none, some g => if t.last = some g then { t with active := some (g, d.stride), misses := 0 } else t
    | _, _ => t
  let t := { t with
    suppress := digit.isSome || (t.suppress && t.last.isSome), last := digit }
  let d := d.setAudio n { a with dtmf := t }
  match ended with
  | some (k, (since, at_)) => d.enterEvent n ⟨since, at_ - since, k, true⟩
  | none => d

/-- The detector's blocks of 160 samples from ACTIVATE on (R192): a finished one runs the eight Goertzel filters. -/
def Dev.dtmfFeed (d : Dev) (n : Nat) (xs : List Int) : Dev :=
  let a := d.audioOf n
  let b := a.dtmf.block ++ xs
  let d := d.setAudio n { a with dtmf := { a.dtmf with block := if b.length < 160 then b else b.drop 160 } }
  if b.length < 160 ∨ !d.bitOf .LEG_DTMF_MODE n 0 0 then d
  else d.dtmfBlock n ((List.range 8).map fun f => Config.goertzel f (b.take 160))

/-- Stage 5's play-point move that falls due (R145, R184): one stride toward the target, no sooner than 60 strides after the last. -/
def Dev.planMove (d : Dev) (n : Nat) : Dev :=
  let j := (d.rxOf n).jb
  let a := d.audioOf n
  if j.anchored ∧ j.depth ≠ j.target ∧ (j.lastMove.all fun m => decide (m + 60 ≤ d.stride)) ∧ a.move.isNone ∧ a.lossRun = 0 then
    d.setAudio n { a with move := some (decide (j.depth < j.target), 0) }
  else d

/-- Stage 6: the input filter profile (R186). -/
def Dev.inFilter (d : Dev) (n : Nat) (xs : List Int) : List Int × List Biquad :=
  let a := d.audioOf n
  if d.bitOf .LEG_PROC_ENABLE n 0 0 && !d.warmAudio then d.filterProfile (d.nat .LEG_IN_PROFILE n) 24 a.inBq xs else (xs, a.inBq)

/-- Is a waiting move made in this stride: its gate decision finds `y` quiet, or it is the thirtieth (R184)? -/
def Dev.moveNow (d : Dev) (n : Nat) (y : List Int) : Option Bool :=
  match (d.audioOf n).move with
  | some (up, waited) =>
    if levelCode (sumSquares (d.inFilter n y).1) < d.nat .LEG_GATE_CLOSE n ∨ 29 ≤ waited then some up else none
  | none => none

/-- The strides that an item covers: a warm-up period is three (R24). -/
def Dev.itemStrides (d : Dev) : Nat := if d.warmAudio then 3 else 1

/-- The half units of a stream's RTP clock that an item's samples take from stride `s` of the lap on. -/
def Dev.itemUnits (d : Dev) (n : Nat) (j : Jitter) (s : Nat) : Nat :=
  let w := d.nat .LEG_RX_CODEC n j.slot
  samplesIn (codecRate d.warmAudio w) s d.itemStrides * codecUnit d.warmAudio w

/-- Stage 1 for the samples of an item from stride `s` of the lap on, `past` half units after the play point. A packet whose buffer was
lost with its channel counts as lost (R344). -/
def Dev.takeItem (d : Dev) (n : Nat) (j : Jitter) (past s : Nat) : StrideIn :=
  let word := fun k => d.nat .LEG_RX_CODEC n k
  let j := { j with pkts := j.pkts.filter (!d.contentLost ·.buf) }
  j.take d.warmAudio word past (samplesIn (codecRate d.warmAudio (word j.slot)) s d.itemStrides)

/-- Packets of leg `n` whose read came back uncorrectable count as lost (R344). -/
def Dev.dropUnread (d : Dev) (n : Nat) (unread : List Nat) : Dev :=
  let r := d.rxOf n
  let gone := (r.jb.pkts.filterMap (·.buf)).filter fun h => unread.contains h && d.readsSingle h
  let hit := fun (p : JbPkt) => match p.buf with
    | some h => gone.contains h
    | none => false
  if gone = [] then d
  else (d.setRx n (r.setJb { r.jb with pkts := r.jb.pkts.filter (!hit ·) })).linesLost gone

/-- The play points of leg `n`'s streams pass the stride (R145): of all but the one it is heard by, and of that one too where `heard`. -/
def Dev.passStreams (d : Dev) (n : Nat) (heard : Bool) : Dev :=
  let r := d.rxOf n
  d.setRx n { r with
    jbs := r.jbs.map fun kv =>
      if kv.1 = r.voice && !heard then kv else (kv.1, kv.2.advance (d.itemUnits n kv.2 (d.nat .STRIDE_IN_LAP))) }

/-- Stages 1 to 3 see what a stride decoded: the tap of the decoder output, and DTMF detection on G.711 (R192, R205, R474). -/
def Dev.decoded (d : Dev) (n : Nat) (x : StrideIn) (xs : List (Int × Int)) : Dev :=
  let d := d.tap n 1 (if x.stereo then (xs.map fun p => [p.1, p.2]).flatten else xs.map (·.1))
  let c := d.fld .LEG_RX_CODEC n x.jb.slot 3 0
  if !d.warmAudio && decide (c = 1 ∨ c = 2) then d.dtmfFeed n (foldMono x.stereo xs) else d

/-- A stride whose samples are missing (R180, R181). Of Opus that is one before any packet, which is silent. -/
def Dev.missingStride (d : Dev) (n : Nat) (x : StrideIn) : List Int × Dev :=
  let a := d.audioOf n
  let d := d.setRx n ((d.rxOf n).setJb (x.jb.advance (d.itemUnits n x.jb (d.nat .STRIDE_IN_LAP))))
  if d.fld .LEG_RX_CODEC n x.jb.slot 3 0 = 4 then
    let y := List.replicate 80 0
    (y, d.setAudio n { a with hist := keepHist a.hist y })
  else
    let c := a.conceal
    (c.1, (d.setAudio n { c.2 with hist := keepHist a.hist c.1 }).countConcealed n)

/-- Stages 1 to 5 (R179 to R185): the stride's samples at the internal rate. A move that waits is made in a quiet stride. -/
def Dev.inputSamples (d : Dev) (n : Nat) : List Int × Dev :=
  let warm := d.warmAudio
  let r := d.rxOf n
  let s := d.nat .STRIDE_IN_LAP
  let x := d.takeItem n r.jb 0 s
  let d := d.add .LEG_OPUS_FEC_USED n 0 x.fec
  match x.samples with
  | none => d.missingStride n x
  | some xs =>
    let a := d.audioOf n
    let w := d.nat .LEG_RX_CODEC n x.jb.slot
    let c := a.srcIn.toInternal warm w s (foldMono x.stereo xs) 80
    let y := if a.join then crossfade a.hist c.1 else c.1
    let units := d.itemUnits n x.jb s
    let next := (s + d.itemStrides) % 600
    let x2 := d.takeItem n x.jb units next
    let a := { a with lossRun := 0 }
    let moved := { a with move := none }
    match d.moveNow n y, x2.samples with
    | some true, _ =>
      let y := repeatStride 0 (a.hist.drop (a.hist.length - 80))
      let d := d.setRx n (r.setJb { x.jb with depth := x.jb.depth + 1, lastMove := some d.stride })
      (y, (d.setAudio n { moved with hist := keepHist a.hist y, join := true }).bump .LEG_PLAY_MOVES n)
    | some false, some xs2 =>
      let d := (d.decoded n x xs).decoded n x2 xs2
      let c2 := c.2.toInternal warm w next (foldMono x2.stereo xs2) 80
      let y := crossfade a.hist c2.1
      let j := x2.jb.advance (units + d.itemUnits n x.jb next)
      let d := (d.add .LEG_OPUS_FEC_USED n 0 x2.fec).setRx n (r.setJb { j with depth := j.depth - 1, lastMove := some d.stride })
      let a := { d.audioOf n with move := none, lossRun := 0, hist := keepHist a.hist y, srcIn := c2.2, join := false }
      (y, (d.setAudio n a).bump .LEG_PLAY_MOVES n)
    | _, _ =>
      let d := (d.decoded n x xs).setRx n (r.setJb (x.jb.advance units))
      let a := { d.audioOf n with
        lossRun := 0, hist := keepHist a.hist y, srcIn := c.2, join := false, move := a.move.map fun m => (m.1, m.2 + 1) }
      (y, d.setAudio n a)

/-- The noise gate (R189): its state, hold count and gains for the 80 samples. The decision is made whether or not the
gate is enabled (log entry 31). -/
def Dev.gateRun (d : Dev) (n lambda : Nat) (a : LegAudio) : List Int × LegAudio :=
  let isOpen := if d.nat .LEG_GATE_OPEN n ≤ lambda then true
    else if lambda < d.nat .LEG_GATE_CLOSE n ∧ a.gateHold = 0 then false else a.gate
  let hold := if d.nat .LEG_GATE_OPEN n ≤ lambda then d.nat .LEG_GATE_HOLD n
    else if isOpen then a.gateHold - 1 else a.gateHold
  let goal : Int := if isOpen then 0x4000 else d.nat .LEG_GATE_FLOOR n
  let gains := (List.range 80).map fun (i : Nat) =>
    if isOpen != a.gate && i < 16 then a.gateGain + tdiv ((goal - a.gateGain) * ((i + 1 : Nat) : Int)) 16 else goal
  (gains, { a with
    gate := isOpen, gateHold := hold, gateGain := goal
    closedFor := if isOpen then 0 else a.closedFor + 1 })

/-- The AGC (R190): the gains of the 80 samples. -/
def Dev.agcRun (d : Dev) (n lambda : Nat) (on : Bool) (a : LegAudio) : List Int × LegAudio :=
  let gamma := if on && a.gate then
      let err : Int := 16 * d.nat .LEG_AGC_TARGET n - (16 * lambda + a.gamma)
      let g := a.gamma + clamp (-(d.nat .LEG_AGC_DOWN n : Int)) (d.nat .LEG_AGC_UP n) err
      clamp (-1024) (d.int .LEG_AGC_MAX n) g
    else a.gamma
  let g1 := if on then agcGainOf gamma else 0x1000
  ((List.range 80).map fun (i : Nat) => a.agcGain + tdiv ((g1 - a.agcGain) * ((i + 1 : Nat) : Int)) 80, { a with gamma := gamma, agcGain := g1 })

/-- A held peak (R191): its value and the strides it has stood. -/
def peakHold (old age limit peak : Nat) : Nat × Nat :=
  if old < peak then (peak, 0) else if limit ≤ age + 1 then (peak, 0) else (old, age + 1)

/-- Stage 9 on a stage-8 output (R191): level, peak and activity. -/
def Dev.inLevels (d : Dev) (n : Nat) (x8 : List Int) : Dev :=
  let a := d.audioOf n
  let level := levelCode (sumSquares x8)
  let alpha := a.alpha + asr (16 * (if a.gate then (level : Int) else 0) - a.alpha) 2
  let pk := peakHold (d.nat .LEG_IN_PEAK n) a.inPeakAge (d.nat .LEG_PEAK_HOLD n) (peakOf x8)
  (((d.setAudio n { a with alpha := alpha, inPeakAge := pk.2 }).setN .LEG_IN_LEVEL n level).setN .LEG_IN_PEAK n pk.1).setN
    .LEG_ACTIVITY n alpha.toNat

/-- The input item of leg `n` completes (R176, stages 1 to 9). It acts on a leg whose item was dispatched in this
stride and has not completed. -/
def Dev.audioInput (d : Dev) (n : Nat) (unread : List Nat) : Dev :=
  let a := d.audioOf n
  if !a.want || a.done then d else
    let warm := d.warmAudio
    let s5 := (((d.dropUnread n unread).passStreams n false).planMove n).inputSamples n
    let d := s5.2
    let f := d.inFilter n s5.1
    let lambda := levelCode (sumSquares f.1)
    let g := d.gateRun n lambda { d.audioOf n with inBq := f.2 }
    let x7 := if d.bitOf .LEG_PROC_ENABLE n 0 1 then (f.1.zip g.1).map fun p => rne (p.1 * p.2) 14 else f.1
    let c := d.agcRun n (levelCode (sumSquares x7)) (d.bitOf .LEG_PROC_ENABLE n 0 2 && !warm) g.2
    let x8 := if warm then x7 else (x7.zip c.1).map fun p => sat (rne (p.1 * p.2) 12) 24
    let a := c.2
    let x8 := if a.cut then crossfade a.last8 x8 else x8
    let a := { a with lambda := lambda, x := x8, last8 := x8, done := true, cut := false, cuts8 := 0 }
    let d := (((d.setAudio n a).tap n 2 x8).inLevels n x8).setI .LEG_AGC_GAIN n 0 a.gamma
    (d.setN .LEG_GATE_STATE n (if a.gate then 1 else 0)).endItem .input n

/-- Is leg `n` heard: its media ACTIVE and not suspended? -/
def Dev.mediaActive (d : Dev) (n : Nat) : Bool :=
  decide ((d.lifeOf n).media = 2) && !(d.lifeOf n).suspended && decide (d.legState n = .active)

/-- Is the video of leg `n` carried: its media, in full service (R433, R437)? -/
def Dev.videoRuns (d : Dev) (n : Nat) : Bool := d.mediaActive n && decide (d.service = .full)

/-- Legs by descending α, ties to the lower number. -/
def Dev.byActivity (d : Dev) (ls : List Nat) : List Nat :=
  sortAsc (fun n => (2 ^ 40 - (d.audioOf n).alpha).toNat) (sortAsc id ls)

/-- Legs leave a conference's contributors: those whose g is above 0 at `value` take a ramp-out place or wait for one (R197). -/
def Dev.rampOut (d : Dev) (value : Ramp → Int) (x : ConfMix) (gone : List Nat) : ConfMix :=
  gone.foldl (fun x n =>
    if value (d.audioOf n).g = 0 then x
    else if x.places.length < 32 then { x with places := x.places ++ [n] }
    else { x with waiting := sortAsc id (x.waiting ++ [n]) }) x

/-- Takes legs out of the set. -/
def Dev.leaveSet (d : Dev) (value : Ramp → Int) (x : ConfMix) (gone : List Nat) : ConfMix :=
  d.rampOut value { x with set := x.set.filter fun m => !gone.contains m.leg } gone

/-- Does candidate `n` meet the entry condition of R196 against a mix; the weakest member that it could displace. -/
def Dev.entryTest (d : Dev) (k : Nat) (x : ConfMix) (n : Nat) : Bool × Option Nat :=
  let alpha := fun m => (d.audioOf m).alpha
  let shaky := x.set.filter fun m => !m.pinned && decide (m.since + d.nat .CONF_MIX_HOLD k ≤ d.stride)
  let weakest := minBy? (fun (m : Member) => ((alpha m.leg) * 4096 + (4095 - m.leg : Nat)).toNat) shaky
  if x.set.length + x.waiting.length < d.nat .CONF_MIX_N k then (true, none)
  else match weakest with
    | some m => (decide (alpha m.leg + 16 * d.nat .CONF_MIX_HYST k < alpha n), some m.leg)
    | none => (false, none)

/-- One candidate of R196: the mix with its lead count, and with it in the set where it enters. A candidate that met the condition before
this stride's entries keeps its count (R206). -/
def Dev.candidate (d : Dev) (k : Nat) (before x : ConfMix) (n : Nat) : ConfMix × Nat :=
  let t := d.entryTest k x n
  let lead := if t.1 || (d.entryTest k before n).1 then tget 0 n x.lead + 1 else 0
  let x' := { x with lead := tput 0 n lead x.lead }
  let enter := fun (y : ConfMix) =>
    ({ y with
      set := y.set ++ [⟨n, d.stride, false⟩], lead := tdel n y.lead
      places := y.places.filter (· ≠ n), waiting := y.waiting.filter (· ≠ n) }, 1)
  if !t.1 ∨ lead < d.nat .CONF_MIX_ENTER k then (x', 0)
  else match t.2 with
    | none => enter x'
    | some m => if x.places.length < 32 then enter (d.leaveSet Ramp.reached x' [m]) else (x', 0)

/-- Ramp-out places that free go to the waiting legs in ascending number (R197). -/
def Dev.freePlaces (d : Dev) (x : ConfMix) : ConfMix :=
  let live := fun n => decide ((d.audioOf n).g.now ≠ 0)
  let kept := x.places.filter live
  let waits := x.waiting.filter live
  { x with places := kept ++ waits.take (32 - kept.length), waiting := waits.drop (32 - kept.length) }

/-- The pinned legs that a lowered CONF_MIX_N puts out: those of least activity (R203), until it or they change (log entry 129). -/
def Dev.barredPins (d : Dev) (x : ConfMix) (cap : Nat) (pinned : List Nat) : List Nat :=
  let held := d.byActivity ((x.set.filter (·.pinned)).map (·.leg))
  if x.cap < cap then []
  else if cap < x.cap ∧ cap < held.length then pinned.filter fun n => !(held.take cap).contains n
  else x.barred.filter fun n => pinned.contains n

/-- Speaker selection of conference `k` (R196, R197, R203): the new set, and the entries made. -/
def Dev.select (d : Dev) (k : Nat) : ConfMix × Nat :=
  let x := d.freePlaces (d.mixOf k)
  let cap := d.nat .CONF_MIX_N k
  let able := (d.confMembers k).filter fun n => d.mediaActive n && decide (d.nat .LEG_MIX_MODE n ≠ 0)
  let released := x.set.filter fun m =>
    !able.contains m.leg || (decide (d.nat .LEG_MIX_MODE m.leg = 1) &&
      decide (d.nat .CONF_MIX_RELEASE k ≤ (d.audioOf m.leg).closedFor))
  let x := d.leaveSet Ramp.reached x (released.map (·.leg))
  let pinned := able.filter fun n => d.nat .LEG_MIX_MODE n = 2
  let barred := d.barredPins x cap pinned
  let pins := (pinned.filter fun n => !barred.contains n).take cap
  let x := { x with set := x.set.map fun (m : Member) => { m with pinned := pins.contains m.leg }, cap := cap, barred := barred }
  let newPins := pins.filter fun n => !(x.set.any fun m => m.leg = n)
  let x := { x with places := x.places.filter (!newPins.contains ·), waiting := x.waiting.filter (!newPins.contains ·) }
  let chosen := d.byActivity ((x.set.filter fun m => !m.pinned && decide (d.nat .LEG_MIX_MODE m.leg = 1)).map (·.leg))
  let above := (x.set.filter fun m => !m.pinned && decide (d.nat .LEG_MIX_MODE m.leg = 2)).map (·.leg)
  let excess := x.set.length + x.waiting.length + newPins.length - above.length - cap
  let x := d.leaveSet Ramp.reached x (chosen.reverse.take excess ++ (d.byActivity above).reverse)
  let entering := newPins.take (32 - (x.set.length + x.waiting.length))
  let x := { x with set := x.set ++ entering.map fun n => (⟨n, d.stride, true⟩ : Member) }
  let cands := d.byActivity (able.filter fun n =>
    decide (d.nat .LEG_MIX_MODE n = 1) && (d.audioOf n).gate && !(x.set.any fun m => m.leg = n))
  let x := { x with lead := x.lead.filter fun l => cands.contains l.1 }
  cands.foldl (fun (s : ConfMix × Nat) n =>
    let r := d.candidate k x s.1 n
    (r.1, s.2 + r.2)) (x, entering.length)

/-- What the objects of R202 and R203 say of a mix whose set was `before`. -/
def Dev.showMix (d : Dev) (k : Nat) (before : List Member) : Dev :=
  let now := (d.mixOf k).set.map (·.leg)
  let d := (before.map (·.leg)).foldl (fun d n => if now.contains n then d else d.setN .LEG_IN_MIXED n 0) d
  let d := now.foldl (fun d n => d.setN .LEG_IN_MIXED n 1) d
  let order := d.byActivity now
  ((List.range 32).foldl (fun d i => d.put .CONF_MIX_MEMBER k i (.num (order.getD i 0xFFFF : Nat))) d).setN .CONF_MIX_COUNT k now.length

/-- The full mix of the contributors (R198): each leg's contribution, and their sum. -/
def Dev.fullMix (d : Dev) (x : ConfMix) : List (Nat × List Int) × List Int :=
  let legs := ((x.set.map (·.leg)) ++ x.places ++ x.waiting).eraseDups
  let w := legs.map fun n =>
    let a := d.audioOf n
    (n, ((if a.done then a.x else a.last8).zip a.g.gains).map fun p => p.1 * p.2)
  (w, (List.range 80).map fun i => w.foldl (fun s c => s + c.2.getD i 0) 0)

/-- The mix item of conference `k` completes once every dispatched input item of its members has (R176, R196 to R198). -/
def Dev.mixRun (d : Dev) (k : Nat) : Dev :=
  let x := d.mixOf k
  let ready := (d.confMembers k).all fun n => !(d.audioOf n).want || (d.audioOf n).done
  if !x.want || x.mixed || !ready || d.itemFailed .mix k then d else
    let s := d.select k
    let m := d.fullMix s.1
    let d := (d.setMix k { s.1 with w := m.1, m := m.2, mixed := true }).add .CONF_MIX_CHANGES k 0 s.2
    (d.showMix k x.set).endItem .mix k

/-- One sample through the limiter (R200): the sample that leaves and the gain it took. -/
def Limiter.step (l : Limiter) (on : Bool) (thr rel : Nat) (x : Int) : (Int × Nat) × Limiter :=
  let low := l.rs.foldl min 0x8000
  let h := min (l.hs.getLastD 0x8000 + rel) low
  let hs := l.hs.drop 1 ++ [h]
  let g : Nat := if on then (hs.foldl (· + ·) 0) / 32 else 0x8000
  let y := rne (l.xs.headD 0 * (g : Int)) 15
  let r := if x = 0 then 0x8000 else min 0x8000 (thr * 32768 / x.natAbs)
  ((y, g), { xs := l.xs.drop 1 ++ [x], rs := l.rs.drop 1 ++ [r], hs := hs })

/-- Stage 14 over samples: outputs, least gain, saturations (R200). -/
def Limiter.run (on : Bool) (thr rel : Nat) (l : Limiter) : List Int → (List Int × (Nat × Nat)) × Limiter
  | [] => (([], (0x8000, 0)), l)
  | x :: r =>
    let s := l.step on thr rel x
    let t := Limiter.run on thr rel s.2 r
    let y := sat s.1.1 24
    ((y :: t.1.1, (min s.1.2 t.1.2.1, t.1.2.2 + if y = s.1.1 then 0 else 1)), t.2)

/-- Strides in a send frame (R23, R178). -/
def frameStrides (code : Nat) : Nat := [3, 6, 12, 18, 24, 36].getD code 12

/-- Stage 16 and the frame in hand (R201): the stride's samples at the codec rate join the frame. A whole frame waits for the edge
at which its encode item is dispatched. -/
def Dev.toFrameAt (d : Dev) (n s strides : Nat) (x14 : List Int) : Dev :=
  let w := d.nat .LEG_TX_CODEC n
  let rate := codecRate d.warmAudio w
  let a := d.audioOf n
  let c := a.srcOut.fromInternal d.warmAudio w s x14 (samplesIn rate s strides)
  if bits w 3 0 = 0 then d else
    let d := d.tap n 4 (c.1.map (encodeWord w))
    let frame := a.frame ++ c.1
    let k := a.frameStrides + strides
    let a := { a with srcOut := c.2 }
    let len := frameStrides (bits w 13 11)
    if k < len then d.setAudio n { a with frame := frame, frameStrides := k }
    else
      let t := d.txOf n
      let d := d.setTx n { t with
        audioTs := (t.audioTs + len * codecClock w / 600) % 2 ^ 32, audioAt := t.audioAt + len }
      let cut := frame.length - samplesIn rate ((s + strides - (k - len)) % 600) (k - len)
      d.setAudio n { a with frame := frame.drop cut, frameStrides := k - len, fresh := some (frame.take cut, t.audioTs) }

/-- Stage 16 for the output item in hand (R201): a stride, or in warm-up a period. -/
def Dev.toFrame (d : Dev) (n : Nat) (x14 : List Int) : Dev := d.toFrameAt n (d.nat .STRIDE_IN_LAP) d.itemStrides x14

/-- Stage 15: level and peak of the return (R191). -/
def Dev.outLevels (d : Dev) (n : Nat) (x14 : List Int) : Dev :=
  let a := d.audioOf n
  let pk := peakHold (d.nat .LEG_OUT_PEAK n) a.outPeakAge (d.nat .LEG_PEAK_HOLD n) (peakOf x14)
  ((d.setAudio n { a with outPeakAge := pk.2 }).setN .LEG_OUT_LEVEL n (levelCode (sumSquares x14))).setN .LEG_OUT_PEAK n pk.1

/-- The output item of leg `n` completes after its conference's mix (R176, stages 12 to 16). -/
def Dev.audioOutput (d : Dev) (n : Nat) : Dev :=
  let a := d.audioOf n
  let x := d.mixOf (d.nat .LEG_CONFERENCE n)
  if !a.want || a.outDone || !x.mixed then d else
    let own := tget [] n x.w
    let q := (List.range 80).map fun i =>
      rne ((x.m.getD i 0 - own.getD i 0) * (a.h.gains.getD i 0)) 28
    let q' := q.map fun y => sat y 28
    let clips := ((q.zip q').filter fun p => p.1 ≠ p.2).length
    let f := if d.bitOf .LEG_PROC_ENABLE n 0 3 && !d.warmAudio then
        d.filterProfile (d.nat .LEG_OUT_PROFILE n) 28 a.outBq q' else (q', a.outBq)
    let l := Limiter.run (d.bitOf .LEG_PROC_ENABLE n 0 4) (d.nat .LEG_LIM_THRESHOLD n) (d.nat .LEG_LIM_RELEASE n) a.lim f.1
    let y := if a.outCut then crossfade a.last14 l.1.1 else l.1.1
    let a := { a with
      outBq := f.2, lim := l.2, last14 := y, outDone := true, outCut := false, cuts14 := 0 }
    let d := ((d.setAudio n a).add .LEG_OUT_CLIPS n 0 (clips + l.1.2.2)).setN .LEG_LIM_MIN_GAIN n l.1.2.1
    (((d.tap n 3 y).outLevels n y).toFrame n y).endItem .output n

/-- Does leg `n` send audio: its media ACTIVE, or in a drain that sends (R109, R119)? -/
def Dev.sendsAudio (d : Dev) (n : Nat) : Bool :=
  let l := d.lifeOf n
  decide (l.media = 2) || (decide (l.media = 5) && !l.silentDrain)

/-- The encode item of leg `n` completes (R201): the packet of the frame that waits enters the audio queue. A DTX gap
sends none, and the next packet is marked. A leg whose media are neither ACTIVE nor draining sends none. -/
def Dev.audioEncode (d : Dev) (n ts : Nat) : Dev :=
  let a := d.audioOf n
  match a.ready with
  | none => d
  | some xs =>
    if a.readyTs ≠ ts then d else
    let c := encodeFrame d.warmAudio (d.nat .LEG_TX_CODEC n) a.enc xs
    let d := (d.setAudio n { a with ready := none, enc := c.2 }).endItem .encode n
    match c.1 with
    | none => d.setAudio n { d.audioOf n with marker := true }
    | some payload =>
      if !d.sendsAudio n then d
      else
        let t := d.txOf n
        let r := d.protectRtp n t.audioSsrc t.audioSeq
        if !r.1 then r.2 else
          let d := r.2
          let p : TxPkt :=
            { leg := n, ssrc := t.audioSsrc, seq := t.audioSeq, ts := a.readyTs, pt := d.nat .LEG_TX_AUDIO_PT n
              marker := a.marker, len := d.rtpLen n payload.length, payload := payload }
          let d := (d.setTx n { d.txOf n with audioSeq := (t.audioSeq + 1) % 65536 }).setAudio n
            { d.audioOf n with marker := false }
          d.enqueue n .audio { pkt := p }

/-- A cut input item: stage 8 is concealed (R183), stage 9 reports it, and the stride's samples have passed. -/
def Dev.concealInput (d : Dev) (n : Nat) : Dev :=
  let a := d.audioOf n
  let y := repeatStride a.cuts8 a.last8
  ((d.passStreams n true).setAudio n { a with x := y, last8 := y, cut := true, cuts8 := a.cuts8 + 1 }).inLevels n y

/-- A cut output item: stage 14 is concealed, and the stride's samples go on to stage 16 (R26, R183). -/
def Dev.concealOutput (d : Dev) (n : Nat) : Dev :=
  let a := d.audioOf n
  let y := repeatStride a.cuts14 a.last14
  let d := d.setAudio n { a with last14 := y, outCut := true, cuts14 := a.cuts14 + 1 }
  (((d.countConcealed n).tap n 3 y).outLevels n y).toFrame n y

/-- The output of leg `n` for `strides` strides of warm-up from stride `s` of the lap on, in which no audio item runs after a jump: concealed
(R19, R183, R205). -/
def Dev.concealRest (d : Dev) (s strides n : Nat) : Dev :=
  let a := d.audioOf n
  let y := repeatStride a.cuts14 a.last14
  let out := y.take (samplesIn 16000 s strides)
  let d := d.setAudio n { a with last14 := y, outCut := true, cuts14 := a.cuts14 + 1 }
  (((d.countConcealed n).tap n 3 out).outLevels n out).toFrameAt n s strides out

/-- Counts an audio item cut by the stride guard (R26). -/
def Dev.countOverrun (d : Dev) (b : Nat) : Dev :=
  let d := d.bump .AUDIO_OVERRUNS
  if b < 64 then d.bump .BLK_OVERRUNS b else d

/-- Step 1 of an edge (R25, R26, R176): every audio item dispatched in the stride that ends and not completed is cut, and
those that wait on it with it. -/
def Dev.audioGuard (d : Dev) : Dev :=
  let legs := (d.audio.filter fun kv => kv.2.want).map (·.1)
  let d := legs.foldl (fun d n =>
    if (d.audioOf n).done then d
    else (d.concealInput n).countOverrun (d.nat .LEG_ADMIT_BLOCK n)) d
  let confs := (d.mix.filter fun kv => kv.2.want && !kv.2.mixed).map (·.1)
  let d := confs.foldl (fun d k => d.countOverrun (d.nat .CONF_HOME_BLOCK k)) d
  let d := legs.foldl (fun d n =>
    let a := d.audioOf n
    if a.outDone then d else (d.concealOutput n).countOverrun (d.nat .LEG_ADMIT_BLOCK n)) d
  let d := ((d.audio.filter fun kv => kv.2.ready.isSome).map (·.1)).foldl (fun d n =>
    (d.setAudio n { d.audioOf n with ready := none }).countOverrun (d.nat .LEG_ADMIT_BLOCK n)) d
  let d := d.audio.foldl (fun d kv =>
    d.setAudio kv.1 { d.audioOf kv.1 with want := false, done := false, outDone := false }) d
  d.mix.foldl (fun d kv => d.setMix kv.1 { d.mixOf kv.1 with want := false, mixed := false }) d

/-- The contribution gain of leg `n` at an edge (R193, R199, R206). Tone suppression governs with 16 samples; where the set changed under it, the
set's ramp follows it. -/
def Dev.aimG (d : Dev) (n : Nat) (a : LegAudio) : LegAudio :=
  let k := d.nat .LEG_CONFERENCE n
  let len := 80 * d.nat .CONF_RAMP_STRIDES (k % 1024)
  let inSet := (d.mixOf k).set.any fun m => m.leg = n
  let goal : Int := if d.mediaActive n && inSet then d.nat .LEG_MIX_GAIN n else 0
  match a.blank, d.bitOf .LEG_DTMF_MODE n 0 1 && a.dtmf.suppress with
  | none, true => { a with blank := some inSet, g := if a.g.now = 0 then a.g.aim 0 16 else ⟨a.g.now, 0, 0, 16⟩ }
  | some _, true => a
  | some was, false => { a with blank := none, g := a.g.aim goal (if inSet = was then 16 else len) }
  | none, false => { a with g := a.g.aim goal len }

/-- The target of leg `n`'s output gain (R199). -/
def Dev.hTarget (d : Dev) (n : Nat) : Int := if d.flag .LEG_OUT_MUTE n then 0 else d.nat .LEG_OUT_GAIN n

/-- Members that are no longer ACTIVE leave the mixed set at the edge that starts their ramps (R206). -/
def Dev.setEdge (d : Dev) (k : Nat) : Dev :=
  let x := d.mixOf k
  let gone := (x.set.map (·.leg)).filter fun n => !d.mediaActive n
  if gone = [] then d else (d.setMix k (d.leaveSet Ramp.now (d.freePlaces x) gone)).showMix k x.set

/-- Step 7 of an edge: the stride's samples have passed, and ramps whose targets changed start from their present values (R25, R199).
In warm-up that is so where a period begins (R205). -/
def Dev.rampEdge (d : Dev) (passed : Bool) : Dev :=
  if !passed then d
  else
    let d := { d with audio := d.audio.map fun (kv : Nat × LegAudio) => (kv.1, { kv.2 with g := kv.2.g.pass, h := kv.2.h.pass }) }
    let d := (d.mix.map (·.1)).foldl Dev.setEdge d
    ((d.audio.map (·.1) ++ d.legs).eraseDups.filter fun n => decide (2 ≤ d.nat .LEG_STATE n)).foldl (fun d n =>
      let a := d.aimG n (d.audioOf n)
      d.setAudio n { a with h := a.h.aim (d.hTarget n) (80 * d.nat .CONF_RAMP_STRIDES (d.nat .LEG_CONFERENCE n % 1024)) }) d

/-- The media of leg `n` begin or return (R160, R184, R201): the frame grid starts at this edge, the first packet is marked, and the jitter
buffers are empty. At ACTIVATE the gate is closed and g and h are 0 (R189, R199). -/
def Dev.audioBegin (d : Dev) (n : Nat) (first : Bool) : Dev :=
  let w := d.nat .LEG_TX_CODEC n
  let t := d.txOf n
  let a : LegAudio := if first then { gateGain := d.nat .LEG_GATE_FLOOR n } else
    { d.audioOf n with frame := [], frameStrides := 0, ready := none, fresh := none, marker := true }
  let gone := if first then 0 else d.stride - t.audioAt
  let d := (d.setAudio n a).setRx n { d.rxOf n with jbs := [] }
  d.setTx n { t with audioAt := d.stride, audioTs := (t.audioTs + gone * codecClock w / 600) % 2 ^ 32 }

/-- Does leg `n` still contribute: its media ACTIVE, or its contribution ramping out (R107, R197)? -/
def Dev.listens (d : Dev) (n : Nat) : Bool := d.mediaActive n || (d.reserved n && decide ((d.audioOf n).g.now ≠ 0))

/-- Does leg `n` have an output item: its media ACTIVE, or a drain that sends (R109)? -/
def Dev.speaks (d : Dev) (n : Nat) : Bool :=
  d.mediaActive n || (decide ((d.lifeOf n).media = 5) && d.sendsAudio n && d.reserved n)

/-- A fault ends an item of this stride without a re-run (R380): it counts as cut by the stride guard (R26). An input or an output item is
concealed at once (R183), so that what waits on it goes on (DEDUCED, log entry 138); an encode item's frame is lost; a mix item is cut
with what waits on it; a line-loop item is missed. -/
def Dev.cutItem (d : Dev) (k : ItemKind) (u : Nat) : Dev :=
  let a := d.audioOf u
  let block := d.nat .LEG_ADMIT_BLOCK u
  match k with
  | .input =>
    if !a.want || a.done then d else
      let d := d.concealInput u
      (d.setAudio u { d.audioOf u with done := true }).countOverrun block
  | .output =>
    if !a.want || a.outDone then d else
      let d := d.concealOutput u
      (d.setAudio u { d.audioOf u with outDone := true }).countOverrun block
  | .encode => if a.ready.isNone then d else (d.setAudio u { a with ready := none }).countOverrun block
  | .mix => d.failItem .mix u
  | .loop => d.failItem .loop u
  | _ => d

/-- Dispatch of the audio items of an edge (R25, R318): input for every leg that contributes, output for every leg that sends, the mix of every
conference with members or contributors, the encode of a whole frame. A block that still wakes takes none (R403). The audio of a leg whose region has failed stays concealed in the
stride after (R387). -/
def Dev.audioDispatch (d : Dev) : Dev :=
  let awake := fun (d : Dev) n => decide (d.nat .BLK_STATE (d.nat .LEG_ADMIT_BLOCK n) = 0)
  let legs := (d.legs.filter fun n => d.listens n || d.speaks n).filter (awake d)
  let d := legs.foldl (fun d n =>
    let d := d.setAudio n { d.audioOf n with want := true, done := !d.listens n, outDone := !d.speaks n }
    let quiet := d.faults.silent.contains n
    let d := if !d.listens n then d else if quiet then d.cutItem .input n else d.addItem .input n
    let d := if !d.speaks n then d else if quiet then d.cutItem .output n else d.addItem .output n
    match (d.audioOf n).fresh with
    | some f => (d.setAudio n { d.audioOf n with ready := some f.1, readyTs := f.2, fresh := none }).addItem .encode n
    | none => d) d
  let d := { d with faults := { d.faults with silent := [] } }
  let mixes := d.confs.filter fun k =>
    let x := d.mixOf k
    !(d.confMembers k).isEmpty || !x.set.isEmpty || !x.places.isEmpty || !x.waiting.isEmpty
  mixes.foldl (fun d k => (d.setMix k { d.mixOf k with want := true }).addItem .mix k) d

/-- A write of TAP_CMD (R474). -/
def Dev.writeTap (d : Dev) : Res := do
  let n := d.nat .TAP_LEG
  d.need (n < 4096 && decide (d.legState n = .active)) .deviceState
  d.need (d.nat .TAP_STATE ≠ 1) .deviceState
  .ok { (d.setN .TAP_STATE 0 1).put .TAP_DATA 0 0 (.bytes []) with tapFrom := d.stride + 1 }

/-- A tap ends (R474). -/
def Dev.tapDone (d : Dev) : Dev := if d.nat .TAP_STATE = 1 then d.setN .TAP_STATE 0 2 else d

end Sys2Proof.Machine
end

