-- ==== Sys2Proof/Machine/Memory.lean ====
section
/-! DEFINITION. The DRAM's bytes: one list of addresses and bytes in canonical form, and the operations on it. A byte of
channel c at channel-local address A (R336) stands at c × 2^40 + A (log entry 20). Check symbols are computed from the
data (R337) and are not stored. -/

namespace Sys2Proof.Machine

/-- The bytes of one channel's address space in the model's numbering of DRAM (log entry 20). -/
def channelSpan : Nat := 2 ^ 40

/-- What a byte of DRAM that nothing has written reads as: initialisation writes zeros (R348). -/
def unlisted : Byte := 0

/-- The canonical form of a memory whose addresses all lie at or above `lo`: rising, and no entry that reads as an
unlisted one does. -/
def Memory.ordered (lo : Nat) : List Host.Cell → Bool
  | [] => true
  | (a, b) :: r => decide (lo ≤ a) && decide (b ≠ unlisted) && Memory.ordered (a + 1) r

/-- The canonical form of a memory. -/
def Memory.wf (m : List Host.Cell) : Bool := Memory.ordered 0 m

/-- The byte at an address. -/
def Memory.read : List Host.Cell → Nat → Byte
  | [], _ => unlisted
  | (k, v) :: r, a => if a = k then v else Memory.read r a

/-- Stores a byte. -/
def Memory.write : List Host.Cell → Nat → Byte → List Host.Cell
  | [], a, b => if b = unlisted then [] else [(a, b)]
  | (k, v) :: r, a, b =>
    if a < k then (if b = unlisted then (k, v) :: r else (a, b) :: (k, v) :: r)
    else if a = k then (if b = unlisted then r else (a, b) :: r)
    else (k, v) :: Memory.write r a b

/-- `n` bytes from an address up. -/
def Memory.readN (m : List Host.Cell) (a n : Nat) : Octets := (List.range n).map fun i => (Memory.read m (a + i)).toNat

/-- Stores octets from an address up. -/
def Memory.writeN (m : List Host.Cell) (a : Nat) : Octets → List Host.Cell
  | [] => m
  | b :: r => Memory.writeN (Memory.write m a (BitVec.ofNat 8 b)) (a + 1) r

/-- Sets every byte of a channel to the unlisted value (R348). -/
def Memory.clear (m : List Host.Cell) (c : Nat) : List Host.Cell := m.filter fun x => x.1 / channelSpan != c

end Sys2Proof.Machine
end

