-- ==== Sys2Proof/Machine/Dram.lean ====
section
/-! DEFINITION. The DRAM channels: the address map (R336), the symbol code (R337 to R340), the two placements (R342 to
R346), training (R347 to R349), refresh (R350, R351), pages (R352), panic (R353), neighbours (R354), margins (R356). -/

namespace Sys2Proof.Machine

/-- Channel `c` beyond its objects. -/
def Dev.chanOf (d : Dev) (c : Nat) : Chan := tget {} c d.chan
/-- Sets channel `c`. -/
def Dev.setChan (d : Dev) (c : Nat) (x : Chan) : Dev := { d with chan := tput {} c x d.chan }

/-- Multiplication by α in GF(2^8) with 0x11D (R337). -/
def gfX (b : Nat) : Nat := if b < 128 then 2 * b else (2 * b) ^^^ 0x11D

/-- x × α^n. -/
def gfShift (x : Nat) : Nat → Nat
  | 0 => x
  | n + 1 => gfX (gfShift x n)

/-- The syndromes s0 and s1 of ten symbols (R337). -/
def syndromes (w : List Nat) : Nat × Nat :=
  (w.foldl (· ^^^ ·) 0, (w.zipIdx.map fun x => gfShift x.1 x.2).foldl (· ^^^ ·) 0)

/-- The check symbols p8 and p9 of eight data symbols: the pair that makes both syndromes 0 (R337). -/
def checkSymbols (data : Octets) : Octets :=
  let s := syndromes data
  let pairs := (List.range 256).map fun p8 => (p8, s.1 ^^^ p8)
  match pairs.find? fun p => gfShift p.1 8 ^^^ gfShift p.2 9 ^^^ s.2 = 0 with
  | some p => [p.1, p.2]
  | none => [0, 0]

/-- A beat decoded (R337): the symbols, and the device that was corrected; none when it is uncorrectable. -/
def decodeBeat (marked : Option Nat) (w : List Nat) : Option (List Nat × Option Nat) :=
  let s := syndromes w
  if s.1 = 0 ∧ s.2 = 0 then some (w, none)
  else match marked with
    | some m => if s.2 = gfShift s.1 m then some (w.modify m (· ^^^ s.1), some m) else none
    | none =>
      if s.1 ≠ 0 ∧ s.2 ≠ 0 then
        match (List.range 10).find? fun e => gfShift s.1 e = s.2 with
        | some e => some (w.modify e (· ^^^ s.1), some e)
        | none => none
      else none

/-- The eight beats of a 64-byte burst as the channel holds them, with the errors the devices add (R337). -/
def beatsOf (data : Octets) (err : List (List Nat)) : List (List Nat) :=
  (List.range 8).map fun b =>
    let x := (data.drop (8 * b)).take 8
    let w := x ++ checkSymbols x
    let e := err.getD b []
    w.zipIdx.map fun y => y.1 ^^^ (e.getD y.2 0 % 256)

/-- A burst decoded (R337, R338): the data and the device corrected; none when it is uncorrectable, more than one
device named included. -/
def decodeBurst (marked : Option Nat) (data : Octets) (err : List (List Nat)) : Option (Octets × Option Nat) :=
  let rs := (beatsOf data err).map (decodeBeat marked)
  if rs.any (· == none) then none
  else
    let devs := (rs.filterMap fun r => r.bind (·.2)).eraseDups
    if 1 < devs.length then none
    else some (((rs.filterMap id).map fun r => r.1.take 8).flatten, devs.head?)

/-- The rank of a channel-local address (R336). -/
def rankOf (a : Nat) : Nat := bits a 34 34
/-- The row of an address. -/
def rowOf (a : Nat) : Nat := bits a 33 17
/-- The bank of an address, its group first, with the two XORs of R336. -/
def bankOf (a : Nat) : Nat := (bits a 7 6 ^^^ bits (rowOf a) 1 0) * 4 + (bits a 16 15 ^^^ bits (rowOf a) 3 2)

/-- Where pool memory places byte `x` of a channel: ranks in turn, without the top 128 KiB of each (R359). -/
def channelAddr (x : Nat) : Nat :=
  let m := 2 ^ 34 - 2 ^ 17
  x / m * 2 ^ 34 + x % m

/-- The first byte of pool `p` on each channel: the pools' shares stand in order of number, buffers before descriptors (log
entry 21). -/
def Dev.poolBase (d : Dev) (p : Nat) : Nat := (List.range p).foldl (fun a q => a + d.channelBytes * d.nat .POOL_SHARE q / 256) 0

/-- The channel-local address of byte `off` of the storage of index `i` of pool `p` (R359; log entry 21). -/
def Dev.storageAddr (d : Dev) (p i off : Nat) : Nat :=
  channelAddr (d.poolBase p + (i - poolFirst p) / 4 * poolSize p + off)

/-- What a channel-local address belongs to: the pool, the index and the byte in it. -/
def Dev.locate (d : Dev) (c a : Nat) : Option (Nat × (Nat × Nat)) :=
  let m := 2 ^ 34 - 2 ^ 17
  let x := a / 2 ^ 34 * m + a % 2 ^ 34
  if m ≤ a % 2 ^ 34 then none else (List.range 6).findSome? fun p =>
    let base := d.poolBase p
    if base ≤ x ∧ x < base + d.perChannel p * poolSize p then
      some (p, (poolFirst p + 4 * ((x - base) / poolSize p) + c, (x - base) % poolSize p))
    else none

/-- The marked device of a rank (R339, CH_MARKED). -/
def Dev.markedOf (d : Dev) (c r : Nat) : Option Nat :=
  let b := d.nat .CH_MARKED c / 2 ^ (8 * r) % 256
  if b < 128 then none else some (b % 16)

/-- Channels that are trained and not FAILED: full service begins while initialisation continues (R346, R348, R435). -/
def Dev.inService (d : Dev) : Nat := ((List.range 4).filter d.chServes).length

/-- The levels of RESET_n and CKE of channel `c` while its domain runs: both low when it has FAILED (R343) and before its first training step
has passed (R347), CKE low in self-refresh (R349). -/
def Dev.ddrPins (d : Dev) (c : Nat) : Level × Level :=
  match d.chState c with
  | 0 => (.low, .low)
  | 1 => if (d.chanOf c).step = 0 then (.low, .low) else (.high, .high)
  | 5 => (.high, .low)
  | 6 => (.low, .low)
  | _ => (.high, .high)

/-- Fails channel `c` for a cause numbered as the list of R343 (R343, R344, R346, R370). -/
def Dev.failChannel (d : Dev) (c cause : Nat) : Dev :=
  if d.chState c = 6 then d else
    let was := d.chState c
    let d := (d.setN .CH_STATE c 6).setN .PD_STATE (40 + c) 3
    let d := d.logRec
      { level := 3, cls := .degraded, action := .retired, unit := 0x2000 + c, code := 0x0904, detail := cause }
    let d := if (d.chanOf c).retrain ∧ (was = 1 ∨ was = 2) then d else d.poolChannelLost c
    let d := if was = 2 then
        d.put .DRAM_INIT_LEFT 0 0 (.num (d.nat .DRAM_INIT_LEFT - (d.ranks * 2 ^ 34 - (d.chanOf c).inited) : Nat))
      else d
    let first := (List.range 4).any fun c => decide (d.chState c = 1) && !(d.chanOf c).retrain
    let d := if d.inService = 2 ∧ !first then
        d.logRec { level := 3, cls := .serviceAffecting, unit := 0, code := 0x0906, detail := 2 }
      else d
    if d.inService < 2 ∧ d.service = .full ∧ was ≠ 1 then { d with rst := { d.rst with returnDue := true } } else d

/-- An uncorrectable burst on channel `c` is counted (R338, R343). -/
def Dev.burstLost (d : Dev) (c : Nat) : Dev :=
  let x := d.chanOf c
  let d := (d.setChan c { x with ue := x.ue + 1 }).bump .CH_UNCORRECTED c
  if d.nat .DRAM_UE_LIMIT < x.ue + 1 then d.failChannel c 2 else d

/-- A burst whose returned decode corrected device `dev` of rank `r` is counted, recorded, and may mark the device or
fail the channel (R338, R339). -/
def Dev.burstCorrected (d : Dev) (c r dev : Nat) : Dev :=
  let d := (d.bump .CH_CORRECTED c).logRec
    { level := 3, cls := .corrected, action := .corrected, unit := 0x2000 + c, code := 0x0901,
      detail := Config.detail 0x0901 [c, r, dev] }
  if d.markedOf c r = some dev then d
  else
    let x := d.chanOf c
    let n := tget 0 (r * 16 + dev) x.hits + 1
    let d := d.setChan c { x with hits := tset (r * 16 + dev) n x.hits }
    if n < d.nat .DRAM_MARK_THRESHOLD then d
    else if (d.markedOf c r).isSome then d.failChannel c 3
    else
      let d := (d.setN .CH_MARKED c (d.nat .CH_MARKED c + (128 + dev) * 2 ^ (8 * r))).setN .CH_STATE c 4
      d.logRec
        { level := 3, cls := .degraded, action := .none, unit := 0x2000 + c, code := 0x0903,
          detail := Config.detail 0x0903 [r, dev] }

/-- The number drawn at an activate (R354): the neighbours of a row that are to be refreshed. -/
def Dev.drawNeighbours (d : Dev) (c r b row : Nat) : Dev :=
  let n := d.draw
  let d := n.2
  if n.1 % 2 ^ d.nat .DRAM_NBR_SHIFT = 0 then
    let x := d.chanOf c
    d.setChan c { x with neighbours := x.neighbours ++ [(r, (b, row))] }
  else d

/-- An access to a row of a bank (R352): the predictor, the counters and the page; an activate draws a number (R354). -/
def Dev.accessBank (d : Dev) (c a : Nat) : Dev :=
  let r := rankOf a
  let b := bankOf a
  let row := rowOf a
  let x := d.chanOf c
  let k := tget {} (r, b) x.banks
  let kk := match k.row with
    | none => k.k
    | some old => if old = row then k.k - 1 else min 3 (k.k + 1)
  let hit := k.isOpen && decide (k.row = some row)
  let conflict := k.isOpen && decide (k.row ≠ some row)
  let policy := d.nat .DRAM_PAGE_POLICY
  let stay := decide (policy = 2) || (decide (policy = 0) && decide (kk < 2))
  let d := d.setChan c { x with banks := tset (r, b) { k := kk, row := some row, isOpen := stay } x.banks }
  let d := if hit then d.bump .CH_PAGE_HITS c else if conflict then d.bump .CH_PAGE_CONFLICTS c else d
  if hit then d else d.drawNeighbours c r b row

/-- Bit 63 of DETAIL where a burst of channel `c` is to be corrupted by an injection (R475). -/
def Dev.injectedAt (d : Dev) (c : Nat) : Nat := (d.spend 5 c).1

/-- Reads the burst at address `a` of channel `c`: an injected fault first (R475), else decode, one retry, and what each counts (R337, R338). -/
def Dev.readBurst (d : Dev) (m : List Host.Cell) (c a : Nat) (err retry : List (List Nat)) : Option Octets × Dev :=
  let a := a / 64 * 64
  let r := rankOf a
  let data := Memory.readN m (c * channelSpan + a) 64
  let d := (d.accessBank c a).add .CH_BYTES c 0 64
  if d.injectedAt c ≠ 0 then (none, ((d.spend 5 c).2.bump .CH_RETRIED c).bump .CH_UNCORRECTED c) else
  match decodeBurst (d.markedOf c r) data err with
  | some (x, dev) => (some x, match dev with
    | some e => d.burstCorrected c r e
    | none => d)
  | none =>
    let d := d.bump .CH_RETRIED c
    match decodeBurst (d.markedOf c r) data retry with
    | some (x, dev) => (some x, match dev with
      | some e => d.burstCorrected c r e
      | none => d)
    | none => (none, d.burstLost c)

/-- The other placement of a buffer that has two, seen from index `j`'s storage. -/
def Desc.other (x : Desc) (j : Nat) : Option Nat :=
  if x.mirrored ∧ x.primary ≠ x.mirror then some (if j = x.primary then x.mirror else x.primary) else none

/-- A line that the storage of `j` could not give is read from the other placement and written back (R342); `h` is the
buffer's handle with bit 63 where the fault was injected. -/
def Dev.mirrorRead (d : Dev) (m : List Host.Cell) (p j k off h : Nat) (err : List (List Nat)) :
    Option Octets × (Dev × List Host.Cell) :=
  let c := listOf p j
  let cm := listOf p k
  let a := d.storageAddr p j off
  let am := d.storageAddr p k off
  let bad := fun (d : Dev) =>
    (none, (d.logRec
      { level := 3, cls := .serviceAffecting, action := .lost, unit := 0x2000 + c, code := 0x0905, detail := h }, m))
  if !d.chServes cm then bad d
  else match d.readBurst m cm am err err with
    | (some x, d) =>
      let d := (d.bump .CH_MIRROR_READS c).logRec
        { level := 3, cls := .corrected, action := .mirrorUsed, unit := 0x2000 + c, code := 0x0902, detail := h }
      (some x, (d, if d.chServes c then Memory.writeN m (c * channelSpan + a) x else m))
    | (none, d) => bad d

/-- A read of the line at `off` of a buffer (R337, R342, R344): the data, or the failure its holder sees. -/
def Dev.readLine (d : Dev) (m : List Host.Cell) (p i off : Nat) (err retry mirror : List (List Nat)) :
    Option Octets × (Dev × List Host.Cell) :=
  let x := d.descOf p i
  let h := mkHandle p x.gen i
  let off := off / 64 * 64
  let c := listOf p x.primary
  if !d.chServes c then (none, (d, m))
  else
    let flag := d.injectedAt c
    let single := fun (d : Dev) =>
      (none, (d.lineLost c (h + flag), m))
    match d.readBurst m c (d.storageAddr p x.primary off) err retry with
    | (some y, d) => (some y, (d, m))
    | (none, d) =>
      match x.other x.primary with
      | some k => d.mirrorRead m p x.primary k off (h + flag) mirror
      | none => single d

/-- Does an access of `n` bytes at `off` lie in the live buffer that `h` names? -/
def Dev.inBuffer (d : Dev) (h off n : Nat) : Bool :=
  let p := handlePool h
  let x := d.descOf p (handleIndex h)
  decide (h ≠ nullHandle) && decide (p < 6) && decide (poolFirst p ≤ handleIndex h) && x.allocated &&
    decide (x.gen = handleGen h) && decide (off + n ≤ poolSize p)

/-- Stores octets in the storage of index `j` of pool `p` from byte `off` on. -/
def Dev.storeAt (d : Dev) (m : List Host.Cell) (p j off : Nat) : Octets → List Host.Cell
  | [] => m
  | b :: r =>
    d.storeAt (Memory.write m (listOf p j * channelSpan + d.storageAddr p j off) (BitVec.ofNat 8 b)) p j (off + 1) r

/-- A write of a line's bytes to every placement whose channel is not FAILED (R342, R345). -/
def Dev.writeLine (d : Dev) (m : List Host.Cell) (h off : Nat) (data : Octets) : Dev × List Host.Cell :=
  let p := handlePool h
  let x := d.descOf p (handleIndex h)
  let places := if x.mirrored then [x.primary, x.mirror].eraseDups else [x.primary]
  places.foldl (fun (s : Dev × List Host.Cell) j =>
    let c := listOf p j
    if s.1.chServes c then
      ((s.1.accessBank c (s.1.storageAddr p j off)).add .CH_BYTES c 0 data.length, s.1.storeAt s.2 p j off data)
    else s) (d, m)

/-- A scrub read of the burst at address `a` of channel `c` (R340). -/
def Dev.scrub (d : Dev) (m : List Host.Cell) (c a : Nat) (err retry mirror : List (List Nat)) :
    Dev × List Host.Cell :=
  let a := a / 64 * 64
  let at_ := c * channelSpan + a
  let flag := d.injectedAt c
  match d.readBurst m c a err retry with
  | (some x, d) => (d, Memory.writeN m at_ x)
  | (none, d) =>
    match d.locate c a with
    | none => (d, Memory.writeN m at_ (List.replicate 64 0))
    | some (p, (j, off)) =>
      let own := d.descOf p j
      let holder := if own.shadow then
          (d.pool.descs.find? fun kv => kv.1.1 = p && kv.2.allocated && (kv.2.primary = j || kv.2.mirror = j)).map
            fun kv => (kv.1.2, kv.2)
        else if own.allocated then some (j, own) else none
      match holder with
      | none => (d, Memory.writeN m at_ (List.replicate 64 0))
      | some (i, x) =>
        match x.other j with
        | some k => (d.mirrorRead m p j k off (mkHandle p x.gen i + flag) mirror).2
        | none =>
          (d.lineLost c (mkHandle p x.gen i + flag), m)

/-- The copy of a mirrored buffer to its new placement completes (R345): state homes go first, then contexts. -/
def Dev.remirror (d : Dev) (m : List Host.Cell) (h : Nat) : Dev × List Host.Cell :=
  let p := handlePool h
  let i := handleIndex h
  let x := d.descOf p i
  let before := d.pool.descs.any fun kv => kv.2.copying && decide (copyRank kv.2.use < copyRank x.use)
  if x.allocated ∧ x.copying ∧ x.gen = handleGen h ∧ !before then
    let place := fun (y : Host.Cell) => d.locate (y.1 / channelSpan) (y.1 % channelSpan)
    let old := m.filter fun y => (place y).any fun t => decide (t.1 = p) && decide (t.2.1 = x.mirror)
    let new := m.filterMap fun y => match place y with
      | some t => if t.1 = p ∧ t.2.1 = x.primary then
          some (listOf p x.mirror * channelSpan + d.storageAddr p x.mirror t.2.2, y.2) else none
      | none => none
    let d := d.setDesc p i { x with copying := false, mirrored := true }
    let d := d.put .DRAM_REMIRROR_LEFT 0 0 (.num (d.nat .DRAM_REMIRROR_LEFT - poolSize p : Nat))
    (d, new.foldl (fun m y => Memory.write m y.1 y.2) (old.foldl (fun m y => Memory.write m y.1 unlisted) m))
  else (d, m)

/-- Channel `c` begins training from step 1 (R347, R355). -/
def Dev.startTraining (d : Dev) (c : Nat) (again : Bool) : Dev :=
  let x := d.chanOf c
  (((d.setChan c { x with
    step := 0, ms := 0, retrain := again, lanes := [], inited := 0 }).setN .CH_STATE c 1).setN
    .CH_TRAIN_RESULT c 0).setN .PD_STATE (40 + c) 0

/-- A training step of channel `c` passed, or failed after its repeats (R347, R348). -/
def Dev.trainStep (d : Dev) (c : Nat) (passed : Bool) (ms : Nat) : Dev :=
  if d.chState c ≠ 1 then d else
    let x := d.chanOf c
    let step := if passed then x.step + 1 else x.step
    let t := x.ms + ms
    let d := d.setChan c { x with step := step, ms := t }
    let d := d.setN .CH_TRAIN_RESULT c (step * 2 ^ 28 + (if passed then 0 else (x.step + 1) * 2 ^ 24) + t % 65536)
    let d := if passed ∧ step = 1 then { d with pins := { d.pins with ddrResetN := .high, ddrCke := .high } } else d
    let d := if !passed then d.failChannel c 1
      else if step = 9 then (d.setN .CH_STATE c 2).add .DRAM_INIT_LEFT 0 0 (d.ranks * 2 ^ 34)
      else d
    if (List.range 4).all fun c => decide (2 ≤ d.chState c) then d.bringup 2 else d

/-- A training step with what it leaves in memory: where the last step ends training, initialisation begins to write zeros
(R347, R348; log entry 44). -/
def Dev.training (d : Dev) (m : List Host.Cell) (c : Nat) (passed : Bool) (ms : Nat) : Dev × List Host.Cell :=
  let e := d.trainStep c passed ms
  (e, if d.chState c = 1 ∧ e.chState c = 2 then Memory.clear m c else m)

/-- Initialisation of channel `c` ends (R348, R355). -/
def Dev.initDone (d : Dev) (c : Nat) : Dev :=
  if d.chState c ≠ 2 then d else
    let x := d.chanOf c
    let d := d.setChan c { x with retrain := false, inited := d.ranks * 2 ^ 34 }
    let d := d.setN .CH_STATE c (if d.nat .CH_MARKED c = 0 then 3 else 4)
    let d := d.put .DRAM_INIT_LEFT 0 0 (.num (d.nat .DRAM_INIT_LEFT - (d.ranks * 2 ^ 34 - x.inited) : Nat))
    d.poolChannelReady c x.retrain

/-- Initialisation of channel `c` has reached the 1 GiB that the handover condition asks for (R348, R435). -/
def Dev.initReached (d : Dev) (c : Nat) : Dev :=
  let x := d.chanOf c
  if d.chState c ≠ 2 ∨ 2 ^ 30 ≤ x.inited then d
  else
    let d := (d.setChan c { x with inited := 2 ^ 30 }).put .DRAM_INIT_LEFT 0 0
      (.num (d.nat .DRAM_INIT_LEFT - (2 ^ 30 - x.inited) : Nat))
    if x.retrain then d else d.poolChannelPart c (2 ^ 30)

/-- ALERT_n reports a CA parity error on channel `c` (R343). -/
def Dev.caParity (d : Dev) (c : Nat) : Dev :=
  if !d.chServes c then d else
  let x := d.chanOf c
  let now := d.stride
  let seen := (now :: x.alerts.filter fun s => now < s + 16).eraseDups
  let d := (d.setChan c { x with alerts := seen }).bump .CH_CA_PARITY c
  if 4 < seen.length then d.failChannel c 4 else d

/-- A retraining pause of one rank (R351): a centre moves by at most one step and must stay within ±16. -/
def Dev.retrainPause (d : Dev) (c : Nat) (lane : Int) : Dev :=
  let x := d.chanOf c
  let s := clamp (-1) 1 lane
  let key := x.pauseRank * 2 + (if x.pauseWrite then 1 else 0)
  let v := tget 0 key x.lanes + s
  let d := d.setChan c { x with
    sweeps := 0, pauseRank := if x.pauseWrite then (if x.pauseRank + 1 < d.ranks then x.pauseRank + 1 else 0)
      else x.pauseRank
    pauseWrite := !x.pauseWrite, lanes := tset key v x.lanes }
  let d := d.add .CH_RETRAIN_STEPS c 0 s.natAbs
  if 16 < v.natAbs then d.failChannel c 5 else d

/-- The interval to the next refresh in ns (R350): from the estimate of the DRAM temperature, or fixed by DRAM_REFRESH_MODE. -/
def Dev.refreshInterval (d : Dev) : Nat :=
  match d.nat .DRAM_REFRESH_MODE with
  | 1 => 3900
  | 2 => 1950
  | _ => if d.gov.dramHot then 1950 else 3900

/-- A refresh falls due on channel `c` (R350, R351): postponed while a panic is raised, at most four times; every
DRAM_RETRAIN_EVERY-th sweep holds a pause, which waits while a panic is raised. -/
def Dev.refresh (d : Dev) (c : Nat) (lane : Int) : Dev :=
  if !d.chServes c then d else
    let x := { d.chanOf c with interval := d.refreshInterval }
    let panic := d.panic ≠ []
    if panic && decide (x.due < 4) then d.setChan c { x with due := x.due + 1 }
    else
      let d := d.setChan c { x with due := 0, sweeps := x.sweeps + 1 }
      if decide (d.nat .DRAM_RETRAIN_EVERY ≤ x.sweeps + 1) && !panic then d.retrainPause c lane else d

/-- The neighbours of a row within `n` rows (R354). -/
def neighbourRows (row n : Nat) : Nat :=
  ((List.range n).filter fun i => i + 1 ≤ row).length + ((List.range n).filter fun i => row + i + 1 < 2 ^ 17).length

/-- Drawn neighbours are refreshed (R354). -/
def Dev.refreshNeighbours (d : Dev) (c r b row : Nat) : Dev :=
  if !d.chServes c then d else
    let x := d.chanOf c
    let d := d.setChan c { x with neighbours := x.neighbours.erase (r, (b, row)) }
    d.add .CH_NBR_REFRESHES c 0 (neighbourRows row (d.nat .DRAM_NBR_DISTANCE))

/-- A page kept open is closed (R352). -/
def Dev.closePage (d : Dev) (c r b : Nat) : Dev :=
  let x := d.chanOf c
  let k := tget {} (r, b) x.banks
  d.setChan c { x with banks := tput {} (r, b) { k with isOpen := false } x.banks }

/-- The panic level of a real-time port, in 1/256 of its buffer (R353). -/
def Dev.panicLevel (d : Dev) (p : RtPort) : Nat :=
  match p with
  | .composer _ => d.nat .DRAM_PANIC_COMPOSER
  | .pair _ => d.nat .DRAM_PANIC_PAIR
  | .egress => d.nat .DRAM_PANIC_EGRESS

/-- The read buffer of a real-time port stands at `fill`/256 (R353). -/
def Dev.portPanic (d : Dev) (p : RtPort) (fill : Nat) : Dev :=
  let l := d.panicLevel p
  if fill < l then (if d.panic.contains p then d else { d with panic := d.panic ++ [p] })
  else if 2 * l < fill then { d with panic := d.panic.erase p }
  else d

/-- A write of CH_CMD (R355). -/
def Dev.writeChCmd (d : Dev) (c cmd : Nat) : Res :=
  match cmd with
  | 1 => if d.chState c ≠ 6 then .error (.deviceState, d) else .ok ((d.startTraining c true).bump .PD_WAKES (40 + c))
  | 2 =>
    if (List.range 4).any fun k => k ≠ c && d.chState k = 6 then .error (.deviceState, d) else .ok (d.failChannel c 6)
  | _ => .error (.range, d)

/-- A write of MARGIN_CMD (R356). -/
def Dev.writeMargin (d : Dev) (c v : Nat) : Res := do
  d.need (v % 4 ≠ 0 && (v / 4 % 4 = 0) && v < 32 && v / 16 < max 1 d.ranks) .range
  d.need (d.nat .MARGIN_STATE c ≠ 1 && (d.chState c = 3 || d.chState c = 4)) .deviceState
  let x := d.chanOf c
  .ok ((d.setChan c { x with scan := some v }).setN .MARGIN_STATE c 1)

/-- A margin scan ends with the margins of the ten devices (R356). -/
def Dev.marginDone (d : Dev) (c : Nat) (values : List Nat) : Dev :=
  let x := d.chanOf c
  match x.scan with
  | none => d
  | some v =>
    let o : Obj := match v % 4 with
      | 1 => .MARGIN_READ
      | 2 => .MARGIN_WRITE
      | _ => .MARGIN_VREF
    let d := (d.setChan c { x with scan := none }).setN .MARGIN_STATE c 2
    (List.range 10).foldl (fun d k => d.put o c k (.num (values.getD k 0 % 65536 : Nat))) d

/-- A channel enters self-refresh (R349, R404, R438). -/
def Dev.selfRefresh (d : Dev) (c : Nat) : Dev :=
  if d.chState c = 6 ∨ d.chState c = 5 ∨ d.chState c = 0 then d
  else (d.setChan c { d.chanOf c with held := d.chState c }).setN .CH_STATE c 5

/-- A channel leaves self-refresh (R349): back to the state it held, or failed where a centre lies outside its range. -/
def Dev.leaveSelfRefresh (d : Dev) (c : Nat) (ok : Bool) : Dev :=
  if d.chState c ≠ 5 then d
  else
    let d := d.setN .CH_STATE c (d.chanOf c).held
    if ok then d else d.failChannel c 5

/-- The counts of one lap end at a lap edge (R339, R343). -/
def Dev.chanLapEdge (d : Dev) : Dev :=
  (List.range 4).foldl (fun d c => d.setChan c { d.chanOf c with hits := [], ue := 0 }) d

end Sys2Proof.Machine
end

