-- ==== Sys2Proof/Machine/Pictures.lean ====
section
/-! DEFINITION. Decoded pictures: their buffers in DRAM (R217, R226), mid-grey and concealment (R223, R224), and the limits of what
the decoder accepts (R212, R214, R216). -/

namespace Sys2Proof.Machine

/-- A plane of one value. -/
def flatPlane (w h v : Nat) : List (List Nat) := List.replicate h (List.replicate w v)

/-- The mid-grey picture of a size (R223): 128 in every plane at 8 bits, 512 at 10. -/
def midGrey (w h : Nat) (deep : Bool) : PictSamples :=
  let v := if deep then 512 else 128
  { w := w, h := h, deep := deep, y := flatPlane w h v, cb := flatPlane (w / 2) (h / 2) v, cr := flatPlane (w / 2) (h / 2) v }

/-- The octets of a picture as it stands in its buffers: Y, Cb, Cr, row by row, a 10-bit sample in two octets (log entry 130). -/
def pictOctets (p : PictSamples) : Octets :=
  ([p.y, p.cb, p.cr].map fun rows => (rows.map fun r => (r.map fun v => natToOctets (if p.deep then 2 else 1) v).flatten).flatten).flatten

/-- A plane read from octets. -/
def planeAt (b : Octets) (deep : Bool) (base w h : Nat) : List (List Nat) :=
  let s := if deep then 2 else 1
  (List.range h).map fun y => (List.range w).map fun x => Octets.toNat ((b.drop ((base + y * w + x) * s)).take s)

/-- The picture that octets hold. -/
def pictOf (w h : Nat) (deep : Bool) (b : Octets) : PictSamples :=
  { w := w, h := h, deep := deep, y := planeAt b deep 0 w h, cb := planeAt b deep (w * h) (w / 2) (h / 2)
    cr := planeAt b deep (w * h + w / 2 * (h / 2)) (w / 2) (h / 2) }

/-- Writes octets to buffers taken together, line by line, each to both of its placements (R226). -/
def Dev.writeBufs (d : Dev) (m : List Host.Cell) : List Nat → Octets → Dev × List Host.Cell
  | [], _ => (d, m)
  | h :: r, b =>
    let size := poolSize (handlePool h)
    let mine := b.take size
    let s := (List.range (ceilDiv mine.length 64)).foldl (fun (s : Dev × List Host.Cell) i =>
      s.1.writeLine s.2 h (64 * i) ((mine.drop (64 * i)).take 64)) (d, m)
    s.1.writeBufs s.2 r (b.drop size)

/-- `n` octets of the buffer a handle names, from the placement that serves (R226, R344). -/
def Dev.readBuf (d : Dev) (m : List Host.Cell) (h n : Nat) : Octets :=
  let p := handlePool h
  let x := d.descOf p (handleIndex h)
  let j := if d.chServes (listOf p x.primary) || !x.mirrored then x.primary else x.mirror
  (List.range n).map fun i => (Memory.read m (listOf p j * channelSpan + d.storageAddr p j i)).toNat

/-- `n` octets of buffers taken together. -/
def Dev.readBufs (d : Dev) (m : List Host.Cell) : List Nat → Nat → Octets
  | [], _ => []
  | h :: r, n =>
    let k := min n (poolSize (handlePool h))
    d.readBuf m h k ++ d.readBufs m r (n - k)

/-- The samples of a picture, of its coded size, from its buffers. -/
def Dev.samplesOf (d : Dev) (m : List Host.Cell) (p : Picture) : PictSamples :=
  let n := p.width * p.height + 2 * (p.width / 2 * (p.height / 2))
  pictOf p.width p.height p.deep (d.readBufs m p.bufs (if p.deep then 2 * n else n))

/-- A picture cut to its displayed size. -/
def cutPict (p : PictSamples) (w h : Nat) : PictSamples :=
  let w := min w p.w
  let h := min h p.h
  let crop := fun (rows : List (List Nat)) (w h : Nat) => (rows.take h).map fun r => r.take w
  { p with w := w, h := h, y := crop p.y w h, cb := crop p.cb (w / 2) (h / 2), cr := crop p.cr (w / 2) (h / 2) }

/-- The samples of a picture as composition reads them: those that are displayed (R266, R273). -/
def Dev.displayed (d : Dev) (m : List Host.Cell) (p : Picture) : PictSamples := cutPict (d.samplesOf m p) p.shown.1 p.shown.2

/-- Copies the co-located samples of `base` into the coding blocks that `lost` names (R224). `side` is a block's side, `across` how many
blocks a row has. -/
def concealPict (p base : PictSamples) (side across : Nat) (lost : Nat → Bool) : PictSamples :=
  let plane := fun (rows old : List (List Nat)) (s : Nat) => rows.zipIdx.map fun r => r.1.zipIdx.map fun v =>
    if lost (s * r.2 / side * across + s * v.2 / side) then (old.getD r.2 []).getD v.2 0 else v.1
  { p with y := plane p.y base.y 1, cb := plane p.cb base.cb 2, cr := plane p.cr base.cr 2 }

/-- Is a profile one that the device decodes (R212)? Codecs: 1 H.264, 2 HEVC, 3 AV1. -/
def profileOk (q : SeqParams) (codec : Nat) : Bool :=
  match codec with
  | 1 => decide (q.profile = 77 ∨ q.profile = 100) || (decide (q.profile = 66) && q.constrained)
  | 2 => decide (q.profile = 1 ∨ q.profile = 2)
  | _ => decide (q.profile = 0)

/-- Is a chroma format one that the device decodes (R212)? -/
def chromaOk (q : SeqParams) (codec : Nat) : Bool :=
  decide (q.chroma = 1) || (decide (q.chroma = 0) && (decide (codec = 3) || (decide (codec = 1) && decide (q.profile = 100))))

/-- Are the tiles within the table (R212)? `share` says that the content-share limits apply. -/
def tilesOk (q : SeqParams) (codec : Nat) (share : Bool) : Bool :=
  match codec with
  | 1 => decide (q.tileCols ≤ 1 ∧ q.tileRows ≤ 1)
  | 2 => decide (q.tileCols ≤ (if share then 10 else 5) ∧ q.tileRows ≤ (if share then 11 else 5))
  | _ => decide (q.tileCols ≤ 8 ∧ q.tileCols * q.tileRows ≤ (if share then 64 else 32))

/-- Is the coding block one that the device decodes (R212)? -/
def blockOk (q : SeqParams) (codec : Nat) : Bool :=
  match codec with
  | 1 => decide (q.block = 16)
  | 2 => decide (q.block = 16 ∨ q.block = 32 ∨ q.block = 64)
  | _ => decide (q.block = 64 ∨ q.block = 128)

/-- The layers of a sequence that decode slot `s` decodes, with their coded sizes (R215, R216): those up to SPATIAL, or where spatial
layers are independent SPATIAL alone. -/
def Dev.decLayers (d : Dev) (n s : Nat) (q : SeqParams) : List (Nat × (Nat × Nat)) :=
  let sp := d.fld .DEC_CTRL n s 11 8
  (q.layers.zipIdx.map fun x => (x.2, x.1)).filter fun x =>
    if d.bitOf .DEC_CTRL n s 12 then decide (x.1 = sp) else decide (x.1 ≤ sp)

/-- The parameter that puts a sequence outside limits (R212, R214, R216, R217), numbered as the list stands; 0 for none. `codec` is the
slot's. The level bound adds nothing that these do not (log entry 131). -/
def Dev.outsideBy (d : Dev) (n s codec : Nat) (q : SeqParams) : Nat :=
  let share := d.bitOf .DEC_CTRL n s 30
  let on := (d.decLayers n s q).map (·.2)
  let top := on.getLastD (0, 0)
  let px := on.foldl (fun a z => a + z.1 * z.2) 0
  let sp := d.fld .DEC_CTRL n s 11 8
  let f := if d.bitOf .DEC_CTRL n s 12 ∨ sp = 0 then 16 else if sp = 1 then 20 else 21
  let w := d.nat .DEC_MAX_WIDTH n s
  let h := d.nat .DEC_MAX_HEIGHT n s
  let tests : List Bool := [
    profileOk q codec, chromaOk q codec, decide (q.depth = 8) || (decide (q.depth = 10) && decide (codec ≠ 1)),
    decide (q.depth ≠ 10) || d.bitOf .DEC_CTRL n s 0, decide (codec = 3 ∨ q.slices ≤ 256), tilesOk q codec share, blockOk q codec,
    decide (q.refs ≤ if codec = 3 then 8 else 16), decide (q.bad = []),
    on.all fun z => if share then decide (z.1 ≤ 3840 ∧ z.2 ≤ 2176)
      else decide ((z.1 ≤ 1920 ∧ z.2 ≤ 1088) ∨ (z.1 ≤ 1088 ∧ z.2 ≤ 1920)),
    decide (px * q.mfps ≤ 125337600 * 1000), decide (q.mfps ≤ (if share then 15 else 60) * 1000),
    decide (top.1 ≤ w ∧ top.2 ≤ h), decide (px * 16 ≤ w * h * f), decide (q.mfps ≤ d.nat .DEC_MAX_FPS n s * 1000),
    decide (q.kbps ≤ d.nat .DEC_MAX_KBPS n s), decide (q.refs ≤ d.nat .DEC_MAX_DPB n s)]
  match tests.findIdx? (· == false) with
  | some i => i + 1
  | none => 0

end Sys2Proof.Machine
end

