-- ==== Sys2Proof/Machine/Video.lean ====
section
/-! DEFINITION. Video decode on the coding pairs (R207 to R231): contexts, release, deadlines, the decoded picture, and
the keyframe requests toward senders (R225, R306). -/

namespace Sys2Proof.Machine

/-- Decode slot `s` of leg `n`. -/
def Dev.decOf (d : Dev) (n s : Nat) : DecSlot := tget {} (n, s) d.dec
/-- Sets decode slot `s` of leg `n`. -/
def Dev.setDec (d : Dev) (n s : Nat) (x : DecSlot) : Dev := { d with dec := tput {} (n, s) x d.dec }
/-- Encode `e`. -/
def Dev.encOf (d : Dev) (e : EncId) : Enc := tget {} e d.enc
/-- Sets encode `e`. -/
def Dev.setEnc (d : Dev) (e : EncId) (x : Enc) : Dev := { d with enc := tput {} e x d.enc }
/-- The forwarded video of source `n`. -/
def Dev.fsrcOf (d : Dev) (n : Nat) : FwdSource := tget {} n d.fsrc
/-- Sets the forwarded video of source `n`. -/
def Dev.setFsrc (d : Dev) (n : Nat) (x : FwdSource) : Dev := { d with fsrc := tput {} n x d.fsrc }
/-- The keyframe request of stream `q` of source `n`. -/
def Dev.reqOf (d : Dev) (n q : Nat) : KfReq := tget {} q (d.fsrcOf n).reqs
/-- Sets the keyframe request of stream `q` of source `n`. -/
def Dev.setReq (d : Dev) (n q : Nat) (r : KfReq) : Dev :=
  d.setFsrc n { d.fsrcOf n with reqs := tput {} q r (d.fsrcOf n).reqs }

/-- A consumer joins the request of stream `q` of source `n` (R306). -/
def Dev.raiseKf (d : Dev) (n q c : Nat) (fir : Bool := false) : Dev :=
  let r := d.reqOf n q
  d.setReq n q { r with consumers := if r.consumers.contains c then r.consumers else r.consumers ++ [c], fir := r.fir || fir }

/-- The request of stream `q` closes: every joined consumer is served (R306). -/
def Dev.closeKf (d : Dev) (n q : Nat) : Dev :=
  let r := d.reqOf n q
  d.setReq n q { r with consumers := [], fir := false, sent := false, repeats := 0, firOut := false }

/-- A consumer leaves a request; it stays open while others hold it (R300, R231). -/
def Dev.dropKf (d : Dev) (n q c : Nat) : Dev :=
  let r := d.reqOf n q
  if !r.consumers.contains c then d else
    let cs := r.consumers.filter (· ≠ c)
    if cs = [] then d.closeKf n q else d.setReq n q { r with consumers := cs }

/-- Is a consumer a decode slot, and which? -/
def kfSlot (c : Nat) : Option Nat := if 0x10000 ≤ c ∧ c < 0x20000 then some (c - 0x10000) else none

/-- What the sending after `repeats` repeats of a request carries: a FIR, a PLI, or nothing (R306). FWD_KF_POLICY speaks for
the consumers that are not decode slots (log entry 32). -/
def Dev.kfMessage (d : Dev) (n : Nat) (r : KfReq) (index : Nat) : Option Bool :=
  let slots := r.consumers.filterMap kfSlot
  let pol := slots.map fun s => d.fld .DEC_CTRL n s 28 27
  let others := r.consumers.any fun c => (kfSlot c).isNone
  let fp := d.nat .FWD_KF_POLICY n
  let calls := fun (p : Nat) => decide (p = 2 ∨ (p = 3 ∧ 4 ≤ index))
  if r.fir || pol.any calls || (others && calls fp) then some true
  else if pol.any (· ≠ 0) || (others && decide (fp ≠ 0)) then some false
  else none

/-- Sends the request of stream `q` of source `n`: the first time, or again (R225, R306). It waits while the stream's SSRC
is not known. -/
def Dev.kfSend (d : Dev) (n q : Nat) : Dev :=
  let r := d.reqOf n q
  let index := if r.sent then r.repeats + 1 else 0
  match tfind q (d.fsrcOf n).ssrcs, d.kfMessage n r index with
  | some ssrc, some fir =>
    let seq := if fir && !r.firOut then (r.firSeq + 1) % 256 else r.firSeq
    let r' := { r with
      sent := true, repeats := index
      lastFirst := if r.sent then r.lastFirst else some d.stride
      lastSent := d.stride
      firSeq := seq, firOut := r.firOut || fir }
    let d := (d.setReq n q r').sendRtcp n [if fir then .fir ssrc seq else .pli ssrc]
    (r.consumers.filterMap kfSlot).foldl (fun d s => d.bump .DEC_KF_REQUESTS n s) (d.bump .FWD_KF_SENT n)
  | _, _ => d

/-- The requests raised before an edge and not yet sent. -/
def Dev.kfOpen (d : Dev) : List (Nat × Nat) :=
  (d.fsrc.map fun s => (s.2.reqs.filter fun r => r.2.consumers ≠ [] && !r.2.sent).map fun r => (s.1, r.1)).flatten

/-- First requests at an edge, no sooner than FWD_KF_MIN_GAP after the stream's last (R306). -/
def Dev.kfEdge (d : Dev) (open_ : List (Nat × Nat)) : Dev :=
  open_.foldl (fun d p =>
    let r := d.reqOf p.1 p.2
    let due := match r.lastFirst with
      | some t => decide (t + d.nat .FWD_KF_MIN_GAP p.1 ≤ d.stride)
      | none => true
    if r.consumers ≠ [] && !r.sent && due && d.mediaActive p.1 then d.kfSend p.1 p.2 else d) d

/-- The strides between a request and its repeat (R225, R306). -/
def Dev.kfInterval (d : Dev) (n : Nat) : Nat := max 30 (ceilDiv (2 * d.nat .LINE_RTT n * 600) 1000000)

/-- A repeat interval runs out (R225, R306). -/
def Dev.kfRepeat (d : Dev) (n q : Nat) : Dev :=
  let r := d.reqOf n q
  if r.consumers ≠ [] && r.sent && decide (r.lastSent + d.kfInterval n ≤ d.stride) && d.mediaActive n then d.kfSend n q else d

/-- The governor's shedding step (R411). -/
def Dev.govStep (d : Dev) : Nat := d.nat .GOV_STEP

/-- Does decode slot `s` of leg `n` decode (R215; R411 step 4)? -/
def Dev.decOn (d : Dev) (n s : Nat) : Bool :=
  d.videoRuns n && d.bitOf .DEC_CTRL n s 31 && decide (d.govStep < 4) && (d.lifeOf n).videoIn

/-- The codec slot word of decode slot `s` (R215, R132). -/
def Dev.decCodec (d : Dev) (n s : Nat) : Nat :=
  d.nat .VRX_CODEC n (d.fld .LEG_RX_PT n (d.fld .DEC_CTRL n s 23 20 % 8) 19 16 % 4)

/-- Forerunner mode (R228): H.264 only. -/
def Dev.forerunner (d : Dev) (n s : Nat) : Bool :=
  d.bitOf .DEC_CTRL n s 29 && decide (d.decCodec n s % 16 = 1)

/-- The number of the DEC_STATE OUTSIDE_LIMITS. -/
def Dev.decOutsideNow (d : Dev) (n s : Nat) : Bool := decide (d.nat .DEC_STATE n s = 4)

/-- DEC_STATE after a change. -/
def Dev.decState (d : Dev) (n s : Nat) : Dev :=
  let x := d.decOf n s
  let v := if !d.decOn n s then 0 else if d.decOutsideNow n s then 4 else if !x.started then 1
    else if x.concealing then 3 else 2
  d.put .DEC_STATE n s (.num (v : Nat))

/-- A decode slot raises a keyframe request (R225): nothing under policy 0, nor while its stream is outside limits (R214). -/
def Dev.decRequest (d : Dev) (n s : Nat) : Dev :=
  if d.fld .DEC_CTRL n s 28 27 = 0 || d.decOutsideNow n s then d else d.raiseKf n (d.fld .DEC_CTRL n s 19 16) (0x10000 + s)

/-- A decode slot's request is served or ends. -/
def Dev.decServed (d : Dev) (n s : Nat) : Dev := d.dropKf n (d.fld .DEC_CTRL n s 19 16) (0x10000 + s)

/-- The pair of an encode (R114, R236, R265). -/
def Dev.encPair (d : Dev) (e : EncId) : Nat :=
  match e with
  | .composed n => d.nat .ENC_PAIR n
  | .tile n k => ((tfind (3 + k) (d.lifeOf n).charges).map (·.1)).getD 0xFF
  | .strip l => d.nat .LAYOUT_PAIR l

/-- The leg an encode orders by (R208): its own, a strip after all of them. -/
def encLeg : EncId → Nat
  | .composed n => n
  | .tile n _ => n
  | .strip _ => 4096

/-- The order of contexts on a pair: the earliest deadline, the first released, the lower leg (R208). -/
def ctxOrder (deadline released leg : Nat) : Nat := (deadline * 2 ^ 64 + released) * 8192 + leg

/-- The pair of a decode item (R114, R384). -/
def Dev.itemPair (d : Dev) (n s : Nat) (i : DecItem) : Nat := i.pair.getD (d.nat .DEC_PAIR n s)

/-- The decode items on pair `p`, each with its leg and slot. -/
def Dev.decsOn (d : Dev) (p : Nat) : List ((Nat × Nat) × DecItem) :=
  (d.dec.map fun kv =>
    (kv.2.active.filter fun (i : DecItem) => decide (d.itemPair kv.1.1 kv.1.2 i = p)).map fun i => (kv.1, i)).flatten

/-- The pictures on pair `p`: which they are, whether a context is open, and their order (R208). -/
def Dev.onPair (d : Dev) (p : Nat) : List (((Nat × Nat) ⊕ EncId) × (Bool × Nat)) :=
  let ds := (d.decsOn p).map fun x =>
    ((.inl x.1 : (Nat × Nat) ⊕ EncId), (x.2.ctx, ctxOrder x.2.deadline x.2.released x.1.1))
  let es := (d.enc.map fun kv =>
    let mine := kv.2.cur.filter fun (c : EncPic) => decide (c.pair.getD (d.encPair kv.1) = p)
    mine.map fun (c : EncPic) =>
      ((.inr kv.1 : (Nat × Nat) ⊕ EncId), (c.ctx, ctxOrder c.deadline c.released (encLeg kv.1)))).flatten
  ds ++ es

/-- Opens the context of the first item of a slot that has none on its pair; `own` says that the pair is the slot's own. -/
def openFirst (p : Nat) (own : Bool) : List DecItem → List DecItem
  | [] => []
  | i :: r =>
    if i.ctx || !(i.pair == some p || (own && i.pair.isNone)) then i :: openFirst p own r else { i with ctx := true } :: r

/-- Opens the context of the first picture of an encode that has none on its pair. -/
def openPicture (p : Nat) (own : Bool) : List EncPic → List EncPic
  | [] => []
  | c :: r =>
    if c.ctx || !(c.pair == some p || (own && c.pair.isNone)) then c :: openPicture p own r else { c with ctx := true } :: r

/-- Coding pair `p` beyond its objects. -/
def Dev.pairxOf (d : Dev) (p : Nat) : PairX := tget {} p d.pairx
/-- Sets coding pair `p`. -/
def Dev.setPairx (d : Dev) (p : Nat) (x : PairX) : Dev := { d with pairx := tput {} p x d.pairx }

/-- Does pair `p` work: in service, and not in reset (R384)? -/
def Dev.pairWorks (d : Dev) (p : Nat) : Bool :=
  decide (p < 16) && decide (d.nat .PAIR_STATE (p / 4) (p % 4) = 0) && !(d.pairxOf p).halted

/-- Opens contexts on pair `p` up to 8, in the order of R208, and reports PAIR_CONTEXTS. A pair that is gated or retired
opens none. -/
def Dev.pairFill (d : Dev) (p : Nat) : Nat → Dev
  | 0 => d
  | fuel + 1 =>
    let on := d.onPair p
    let count := (on.filter fun x => x.2.1).length
    let d := d.put .PAIR_CONTEXTS (p / 4) (p % 4) (.num (count : Nat))
    if 8 ≤ count ∨ !d.pairWorks p then d else
      match minBy? (fun x => x.2.2) (on.filter fun x => !x.2.1) with
      | none => d
      | some (.inl (n, s), _) =>
        let x := d.decOf n s
        (d.setDec n s { x with active := openFirst p (decide (d.nat .DEC_PAIR n s = p)) x.active }).pairFill p fuel
      | some (.inr e, _) =>
        let x := d.encOf e
        (d.setEnc e { x with cur := openPicture p (decide (d.encPair e = p)) x.cur }).pairFill p fuel

/-- Counts an abandoned picture of pair `p` (R211, R230). -/
def Dev.countAbandon (d : Dev) (p : Nat) : Dev := if p < 16 then d.bump .PAIR_ABANDONS (p / 4) (p % 4) else d

/-- The packet that ABANDON closes (R211). -/
def abandonPkt (k : CtxKey) : CouplePkt := { ctx := k, lines := 1, mark := .abandon, last := true }

/-- A pair flushes an abandoned picture (R211): a partial packet of it is discarded and ABANDON written, at once, or at the next packet
boundary where the entropy engine is on another picture. -/
def PairX.flush (x : PairX) (k : CtxKey) : PairX :=
  if x.on = some k then { x with on := none, open_ := 0, ring := x.ring ++ [abandonPkt k] }
  else if x.open_ = 0 then { x with ring := x.ring ++ [abandonPkt k] }
  else { x with abandons := x.abandons ++ [k] }

/-- The context of a decode item. -/
def DecItem.key (i : DecItem) (n s : Nat) : CtxKey := ⟨n, s, i.ts⟩

/-- A decode item is abandoned at its pair (R211). Its buffers are freed as nothing holds them any more. -/
def Dev.abandonItem (d : Dev) (n s : Nat) (i : DecItem) : Dev :=
  let p := d.itemPair n s i
  let d := d.countAbandon p
  if i.ctx && decide (p < 16) then d.setPairx p ((d.pairxOf p).flush (i.key n s)) else d

/-- Takes an item off a slot. -/
def Dev.dropActive (d : Dev) (n s ts : Nat) : Dev :=
  let x := d.decOf n s
  d.setDec n s { x with active := x.active.filter fun i => decide (i.ts ≠ ts) }

/-- Changes an item of a slot. -/
def Dev.mapItem (d : Dev) (n s ts : Nat) (f : DecItem → DecItem) : Dev :=
  let x := d.decOf n s
  d.setDec n s { x with active := x.active.map fun i => if i.ts = ts then f i else i }

/-- The sequence parameters that an item carries, of its packets of decoded layers. -/
def DecItem.seq (i : DecItem) : Option SeqParams := i.parts.findSome? (·.seq)

/-- The layers that an item has frames of, ascending. -/
def DecItem.layers (i : DecItem) : List Nat := sortAsc id ((i.parts.map (·.layer)).eraseDups)

/-- The headers of an item's frame of layer `l`; none where they were lost. -/
def DecItem.head (i : DecItem) (l : Nat) : Option FrameHead := (i.parts.filter fun x => decide (x.layer = l)).findSome? (·.head)

/-- May a layer begin at a frame with these headers (R224, R231): a random access point or an intra frame? -/
def beginsLayer (h : FrameHead) : Bool := h.rap || h.intra

/-- Is an item a random access point (R224): its lowest layer's frame one, with a key or intra frame of every decoded layer? -/
def Dev.itemRap (d : Dev) (n s : Nat) (i : DecItem) : Bool :=
  let need : List Nat := match i.seq.orElse fun _ => (d.decOf n s).seq with
    | some q => (d.decLayers n s q).map (·.1)
    | none => []
  match i.layers with
  | [] => false
  | l :: _ => ((i.head l).map (·.rap)).getD false && need.all fun k => ((i.head k).map beginsLayer).getD false

/-- Would the picture have been a reference (R220)? One whose headers were never parsed counts as one. -/
def DecItem.isReference (i : DecItem) : Bool :=
  !i.parsed || i.layers.any fun l => ((i.head l).map (·.reference)).getD true

/-- Takes references away until fewer than `n` are left, the oldest first (the sliding window of H.264). -/
def slideRefs (n : Nat) (ps : List Picture) : List Picture :=
  let excess := (ps.filter (·.reference)).length + 1 - n
  (ps.foldl (fun (a : List Picture × Nat) p =>
    if p.reference && decide (0 < a.2) then (a.1 ++ [{ p with reference := false }], a.2 - 1) else (a.1 ++ [p], a.2)) ([], excess)).1

/-- A picture with these slots takes them from those that held them (AV1). -/
def takeSlots (mask : Nat) (ps : List Picture) : List Picture :=
  ps.map fun p => { p with slots := p.slots - (p.slots &&& mask) }

/-- Leaves out pictures that nothing needs. -/
def keptPictures (ps : List Picture) : List Picture := ps.filter fun p => p.reference || p.waits || decide (p.slots ≠ 0)

/-- A picture enters the places that a frame's headers give it (R220, R223; the standards' marking): frame_num and the sliding window, the
POC, or the slots of refresh_frame_flags. -/
def placePicture (codec refs : Nat) (h : FrameHead) (p : Picture) (ps : List Picture) : List Picture :=
  keptPictures (match codec with
    | 1 => if h.reference then slideRefs refs ps ++ [{ p with number := h.number, order := h.order, reference := true }] else ps ++ [p]
    | 2 => ps ++ [{ p with order := h.order, reference := true }]
    | _ => takeSlots h.refresh ps ++ [{ p with slots := h.refresh }])

/-- Leaves the places of a dropped reference to the most recent decoded picture of each layer, marked CONCEALED (R220). A header that was
never parsed gives no POC and no slots (log entry 132); its frame_num is taken to be the next. -/
def Dev.decPlace (d : Dev) (n s : Nat) (i : DecItem) : Dev :=
  let codec := d.decCodec n s % 16
  let x := d.decOf n s
  let q := x.seq.getD {}
  let refs := q.refs
  let next := (x.prev.getD 0 + 1) % max 1 q.frameNums
  let heads : List (Nat × FrameHead) :=
    if i.parsed then i.layers.filterMap fun l => (i.head l).map fun h => (l, h)
    else if codec = 1 then [(0, { number := next })] else []
  let x := heads.foldl (fun (x : DecSlot) lh =>
    if !lh.2.reference then x else
      match tfind lh.1 x.newest with
      | none => x
      | some p =>
        let p := { p with ts := i.ts, concealed := true, waits := false, reference := false, slots := 0 }
        { x with
          pics := placePicture codec refs lh.2 p x.pics
          prev := if codec = 1 then some lh.2.number else x.prev }) x
  d.setDec n s { x with stale := if !i.parsed && decide (codec = 3) then 255 else x.stale }

/-- A decode item is dropped (R220): abandoned, the previous output repeated; a reference leaves a CONCEALED place and
asks for a keyframe, but in forerunner mode (R228). -/
def Dev.decDrop (d : Dev) (n s : Nat) (i : DecItem) : Dev :=
  let d := d.abandonItem n s i
  if !i.isReference then d else
    let d := d.decPlace n s i
    if d.forerunner n s then d else d.decRequest n s

/-- A sequence outside limits (R214): the picture is abandoned, and the record names the leg, the slot and the parameter. -/
def Dev.decOutside (d : Dev) (n s why : Nat) (i : DecItem) : Dev :=
  let p := d.itemPair n s i
  let d := ((d.abandonItem n s i).decServed n s).dropActive n s i.ts
  let d := (d.put .DEC_STATE n s (.num 4)).bump .DEC_OUTSIDE n s
  d.logRec {
    level := 2, cls := .degraded, action := .none, unit := 0x1000 + p, code := 0x0F04, leg := n
    detail := Config.detail 0x0F04 [s, why] }

/-- The conference that a leg's buffers are charged to (R364). -/
def Dev.legConf (d : Dev) (n : Nat) : Option Nat := if d.nat .LEG_CONFERENCE n < 1024 then some (d.nat .LEG_CONFERENCE n) else none

/-- Takes the buffers of the pictures an item will decode, by layer (R217). -/
def Dev.takePictures (d : Dev) (n s p : Nat) (i : DecItem) (q : SeqParams) : List (Nat × List Nat) × Dev :=
  ((d.decLayers n s q).filter fun z => i.layers.contains z.1 && ((i.head z.1).bind (·.existing)).isNone).foldl
    (fun (a : List (Nat × List Nat) × Dev) z =>
      let r := a.2.allocKept .picture (8 + p / 4 % 4) (footprint z.2.1 z.2.2 (if q.depth = 10 then 2 else 1)) (d.legConf n)
      (a.1 ++ [(z.1, r.1)], r.2)) ([], d)

/-- The entropy engine reads the headers of an item (R214, R223, R228): the sequence is checked, pictures that are not to be decoded
leave, and the picture buffers are taken. A picture that finds no buffer is dropped (log entry 133). -/
def Dev.parseItem (d : Dev) (n s p : Nat) (i : DecItem) : Dev :=
  let i := { i with parsed := true }
  let codec := d.decCodec n s % 16
  let x := d.decOf n s
  let rap := d.itemRap n s i
  let out := d.decOutsideNow n s
  let changed := match i.seq, x.seq with
    | some q, some q0 => decide (q.layers ≠ q0.layers)
    | _, _ => false
  match i.seq.orElse fun _ => x.seq with
  | none => d.mapItem n s i.ts fun _ => i
  | some q =>
    let why := if changed && !rap && !d.forerunner n s then 18 else d.outsideBy n s codec q
    if out && !rap then (d.abandonItem n s i).dropActive n s i.ts
    else if why ≠ 0 then (d.setDec n s { x with seq := some q }).decOutside n s why i
    else if x.skipRasl && i.layers.any (fun l => ((i.head l).map (·.rasl)).getD false) then
      (d.setPairx p ((d.pairxOf p).flush (i.key n s))).dropActive n s i.ts
    else
      let r := d.takePictures n s p i q
      if r.1.any fun b => b.2 = [] then (r.2.decDrop n s i).dropActive n s i.ts else
        let d := if changed || out then
            r.2.setDec n s { x with seq := some q, started := false } |>.put .DEC_STATE n s (.num 1)
          else r.2.setDec n s { x with seq := some q }
        d.mapItem n s i.ts fun _ => { i with out := r.1 }

/-- At a packet boundary the entropy engine of pair `p` takes the ready picture of the earliest deadline (R208), and reads its headers when it
comes to it first. -/
def Dev.entropyTake (d : Dev) (p : Nat) : Nat → Dev
  | 0 => d
  | fuel + 1 =>
    if (d.pairxOf p).on.isSome || !d.pairWorks p then d else
      let ready := (d.decsOn p).filter fun x => x.2.ctx && !x.2.ended
      match minBy? (fun x => ctxOrder x.2.deadline x.2.released x.1.1) ready with
      | none => d
      | some ((n, s), i) =>
        let d := d.setPairx p { d.pairxOf p with on := some (i.key n s) }
        if i.parsed then d else (d.parseItem n s p i).entropyTake p fuel

/-- The contexts of pair `p` after a change (R208), and those of the pairs that a fault has moved pictures to (R384). -/
def Dev.pairUpdate (d : Dev) (p : Nat) : Dev :=
  let moved := (d.dec.map fun kv => kv.2.active.filterMap fun (i : DecItem) => i.pair).flatten ++
    (d.enc.map fun kv => kv.2.cur.filterMap fun (c : EncPic) => c.pair).flatten
  let open_ := (List.range 16).filter fun q => decide (q ≠ p) && (d.nat .PAIR_CONTEXTS (q / 4) (q % 4) ≠ 0 || moved.contains q)
  (p :: open_).foldl (fun d q => if q < 16 then ((d.pairFill q 9).entropyTake q 9).pairFill q 9 else d) d

/-- The video hold releases a frame of a decoded stream (R147, R218): it waits for the next edge, and its packets stay (R227). -/
def Dev.decWaits (d : Dev) (n s : Nat) (i : DecItem) : Dev :=
  if !d.decOn n s then d else
    let x := d.decOf n s
    d.setDec n s { x with waiting := x.waiting ++ [i] }

/-- An edge of decode slot `s` of leg `n`: the allowance rises, and waiting frames are released to the pair (R218, R219). -/
def Dev.decEdge (d : Dev) (n s : Nat) : Dev :=
  if !d.decOn n s then d else
    let fps := d.nat .DEC_MAX_FPS n s
    let x := d.decOf n s
    let a := min 2 (x.allowance + strideShare fps (d.nat .STRIDE_IN_LAP))
    let d := d.setDec n s { x with allowance := a, waiting := [] }
    let d := x.waiting.foldl (fun d i =>
      let y := d.decOf n s
      if y.allowance = 0 then (d.bump .DEC_RATE_DROPS n s).decDrop n s i
      else
        let i := { i with released := d.stride, deadline := d.stride + period fps }
        d.setDec n s { y with allowance := y.allowance - 1, active := y.active ++ [i] }) d
    (d.pairUpdate (d.nat .DEC_PAIR n s)).decState n s

/-- The deadline check of decode slot `s` of leg `n` at edge `e` (R25 step 2, R27). -/
def Dev.decDeadline (d : Dev) (n s e : Nat) : Dev :=
  let x := d.decOf n s
  let late := x.active.filter fun i => decide (i.deadline ≤ e)
  if late = [] then d else
    let d := d.setDec n s { x with active := x.active.filter fun i => decide (e < i.deadline) }
    let d := late.foldl (fun d i => (d.bump .DECODE_MISSES).decDrop n s i) d
    d.pairUpdate (d.nat .DEC_PAIR n s)

/-- A decode slot stops: its pictures are abandoned, its request ends, it reads OFF (R211, R231). The last output stays for
composition (R269). -/
def Dev.decStop (d : Dev) (n s : Nat) : Dev :=
  let x := d.decOf n s
  let d := x.active.foldl (fun d i => d.abandonItem n s i) d
  let d := d.setDec n s { last := x.last }
  ((d.decServed n s).put .DEC_STATE n s (.num 0)).pairUpdate (d.nat .DEC_PAIR n s)

/-- A decode slot begins, or begins again: WAIT_RAP (R215), with its context buffer (R217, R227). -/
def Dev.decBegin (d : Dev) (n s : Nat) : Dev :=
  let r := d.allocKept .context (8 + d.nat .DEC_PAIR n s / 4 % 4) 16384 (d.legConf n)
  let x := r.2.decOf n s
  (r.2.setDec n s { x with started := false, concealing := false, begun := [], skipRasl := false, context := r.1 }).put
    .DEC_STATE n s (.num 1)

/-- A picture of decode slot `s` is output (R213). -/
def Dev.decOut (d : Dev) (n s : Nat) (p : Picture) : Dev :=
  let x := d.decOf n s
  let d := d.setDec n s { x with
    last := some p
    pics := keptPictures (x.pics.map fun y => if y.waits ∧ y.ts = p.ts ∧ y.layer = p.layer then { y with waits := false } else y) }
  let d := (d.bump .DEC_PICTURES n s).put .DEC_SIZE n s (.num ((p.shown.1 * 65536 + p.shown.2 : Nat)))
  if p.concealed then d.bump .DEC_CONCEALED n s else d

/-- Pictures that wait leave in output order while more than `keep` wait: the lowest POC first (R213). -/
def Dev.bumpOut (d : Dev) (n s keep : Nat) : Nat → Dev
  | 0 => d
  | fuel + 1 =>
    let w := (d.decOf n s).pics.filter (·.waits)
    if w.length ≤ keep then d else
      match minBy? (fun p => (p.order + 2 ^ 40).toNat) w with
      | some p => (d.decOut n s p).bumpOut n s keep fuel
      | none => d

/-- Is it the picture that a name of R223 means? -/
def Picture.named (p : Picture) (codec : Nat) (v : Int) : Bool :=
  match codec with
  | 1 => p.reference && decide ((p.number : Int) = v)
  | 2 => p.reference && decide (p.order = v)
  | _ => bit p.slots v.toNat

/-- The frame numbers that a gap in frame_num leaves out (R223). -/
def DecSlot.gap (x : DecSlot) (q : SeqParams) (h : FrameHead) : List Nat :=
  match x.prev with
  | none => []
  | some v =>
    let m := max 1 q.frameNums
    if h.rap ∨ h.number = v ∨ h.number = (v + 1) % m then []
    else (List.range ((h.number + m - v - 1) % m)).map fun k => (v + 1 + k) % m

/-- How many references of a frame are missing (R223). -/
def DecSlot.missing (x : DecSlot) (codec : Nat) (q : SeqParams) (h : FrameHead) : Nat :=
  let held := fun (v : Int) => x.pics.any fun p => p.named codec v
  let stale := fun (v : Int) => decide (codec = 3) && !h.named && bit x.stale v.toNat
  let gone := ((h.uses ++ if codec = 2 then h.keeps else []).eraseDups.filter fun v => !held v || stale v).length
  let late := if codec = 3 then (h.depends.filter fun f => !x.numbers.contains f).length else 0
  gone + late + if codec = 1 ∧ !q.gaps ∧ x.gap q h ≠ [] then 1 else 0

/-- Is coding block `b` of layer `l` reconstructed? -/
def DecItem.has (i : DecItem) (l b : Nat) : Bool :=
  i.runs.any fun r => decide (r.layer = l) && decide (r.first ≤ b) && decide (b < r.first + r.count)

/-- What decoding one frame leaves: the state, the picture, its errors, and whether it asks for a keyframe (R222 to R224, R228). -/
structure FrameOut where
  dev : Dev
  mem : List Host.Cell
  pic : Option Picture := none
  missing : Nat := 0
  gap : Bool := false
  reference : Bool := false

/-- Decodes the frame of layer `l` of an item against the references held, and writes it to its buffers (R213, R222 to R226, R228). The
samples are the standard's, which the spec does not print (log entry 13); the blocks that nothing delivered are concealed natively, and in
forerunner mode the samples are undefined from the first error on (R229). -/
def Dev.decFrame (d : Dev) (m : List Host.Cell) (n s l : Nat) (i : DecItem) (q : SeqParams) (hurt : Bool) : FrameOut :=
  let codec := d.decCodec n s % 16
  let fore := d.forerunner n s
  let x := d.decOf n s
  let z := q.layers.getD l (0, 0)
  let h := (i.head l).getD { number := (x.prev.getD 0 + 1) % max 1 q.frameNums }
  let deep := decide (q.depth = 10)
  let across := ceilDiv z.1 q.block
  let blocks := across * ceilDiv z.2 q.block
  let lost := (List.range blocks).any fun b => !i.has l b
  let miss := x.missing codec q h
  let gap := if codec = 1 then x.gap q h else []
  let sub := (tfind l x.newest).filter fun p => decide ((p.width, p.height) = z)
  let base := match sub with
    | some p => d.samplesOf m p
    | none => midGrey z.1 z.2 deep
  let found := h.uses.filterMap fun v => x.pics.find? fun p => p.named codec v
  let refs := h.uses.map fun v => match x.pics.find? fun p => p.named codec v with
    | some p => d.samplesOf m p
    | none => base
  let data := (i.parts.filter fun (t : FramePart) => decide (t.layer = l)).map (·.payload)
  let raw := Config.reconstruct codec deep z.1 z.2 data refs base i.runs
  let pict := if fore then raw else concealPict raw base q.block across fun b => !i.has l b
  let marked := if fore then hurt || lost || decide (0 < miss) || (x.concealing && !h.rap)
    else lost || decide (0 < miss) || found.any (·.concealed)
  let bufs := tget [] l i.out
  let w := d.writeBufs m bufs (pictOctets pict)
  let p : Picture := {
    ts := i.ts, layer := l, width := z.1, height := z.2, shown := q.shown.getD l z, deep := deep, concealed := marked
    intra := beginsLayer h, order := h.order, number := h.number, waits := h.shown && decide (codec ≠ 3)
    motion := Config.codedMotion codec data, bufs := bufs }
  let clear := h.rap && (decide (codec = 1) || (decide (codec = 2) && (!x.started || h.broken)))
  let pics := x.pics.map fun y => { y with
    reference := y.reference && !clear && (if codec = 2 then h.keeps.contains y.order else !h.drops.contains y.number) }
  let pics := if codec = 1 then
      let place := fun (ps : List Picture) (k : Nat) => match sub, q.gaps || fore with
        | some y, false => placePicture 1 q.refs { number := k } { y with concealed := true, waits := false, reference := false } ps
        | _, _ => slideRefs q.refs ps
      (gap.drop (gap.length - q.refs)).foldl place pics
    else pics
  let y := w.1.decOf n s
  let d := w.1.setDec n s { y with
    pics := placePicture codec q.refs h p pics
    newest := tset l p y.newest
    prev := if codec = 1 ∧ h.reference then some h.number else y.prev
    begun := if beginsLayer h && !y.begun.contains l then y.begun ++ [l] else y.begun
    stale := if h.rap then 0 else y.stale - (y.stale &&& h.refresh)
    skipRasl := if h.rap then !y.started || h.broken else y.skipRasl }
  { dev := d.add .CODED_PIXELS_DEC 0 0 (z.1 * z.2), mem := w.2, pic := some p, missing := miss
    gap := decide (gap ≠ []), reference := h.reference }

/-- The picture of the slot that show_existing_frame names (R213). -/
def DecSlot.existing (x : DecSlot) (h : FrameHead) : Option Picture :=
  h.existing.bind fun k => x.pics.find? fun p => bit p.slots k

/-- Decodes the frames of an item, the lowest layer first (R218); a higher layer waits for an intra frame of its own (R231). -/
def Dev.decFrames (d : Dev) (m : List Host.Cell) (n s : Nat) (i : DecItem) (q : SeqParams) (hurt : Bool) : FrameOut :=
  let low := ((d.decLayers n s q).map (·.1)).headD 0
  ((d.decLayers n s q).map (·.1)).foldl (fun (a : FrameOut) l =>
    let x := a.dev.decOf n s
    let h := i.head l
    let intra := (h.map beginsLayer).getD false
    if !i.layers.contains l || (l ≠ low && !intra && !x.begun.contains l) then a
    else match h.bind fun h => (x.existing h) with
      | some p => { a with pic := some p }
      | none =>
        let r := a.dev.decFrame a.mem n s l i q hurt
        { r with missing := a.missing + r.missing, gap := a.gap || r.gap, reference := a.reference || r.reference })
    { dev := d, mem := m }

/-- A picture's last packet has been consumed: the picture is decoded, its errors are counted, it takes its places, and pictures leave in
output order (R213, R220 to R228). A picture larger than its share of DEC_MAX_KBPS loses the rest (R221). -/
def Dev.decFinish (d : Dev) (m : List Host.Cell) (n s : Nat) (i : DecItem) : Dev × List Host.Cell :=
  let fore := d.forerunner n s
  let d := d.dropActive n s i.ts
  let x := d.decOf n s
  let rap := d.itemRap n s i
  let size := 8 * i.parts.foldl (fun a t => a + t.len) 0
  let exceeds := decide (16 * d.nat .DEC_MAX_KBPS n s * 1000 < size * d.nat .DEC_MAX_FPS n s)
  let errors := max i.errors (if i.complete && !exceeds then 0 else 1)
  let d := d.add .DEC_ERRORS n s errors
  match x.seq with
  | none => (d.decRequest n s, m)
  | some q =>
    let codec := d.decCodec n s % 16
    let d := if rap && decide (codec ≠ 3) then d.bumpOut n s 0 64 else d
    let r := d.decFrames m n s i q (decide (0 < errors))
    let d := r.dev.add .DEC_MISSING_REFS n s r.missing
    match r.pic with
    | none => (d, r.mem)
    | some p =>
      let y := d.decOf n s
      let d := d.setDec n s { y with
        started := y.started || rap
        concealing := if rap then p.concealed else y.concealing || p.concealed
        numbers := (y.numbers ++ (i.parts.map (·.number)).eraseDups).drop (y.numbers.length - 256) }
      let d := if rap then (d.put .DEC_STATE n s (.num 2)).decServed n s else d
      let asks := if fore then r.gap else (decide (0 < errors) && r.reference) || decide (0 < r.missing)
      let d := if asks then d.decRequest n s else d
      let shown := i.layers.any fun l => ((i.head l).map (·.shown)).getD true
      let d := if codec = 3 then (if shown then d.decOut n s p else d) else d.bumpOut n s q.reorder 64
      let excess := decide (d.nat .DEC_MAX_DPB n s <
        (((d.decOf n s).pics.filter fun p => p.reference || decide (p.slots ≠ 0)).map (·.bufs)).eraseDups.length)
      let d := d.decState n s
      (if excess then d.decOutside n s 17 { i with ctx := false } else d, r.mem)

/-- The block at which the entropy engine resumes after an error at block `b` (R222): the next point of the segment, else the next
independent one; in forerunner mode the next slice. 0xFFFF_FFFF for none. -/
def nextResync (rs : List Resync) (b : Nat) : Nat :=
  let later := rs.filter fun r => decide (b < r.block)
  let seg := (minBy? (·.block) (later.filter (·.independent))).map (·.block)
  let within := minBy? (·.block) (later.filter fun (r : Resync) => !r.independent && decide (r.block < seg.getD 0xFFFFFFFF))
  ((within.map (·.block)).orElse fun _ => seg).getD 0xFFFFFFFF

/-- The end mark of a packet that the entropy engine closes (R209, R222). Slices out of order are decoded in forerunner mode (R228). -/
def markOf (fore : Bool) (rs : List Resync) : PacketEnd → EndMark
  | .row => .rowEnd
  | .segment => .segmentEnd
  | .picture => .pictureEnd
  | .error b why => if fore ∧ why = .sliceOrder then .rowEnd
      else .errorEnd b (nextResync (if fore then rs.filter (·.independent) else rs) b)

/-- Does nothing of its picture follow this mark? -/
def EndMark.last : EndMark → Bool
  | .pictureEnd => true
  | .errorEnd _ next => decide (next = 0xFFFFFFFF)
  | .abandon => true
  | _ => false

/-- The item of a context, with its slot, if it is still active. -/
def Dev.itemOf (d : Dev) (k : CtxKey) : Option DecItem := (d.decOf k.leg k.slot).active.find? fun i => decide (i.ts = k.ts)

/-- The free lines of a pair's coupling buffer of 4,096 (R210). -/
def PairX.free (x : PairX) : Nat := 4096 - x.open_ - x.ring.foldl (fun a k => a + k.lines) 0

/-- The entropy engine of pair `p` writes lines of records; at 128 KiB inside a row it cuts the packet (R209), and it writes nothing while
fewer than 8 lines are free (R210). -/
def Dev.coupleRecord (d : Dev) (p lines : Nat) : Dev :=
  let x := d.pairxOf p
  match x.on with
  | none => d
  | some k =>
    if x.free < 8 then d else
      let n := x.open_ + min lines x.free
      if 2048 ≤ n then d.setPairx p { x with open_ := n - 2048, ring := x.ring ++ [{ ctx := k, lines := 2048, mark := .split }] }
      else d.setPairx p { x with open_ := n }

/-- The entropy engine of pair `p` closes its packet, counts an error that ended it, writes the ABANDON marks that waited, and takes the next
picture (R208, R209, R211, R222). -/
def Dev.coupleClose (d : Dev) (p : Nat) (e : PacketEnd) (run : BlockRun) : Dev :=
  let x := d.pairxOf p
  match x.on with
  | none => d
  | some k =>
    let rs := match d.itemOf k with
      | some i => ((i.head run.layer).map (·.resync)).getD []
      | none => []
    let mark := markOf (d.forerunner k.leg k.slot) rs e
    let pkt : CouplePkt := { ctx := k, lines := max 1 x.open_, mark := mark, run := run, last := mark.last }
    let d := d.setPairx p { x with
      on := none, open_ := 0, ring := x.ring ++ [pkt] ++ x.abandons.map abandonPkt, abandons := [] }
    let bad := match mark with
      | .errorEnd _ _ => 1
      | _ => 0
    (d.mapItem k.leg k.slot k.ts fun i => { i with errors := i.errors + bad, ended := i.ended || mark.last }).entropyTake p 9

/-- The pixel engine of pair `p` consumes the oldest packet (R208, R209); it skips those of a picture that is active no more (R211). -/
def Dev.coupleConsume (d : Dev) (m : List Host.Cell) (p : Nat) : Dev × List Host.Cell :=
  let x := d.pairxOf p
  match x.ring with
  | [] => (d, m)
  | pkt :: rest =>
    let k := pkt.ctx
    let d := d.setPairx p { x with ring := rest, head := if pkt.last then none else some k }
    match d.itemOf k with
    | none => (d.setPairx p { d.pairxOf p with head := none }, m)
    | some i =>
      if pkt.mark = .abandon then (d, m) else
        let i := { i with runs := i.runs ++ [pkt.run] }
        if pkt.last then d.decFinish m k.leg k.slot i else (d.mapItem k.leg k.slot k.ts fun _ => i, m)

/-- Takes blocks out of a run. -/
def withoutRun (r u : BlockRun) : List BlockRun :=
  if r.layer ≠ u.layer then [r] else
    let e := r.first + r.count
    [{ r with count := min e u.first - r.first },
     { r with first := max r.first (u.first + u.count), count := e - max r.first (u.first + u.count) }].filter fun x => decide (x.count ≠ 0)

/-- Counts cycles in units of 1,024 (R210, R230). -/
def Dev.countCycles (d : Dev) (o : Obj) (p n : Nat) : Dev := d.add o (p / 4) (p % 4) (n / 1024)

/-- A step of the engines of pair `p` (R208 to R211, R231). -/
def Dev.coupleStep (d : Dev) (m : List Host.Cell) (p : Nat) : CoupleStep → Dev × List Host.Cell
  | .record n => (d.coupleRecord p n, m)
  | .close e run => (d.coupleClose p e run, m)
  | .consume => d.coupleConsume m p
  | .unreadable u =>
    match (d.pairxOf p).head with
    | some k => (d.mapItem k.leg k.slot k.ts fun i => { i with runs := (i.runs.map fun r => withoutRun r u).flatten }, m)
    | none => (d, m)
  | .cycles n =>
    let x := d.pairxOf p
    let stall := x.stall + if x.free < 8 then n else 0
    let under := x.underrun + if x.ring = [] ∧ x.head.isSome then n else 0
    (((d.setPairx p { x with stall := stall % 1024, underrun := under % 1024 }).countCycles .PAIR_ENT_STALL p stall).countCycles
      .PAIR_PIX_UNDERRUN p under, m)

/-- The pair of decode slot `s` of leg `n` goes through some steps: the pictures whose last packet it consumes are complete, in the order of
their records (R208 to R228). -/
def Dev.decComplete (d : Dev) (m : List Host.Cell) (n s : Nat) (trace : List CoupleStep) : Dev × List Host.Cell :=
  match (d.decOf n s).active.find? (·.ctx) with
  | none => (d, m)
  | some i =>
    let p := d.itemPair n s i
    if !d.pairWorks p then (d, m) else
      let r := trace.foldl (fun (a : Dev × List Host.Cell) t => a.1.coupleStep a.2 p t) (d, m)
      (r.1.pairUpdate p, r.2)

/-- A picture of decode slot `s` of leg `n` that stands complete in both placements, by its timestamp (R226). -/
def Dev.pictureAt (d : Dev) (n s ts : Nat) : Option Picture :=
  let x := d.decOf n s
  let all := x.last.toList ++ x.pics ++ x.newest.map (·.2)
  (minBy? (fun p => 8 - p.layer) (all.filter fun p => decide (p.ts = ts)))

/-- Is timestamp `a` later than `b`, of 32 bits? -/
def laterTs (a b : Nat) : Bool := decide (0 < ofWord 32 (toWord 32 ((a : Int) - b)))

/-- The picture a composer wants of decode slot `s` (R273): the newest released, in output order, that is not dropped. -/
def Dev.newestPicture (d : Dev) (n s : Nat) : Option Nat :=
  let x := d.decOf n s
  (x.active.map (·.ts)).foldl (fun a t => match a with
    | some b => if laterTs t b then some t else some b
    | none => some t) (x.last.map (·.ts))

/-- Is the picture of a timestamp fenced (R226, R273)? It is complete once every write to its placements is. -/
def Dev.fenced (d : Dev) (n s ts : Nat) : Bool :=
  ((d.decOf n s).active.all fun i => decide (i.ts ≠ ts)) && (d.pictureAt n s ts).isSome

end Sys2Proof.Machine
end

