-- ==== Sys2Proof/Machine/Encode.lean ====
section
/-! DEFINITION. Video encode and row rate control (R232 to R258): what is in force, budgets, row quantisers, coast, skip
pictures, intra pictures, and the packets of a composed encode. -/

namespace Sys2Proof.Machine

/-- The temporal IDs of a pattern by LAYERS (R235). -/
def patternOf (layers : Nat) : List Nat :=
  match layers with
  | 0 => [0]
  | 1 => [0, 1]
  | _ => [0, 2, 1, 2]

/-- The codec of an encode: 1 H.264, 2 HEVC, 3 AV1 (R236, R261). -/
def Dev.encCodec (d : Dev) (e : EncId) : Nat :=
  match e with
  | .composed n => d.fld .ENC_CTRL n 0 30 28
  | .tile n k => d.fld .TILE_CTRL n k 30 28
  | .strip l => d.fld .LAYOUT_SPLICE l 0 27 26

/-- LAYERS as set. -/
def Dev.encLayers (d : Dev) (e : EncId) : Nat :=
  match e with
  | .composed _ => 0
  | .tile n k => d.fld .TILE_CTRL n k 25 24
  | .strip l => d.fld .LAYOUT_SPLICE l 0 24 23

/-- The frame rate as set. -/
def Dev.encFpsSet (d : Dev) (e : EncId) : Nat :=
  fpsOf (match e with
    | .composed n => d.fld .ENC_CTRL n 0 22 20
    | .tile n k => d.fld .TILE_CTRL n k 23 21
    | .strip l => d.fld .LAYOUT_SPLICE l 0 22 20)

/-- Is ENTRY_MODE EXACT? -/
def Dev.encExact (d : Dev) (e : EncId) : Bool :=
  match e with
  | .composed _ => false
  | .tile n k => !d.bitOf .TILE_CTRL n k 26
  | .strip l => !d.bitOf .LAYOUT_SPLICE l 0 19

/-- The class wanted of a composed encode: that set, less the steps of a cut and of the governor (R118, R253, R411). -/
def Dev.classWanted (d : Dev) (n : Nat) : Nat :=
  min 5 (d.fld .ENC_CTRL n 0 25 23 + (d.encOf (.composed n)).down + if 2 ≤ d.govStep then 1 else 0)

/-- The frame rate wanted of an encode (R411 step 3). -/
def Dev.fpsWanted (d : Dev) (e : EncId) : Nat :=
  match e with
  | .composed _ => if 3 ≤ d.govStep then min 15 (d.encFpsSet e) else d.encFpsSet e
  | _ => d.encFpsSet e

/-- The coded size in force of an encode (R234). -/
def Dev.encNowSize (d : Dev) (e : EncId) : Nat × Nat :=
  match e with
  | .composed _ => classSize (d.encOf e).cls
  | _ => d.encSize e

/-- The coding block of an encode (R233). -/
def Dev.encBlock (d : Dev) (e : EncId) : Nat :=
  match d.encCodec e with
  | 1 => 16
  | 2 => match e with
    | .tile _ k => if (tileSize k).2 % 32 = 0 then 32 else 16
    | _ => 32
  | _ => 64

/-- The layer weights of a tile stream, T0 first (R236); a strip takes the default weights (R279). -/
def Dev.encWeights (d : Dev) (e : EncId) : List Nat :=
  let w := match e with
    | .tile n _ => d.nat .TILE_LAYER_WEIGHT n
    | _ => 0x001A100B
  [bits w 23 16, bits w 15 8, bits w 7 0]

/-- The bounds of a row's quantiser and the intra factor (R236); a strip, which has no such objects, takes their defaults
(log entry 33). -/
def Dev.encBounds (d : Dev) (e : EncId) : Nat × (Nat × Nat) :=
  match e with
  | .composed n => (d.nat .ENC_QP_MIN n, (d.nat .ENC_QP_MAX n, d.nat .ENC_INTRA_FACTOR n))
  | .tile n _ => (d.nat .ENC_QP_MIN n, (d.nat .ENC_QP_MAX n, d.nat .ENC_INTRA_FACTOR n))
  | .strip _ => (18, (46, 0x40))

/-- The rate of a stream in bit/s (Picture budgets). -/
def Dev.encRate (d : Dev) (e : EncId) : Nat :=
  match e with
  | .composed n => d.videoBudget n * d.nat .ENC_SHARE n / 32768
  | .tile n k => d.fld .TILE_CTRL n k 19 0 * 1000
  | .strip l => d.fld .LAYOUT_SPLICE l 0 18 0 * 1000

/-- The viewers of a spliced layout that are ACTIVE (R259, R265). -/
def Dev.splicedViewers (d : Dev) (l : Nat) : List Nat :=
  d.legs.filter fun n => d.videoRuns n && d.bitOf .VIEW_CTRL n 0 31 && decide (d.nat .VIEW_LAYOUT n = l) &&
    decide (d.nat .LAYOUT_KIND l = 2) && (d.lifeOf n).videoIn

/-- Does an encode run (R236, R259, R265; R411 step 4)? -/
def Dev.encOn (d : Dev) (e : EncId) : Bool :=
  decide (d.govStep < 4) && match e with
  | .composed n => d.videoRuns n && d.bitOf .ENC_CTRL n 0 31 && (d.lifeOf n).videoIn
  | .tile n k => d.videoRuns n && d.bitOf .TILE_CTRL n k 31 && (d.lifeOf n).videoIn
  | .strip l => decide (d.fld .LAYOUT_SPLICE l 0 31 28 = 3) && decide (d.nat .LAYOUT_PAIR l < 16) &&
      decide (d.splicedViewers l ≠ [])

/-- Has the leg a layout to be composed from (R265)? -/
def Dev.viewOk (d : Dev) (n : Nat) : Bool :=
  let l := d.nat .VIEW_LAYOUT n
  decide (l < 1024) && decide (d.nat .LAYOUT_KIND l ≠ 0) && decide (d.nat .LAYOUT_CONF l = d.nat .LEG_CONFERENCE n)

/-- ENC_STATE, ENC_NOW and TILE_LAYERS_NOW (R236). -/
def Dev.encReport (d : Dev) (e : EncId) : Dev :=
  let x := d.encOf e
  match e with
  | .composed n =>
    let st := if !d.encOn e then 0 else if !x.running || !d.viewOk n then 1
      else if x.cls = d.fld .ENC_CTRL n 0 25 23 ∧ x.fps = d.encFpsSet e then 2 else 3
    (d.setN .ENC_STATE n st).setN .ENC_NOW n (if x.running then x.cls * 256 + x.fps else 0)
  | .tile n k => d.put .TILE_LAYERS_NOW n k (.num ((if x.running then x.top else 0 : Nat)))
  | .strip _ => d

/-- Budget and weighted share of a picture of temporal ID `t` (R239). -/
def pictureBudget (rate per : Nat) (pattern weights : List Nat) (top t : Nat) (intra : Bool) (factor : Nat)
    (carry : Int) : Int × Int :=
  let coded := pattern.filter (· ≤ top)
  let b0 : Int := (rate * per / 600 : Nat)
  let wsum : Int := (coded.foldl (fun a i => a + weights.getD i 0) 0 : Nat)
  let b := if coded.length ≤ 1 ∨ wsum = 0 then b0 else tdiv (b0 * (weights.getD t 0 : Nat) * (coded.length : Nat)) wsum
  let bi := if intra then tdiv (b * factor) 16 else b
  (bi - clamp (-(tdiv b0 2)) (tdiv b 2) carry, b)

/-- The pattern position of the picture released at edge `s` (R275). -/
def positionOf (s per layers : Nat) : Nat := (s / per) % (patternOf layers).length

/-- Must the next picture of a composed encode be intra (R249)? -/
def Dev.intraDue (d : Dev) (n : Nat) (x : Enc) : Bool :=
  let laps := d.nat .ENC_IDR_LAPS n
  (!x.hasRef && x.cur = []) || match x.lastIntra with
  | none => x.asked
  | some (s, lap) => (decide (laps ≠ 0) && decide (lap + laps ≤ d.nat .LAP_COUNT)) || (x.asked && decide (s + 30 ≤ d.stride))

/-- The reference slot that the picture at a pattern position predicts from (R235): the last T0, or for the last of L1T3 the T1. -/
def refSlot (layers pos : Nat) : Nat := if layers = 2 ∧ pos = 3 then 1 else 0

/-- The reference slot that a picture of temporal ID `t` becomes (R235); a T2 picture becomes none. -/
def refreshSlot (t : Nat) : Option Nat := if t < 2 then some t else none

/-- The conference that an encode's buffers are charged to (R364). -/
def Dev.encConf (d : Dev) (e : EncId) : Option Nat :=
  match e with
  | .composed n => d.legConf n
  | .tile n _ => d.legConf n
  | .strip l => if d.nat .LAYOUT_CONF l < 1024 then some (d.nat .LAYOUT_CONF l) else none

/-- Takes the buffer of a picture's reconstruction, and for an encode that begins its context (R238). -/
def Dev.encBuffers (d : Dev) (e : EncId) (z : Nat × Nat) (first : Bool) : (List Nat × List Nat) × Dev :=
  let dom := 8 + d.encPair e / 4 % 4
  let r := d.allocKept .picture dom (footprint z.1 z.2 (d.encDepth e)) (d.encConf e)
  if first then
    let c := r.2.allocKept .context dom 16384 (d.encConf e)
    ((r.1, c.1), c.2)
  else ((r.1, (d.encOf e).context), r.2)

/-- Releases the picture of period `s` of an encode at this edge, with the buffer of its input and its hints (R234, R239, R249 to R254). -/
def Dev.encRelease (d : Dev) (e : EncId) (s : Nat) (input : List Nat := []) (hints : List (Nat × (Int × Int)) := []) : Dev :=
  let x := d.encOf e
  let composed : Bool := match e with
    | .composed _ => true
    | _ => false
  let cls := match e with
    | .composed n => d.classWanted n
    | _ => 0
  let fps := d.fpsWanted e
  let layers := d.encLayers e
  let pos := positionOf s (period fps) layers
  let x := if composed && x.running && decide (cls ≠ x.cls) then { x with hasRef := false, x := [] } else x
  let first := !x.running
  let x := if first then { x with hasRef := false, x := [], s0 := x.s0.orElse fun _ => some s } else x
  let top := if pos = 0 ∨ first then layers - x.down else x.top
  let t := (patternOf layers).getD pos 0
  let serves := !composed && x.entryAsked && decide (8 ≤ x.sinceEntry + 1)
  let intra := match e with
    | .composed n => d.intraDue n x
    | _ => (!x.hasRef && x.cur = []) || (serves && !d.encExact e)
  let q := d.encBounds e
  let z := match e with
    | .composed _ => classSize cls
    | _ => d.encSize e
  let b := pictureBudget (d.encRate e) (period fps) (patternOf layers) (d.encWeights e) top t intra q.2.2 x.carry
  let buffers := d.encBuffers e z (x.context = [])
  let d := buffers.2
  let x := { x with
    running := true, cls := cls, fps := fps, top := top, context := buffers.1.2
    asked := x.asked && !intra
    entryAsked := false, sinceEntry := if serves then 0 else min 8 (x.sinceEntry + 1)
    cur := x.cur ++ [{
      period := s, deadline := d.stride + period fps, released := d.stride, budget := b.1, share := b.2
      intra := intra, tid := t, rows := ceilDiv z.2 (d.encBlock e), serves := serves
      ref := if intra then none else some (refSlot layers pos), refresh := refreshSlot t, hints := hints
      input := input, recon := buffers.1.1 }] }
  ((d.setEnc e x).encReport e).pairUpdate (d.encPair e)

/-- `qs(q)` of R242. -/
def qStep (q : Nat) : Nat := [4096, 4598, 5161, 5793, 6502, 7298].getD (q % 6) 4096 * 2 ^ (q / 6)

/-- `est(j, q)` of R242 for a complexity. -/
def rowEst (x q : Nat) : Nat := x * 65536 / qStep q

/-- The kind of a picture: 0 intra, 1 + t otherwise. -/
def EncPic.kind (c : EncPic) : Nat := if c.intra then 0 else 1 + c.tid

/-- X[j] (R242): the kind's figure of the row, or the row's SATD / 8. -/
def Enc.rowX (x : Enc) (c : EncPic) (j : Nat) : Nat :=
  match tfind j c.fresh with
  | some v => v
  | none => match tfind (c.kind, j) x.x with
    | some v => v
    | none => c.satd.getD j 0 / 8

/-- Chooses the next row's QP, or coast (R242, R244). -/
def Enc.chooseRow (x : Enc) (c : EncPic) (qmin qmax : Nat) : EncPic :=
  let r := c.qps.length
  if c.rows ≤ r then c else
    let prev := if r = 0 then 0 else rowEst (x.rowX c (r - 1)) (c.qps.getD (r - 1) 0)
    let spent : Int := ((c.header + (c.bits.take (r - 1)).foldl (· + ·) 0 + prev : Nat) : Int)
    if c.coastAt.isSome ∨ c.budget ≤ spent then
      { c with qps := c.qps ++ [51], coastAt := c.coastAt.orElse fun _ => some r }
    else
      let rest := (List.range (c.rows - r)).foldl (fun a i => a + x.rowX c (r + i)) 0
      let t : Int := if rest = 0 then c.budget - spent else tdiv ((c.budget - spent) * (x.rowX c r : Nat)) (rest : Nat)
      let fits := (List.range 52).find? fun q => decide (qmin ≤ q) && decide (q ≤ qmax) && decide ((rowEst (x.rowX c r) q : Int) ≤ t)
      let q : Int := ((fits.getD qmax : Nat) : Int)
      let b : Int := ((tget 32 c.kind x.base : Nat) : Int)
      let p : Int := ((c.qps.getD (r - 1) 0 : Nat) : Int)
      let lo := if r = 0 then b - 6 else p - 3
      let hi := if r = 0 then b + 6 else p + 3
      let q := clamp (max lo qmin) (min hi qmax) q
      { c with qps := c.qps ++ [q.toNat] }

/-- Chooses rows up to row `k`. -/
def Enc.chooseTo (x : Enc) (qmin qmax k : Nat) : Nat → EncPic → EncPic
  | 0, c => c
  | fuel + 1, c => if k < c.qps.length then c else x.chooseTo qmin qmax k fuel (x.chooseRow c qmin qmax)

/-- Is a vector within `w` by `h` quarter samples of a centre? -/
def withinSearch (v c : Int × Int) (w h : Nat) : Bool := decide ((v.1 - c.1).natAbs ≤ w) && decide ((v.2 - c.2).natAbs ≤ h)

/-- Could the pixel engine's search have come to this vector (R254)? ±8 samples around the hint and around the zero vector; without a hint ±32 by
±24 around the predicted and the zero vector. -/
def searched (hint : Option (Int × Int)) (k : BlockPick) : Bool :=
  match hint with
  | some c => withinSearch k.mv c 32 32 || withinSearch k.mv (0, 0) 32 32
  | none => withinSearch k.mv k.pred 128 96 || withinSearch k.mv (0, 0) 128 96

/-- Does what a vector component reads from the reference lie in `0` to `size`: the block from `at_` on, `len` samples, `unit` vector steps a sample,
with the taps before and after it where it is fractional (R250)? -/
def tapsInside (size at_ len : Nat) (v : Int) (unit before after : Nat) : Bool :=
  let n : Int := v / (unit : Int)
  let frac := decide (v % (unit : Int) ≠ 0)
  decide (0 ≤ (at_ : Int) + n - if frac then before else 0) &&
    decide ((at_ : Int) + len + n + (if frac then after else 0) ≤ size)

/-- Does everything that a block's vector reads lie inside the tile (R250)? -/
def insideTile (codec : Nat) (z : Nat × Nat) (side block : Nat) (mv : Int × Int) : Bool :=
  let across := ceilDiv z.1 side
  let x := block % across * side
  let y := block / across * side
  let w := min side (z.1 - x)
  let h := min side (z.2 - y)
  let c := if codec = 2 then (1, 2) else (3, 4)
  tapsInside z.1 x w mv.1 4 3 4 && tapsInside z.2 y h mv.2 4 3 4 &&
    tapsInside (z.1 / 2) (x / 2) (w / 2) mv.1 8 c.1 c.2 && tapsInside (z.2 / 2) (y / 2) (h / 2) mv.2 8 c.1 c.2

/-- The vector that a block is coded with: what the search found, and for a tile only what reads nothing outside it (R250, R254); the zero vector
otherwise. -/
def Dev.blockVector (d : Dev) (e : EncId) (hint : Option (Int × Int)) (k : BlockPick) : Int × Int :=
  let tile := match e with
    | .composed _ => false
    | _ => true
  if searched hint k && (!tile || insideTile (d.encCodec e) (d.encNowSize e) (d.encBlock e) k.block k.mv) then k.mv else (0, 0)

/-- The vectors of row `j` of a picture: an intra picture has none, and a coast row is not searched (R244, R250, R254). -/
def Dev.rowVectors (d : Dev) (e : EncId) (c : EncPic) (j : Nat) (coasts : Bool) (picks : List BlockPick) : List (Nat × (Int × Int)) :=
  let across := ceilDiv (d.encNowSize e).1 (d.encBlock e)
  if c.intra || coasts then [] else
    (picks.filter fun k => decide (k.block / across = j)).map fun k => (k.block, d.blockVector e (tfind k.block c.hints) k)

/-- The entropy engine completes a row (R241, R242): the pixel engine may then start the row two below. -/
def Dev.rowComplete (d : Dev) (e : EncId) (bits header : Nat) (finds : RowFinds) : Dev :=
  let x := d.encOf e
  match x.cur with
  | [] => d
  | c :: later =>
    let j := c.bits.length
    if !c.ctx || decide (c.rows ≤ j) then d else
      let q := d.encBounds e
      let c := { c with header := header, satd := finds.satd }
      let c := x.chooseTo q.1 q.2.1 (j + 1) 2 c
      let coasts := match c.coastAt with
        | some r => decide (r ≤ j)
        | none => false
      let c := { c with
        bits := c.bits ++ [bits]
        fresh := if coasts then c.fresh else tset j (bits * qStep (c.qps.getD j 0) / 65536) c.fresh
        vectors := c.vectors ++ d.rowVectors e c j coasts finds.picks }
      d.setEnc e { x with cur := x.chooseTo q.1 q.2.1 (j + 2) 1 c :: later }

/-- The payload room of an RTP packet to leg `n` (R237, R278: packets fill the port MTU). -/
def Dev.payloadRoom (d : Dev) (n : Nat) : Nat := d.legMtu n - d.rtpLen n 0

/-- The payloads that carry a unit of `size` bytes: whole where it fits, else fragments (R237, R278). `unit` is the
header a fragment replaces, `frag` the header it carries. -/
def fragments (room unit frag size : Nat) : List Nat :=
  if size ≤ room then [size] else
    let step := max 1 (room - frag)
    let total := size - unit
    let n := ceilDiv total step
    (List.range n).map fun i => min step (total - i * step) + frag

/-- Sends a picture's packets to leg `n` from sequence number `seq` on, with the marker on the last; the next sequence
number comes back. -/
def Dev.sendPicture (d : Dev) (n ssrc pt ts seq : Nat) (payloads : List Nat) (frame : Option Nat) : Dev × Nat :=
  let k := payloads.length
  let frame := if d.nat .FWD_TX_DD_EXT_ID n = 0 then none else frame
  ((List.range k).foldl (fun d i => d.sendVideo n {
    leg := n, ssrc := ssrc, seq := (seq + i) % 65536, ts := ts, pt := pt, marker := decide (i + 1 = k)
    ddFrame := frame, len := d.rtpLen n (payloads.getD i 0) } (i = 0)) d, (seq + k) % 65536)

/-- The payloads of a picture of a composed encode (R237). Parameter sets stand in packets of their own before an IDR
picture; their size is free (log entry 34). -/
def Dev.encPayloads (d : Dev) (n : Nat) (c : EncPic) (intra : Bool) (size : Nat) : List Nat × Dev :=
  let codec := d.encCodec (.composed n)
  let room := d.payloadRoom n
  let mode0 := decide (codec = 1) && decide (d.nat .ENC_PKT_MODE n = 0)
  let sets := if !intra || decide (codec = 3) then 0 else if mode0 then 2 else 1
  let heads := (List.range sets).map fun i => 1 + Config.freeValue (d.free + i) % max 1 room
  let d := { d with free := d.free + sets }
  let rows := d.bitOf .ENC_CTRL n 0 18 && decide (codec ≠ 3) && decide (c.bits.length = c.rows)
  let units := if rows then (c.bits.map fun b => ceilDiv b 8) else [ceilDiv size 8]
  let body := (units.map fun u =>
    if mode0 then
      let step := max 1 (d.legMtu n - 64)
      (List.range (ceilDiv u step)).map fun i => min step (u - i * step)
    else if codec = 3 then fragments (room - 1) 0 0 u |>.map (· + 1)
    else if codec = 2 then fragments room 2 3 u
    else fragments room 1 2 u).flatten
  (heads ++ body, d)

/-- The quantiser changes that a bitstream carries, row by row (R233, R243): from the row before, or with a slice for every row from the slice QP;
five to a step for AV1. A coast row codes none, but in an intra picture of H.264 (R244). -/
def rowDeltas (codec : Nat) (slices intra : Bool) (coastFrom : Option Nat) (qps : List Nat) : List (Option Int) :=
  qps.zipIdx.map fun q =>
    let coasts := match coastFrom with
      | some r => decide (r ≤ q.2)
      | none => false
    if coasts && !(decide (codec = 1) && intra) then none
    else
      let before := if slices || q.2 = 0 then qps.getD 0 0 else qps.getD (q.2 - 1) 0
      some (((q.1 : Int) - before) * if codec = 3 then 5 else 1)

/-- What the bitstream of a picture says (R243 to R252, R288). A picture that replaces another has every row at QP 51. -/
def Dev.codedAs (d : Dev) (e : EncId) (c : EncPic) (kind : CodedKind) (intra exact : Bool) : CodedPict :=
  let codec := d.encCodec e
  let slices := match e with
    | .composed n => d.bitOf .ENC_CTRL n 0 18
    | _ => false
  let coded := decide (kind = .coded)
  let qps := if coded then c.qps else List.replicate c.rows 51
  let coastFrom := if coded then c.coastAt else some 0
  { period := c.period, tid := c.tid, intra := intra, kind := kind, ref := if intra then none else some (c.ref.getD 0), refresh := c.refresh
    quant := qps.getD 0 0 * if codec = 3 then 5 else 1, deltas := rowDeltas codec slices intra coastFrom qps, coastFrom := coastFrom
    vectors := if coded then c.vectors else [], exact := exact }

/-- A picture of encode `e` becomes final: counters, carry, reference and, for a composed encode, its packets (R237,
R239). `intra` says that what is emitted is an intra picture. A skip picture leaves its reference's buffer as its reconstruction (R246). -/
def Dev.encEmit (d : Dev) (e : EncId) (c : EncPic) (size : Nat) (kind : CodedKind) (intra : Bool) (entry : Option Nat) : Dev :=
  let x := d.encOf e
  let skip := decide (kind = .skip)
  let d := d.emit (.coded e (d.codedAs e c kind intra (entry.isSome && d.encExact e)))
  let recon := if skip then tget [] (c.ref.getD 0) x.refs else c.recon
  let x := { x with
    refs := match c.refresh with
      | some k => tset k recon x.refs
      | none => x.refs
    cur := x.cur.filter (fun y => decide (y.period ≠ c.period)), hasRef := true, carry := x.carry + size - c.share
    final := some ⟨c.period, skip, c.tid, size, entry⟩ }
  let z := d.encNowSize e
  let px := if skip then 0 else z.1 * z.2 * (if entry.isSome ∧ d.encExact e then 2 else 1)
  let d := (d.setEnc e x).add .CODED_PIXELS_ENC 0 0 px
  let d := match e with
    | .composed n =>
      let p := d.encPayloads n c intra size
      let ts := (x.ts + 150 * (c.period - x.s0.getD c.period)) % 2 ^ 32
      let r := p.2.sendPicture n x.ssrc (d.nat .ENC_PT n) ts x.seq p.1
        (if d.encCodec e = 3 then some (d.nat .ENC_PICTURES n % 65536) else none)
      let d := r.1.setEnc e { r.1.encOf e with seq := r.2 }
      let d := ((d.setI .ENC_CARRY n 0 x.carry).bump .ENC_PICTURES n).setN .ENC_LAST_BITS n size
      if intra then d.bump .ENC_INTRA n else d
    | _ => d
  d.pairUpdate (d.encPair e)

/-- The pair completes a picture of an encode (R239, R242, R244, R252). -/
def Dev.encComplete (d : Dev) (e : EncId) (size entryBits : Nat) : Dev :=
  let x := d.encOf e
  match x.cur with
  | [] => d
  | c :: _ =>
    if !c.ctx then d else
      let mean := if c.qps = [] then tget 32 c.kind x.base else
        let s := c.qps.foldl (· + ·) 0
        let n := c.qps.length
        let q := s / n
        if 2 * (s % n) < n then q else if n < 2 * (s % n) then q + 1 else if q % 2 = 0 then q else q + 1
      let x := { x with
        x := c.fresh.foldl (fun t r => tset (c.kind, r.1) r.2 t) x.x
        base := tset c.kind mean x.base
        blanks := 0
        lastIntra := if c.intra then some (c.released, d.nat .LAP_COUNT) else x.lastIntra }
      let entry := if c.serves then some (if d.encExact e then entryBits else 0) else none
      let d := (d.setEnc e x).encEmit e c size .coded c.intra entry
      match e with
      | .composed n =>
        let d := d.setN .ENC_LAST_QP n mean
        if c.coastAt.isSome then d.bump .ENC_COAST n else d
      | .tile n k => if c.serves && d.encExact e then d.bump .TILE_ENTRIES n k else d
      | .strip _ => d

/-- The missed picture of an encode is replaced: by a skip picture, or where it has no reference by an all-intra coast
picture (R246 to R248). Its bits are free (log entry 34). -/
def Dev.encSkip (d : Dev) (e : EncId) (c : EncPic) : Dev :=
  let x := d.encOf e
  let coast := !x.hasRef
  let size := Config.freeValue d.free
  let d := { d with free := d.free + 1 }
  let d := (d.countAbandon (d.encPair e)).bump .ENCODE_MISSES
  let d := d.setEnc e { x with asked := x.asked || c.intra, blanks := 0 }
  let d := d.encEmit e { c with bits := [] } size (if coast then .coast else .skip) coast none
  match e, coast with
  | .composed n, true => d.bump .ENC_COAST n
  | .composed n, false => d.bump .ENC_SKIPS n
  | .tile n k, false => d.bump .TILE_SKIPS n k
  | _, _ => d

/-- The picture of period `s` is released without input and replaced at once (R274). -/
def Dev.encSkipPeriod (d : Dev) (e : EncId) (s : Nat) : Dev :=
  let d := d.encRelease e s
  match (d.encOf e).cur.getLast? with
  | some c => d.encSkip e c
  | none => d

/-- A picture that found no buffer for its reconstruction is replaced at once (log entry 133). -/
def Dev.encUnbuffered (d : Dev) (e : EncId) : Dev :=
  match (d.encOf e).cur.getLast? with
  | some c => if c.recon = [] then d.encSkip e c else d
  | none => d

/-- The withheld picture of period `s` is replaced by a privacy blank (R288). Its bits are free (log entry 34). -/
def Dev.encBlank (d : Dev) (e : EncId) (s : Nat) : Dev :=
  let d := d.encRelease e s
  match (d.encOf e).cur.getLast? with
  | none => d
  | some c =>
    let x := d.encOf e
    let size := Config.freeValue d.free
    let d := { d with free := d.free + 1 }
    let d := d.setEnc e { x with asked := x.asked || c.intra, blanks := x.blanks + 1 }
    d.encEmit e { c with bits := [] } size .blank c.intra none

/-- The deadline check of an encode at edge `e` (R25 step 2, R27). -/
def Dev.encDeadline (d : Dev) (e : EncId) (edge : Nat) : Dev :=
  ((d.encOf e).cur.filter fun c => decide (c.deadline ≤ edge)).foldl (fun d c => d.encSkip e c) d

/-- An encode stops: its picture is abandoned at the edge; carry stays (R211, R258). -/
def Dev.encStop (d : Dev) (e : EncId) : Dev :=
  let x := d.encOf e
  let p := d.encPair e
  let d := x.cur.foldl (fun d _ => d.countAbandon p) d
  let d := d.setEnc e { x with
    cur := [], running := false, hasRef := false, entryAsked := false, final := none, refs := [], context := [], scales := [] }
  (d.encReport e).pairUpdate p

/-- A PLI, or a FIR by its sequence number, names the SSRC of leg `n`'s composed encode (R249). -/
def Dev.encAsk (d : Dev) (n : Nat) (fir : Option Nat) : Dev :=
  let x := d.encOf (.composed n)
  match fir with
  | some q => if x.lastFir = some q then d else d.setEnc (.composed n) { x with asked := true, lastFir := some q }
  | none => d.setEnc (.composed n) { x with asked := true }

end Sys2Proof.Machine
end

