-- ==== Sys2Proof/Machine/Pixels.lean ====
section
/-! DEFINITION. The composer's arithmetic: mapping, cropping, scaling, blending and narrowing (R266 to R270), and images
(R271). -/

namespace Sys2Proof.Machine

/-- A canvas x mapped to a picture `wc` wide (R266). -/
def mapX (wc x : Nat) : Nat := 2 * ((x * wc + 1920) / 3840)

/-- A canvas y mapped to a picture `hc` high (R266). -/
def mapY (hc y : Nat) : Nat := 2 * ((y * hc + 1088) / 2176)

/-- The edges of a source crop in a picture of size `w` (R266). -/
def cropEdges (w at_ len : Nat) : Nat × Nat := (min w (2 * ((at_ * w) / 8192)), min w (2 * (((at_ + len) * w) / 8192)))

/-- The step of a scaling, UQ16.16 (R267). -/
def scaleStep (from_ size : Nat) : Nat := (2 * from_ * 65536 + size) / (2 * size)

/-- One filtered sum of a scaling: output `i` from the line `s`, with `taps` coefficients whose first stands `back` samples
before (R267). -/
def scaleAcc (c : Nat → Nat → Int) (taps back : Nat) (s : List Int) (size i : Nat) : Int :=
  let step := scaleStep s.length size
  let q : Int := asr ((step : Int) - 65536) 1 + i * step
  let n := asr q 16
  let ph := (asr (q - n * 65536) 10).toNat
  (List.range taps).foldl (fun a t =>
    a + c ph t * s.getD (clamp 0 ((s.length : Int) - 1) (n - back + t)).toNat 0) 0

/-- The horizontal pass: 8 taps at −3 to +4 (R267). Equal sizes are copied. -/
def scaleRow (c : Nat → Nat → Int) (s : List Int) (size : Nat) : List Int :=
  if s.length = size then s else (List.range size).map fun i => sat (rne (scaleAcc c 8 3 s size i) 10) 15

/-- The vertical pass: 6 taps at −2 to +3, narrowed to 12 bits (R267). -/
def scaleColumn (c : Nat → Nat → Int) (s : List Int) (size : Nat) : List Int :=
  if s.length = size then s.map (clamp 0 4095)
  else (List.range size).map fun i => clamp 0 4095 (rne (scaleAcc c 6 2 s size i) 10)

/-- Coefficient `t` of phase `p` of a scaler set, horizontal taps 0 to 7, vertical 8 to 13 (R268). -/
def scalerCoef (set : Octets) (p t : Nat) : Int :=
  ofWord 16 (set.getD (2 * (14 * p + t)) 0 * 256 + set.getD (2 * (14 * p + t) + 1) 0)

/-- Is a scaler set valid (R268)? -/
def scalerOk (set : Octets) : Bool :=
  decide (set.length = 1792) &&
  ((List.range 64).all fun p =>
    ((List.range 14).all fun t => decide (-2048 ≤ scalerCoef set p t) && decide (scalerCoef set p t ≤ 2047)) &&
    decide (((List.range 8).foldl (fun a t => a + scalerCoef set p t) 0) = 1024) &&
    decide (((List.range 6).foldl (fun a t => a + scalerCoef set p (8 + t)) 0) = 1024)) &&
  ((List.range 8).all fun t => decide (scalerCoef set 0 t = if t = 3 then 1024 else 0)) &&
  ((List.range 6).all fun t => decide (scalerCoef set 0 (8 + t) = if t = 2 then 1024 else 0))

/-- A crop of a plane: columns `x` to `r`, rows `y` to `b`. -/
def cropPlane (rows : List (List Nat)) (x r y b : Nat) : List (List Nat) :=
  ((rows.drop y).take (b - y)).map fun l => (l.drop x).take (r - x)

/-- A plane scaled to `w` by `h`, horizontally first, as its columns (R267). -/
def scalePlane (set : Octets) (rows : List (List Int)) (w h : Nat) : List (List Int) :=
  let across := rows.map fun r => scaleRow (scalerCoef set) r w
  (List.range w).map fun x => scaleColumn (fun p t => scalerCoef set p (8 + t)) (across.map fun r => r.getD x 0) h

/-- Entry `v` of a LUT (R268). -/
def lutEntry (lut : Octets) (v : Nat) : Nat := lut.getD (2 * v) 0 * 256 + lut.getD (2 * v + 1) 0

/-- Is a LUT valid (R268)? -/
def lutOk (lut : Octets) : Bool :=
  decide (lut.length = 8192) && ((List.range 4096).all fun v => decide (lutEntry lut v ≤ 4095))

/-- One layer blended over what lies below it (R270). -/
def blend (a : Nat) (f o : Int) : Int := rne ((a : Int) * f + (1024 - (a : Int)) * o) 10

/-- The effective opacity of an image sample with alpha `A` (R270). -/
def opacity (alpha A : Nat) : Nat := (alpha * (A + A / 128)) / 256

/-- The dither matrix (R270). -/
def bayer (x y : Nat) : Nat :=
  ([[0, 8, 2, 10], [12, 4, 14, 6], [3, 11, 1, 9], [15, 7, 13, 5]].getD (y % 4) []).getD (x % 4) 0

/-- Narrows a 12-bit sample to depth `D` (R270). -/
def narrow (dither : Bool) (D x y : Nat) (o : Int) : Nat :=
  let k := 12 - D
  let v := if dither then asr (o + (bayer x y / 2 ^ (4 - k) : Nat)) k else rne o k
  (min v (2 ^ D - 1)).toNat

/-- An image's header and length (R271; the alpha plane is of 8-bit samples, R270): width, height, alpha, 10-bit, or none where the value is malformed. -/
def imageHead (b : Octets) : Option ((Nat × Nat) × (Bool × Bool)) :=
  let n16 := fun (i : Nat) => b.getD i 0 * 256 + b.getD (i + 1) 0
  let w := n16 0
  let h := n16 2
  let alpha := bit (n16 4) 0
  let deep := bit (n16 4) 1
  let sample := if deep then 2 else 1
  let size := 8 + w * h * 3 / 2 * sample + (if alpha then w * h else 0)
  if 8 ≤ b.length ∧ w % 2 = 0 ∧ h % 2 = 0 ∧ w ≤ 1920 ∧ h ≤ 1088 ∧ b.length = size then some ((w, h), (alpha, deep))
  else none

/-- Sample `(x, y)` of plane `p` of an image, widened to 12 bits (R271, Pixel composition). -/
def imageSample (b : Octets) (w h : Nat) (deep : Bool) (p x y : Nat) : Nat :=
  let base := match p with
    | 0 => 0
    | 1 => w * h
    | _ => w * h + w * h / 4
  let i := base + y * (if p = 0 then w else w / 2) + x
  if deep then (b.getD (8 + 2 * i) 0 * 256 + b.getD (8 + 2 * i + 1) 0) * 4 else b.getD (8 + i) 0 * 16

/-- The alpha of luma sample `(x, y)` of an image, where it has an alpha plane (R271). -/
def imageAlpha (b : Octets) (x y : Nat) : Option Nat :=
  match imageHead b with
  | some ((w, h), (true, deep)) => some (b.getD (8 + w * h * 3 / 2 * (if deep then 2 else 1) + y * w + x) 0)
  | _ => none

/-- Part `p` of a colour: Y, Cb and Cr, 12 bits each (R261). -/
def colourPart (c p : Nat) : Nat := bits c (35 - 12 * p) (24 - 12 * p)

end Sys2Proof.Machine
end

