-- ==== Sys2Proof/Machine/Compose.lean ====
section
/-! DEFINITION. Composition (R259 to R274) and safe indicators (R285 to R288): layouts, the targets of slots, composer
items, their windows, and the region checker. -/

namespace Sys2Proof.Machine

/-- A splice grid (R262): its tile class, its slots and its columns; a GRID of 0 has none. -/
def gridRow (g : Nat) : Nat × (Nat × Nat) :=
  [(0, (0, 1)), (0, (1, 1)), (1, (4, 2)), (2, (9, 3)), (3, (16, 4)), (1, (1, 1)), (2, (1, 1)), (3, (1, 1))].getD g (0, (0, 1))

/-- The grid of layout `l`. -/
def Dev.layoutGrid (d : Dev) (l : Nat) : Nat := if d.nat .LAYOUT_KIND l = 2 then d.fld .LAYOUT_SPLICE l 0 31 28 else 0

/-- The slots of layout `l`. -/
def Dev.layoutSlots (d : Dev) (l : Nat) : Nat := (gridRow (d.layoutGrid l)).2.1

/-- Resolves slots (R263 steps 2 to 4): `srcs` are their sources, `prev` the legs shown before, `members` the mixed set in
descending activity. -/
def resolveSlots (srcs prev members : List Nat) (usable : Nat → Bool) : List Nat :=
  let idx := List.range srcs.length
  let src := fun j => srcs.getD j 0xFFFF
  let fixed := idx.map fun j => if src j < 4096 && usable (src j) then src j else 0xFFFF
  let ranks := sortAsc src (idx.filter fun j => decide (0xF000 ≤ src j) && decide (src j ≤ 0xF01F))
  let cands := (members.filter fun m => usable m && !fixed.contains m).take ranks.length
  let kept := ranks.filterMap fun j =>
    let m := prev.getD j 0xFFFF
    if cands.contains m then some (j, m) else none
  let free := ranks.filter fun j => !thas j kept
  let news := cands.filter fun m => !(kept.map (·.2)).contains m
  let placed := kept ++ free.zip news
  idx.map fun j => if ranks.contains j then tget 0xFFFF j placed else fixed.getD j 0xFFFF

/-- The mixed set of conference `k`, in descending activity (R203). -/
def Dev.mixMembers (d : Dev) (k : Nat) : List Nat :=
  if 1024 ≤ k then [] else (List.range (min 32 (d.nat .CONF_MIX_COUNT k))).map fun i => d.nat .CONF_MIX_MEMBER k i

/-- Is a leg a member that may be shown (R263)? -/
def Dev.showable (d : Dev) (k m : Nat) : Bool :=
  decide (m < 4096) && decide (d.nat .LEG_CONFERENCE m = k) && match d.legState m with
  | .idle => false
  | .configured => false
  | .draining => false
  | _ => true

/-- Has leg `m` a tile stream that layout `l` can splice (R263 step 2)? -/
def Dev.tileFits (d : Dev) (l m : Nat) : Bool :=
  let c := (gridRow (d.layoutGrid l)).1
  d.bitOf .TILE_CTRL m c 31 && decide (d.fld .TILE_CTRL m c 30 28 = d.fld .LAYOUT_SPLICE l 0 27 26) &&
    decide (d.bitOf .TILE_CTRL m c 27 = d.bitOf .LAYOUT_SPLICE l 0 25) &&
    decide (d.fld .TILE_CTRL m c 25 24 = d.fld .LAYOUT_SPLICE l 0 24 23) &&
    decide (d.fld .TILE_CTRL m c 23 21 = d.fld .LAYOUT_SPLICE l 0 22 20)

/-- The view of leg `n`. -/
def Dev.viewOf (d : Dev) (n : Nat) : View := tget {} n d.view
/-- Sets the view of leg `n`. -/
def Dev.setView (d : Dev) (n : Nat) (x : View) : Dev := { d with view := tput {} n x d.view }

/-- The targets of the slots that viewer `n` sees in layout `l` (R263). -/
def Dev.slotTargets (d : Dev) (n l : Nat) (prev : List Nat) : List Nat :=
  let spliced := d.bitOf .VIEW_CTRL n 0 31
  let self := d.bitOf .VIEW_CTRL n 0 30
  let k := d.nat .LAYOUT_CONF l
  let srcs := (List.range (d.layoutSlots l)).map fun j =>
    let v := d.nat .VIEW_SLOT n j
    if v = 0xFFFE then d.nat .SLOT_SRC l j else v
  resolveSlots srcs prev (d.mixMembers k) fun m =>
    d.showable k m && !(self && decide (m = n)) && (!spliced || d.tileFits l m)

/-- Resolves the targets of viewer `n` at an edge (R263). -/
def Dev.resolveView (d : Dev) (n : Nat) : Dev :=
  let l := d.nat .VIEW_LAYOUT n
  let x := d.viewOf n
  if d.videoRuns n && decide (l < 1024) then d.setView n { x with target := d.slotTargets n l x.target }
  else if x.target = [] then d else d.setView n { x with target := [] }

/-- The layout an encode draws. -/
def Dev.itemLayout (d : Dev) (i : CompId) : Option Nat :=
  match i with
  | .composition n => some (d.nat .VIEW_LAYOUT n)
  | .scaling _ _ => none
  | .strip l => some l

/-- The encode a composer item feeds. -/
def itemEnc : CompId → EncId
  | .composition n => .composed n
  | .scaling n k => .tile n k
  | .strip l => .strip l

/-- The layers of KIND `q` of layout `l` that an item draws: those from the last slot on (Layouts). -/
def Dev.layersOf (d : Dev) (l q : Nat) : List Nat :=
  (List.range 16).filter fun i => decide (d.layoutSlots l ≤ i) && decide (d.fld .LAYER_SRC l i 31 28 = q)

/-- The leg-video layers of an item, with their source leg and decode slot (R269, R273). -/
def Dev.videoLayers (d : Dev) (i : CompId) : List (Nat × (Nat × Nat)) :=
  let own := fun l => (d.layersOf l 1).map fun y => (y, (d.fld .LAYER_SRC l y 15 0, d.fld .LAYER_SRC l y 16 16))
  match i with
  | .scaling n _ => [(0, (n, 0))]
  | .strip l => own l
  | .composition n =>
    let t := (d.viewOf n).target
    ((List.range t.length).filterMap fun j =>
      if t.getD j 0xFFFF < 4096 then some (j, (t.getD j 0xFFFF, 0)) else none) ++ own (d.nat .VIEW_LAYOUT n)

/-- The picture an item's layer wants (R269, R273): none where the leg is not shown or has output none. -/
def Dev.wants (d : Dev) (i : CompId) (m s : Nat) : Option Nat :=
  let k := match d.itemLayout i with
    | some l => d.nat .LAYOUT_CONF l
    | none => d.nat .LEG_CONFERENCE m
  if d.showable k m then d.newestPicture m s else none

/-- The composer of an item (R259, R385). -/
def Dev.itemComposer (d : Dev) (i : CompId) : Nat :=
  let k := match i with
    | .composition n => d.nat .LEG_CONFERENCE n
    | .scaling n _ => d.nat .LEG_CONFERENCE n
    | .strip l => d.nat .LAYOUT_CONF l
  d.composerFor (d.confRegion k)

/-- Composer `k`. -/
def Dev.compOf (d : Dev) (k : Nat) : Composer := tget {} k d.comp
/-- Sets composer `k`. -/
def Dev.setComp (d : Dev) (k : Nat) (x : Composer) : Dev := { d with comp := tput {} k x d.comp }

/-- Adds an item of period `s` to its composer (R272). -/
def Dev.addComp (d : Dev) (i : CompId) (s : Nat) : Dev :=
  let k := d.itemComposer i
  let early := match i with
    | .composition _ => 0
    | _ => 2
  let item : CompItem := {
    id := i, composer := k, period := s, earliest := s - early, cutoff := s - early + 1
    deadline := if early = 0 then s + 3 else s
    wanted := (d.videoLayers i).map fun y => (y.1, (y.2.1, (y.2.2, d.wants i y.2.1 y.2.2))) }
  d.setComp k { d.compOf k with items := (d.compOf k).items ++ [item] }

/-- The spliced layouts with a strip (R259). -/
def Dev.stripLayouts (d : Dev) : List Nat :=
  (((d.legs.filter fun n => d.bitOf .VIEW_CTRL n 0 31).map fun n => d.nat .VIEW_LAYOUT n).eraseDups).filter fun l =>
    d.encOn (.strip l)

/-- Is a tile or strip picture of period `s` coded (R253, R275)? The stream begins at position 0. -/
def Dev.tileDue (d : Dev) (e : EncId) (s : Nat) : Bool :=
  let per := period (d.encFpsSet e)
  let x := d.encOf e
  let pos := positionOf s per (d.encLayers e)
  let top := if pos = 0 then d.encLayers e - x.down else x.top
  d.encOn e && decide (s % per = 0) && (x.running || decide (pos = 0)) &&
    decide ((patternOf (d.encLayers e)).getD pos 0 ≤ top)

/-- The composer items that become due at this edge (R259, R272). A tile is scaled once its source has a picture. -/
def Dev.compEdge (d : Dev) : Dev :=
  let s := d.stride
  let d := d.legs.foldl (fun d n =>
    let e := EncId.composed n
    let d := if d.encOn e && d.viewOk n && decide (s % period (d.fpsWanted e) = 0) then d.addComp (.composition n) s else d
    (List.range 4).foldl (fun d k =>
      if d.tileDue (.tile n k) (s + 2) && (d.newestPicture n 0).isSome then d.addComp (.scaling n k) (s + 2) else d) d) d
  d.stripLayouts.foldl (fun d l => if d.tileDue (.strip l) (s + 2) then d.addComp (.strip l) (s + 2) else d) d

/-- Is every wanted picture of an item fenced (R273)? -/
def Dev.allFenced (d : Dev) (i : CompItem) : Bool :=
  i.wanted.all fun w => match w.2.2.2 with
    | some ts => d.fenced w.2.1 w.2.2.1 ts
    | none => true

/-- The order of a composer's items (R260). -/
def itemOrder (i : CompItem) : Nat :=
  i.deadline * 8192 + match i.id with
    | .composition n => n
    | .scaling n _ => n
    | .strip l => 4096 + l

/-- One layer of a starting item flips, or keeps its picture (R273), and LAYER_STATUS follows (R261, R269). -/
def Dev.flipLayer (d : Dev) (i : CompItem) (w : Nat × (Nat × (Nat × Option Nat))) : Dev :=
  let e := itemEnc i.id
  let x := d.encOf e
  let flips := match w.2.2.2 with
    | some ts => d.fenced w.2.1 w.2.2.1 ts
    | none => true
  let shown := if !flips then tfind w.1 x.shown
    else match w.2.2.2 with
      | some ts => d.pictureAt w.2.1 w.2.2.1 ts
      | none => none
  let d := d.setEnc e { x with shown := match shown with
    | some p => tset w.1 p x.shown
    | none => tdel w.1 x.shown }
  match d.itemLayout i.id with
  | none => d
  | some l =>
    let count := d.fld .LAYER_STATUS l w.1 15 0
    let count := if flips then count else (count + 1) % 65536
    let mark := match shown with
      | some p => if p.concealed then 2 ^ 30 else 0
      | none => 2 ^ 31
    d.put .LAYER_STATUS l w.1 (.num ((mark + count : Nat)))

/-- The state of an indicator layer, and the image it shows (R285). -/
def Dev.indImage (d : Dev) (l layer : Nat) : Nat :=
  let v := d.nat .LAYER_IND l layer
  let m := bits v 31 16
  let muted := decide (d.nat .LEG_MIX_MODE m = 0) || decide (d.nat .LEG_MIX_GAIN m = 0) ||
    decide (d.legState m = .held) || decide (d.legState m = .rekey)
  let on := match bits v 5 4 with
    | 0 => bit v 0
    | 1 => muted
    | _ => decide (d.nat .LEG_IN_MIXED m = 1)
  if on then bits v 15 12 else bits v 11 8

/-- The size of an item's picture (R262, R265, R266). -/
def Dev.itemSize (d : Dev) (i : CompId) : Nat × Nat :=
  match i with
  | .composition n => classSize (d.classWanted n)
  | .scaling _ k => tileSize k
  | .strip _ => (1920, 32)

/-- The canvas rectangle of slot `j` of layout `l` (R262): x, y, w, h. -/
def Dev.slotRect (d : Dev) (l j : Nat) : Nat × (Nat × (Nat × Nat)) :=
  let g := gridRow (d.layoutGrid l)
  let z := tileSize g.1
  if g.2.1 = 1 then (0, (0, (1920, 1088))) else (j % g.2.2 * z.1, (j / g.2.2 * z.2, z))

/-- A layer at a canvas rectangle, mapped to an item's picture (R266); a strip is the canvas from row 1,056 on (R262). -/
def DrawLayer.place (y : DrawLayer) (i : CompId) (z : Nat × Nat) (r : Nat × (Nat × (Nat × Nat))) : DrawLayer :=
  let strip := match i with
    | .strip _ => true
    | _ => false
  let hc := if strip then 1088 else z.2
  let down : Int := if strip then 1056 else 0
  { y with
    left := mapX z.1 r.1, right := mapX z.1 (r.1 + r.2.2.1)
    top := mapY hc r.2.1 - down, bottom := mapY hc (r.2.1 + r.2.2.2) - down }

/-- An image layer keeps its own size from its mapped corner (R269). -/
def DrawLayer.asImage (y : DrawLayer) (image : Octets) : DrawLayer :=
  match imageHead image with
  | some ((w, h), _) => { y with image := image, right := y.left + w, bottom := y.top + h }
  | none => { y with image := image, right := y.left, bottom := y.top }

/-- Layer `n` of layout `l` as an item draws it (R261, R266, R269). -/
def Dev.drawLayer (d : Dev) (i : CompId) (l n : Nat) (shown : Bool) : DrawLayer :=
  let src := d.nat .LAYER_SRC l n
  let dest := d.nat .LAYER_DEST l n
  let y : DrawLayer := {
    layer := n, kind := bits src 31 28, alpha := d.nat .LAYER_ALPHA l n, crop := d.nat .LAYER_CROP l n
    colour := d.nat .LAYER_COLOUR l n, scaler := d.bytes .SCALER_SET (d.nat .LAYER_SCALER l n), shown := shown }
  let y := y.place i (d.itemSize i) (bits dest 63 48, (bits dest 47 32, (bits dest 31 16, bits dest 15 0)))
  match y.kind with
  | 3 => y.asImage (d.bytes .LAYOUT_IMAGE l (src % 16))
  | 4 => y.asImage (d.bytes .LAYOUT_IMAGE l (d.indImage l n))
  | _ => y

/-- Slot `j` of a composed GRID layout: a leg-video layer over the slot's rectangle (R269). -/
def Dev.drawSlot (d : Dev) (i : CompId) (l j : Nat) (shown : Bool) : DrawLayer :=
  let y : DrawLayer := {
    layer := j, kind := 1, colour := d.nat .LAYER_COLOUR l j, scaler := d.bytes .SCALER_SET 0, shown := shown }
  y.place i (d.itemSize i) (d.slotRect l j)

/-- What an item draws, with the sets in force as it starts (R266 to R270). `shown` are the leg-video layers with a picture. -/
def Dev.planOf (d : Dev) (i : CompId) (shown : List Nat) : DrawPlan :=
  let z := d.itemSize i
  let plan : DrawPlan := { w := z.1, h := z.2, depth := if d.encDepth (itemEnc i) = 2 then 10 else 8 }
  match d.itemLayout i with
  | none =>
    { plan with layers := [{
        kind := 1, right := z.1, bottom := z.2, scaler := d.bytes .SCALER_SET 0, shown := shown.contains 0 }] }
  | some l =>
    let own := (List.range 16).filter fun n => decide (d.layoutSlots l ≤ n) && decide (d.fld .LAYER_SRC l n 31 28 ≠ 0)
    let slots := match i with
      | .composition n => (d.viewOf n).target.zipIdx.filterMap fun t =>
          if t.1 < 4096 then some (d.drawSlot i l t.2 (shown.contains t.2)) else none
      | _ => []
    let c := d.nat .LAYOUT_COLOUR l
    let set := bits c 3 2
    { plan with
      bg := d.nat .LAYOUT_BG l, mode := bits c 1 0, lutPre := d.bytes .LUT_PRE set, lutPost := d.bytes .LUT_POST set
      layers := slots ++ own.map fun n => d.drawLayer i l n (shown.contains n) }

/-- Does an encode use motion hints (R236, R254)? A strip has no such setting (log entry 134). -/
def Dev.hintsOn (d : Dev) (e : EncId) : Bool :=
  match e with
  | .composed n => d.bitOf .ENC_CTRL n 0 19
  | .tile n k => d.bitOf .TILE_CTRL n k 20
  | .strip _ => false

/-- `v` scaled from a length to another and rounded half to even (R254). -/
def scaleHint (v : Int) (from_ size : Nat) : Int :=
  let a := 2 * v * size + from_
  let q := a / (2 * from_ : Int)
  if a % (2 * from_ : Int) = 0 ∧ q % 2 = 1 then q - 1 else q

/-- The hint for the luma rectangle of a coding block from one leg-video layer: the decoded vector at the block's middle, scaled as the layer is (R254).
`from_` is the crop of the picture. -/
def DrawLayer.hint (l : DrawLayer) (p : Picture) (x y w h : Nat) : Option (Int × Int) :=
  let cx := cropEdges p.shown.1 (bits l.crop 63 48) (bits l.crop 31 16)
  let cy := cropEdges p.shown.2 (bits l.crop 47 32) (bits l.crop 15 0)
  let fw := cx.2 - cx.1
  let fh := cy.2 - cy.1
  let tw := (l.right - l.left).toNat
  let th := (l.bottom - l.top).toNat
  if fw = 0 ∨ fh = 0 ∨ tw = 0 ∨ th = 0 then none else
    let sx := cx.1 + (((2 * x + w : Nat) : Int) - 2 * l.left).toNat * fw / (2 * tw)
    let sy := cy.1 + (((2 * y + h : Nat) : Int) - 2 * l.top).toNat * fh / (2 * th)
    ((p.motion.getD (sy / 16 * ceilDiv p.width 16 + sx / 16) none)).map fun v => (scaleHint v.1 fw tw, scaleHint v.2 fh th)

/-- The sizes that a layer is scaled from and to (R254). -/
def DrawLayer.scaling (l : DrawLayer) (p : Picture) : (Nat × Nat) × (Nat × Nat) :=
  (p.shown, ((l.right - l.left).toNat, (l.bottom - l.top).toNat))

/-- The motion hints of an item, by coding block (R254): of a block that one leg-video layer alone gives, whose picture is neither intra nor CONCEALED
nor the first after a change of scale. -/
def Dev.itemHints (d : Dev) (i : CompId) (plan : DrawPlan) : List (Nat × (Int × Int)) :=
  let e := itemEnc i
  let x := d.encOf e
  let side := d.encBlock e
  let across := ceilDiv plan.w side
  if !d.hintsOn e then [] else
    (List.range (across * ceilDiv plan.h side)).filterMap fun b =>
      let x0 := b % across * side
      let y0 := b / across * side
      let w := min side (plan.w - x0)
      let h := min side (plan.h - y0)
      let on := plan.layers.filter fun l => decide (l.left < ((x0 + w : Nat) : Int)) && decide ((x0 : Int) < l.right) && decide (l.top < ((y0 + h : Nat) : Int)) &&
        decide ((y0 : Int) < l.bottom)
      match on.getLast? with
      | none => none
      | some l =>
        let whole := decide (l.left ≤ x0) && decide (((x0 + w : Nat) : Int) ≤ l.right) && decide (l.top ≤ y0) && decide (((y0 + h : Nat) : Int) ≤ l.bottom)
        match tfind l.layer x.shown with
        | none => none
        | some p =>
          if l.kind ≠ 1 ∨ !l.shown ∨ !whole ∨ l.alpha ≠ 1024 ∨ p.intra ∨ p.concealed ∨ tfind l.layer x.scales ≠ some (l.scaling p) then none
          else (l.hint p x0 y0 w h).map fun v => (b, v)

/-- What the layers of a starting item are scaled from and to, for the next item's hints (R254). -/
def Dev.noteScales (d : Dev) (e : EncId) (plan : DrawPlan) : Dev :=
  let x := d.encOf e
  d.setEnc e { x with scales := plan.layers.filterMap fun l => (tfind l.layer x.shown).map fun p => (l.layer, l.scaling p) }

/-- A composer item starts (R260, R272, R273): the ready item of earliest deadline; each layer flips, and what the item draws is
fixed (R268, R285), with its hints (R254) and the buffer that it writes (R238). -/
def Dev.compStart (d : Dev) (k : Nat) : Dev :=
  let x := d.compOf k
  if d.nat .COMPOSER_STATE k ≠ 0 || x.halted || x.items.any (fun i => i.started && !i.finished) then d else
    let ready := x.items.filter fun i => !i.started && decide (i.earliest ≤ d.stride) &&
      (decide (i.cutoff ≤ d.stride) || d.allFenced i)
    match minBy? itemOrder ready with
    | none => d
    | some i =>
      let d := i.wanted.foldl (fun d w => d.flipLayer i w) d
      let plan := d.planOf i.id ((d.encOf (itemEnc i.id)).shown.map (·.1))
      let d := match i.id with
        | .composition n => (d.viewOf n).target.zipIdx.foldl (fun (d : Dev) (t : Nat × Nat) => d.put .VIEW_SLOT_NOW n t.2 (.num (t.1 : Nat))) d
        | _ => d
      let e := itemEnc i.id
      let hints := d.itemHints i.id plan
      let d := d.noteScales e plan
      let r := d.allocKept .composed (12 + k) (plan.w * plan.h * 3 / 2 * d.encDepth e) (d.encConf e)
      r.2.setComp k { x with items := x.items.map fun y =>
        if y = i then { y with started := true, plan := plan, hints := hints, buf := r.1 } else y }

/-- Does a layer cover luma sample `(x, y)` of the picture? -/
def DrawLayer.covers (l : DrawLayer) (x y : Nat) : Bool :=
  decide (l.left ≤ x) && decide (x < l.right) && decide (l.top ≤ y) && decide (y < l.bottom)

/-- The 12-bit planes of a leg-video layer from its picture, scaled to the layer's mapped size, as columns (R266, R267); none
where its crop is empty. -/
def DrawLayer.planes (l : DrawLayer) (p : PictSamples) : Option (List (List (List Int))) :=
  let cx := cropEdges p.w (bits l.crop 63 48) (bits l.crop 31 16)
  let cy := cropEdges p.h (bits l.crop 47 32) (bits l.crop 15 0)
  if cx.2 ≤ cx.1 ∨ cy.2 ≤ cy.1 then none else
    let w := (l.right - l.left).toNat
    let h := (l.bottom - l.top).toNat
    let plane := fun (rows : List (List Nat)) (s : Nat) =>
      let rows := (cropPlane rows (cx.1 / s) (cx.2 / s) (cy.1 / s) (cy.2 / s)).map fun r =>
        r.map fun v => ((if p.deep then v * 4 else v * 16 : Nat) : Int)
      scalePlane l.scaler rows (w / s) (h / s)
    some [plane p.y 1, plane p.cb 2, plane p.cr 2]

/-- Sample `(x, y)` of plane `p` of a layer that covers it, in the picture's coordinates of that plane (R269). -/
def DrawLayer.value (l : DrawLayer) (planes : List (List (List Int))) (p x y : Nat) : Int :=
  let s : Int := if p = 0 then 1 else 2
  let dx := ((x : Int) - l.left / s).toNat
  let dy := ((y : Int) - l.top / s).toNat
  if 3 ≤ l.kind then
    match imageHead l.image with
    | some ((w, h), (_, deep)) => (imageSample l.image w h deep p dx dy : Nat)
    | none => 0
  else if l.kind = 1 ∧ l.shown then (((planes.getD p []).getD dx []).getD dy 0)
  else (colourPart l.colour p : Nat)

/-- The effective opacity of a layer at a sample of plane `p` (R270). -/
def DrawLayer.opac (l : DrawLayer) (p x y : Nat) : Nat :=
  let s := if p = 0 then 1 else 2
  if l.kind ≠ 3 then l.alpha
  else match imageAlpha l.image ((s * x : Nat) - l.left).toNat ((s * y : Nat) - l.top).toNat with
    | some a => opacity l.alpha a
    | none => l.alpha

/-- A composed sample, narrowed (R270, R286): an indicator that covers it, the highest, is drawn alone; the layers blend in
ascending number otherwise. -/
def DrawPlan.sample (q : DrawPlan) (inks : List (DrawLayer × List (List (List Int)))) (p x y : Nat) : Nat :=
  let s := if p = 0 then 1 else 2
  let lut := decide (q.mode = 1) && decide (p = 0)
  let enter := fun (v : Int) => if lut then ((lutEntry q.lutPre v.toNat : Nat) : Int) else v
  let on := inks.filter fun i => i.1.covers (s * x) (s * y)
  let o := match (on.filter fun i => i.1.kind = 4).getLast? with
    | some i => enter (i.1.value i.2 p x y)
    | none => on.foldl (fun o i => blend (i.1.opac p x y) (enter (i.1.value i.2 p x y)) o) (enter (colourPart q.bg p : Nat))
  let o := if lut then ((lutEntry q.lutPost o.toNat : Nat) : Int) else o
  narrow (decide (q.mode = 2)) q.depth x y o

/-- The composed picture, by planes and rows (R266 to R270), from the samples of the layers that show a picture. -/
def DrawPlan.draw (q : DrawPlan) (pics : List (Nat × PictSamples)) : Option (List (List (List Nat))) :=
  let ink := fun (l : DrawLayer) =>
    if l.kind = 1 ∧ l.shown then (tfind l.layer pics).bind fun p => (l.planes p).map fun r => (l, r) else some (l, [])
  match q.layers.mapM ink with
  | none => none
  | some inks =>
    let plane := fun (p s : Nat) => (List.range (q.h / s)).map fun y => (List.range (q.w / s)).map fun x => q.sample inks p x y
    some [plane 0 1, plane 1 2, plane 2 2]

/-- The checker's CRC of an indicator region (R286, R287): from the state image, through the LUTs, narrowed and clipped as
the item does; a higher indicator's region is left out. -/
def DrawPlan.indCrc (q : DrawPlan) (l : DrawLayer) : Nat :=
  let higher := q.layers.filter fun y => decide (y.kind = 4) && decide (l.layer < y.layer)
  let plane := fun (p s : Nat) =>
    let ys := (List.range (q.h / s)).filter fun (y : Nat) => decide (l.top ≤ s * y) && decide (s * y < l.bottom)
    let xs := (List.range (q.w / s)).filter fun (x : Nat) => decide (l.left ≤ s * x) && decide (s * x < l.right)
    (ys.map fun y => (xs.map fun x =>
      if l.covers (s * x) (s * y) && !(higher.any fun i => i.covers (s * x) (s * y)) then
        natToOctets (if q.depth = 10 then 2 else 1) (q.sample [(l, [])] p x y)
      else []).flatten).flatten
  crc32 (plane 0 1 ++ plane 1 2 ++ plane 2 2)

/-- A composer item completes: the CRCs of its indicator regions are compared, and its picture leaves unless it is withheld
(R260, R287, R288). Three privacy blanks in consecutive periods report the composer failing: the answer tells whether that
happened. `late` names the layers whose repair was not done by the deadline. -/
def Dev.compComplete (d : Dev) (m : List Host.Cell) (k : Nat) (regions : List IndRegion) (late : List Nat) : (Dev × List Host.Cell) × Bool :=
  let x := d.compOf k
  match x.items.find? fun i => i.started && !i.finished with
  | none => ((d, m), false)
  | some i =>
    let pics := (d.encOf (itemEnc i.id)).shown.map fun y => (y.1, d.displayed m y.2)
    let l := (d.itemLayout i.id).getD 0
    let crcs := (i.plan.layers.filter fun y => y.kind = 4).map fun y => (y.layer, i.plan.indCrc y)
    let bad := regions.filter fun r => match tfind r.layer crcs with
      | some c => decide (r.blendCrc ≠ c)
      | none => false
    let lost := fun (r : IndRegion) => late.contains r.layer || decide (some r.backCrc ≠ tfind r.layer crcs)
    let d := d.add .CHECK_FAILS k 0 bad.length
    let d := bad.foldl (fun d r =>
      let gone := lost r
      let d := if gone then d else d.bump .IND_CORRECTED l
      d.logRec {
        level := 2, cls := if gone then .degraded else .corrected, action := if gone then .concealed else .corrected
        unit := 0x2000 + k, code := if gone then 0x0404 else 0x0403, detail := Config.detail 0x0403 [l, r.layer] }) d
    let withheld := bad.any lost
    let d := if withheld then d.bump .IND_BLANKED l else d
    let blank := match i.id with
      | .scaling _ _ => i.plan.layers.any fun y => !y.shown
      | _ => false
    let s := if withheld || blank then (d, m) else match i.plan.draw pics with
      | some planes =>
        (d.emit (.picture (itemEnc i.id) planes)).writeBufs m i.buf (pictOctets {
          w := i.plan.w, h := i.plan.h, deep := decide (i.plan.depth = 10), y := planes.getD 0 [], cb := planes.getD 1 []
          cr := planes.getD 2 [] })
      | none => (d, m)
    let d := s.1.setComp k { x with items := x.items.map fun y =>
      if y = i then { y with finished := true, withheld := withheld, plan := {} } else y }
    ((d, s.2), withheld && decide (2 ≤ (d.encOf (itemEnc i.id)).blanks))

/-- Items hand over, or miss their deadline, at an edge (R272, R274, R288). -/
def Dev.compHandover (d : Dev) : Dev :=
  let s := d.stride
  (List.range 4).foldl (fun d k =>
    let x := d.compOf k
    let due := fun (i : CompItem) => match i.id with
      | .composition _ => i.finished || decide (i.deadline ≤ s)
      | _ => decide (i.deadline ≤ s)
    let d := d.setComp k { x with items := x.items.filter fun i => !due i }
    (x.items.filter due).foldl (fun d i =>
      let e := itemEnc i.id
      if i.finished then
        if i.withheld then d.encBlank e i.period
        else if i.buf = [] then d.encSkipPeriod e i.period
        else (d.encRelease e i.period i.buf i.hints).encUnbuffered e
      else
        let d := d.bump .COMPOSER_MISSES k
        let d := match d.itemLayout i.id with
          | some l => d.bump .COMPOSE_MISSES l
          | none => d
        d.encSkipPeriod e i.period) d) d

/-- The items of an encode that stops leave their composer. -/
def Dev.dropItems (d : Dev) (e : EncId) : Dev :=
  (List.range 4).foldl (fun d k =>
    let x := d.compOf k
    if x.items.any (fun i => itemEnc i.id = e) then
      d.setComp k { x with items := x.items.filter fun i => decide (itemEnc i.id ≠ e) }
    else d) d

/-- The open items of composer `k` move to composer `j`, begun anew under their windows (R385). A withheld picture is not
released late. -/
def Dev.moveItems (d : Dev) (k j : Nat) : Dev :=
  let x := d.compOf k
  let open_ := x.items.filter fun i => !i.finished
  let d := d.setComp k { x with items := x.items.filter fun i => i.finished }
  d.setComp j { d.compOf j with
    items := (d.compOf j).items ++ open_.map fun i => { i with composer := j, started := false } }

end Sys2Proof.Machine
end

