-- ==== Sys2Proof/Machine/Splice.lean ====
section
/-! DEFINITION. Splice composition (R275 to R283): layers per viewer, entries, fillers, the assembled picture, and
divergence. -/

namespace Sys2Proof.Machine

/-- Is leg `n` sent a spliced stream (R264, R265; R411 step 4)? -/
def Dev.spliceOn (d : Dev) (n : Nat) : Bool :=
  let l := d.nat .VIEW_LAYOUT n
  d.videoRuns n && d.bitOf .VIEW_CTRL n 0 31 && decide (l < 1024) && decide (d.nat .LAYOUT_KIND l = 2) &&
    (d.lifeOf n).videoIn && decide (d.govStep < 4)

/-- The share of layers up to `L` of a stream, as weights (R279). -/
def layerShare (pattern weights : List Nat) (L : Nat) : Nat × Nat :=
  let sum := fun (p : List Nat) => p.foldl (fun a t => a + weights.getD t 0) 0
  (sum (pattern.filter (· ≤ L)), sum pattern)

/-- `rate(L)` of viewer `n` (R279), in bit/s. -/
def Dev.spliceRate (d : Dev) (n L : Nat) : Nat :=
  let l := d.nat .VIEW_LAYOUT n
  let c := (gridRow (d.layoutGrid l)).1
  let x := d.viewOf n
  let part := fun (e : EncId) =>
    let s := layerShare (patternOf (d.encLayers e)) (d.encWeights e) L
    d.encRate e * s.1 / max 1 s.2
  let shows := if x.active then x.shown else x.target
  let tiles := (shows.filter (· < 4096)).foldl (fun a m => a + part (.tile m c)) 0
  tiles + if d.layoutGrid l = 3 then part (.strip l) else 0

/-- The highest layer that viewer `n`'s budget allows now. -/
def Dev.topAllowed (d : Dev) (n : Nat) : Nat :=
  let most := min (d.fld .VIEW_CTRL n 0 29 28) (d.fld .LAYOUT_SPLICE (d.nat .VIEW_LAYOUT n) 0 24 23)
  (List.range (most + 1)).foldl (fun b L => if d.spliceRate n L ≤ d.videoBudget n then L else b) 0

/-- The edge of the splicer for viewer `n`: the strides each layer has been allowed for (R279). -/
def Dev.topEdge (d : Dev) (n : Nat) : Dev :=
  if !d.spliceOn n then d else
    let x := d.viewOf n
    let a := d.topAllowed n
    d.setView n { x with ups := (List.range 3).map fun L => if L ≤ a then x.ups.getD L 0 + 1 else 0 }

/-- The top layer of viewer `n`'s next picture (R279). -/
def Dev.topNext (d : Dev) (n : Nat) : Nat :=
  let x := d.viewOf n
  let a := d.topAllowed n
  if !x.active ∨ a < x.top then a else
    (List.range 3).foldl (fun b L => if x.top < L ∧ L ≤ a ∧ 60 ≤ x.ups.getD L 0 then L else b) x.top

/-- Does slot `j` of viewer `n` await an entry (R280, R281)? -/
def View.awaits (x : View) (j : Nat) : Bool :=
  let t := x.target.getD j 0xFFFF
  decide (t < 4096) && (!x.active || decide (x.shown.getD j 0xFFFF ≠ t) || x.need.contains j)

/-- Entry requests: raised in the stride before a position-0 picture is released, and withdrawn after it (R280). -/
def Dev.entryEdge (d : Dev) : Dev :=
  let d := d.enc.foldl (fun d kv =>
    if (d.encOf kv.1).entryAsked then d.setEnc kv.1 { d.encOf kv.1 with entryAsked := false } else d) d
  let ask := fun (d : Dev) (e : EncId) => d.setEnc e { d.encOf e with entryAsked := true }
  (d.legs.filter fun n => d.spliceOn n).foldl (fun d n =>
    let l := d.nat .VIEW_LAYOUT n
    let per := period (d.encFpsSet (.strip l))
    let layers := d.encLayers (.strip l)
    if (d.stride + 1) % (per * (patternOf layers).length) ≠ 0 then d else
      let x := d.viewOf n
      let c := (gridRow (d.layoutGrid l)).1
      let d := (List.range (d.layoutSlots l)).foldl (fun d j =>
        if x.awaits j then ask d (.tile (x.target.getD j 0) c) else d) d
      if d.layoutGrid l = 3 ∧ (!x.active ∨ !x.strip ∨ x.need.contains 16) then ask d (.strip l) else d) d

/-- The outcome of an encode's picture of period `s`, if it is final. -/
def Dev.finalOf (d : Dev) (e : EncId) (s : Nat) : Option EncOut :=
  match (d.encOf e).final with
  | some f => if f.period = s then some f else none
  | none => none

/-- Is the picture of period `s` of a running encode final, or not to come? -/
def Dev.settled (d : Dev) (e : EncId) (s : Nat) : Bool :=
  let x := d.encOf e
  !x.running || (d.finalOf e s).isSome ||
    (x.cur.all fun c => decide (c.period ≠ s)) && !((List.range 4).any fun k => (d.compOf k).items.any fun i =>
      decide (itemEnc i.id = e) && decide (i.period = s))

/-- What one slot of an assembled picture comes to (R276, R280 to R282): what it shows after, whether it needs an entry, whether its
intra filler is still due, and the data and the bytes that it carries. -/
structure SlotPick where
  shows : Option EncId := none
  need : Bool := false
  due : Bool := false
  data : SliceData := .skip
  bytes : Nat := 0
deriving DecidableEq, Repr

/-- One slot of an assembled picture (R276, R280 to R282). `want` is the encode it awaits, `old` the one shown, if its source has not left;
`keyFiller` says that this picture must be the filler's. Sizes of fillers and skip tiles are free (log entry 34). -/
def Dev.spliceSlot (d : Dev) (s pos free : Nat) (want old : Option EncId) (awaits due keyFiller : Bool) : SlotPick :=
  let fill := Config.freeValue free
  let shown := fun (e : EncId) (need : Bool) => match d.finalOf e s with
    | some f => { shows := some e, need := need, data := if f.skip then .skip else .tile e, bytes := ceilDiv f.bits 8 : SlotPick }
    | none => { shows := some e, need := need, bytes := fill }
  let entry := match want with
    | some e => match d.finalOf e s with
      | some f => if f.skip then none else f.entry.map fun b => if d.encExact e then ceilDiv b 8 else ceilDiv f.bits 8
      | none => none
    | none => none
  match want, awaits && decide (pos = 0) && !keyFiller, entry with
  | some e, true, some b => { shows := some e, data := .entry e, bytes := b }
  | _, _, _ => match want, awaits, old with
    | some e, false, _ => shown e false
    | some _, true, some o => shown o true
    | w, _, _ => { need := w.isSome, due := due && decide (pos ≠ 0), data := if due then .filler else .skip, bytes := fill }

/-- The slice address of slot `j` of grid `g`: its first CTB in tile scan (R262, R276). -/
def sliceAddress (g j : Nat) : Nat :=
  match g with
  | 2 => 510 * j
  | 3 => if j < 6 then 220 * j else 1320 + 240 * (j - 6)
  | 4 => 510 * j
  | _ => 0

/-- The slice address of slice `i` of the G9 strip: the first CTB of the last CTB row of bottom tile `i` (R262, R276). -/
def stripAddress (i : Nat) : Nat := 1320 + 240 * i + 220

/-- The pictures that the pattern of R235 will still reference at position `pos`, as differences in picture periods (R276). -/
def patternKeeps (layers pos : Nat) : List Int :=
  match layers, pos with
  | 0, _ => [-1]
  | 1, 0 => [-2]
  | 1, _ => [-1]
  | _, 0 => [-4]
  | _, 1 => [-1]
  | _, 2 => [-2]
  | _, _ => [-3, -1]

/-- The NAL unit type by temporal ID (R235). -/
def nalOf (tid : Nat) : NalType :=
  match tid with
  | 0 => .trailR
  | 1 => .tsaR
  | _ => .tsaN

/-- The headers of viewer `n`'s picture of period index `q` (R276, R277); `q0` is that of its IDR picture. -/
def splicedPict (s q q0 pos layers grid : Nat) (av1 first keyFrame : Bool) (kept : List Nat) (outs : List SlotPick) (strip : Option SlotPick) :
    SplicedPict :=
  let tid := (patternOf layers).getD pos 0
  { period := s, tid := tid, nal := if av1 then none else some (if first then .idrWRadl else nalOf tid)
    poc := if av1 then 0 else (q - q0) % 65536
    keeps := if av1 ∨ first then [] else (patternKeeps layers pos).filter fun k => kept.any fun y => decide ((y : Int) = (q : Nat) + k)
    sets := if av1 then keyFrame else first
    delimiter := av1
    slices := outs.zipIdx.map (fun o => (sliceAddress grid o.2, o.1.data)) ++ match strip with
      | some y => (List.range 3).map fun i => (stripAddress i, y.data)
      | none => [] }

/-- The splicer assembles the picture of period `s` for viewer `n` (R276 to R282). -/
def Dev.assemble (d : Dev) (n s : Nat) : Dev :=
  let l := d.nat .VIEW_LAYOUT n
  let x := d.viewOf n
  let per := period (d.encFpsSet (.strip l))
  let layers := d.encLayers (.strip l)
  let slots := d.layoutSlots l
  let c := (gridRow (d.layoutGrid l)).1
  let pos := positionOf s per layers
  let g9 := decide (d.layoutGrid l = 3)
  let av1 := decide (d.fld .LAYOUT_SPLICE l 0 27 26 = 3)
  let shown := fun j => if x.active then x.shown.getD j 0xFFFF else 0xFFFF
  let target := fun j => x.target.getD j 0xFFFF
  let named := ((List.range slots).map fun j => [target j, shown j]).flatten.filter (· < 4096)
  let ready := named.eraseDups.all (fun m => d.settled (.tile m c) s) && (!g9 || d.settled (.strip l) s)
  let late := match x.lastPeriod with
    | some p => decide (s ≤ p)
    | none => false
  if !d.spliceOn n || decide (s % per ≠ 0) || decide (d.stride < s) || !ready || late || (!x.active && decide (pos ≠ 0)) then d
  else
    let first := !x.active
    let tile := fun (m : Nat) => if m < 4096 then some (EncId.tile m c) else none
    let outs := (List.range slots).map fun j =>
      let gone := shown j < 4096 && !d.showable (d.nat .LAYOUT_CONF l) (shown j)
      let due := first || x.fillers.contains j || (decide (shown j < 4096))
      d.spliceSlot s pos (d.free + j) (tile (target j)) (if gone then none else tile (shown j)) (x.awaits j) due (first && av1)
    let strip := d.spliceSlot s pos (d.free + 16) (some (.strip l)) (if x.active && x.strip then some (.strip l) else none)
      (first || !x.strip || x.need.contains 16) (first || x.fillers.contains 16) false
    let d := { d with free := d.free + 18 }
    let legOf := fun (e : Option EncId) => match e with
      | some (.tile m _) => m
      | _ => 0xFFFF
    let now := outs.map fun o => legOf o.shows
    let slotsThat := fun (f : SlotPick → Bool) =>
      ((List.range slots).filter fun j => f (outs.getD j {})) ++ if g9 && f strip then [16] else []
    let need := slotsThat (·.need)
    let t := (patternOf layers).getD pos 0
    let top := d.topNext n
    let q := s / per
    let x := { x with
      active := true, s0 := x.s0.orElse fun _ => some s, idr := if first then q else x.idr, lastPeriod := some s, top := top
      shown := now, need := need, fillers := slotsThat (·.due), strip := g9 && strip.shows.isSome }
    let d := (d.setView n x).setN .VIEW_TOP_NOW n top
    let d := now.zipIdx.foldl (fun (d : Dev) (p : Nat × Nat) => d.put .VIEW_SLOT_NOW n p.2 (.num (p.1 : Nat))) d
    let d := d.setN .VIEW_ENTRY_WAIT n (need.foldl (fun a j => a + 2 ^ j) 0)
    if top < t then d else
      let keyFrame := first || outs.any fun o => match o.data with
        | .entry e => !d.encExact e
        | _ => false
      let z := splicedPict s q x.idr pos layers (d.layoutGrid l) av1 first keyFrame x.kept outs (if g9 then some strip else none)
      let d := d.emit (.spliced n z)
      let room := d.payloadRoom n
      let unit := fun (b : Nat) => if av1 then (fragments (room - 1) 0 0 b).map (· + 1) else fragments room 2 3 b
      let head := if first && !av1 then [(1 + Config.freeValue (d.free - 1) % max 1 room, ([] : List Nat))] else []
      let body := (outs.zipIdx.map fun o => (unit o.1.bytes).map fun p => (p, [o.2])).flatten
      let tail := if g9 then ((List.range 3).map fun _ => (unit (ceilDiv strip.bytes 3)).map fun p => (p, [16])).flatten
        else []
      let pkts := head ++ body ++ tail
      let ts := (x.ts + 150 * (s - x.s0.getD s)) % 2 ^ 32
      let r := d.sendPicture n x.ssrc (d.nat .VIEW_PT n) ts x.seq (pkts.map (·.1))
        (if av1 then some (d.nat .VIEW_PICTURES n % 65536) else none)
      let sent := pkts.zipIdx.foldl (fun t p => tset ((x.seq + p.2) % 65536) (d.stride, p.1.2) t) x.sent
      (r.1.setView n { r.1.viewOf n with seq := r.2, sent := sent, kept := ((q :: x.kept).take 4) }).bump .VIEW_PICTURES n

/-- Slots of viewer `n` are found diverged (R283). -/
def Dev.diverge (d : Dev) (n : Nat) (slots : List Nat) : Dev :=
  let x := d.viewOf n
  let fresh := (slots.eraseDups).filter fun j => !x.need.contains j
  if !x.active ∨ fresh = [] then d else
    let filler := fun j => decide (j < 16) && decide (x.shown.getD j 0xFFFF = 0xFFFF)
    let d := d.setView n { x with
      need := x.need ++ fresh.filter (fun j => !filler j)
      fillers := x.fillers ++ fresh.filter fun j => filler j && !x.fillers.contains j }
    let d := d.add .VIEW_DIVERGED n 0 fresh.length
    d.setN .VIEW_ENTRY_WAIT n ((d.viewOf n).need.foldl (fun a j => a + 2 ^ j) 0)

/-- The slots that a packet of viewer `n` carries data of. -/
def Dev.slotsOf (d : Dev) (n seq : Nat) : List Nat := (tget (0, []) seq (d.viewOf n).sent : Nat × List Nat).2

/-- A PLI, or a FIR by its sequence number, names the spliced SSRC of viewer `n` (R283): every slot is diverged. -/
def Dev.viewAsk (d : Dev) (n : Nat) (fir : Option Nat) : Dev :=
  let x := d.viewOf n
  let all := (List.range x.shown.length) ++ if x.strip then [16] else []
  match fir with
  | some q => if x.lastFir = some q then d else (d.setView n { x with lastFir := some q }).diverge n all
  | none => d.diverge n all

/-- A NACK of mode 0 names packets of the spliced SSRC that cannot be resent (R283). -/
def Dev.viewNack (d : Dev) (n ssrc : Nat) (seqs : List Nat) : Dev :=
  let x := d.viewOf n
  if ssrc ≠ x.ssrc ∨ d.nat .LEG_FB_MODE n ≠ 0 then d else
    let dead := seqs.filter fun q =>
      match (d.txOf n).history.find? fun y => decide (y.pkt.ssrc = ssrc) && decide (y.pkt.seq = q) with
      | none => true
      | some y => decide (y.stride + d.nat .LEG_RTX_HISTORY n < d.stride) || decide (3 ≤ y.resends)
    d.diverge n (dead.map fun q => d.slotsOf n q).flatten

/-- Feedback of mode 1 or 2 reports packets of the spliced SSRC lost or received (R283). -/
def Dev.viewFeedback (d : Dev) (n : Nat) (lost got : List (Nat × Nat)) : Dev :=
  let x := d.viewOf n
  let mine := fun (l : List (Nat × Nat)) => (l.filter fun p => decide (p.1 = x.ssrc)).map (·.2)
  let suspects := (x.suspects ++ mine lost).eraseDups.filter fun q => !(mine got).contains q
  if suspects = x.suspects then d else d.setView n { x with suspects := suspects }

/-- At an edge: packets reported lost whose 2 × LINE_RTT has passed mark their slots diverged (R283). -/
def Dev.suspectEdge (d : Dev) (n : Nat) : Dev :=
  let x := d.viewOf n
  let old := x.suspects.filter fun q => decide ((tget (0, []) q x.sent : Nat × List Nat).1 + 2 * d.rttStrides n ≤ d.stride)
  if old = [] then d else
    (d.setView n { x with suspects := x.suspects.filter fun q => !old.contains q }).diverge n
      (old.map fun q => d.slotsOf n q).flatten

/-- A spliced view stops; its next picture is an IDR picture (R290). -/
def Dev.viewStop (d : Dev) (n : Nat) : Dev :=
  let x := d.viewOf n
  let d := d.setView n { x with
    active := false, shown := [], need := [], fillers := [], strip := false, target := [], suspects := [], ups := [], kept := [] }
  let d := (d.setN .VIEW_TOP_NOW n 0).setN .VIEW_ENTRY_WAIT n 0
  (List.range 16).foldl (fun d j => d.put .VIEW_SLOT_NOW n j (.num (0xFFFF : Nat))) d

end Sys2Proof.Machine
end

