-- ==== Sys2Proof/Machine/Forward.lean ====
section
/-! DEFINITION. Forwarding by layers (R291 to R308): layers and rates of a source, the points of a receiver's slots,
switching, and the rewritten stream. -/

namespace Sys2Proof.Machine

/-- The codec a source forwards (R292, R132): 0 for none. -/
def Dev.fwdCodec (d : Dev) (m : Nat) : Nat :=
  let e := d.nat .LEG_RX_PT m (d.fld .FWD_SRC_CTRL m 0 23 20 % 8)
  if bit e 31 && decide (bits e 10 8 = 3) && decide (bits e 19 16 < 4) then d.nat .VRX_CODEC m (bits e 19 16) % 16 else 0

/-- FWD_STREAMS of a source. -/
def Dev.fwdStreams (d : Dev) (m : Nat) : Nat := d.fld .FWD_SRC_CTRL m 0 19 18

/-- Is a source's stream dependent (R293)? -/
def Dev.dependent (d : Dev) (m : Nat) : Bool :=
  decide (d.fwdCodec m = 3) && decide (d.fwdStreams m = 1) && !d.bitOf .FWD_SRC_CTRL m 0 30

/-- Does a source's AV1 stream carry the dependency descriptor (R291, R292)? -/
def Dev.carriesDd (d : Dev) (m : Nat) : Bool := decide (d.fwdCodec m = 3) && decide (d.nat .FWD_RX_DD_EXT_ID m ≠ 0)

/-- The RTP stream that a point of a source belongs to: the simulcast stream. -/
def Dev.streamOfPoint (d : Dev) (m : Nat) (p : Nat × Nat) : Nat := if 1 < d.fwdStreams m then p.1 else 0

/-- The simulcast stream of a packet by its RID; none where it names no configured one (R291, R292). -/
def Dev.ridStream (d : Dev) (m : Nat) (p : RtpPkt) : Option Nat :=
  if d.fwdStreams m ≤ 1 then some 0
  else match if d.nat .FWD_RID_EXT_ID m = 0 then none else p.rid with
    | none => none
    | some r => (List.range (d.fwdStreams m)).find? fun k => decide (d.bytes .FWD_RID m k = r)

/-- The layer of a packet (R291): none where it cannot be placed. `seen` says that a structure has been received. -/
def Dev.layerOf (d : Dev) (m : Nat) (p : RtpPkt) (seen : Bool) : Option (Nat × Nat) :=
  match d.ridStream m p with
  | none => none
  | some q =>
    let dd := d.carriesDd m
    let v := p.video
    if dd && (!v.placed || (v.needsStructure && !seen)) then none
    else if 1 < d.fwdStreams m && dd && decide (v.s ≠ 0) then none
    else
      let s := if dd && decide (d.fwdStreams m ≤ 1) then v.s else q
      let t := if dd || decide (d.fwdCodec m = 2) then v.t else 0
      if s ≤ 2 ∧ t ≤ 2 then some (s, t) else none

/-- The bytes × 80 of layer (s, t) in the last 60 strides: its rate in bit/s (R293). -/
def Dev.layerRate (d : Dev) (m s t : Nat) : Nat :=
  ((d.fsrcOf m).bytes.filter fun x => decide (x.2.1 = 3 * s + t)).foldl (fun a x => a + x.2.2 * 80) 0

/-- At an edge: bytes older than 60 strides leave, and FWD_LAYER_RATE is set (R293). -/
def Dev.rateEdge (d : Dev) (m : Nat) : Dev :=
  let x := d.fsrcOf m
  let d := d.setFsrc m { x with bytes := x.bytes.filter fun y => decide (d.stride ≤ y.1 + 60) }
  (List.range 9).foldl (fun d i => d.put .FWD_LAYER_RATE m i (.num ((d.layerRate m (i / 3) (i % 3) / 1000 : Nat)))) d

/-- The layers a point sums (R293). -/
def pointLayers (dep : Bool) (p : Nat × Nat) : List (Nat × Nat) :=
  ((if dep then List.range (p.1 + 1) else [p.1]).map fun s => (List.range (p.2 + 1)).map fun t => (s, t)).flatten

/-- The rate of a point, where it is present (R293). -/
def Dev.pointRate (d : Dev) (m : Nat) (p : Nat × Nat) : Option Nat :=
  let rs := (pointLayers (d.dependent m) p).map fun l => d.layerRate m l.1 l.2
  if rs.all (0 < ·) then some (rs.foldl (· + ·) 0) else none

/-- The order of points: by s, then t (R297). -/
def pointKey (p : Nat × Nat) : Nat := p.1 * 16 + p.2

/-- The candidate points of a slot with their rates, in order (R297). -/
def Dev.candidates (d : Dev) (r j m : Nat) : List ((Nat × Nat) × Nat) :=
  ((List.range 9).map fun i => (i / 3, i % 3)).filterMap fun p =>
    if p.1 ≤ d.fld .FWD_SLOT r j 15 12 ∧ p.2 ≤ d.fld .FWD_SLOT r j 11 8 then (d.pointRate m p).map fun x => (p, x) else none

/-- Slot `j` of receiver `r`. -/
def Dev.fwdOf (d : Dev) (r j : Nat) : FwdSlot := tget {} (r, j) d.fwd
/-- Sets slot `j` of receiver `r`. -/
def Dev.setFwd (d : Dev) (r j : Nat) (x : FwdSlot) : Dev := { d with fwd := tput {} (r, j) x d.fwd }

/-- A consumer leaves every request it joined. -/
def Dev.leaveKf (d : Dev) (c : Nat) : Dev :=
  d.fsrc.foldl (fun d s => s.2.reqs.foldl (fun d q => d.dropKf s.1 q.1 c) d) d

/-- The consumer number of a receiver slot. -/
def slotConsumer (r j : Nat) : Nat := 16 * r + j

/-- How a wanted point differs from the one in force (R299): lower, higher, or needing a random access point. -/
inductive Change where
  | none
  | down
  | up
  | rap
deriving DecidableEq, Repr

/-- The change a slot awaits (R298, R299). -/
def Dev.changeOf (d : Dev) (x : FwdSlot) : Change :=
  match x.wanted, x.point with
  | none, _ => .none
  | some _, none => .rap
  | some w, some (m, p) =>
    if m ≠ x.source then .rap
    else if w = p then .none
    else if d.dependent m ∨ w.1 = p.1 then (if pointKey w < pointKey p then .down else .up)
    else .rap

/-- FWD_NOW of a slot (R294). -/
def Dev.showSlot (d : Dev) (r j : Nat) : Dev :=
  let x := d.fwdOf r j
  let st := if x.source = 0xFFFF then 0 else if x.paused then 1 else match d.changeOf x with
    | .up => 3
    | .rap => 3
    | _ => 2
  let v := match x.point with
    | some (m, (s, t)) => m * 65536 + st * 4096 + s * 256 + t * 16
    | none => 0xFFFF * 65536 + st * 4096
  d.put .FWD_NOW r j (.num (v : Nat))

/-- Sends a padding packet with number `out` (R302). -/
def Dev.sendPadding (d : Dev) (r j out : Nat) : Dev :=
  let x := d.fwdOf r j
  let pt := d.nat .FWD_TX_PT r (d.fwdCodec ((x.seg.map (·.src)).getD x.source) - 1)
  (d.sendVideo r {
    leg := r, ssrc := x.ssrc, seq := out % 65536, ts := x.outTs, pt := pt, padding := true, len := d.rtpLen r 4 }
    false).bump .FWD_PADDING r

/-- A slot's segment ends (R302): its open reservations leave as padding, where anything is sent. -/
def Dev.endSegment (d : Dev) (r j : Nat) (pad : Bool) : Dev :=
  let x := d.fwdOf r j
  match x.seg with
  | none => d
  | some g =>
    let d := if pad then g.reserved.foldl (fun d q => d.sendPadding r j q.2) d else d
    d.setFwd r j { d.fwdOf r j with seg := none, ended := some (g.src, (g.stream, g.h)) }

/-- The budget of forwarding to receiver `r` (R296). -/
def Dev.fwdBudget (d : Dev) (r : Nat) : Nat :=
  let v := d.videoBudget r
  if d.bitOf .ENC_CTRL r 0 31 then v * (32768 - d.nat .ENC_SHARE r) / 32768
  else if d.bitOf .VIEW_CTRL r 0 31 then v - d.spliceRate r (d.nat .VIEW_TOP_NOW r)
  else v

/-- May receiver `r` be sent source `m` (R295)? A HELD source keeps its slot (R308; log entry 36), any other that is not ACTIVE does not. -/
def Dev.fwdUsable (d : Dev) (r m : Nat) : Bool :=
  let c := d.fwdCodec m
  decide (m ≠ r) && d.showable (d.nat .LEG_CONFERENCE r) m && decide (d.nat .LEG_CONFERENCE r < 1024) &&
    (d.legState m = .active || d.legState m = .held) && d.bitOf .FWD_SRC_CTRL m 0 31 && decide (1 ≤ c ∧ c ≤ 3) && decide (d.nat .FWD_TX_PT r (c - 1) ≠ 0xFF)

/-- The layout sources that EMPTY slots take at shedding step 4 (R411). -/
def Dev.layoutSources (d : Dev) (r : Nat) : List Nat :=
  let l := d.nat .VIEW_LAYOUT r
  if d.govStep < 4 ∨ 1024 ≤ l then [] else
    let own := (d.layersOf l 1).map fun y => d.fld .LAYER_SRC l y 15 0
    ((d.slotTargets r l (d.viewOf r).target) ++ own).eraseDups.filter fun m => m < 4096 && d.fwdUsable r m

/-- Resolves the sources of receiver `r`'s slots at an edge (R295). -/
def Dev.resolveFwd (d : Dev) (r : Nat) : Dev :=
  if !d.videoRuns r then d else
    let srcs := (List.range 16).map fun j => d.fld .FWD_SLOT r j 31 16
    let prev := (List.range 16).map fun j => (d.fwdOf r j).source
    let t := resolveSlots srcs prev (d.mixMembers (d.nat .LEG_CONFERENCE r)) (d.fwdUsable r)
    let extra := (d.layoutSources r).filter fun m => !t.contains m
    let empty := (List.range 16).filter fun j => decide (t.getD j 0xFFFF = 0xFFFF)
    let t := (empty.zip extra).foldl (fun t p => t.set p.1 p.2) t
    (List.range 16).foldl (fun d j =>
      let x := d.fwdOf r j
      let m := t.getD j 0xFFFF
      if x.source = m then d
      else if m = 0xFFFF then
        let d := (d.endSegment r j true).leaveKf (slotConsumer r j)
        (d.setFwd r j { d.fwdOf r j with source := m, point := none, wanted := none, run := [], paused := false }).showSlot r j
      else d.setFwd r j { x with source := m }) d

/-- One round of R297: each slot in turn rises by one point where it fits. A slot stands as its candidates below and those
still above. -/
def raiseRound : List (Option (List ((Nat × Nat) × Nat))) → Nat → List (Option (List ((Nat × Nat) × Nat))) × (Nat × Bool)
  | [], rem => ([], (rem, false))
  | c :: rest, rem =>
    match c with
    | some (p :: q :: more) =>
      if q.2 - p.2 ≤ rem then
        let t := raiseRound rest (rem - (q.2 - p.2))
        (some (q :: more) :: t.1, (t.2.1, true))
      else
        let t := raiseRound rest rem
        (c :: t.1, t.2)
    | _ =>
      let t := raiseRound rest rem
      (c :: t.1, t.2)

/-- The rounds of R297, until one raises no slot. -/
def raiseRounds : Nat → List (Option (List ((Nat × Nat) × Nat))) → Nat → List (Option (List ((Nat × Nat) × Nat)))
  | 0, cs, _ => cs
  | fuel + 1, cs, rem =>
    let t := raiseRound cs rem
    if t.2.2 then raiseRounds fuel t.1 t.2.1 else cs

/-- The first points of R297, in slot order. -/
def firstPoints : List (List ((Nat × Nat) × Nat)) → Nat → List (Option (List ((Nat × Nat) × Nat))) × Nat
  | [], rem => ([], rem)
  | c :: rest, rem =>
    match c with
    | p :: _ =>
      if p.2 ≤ rem then
        let t := firstPoints rest (rem - p.2)
        (some c :: t.1, t.2)
      else
        let t := firstPoints rest rem
        (none :: t.1, t.2)
    | [] =>
      let t := firstPoints rest rem
      (none :: t.1, t.2)

/-- The points R297 chooses for slots with these candidates within a budget. -/
def choosePoints (cands : List (List ((Nat × Nat) × Nat))) (budget : Nat) : List (Option (Nat × Nat)) :=
  let f := firstPoints cands budget
  (raiseRounds 200 f.1 f.2).map fun c => match c with
    | some (p :: _) => some p.1
    | _ => none

/-- The least of the points chosen lately. -/
def leastPoint (ps : List (Nat × Nat)) : Option (Nat × Nat) := minBy? pointKey ps

/-- A slot takes its wanted point (R298, R300). -/
def Dev.wantPoint (d : Dev) (r j : Nat) (chosen : Option (Nat × Nat)) (present : List (Nat × Nat)) : Dev :=
  let x := d.fwdOf r j
  let me := slotConsumer r j
  if x.source = 0xFFFF then d else
    match chosen with
    | none =>
      let d := d.leaveKf me
      (d.setFwd r j { d.fwdOf r j with paused := true, point := none, wanted := none, run := [] }).showSlot r j
    | some c =>
      let cur := match x.point with
        | some (m, p) => if m = x.source then some p else none
        | none => none
      let higher := match cur with
        | some p => decide (pointKey p < pointKey c) && present.contains p
        | none => false
      let run := if higher then (x.run ++ [c]).drop (x.run.length + 1 - 60) else []
      let w := match cur with
        | none => c
        | some p =>
          if !present.contains p then
            let below := present.filter fun q => decide (pointKey q < pointKey p)
            match below.getLast? with
            | some b => if pointKey c < pointKey b then c else b
            | none => c
          else if !higher then c
          else match decide (run.length = 60), leastPoint run with
            | true, some q => q
            | _, _ => match x.wanted with
            | some o => if pointKey p < pointKey o then o else p
            | none => p
      let same := decide (cur = some w)
      let wanted := if same then none else some w
      let fresh := decide (wanted ≠ x.wanted)
      let y := { x with paused := false, run := run, wanted := wanted, since := if fresh then d.stride else x.since }
      let d := if fresh then d.leaveKf me else d
      let d := d.setFwd r j y
      let d := match d.changeOf y with
        | .rap => if fresh then d.raiseKf x.source (d.streamOfPoint x.source w) me else d
        | .up => if y.since + 60 ≤ d.stride then d.raiseKf x.source (d.streamOfPoint x.source w) me else d
        | _ => d
      d.showSlot r j

/-- The points of receiver `r`'s slots at an edge (R297, R298; R411 step 5). -/
def Dev.chooseFwd (d : Dev) (r : Nat) : Dev :=
  if !d.videoRuns r then d else
    let off := decide (5 ≤ d.govStep) && d.flag .LEG_LOW_PRIORITY r
    let cands := (List.range 16).map fun j =>
      let x := d.fwdOf r j
      if x.source = 0xFFFF then [] else d.candidates r j x.source
    if cands.all (· = []) && (List.range 16).all (fun j => decide ((d.fwdOf r j).source = 0xFFFF)) then d else
      let chosen := choosePoints cands (d.fwdBudget r)
      (List.range 16).foldl (fun d j =>
        d.wantPoint r j (if off then none else chosen.getD j none) ((cands.getD j []).map (·.1))) d

/-- Does the change a slot awaits take effect at this packet (R299)? -/
def Dev.takesEffect (d : Dev) (x : FwdSlot) (m : Nat) (layer : Nat × Nat) (v : VideoInfo) : Bool :=
  match x.wanted with
  | none => false
  | some w =>
    v.frameStart && decide (m = x.source) && match d.changeOf x with
    | .none => false
    | .down => match x.point with
      | some (_, p) => decide (d.streamOfPoint m layer = d.streamOfPoint m p)
      | none => false
    | .up =>
      let sameS := match x.point with
        | some (_, p) => decide (p.1 = w.1)
        | none => false
      v.switchTo.any (fun q => decide (q = w) || (sameS && decide (q.1 = w.1) && decide (w.2 ≤ q.2))) ||
        (v.rap && decide (d.streamOfPoint m layer = d.streamOfPoint m w))
    | .rap => v.rap && (d.dependent m || decide (layer.1 = w.1))

/-- The change takes effect (R299 to R301): the point in force, and a new segment where source or stream changed. -/
def Dev.takePoint (d : Dev) (r j m : Nat) : Dev :=
  let x := d.fwdOf r j
  match x.wanted with
  | none => d
  | some w =>
    let q := d.streamOfPoint m w
    let keep := match x.seg with
      | some g => decide (g.src = m) && decide (g.stream = q)
      | none => false
    let d := if keep then d else d.endSegment r j true
    let d := (d.leaveKf (slotConsumer r j)).bump .FWD_SWITCHES r
    let x := d.fwdOf r j
    d.setFwd r j { x with point := some (m, w), wanted := none, run := [], bitmask := true }

/-- Is a packet of this layer wanted by the point in force (R293, R300)? -/
def Dev.inPoint (d : Dev) (x : FwdSlot) (m : Nat) (layer : Nat × Nat) : Bool :=
  match x.point with
  | none => false
  | some (n, p) =>
    let T := match d.changeOf x with
      | .rap => 0
      | _ => p.2
    decide (n = m) && decide (layer.2 ≤ T) && (if d.dependent m then decide (layer.1 ≤ p.1) else decide (layer.1 = p.1))

/-- The ticks of 90 kHz between two stamps, rounded half to even (R303). -/
def ticksBetween (t1 t0 : Nat) : Int :=
  let d := timeDiff t1 t0
  let q := d * 9 / 6553600000
  let r := d * 9 - q * 6553600000
  if 6553600000 < 2 * r ∨ (2 * r = 6553600000 ∧ q % 2 = 1) then q + 1 else q

/-- A slot's segment begins at its first forwarded packet (R302, R303). -/
def Dev.beginSegment (d : Dev) (r j m q ext t1 : Nat) (p : RtpPkt) : Dev :=
  let x := d.fwdOf r j
  let a := d.draw
  let b := a.2.draw
  let c := b.2.draw
  let d := if x.drawn then d else c.2
  let x := if x.drawn then x else
    { x with drawn := true, outTs := a.1 % 2 ^ 32, outSeq := b.1 % 65536, outFrame := c.1 % 65536, t0 := none }
  let ts := match x.t0 with
    | some t => (((x.outTs : Int) + max 1 (ticksBetween t1 t)) % 2 ^ 32).toNat
    | none => x.outTs
  let g : Segment := {
    src := m, stream := q, h := ext - 1, o := x.outSeq
    tsOff := (ts + 2 ^ 32 - p.ts % 2 ^ 32) % 2 ^ 32
    frameOff := (x.outFrame + 1 + 65536 - p.video.frameNumber % 65536) % 65536 }
  d.setFwd r j { x with seg := some g, srRtp := tfind q (d.fsrcOf m).sr }

/-- The decode targets that lie within a point (R291, R301): those of its stream's structure, which in a simulcast stream has spatial ID
0 alone. -/
def Dev.pointTargets (d : Dev) (m : Nat) (p : Nat × Nat) : List (Nat × Nat) :=
  if 1 < d.fwdStreams m then (List.range (p.2 + 1)).map fun t => (0, t) else pointLayers (d.dependent m) p

/-- Sends a forwarded packet under number `out` (R301), from the buffer that it came in (R305). -/
def Dev.sendForwarded (d : Dev) (r j m out t1 : Nat) (layer : Nat × Nat) (p : RtpPkt) : Dev :=
  let x := d.fwdOf r j
  match x.seg with
  | none => d
  | some g =>
    let ts := (p.ts + g.tsOff) % 2 ^ 32
    let dep := d.dependent m
    let S := (x.point.map (·.2.1)).getD 0
    let sendsDd := d.carriesDd m && decide (d.nat .FWD_TX_DD_EXT_ID r ≠ 0)
    let frame := (p.video.frameNumber + g.frameOff) % 65536
    let mask := sendsDd && p.video.frameStart && (p.video.rap || x.bitmask)
    let len := d.rtpLen r p.len
    let d := d.setFwd r j { x with
      outTs := ts, outFrame := if d.carriesDd m then frame else x.outFrame, t0 := some t1
      bitmask := x.bitmask && !p.video.frameStart }
    d.sendVideo r {
      leg := r, ssrc := x.ssrc, seq := out % 65536, ts := ts, pt := d.nat .FWD_TX_PT r (d.fwdCodec m - 1)
      marker := if dep then p.video.frameEnd && decide (layer.1 = S) else p.marker
      len := len, ddFrame := if sendsDd then some frame else none
      ddTargets := if mask then x.point.map fun y => d.pointTargets m y.2 else none, payload := p.payload } p.video.frameStart d.pool.current

/-- A packet of the segment's stream is mapped (R302). -/
def Dev.mapPacket (d : Dev) (r j m ext t1 : Nat) (layer : Nat × Nat) (p : RtpPkt) (forwarded : Bool) : Dev :=
  let x := d.fwdOf r j
  match x.seg with
  | none => d
  | some g =>
    if g.h < ext then
      let n := ext - g.h - 1
      let n := if 1023 < n then 0 else n
      let res := g.reserved ++ (List.range n).map fun i => (g.h + 1 + i, g.o + 1 + i)
      let o := if forwarded then g.o + n + 1 else g.o + n
      let d := d.setFwd r j { x with outSeq := o, seg := some { g with reserved := res, h := ext, o := o } }
      if forwarded then d.sendForwarded r j m o t1 layer p else d
    else match decide (g.h ≤ ext + 1024), tfind ext g.reserved with
      | true, some out =>
        let d := d.setFwd r j { x with seg := some { g with reserved := tdel ext g.reserved } }
        if forwarded then d.sendForwarded r j m out t1 layer p else d.sendPadding r j out
      | _, _ => d.bump .FWD_STALE r

/-- One packet of source `m` at slot `j` of receiver `r` (R299 to R303). -/
def Dev.fwdSlotPkt (d : Dev) (r j m q ext t1 : Nat) (layer : Nat × Nat) (p : RtpPkt) : Dev :=
  let x := d.fwdOf r j
  let stale : Bool := match x.ended with
    | some (n, (s, h)) => decide (n = m) && decide (s = q) && decide (ext ≤ h) && (x.seg.map fun g => (g.src, g.stream)) != some (m, q)
    | none => false
  if stale then d.bump .FWD_STALE r else
    let d := if d.takesEffect x m layer p.video then (d.takePoint r j m).showSlot r j else d
    let x := d.fwdOf r j
    let wanted := d.inPoint x m layer && (match x.point with
      | some (_, pt) => decide (d.streamOfPoint m pt = q)
      | none => false)
    let d := if x.seg.isNone && wanted then d.beginSegment r j m q ext t1 p else d
    match (d.fwdOf r j).seg with
    | some g => if g.src = m ∧ g.stream = q then d.mapPacket r j m ext t1 layer p wanted else d
    | none => d

/-- A video packet of leg `m` leaves stage 12 toward forwarding (R291, R302): `entry` is its LEG_RX_PT entry, `ext` its
extended sequence number, `len` its IP length, `t1` its ingress stamp. -/
def Dev.forwardPacket (d : Dev) (m entry ext len t1 : Nat) (p : RtpPkt) : Dev :=
  if !d.bitOf .FWD_SRC_CTRL m 0 31 || decide (d.fld .FWD_SRC_CTRL m 0 23 20 ≠ entry) then d else
    let x := d.fsrcOf m
    let seen := x.structureSeen || p.video.hasStructure
    let d := d.setFsrc m { x with structureSeen := seen }
    match d.layerOf m p seen, d.ridStream m p with
    | some layer, some q =>
      let x := d.fsrcOf m
      let d := d.setFsrc m { x with
        bytes := x.bytes ++ [(d.stride, (3 * layer.1 + layer.2, len))], ssrcs := tset q p.ssrc x.ssrcs }
      let d := if p.video.rap && p.video.frameStart then d.closeKf m q else d
      let rs := (d.fwd.filter fun kv => kv.2.source = m ∨ (kv.2.point.map (·.1)) = some m ∨ (kv.2.ended.map (·.1)) = some m).map
        (·.1)
      rs.foldl (fun d k => if d.videoRuns k.1 then d.fwdSlotPkt k.1 k.2 m q ext t1 layer p else d) d
    | _, some q =>
      let d := (d.bump .FWD_UNLAYERED m).setFsrc m { d.fsrcOf m with ssrcs := tset q p.ssrc (d.fsrcOf m).ssrcs }
      if d.carriesDd m && (!p.video.placed || (p.video.needsStructure && !seen)) then d.raiseKf m q 0x20000 else d
    | _, none => d.bump .FWD_UNLAYERED m

/-- A PLI, or a FIR by its sequence number, from receiver `r` names the output SSRC of one of its slots (R307). -/
def Dev.fwdAsk (d : Dev) (r ssrc : Nat) (fir : Option Nat) : Dev :=
  match (List.range 16).find? fun j => decide ((d.fwdOf r j).ssrc = ssrc) with
  | none => d
  | some j =>
    let x := d.fwdOf r j
    match x.point, decide (x.source ≠ 0xFFFF) && !x.paused with
    | some (m, p), true =>
      match fir with
      | some q =>
        if x.lastFir = some q then d else
          (d.setFwd r j { x with lastFir := some q }).raiseKf m (d.streamOfPoint m p) (0x30000 + slotConsumer r j) true
      | none => d.raiseKf m (d.streamOfPoint m p) (0x30000 + slotConsumer r j)
    | _, _ => d

/-- A sender report of source `m` (R304): the relation of its stream, for every output it feeds. -/
def Dev.fwdSr (d : Dev) (m ssrc ntp rtp : Nat) : Dev :=
  let x := d.fsrcOf m
  match x.ssrcs.find? fun s => decide (s.2 = ssrc) with
  | none => d
  | some (q, _) =>
    let d := d.setFsrc m { x with sr := tset q (ntp, rtp) x.sr }
    d.fwd.foldl (fun d kv =>
      match (d.fwdOf kv.1.1 kv.1.2).seg with
      | some g => if g.src = m ∧ g.stream = q then d.setFwd kv.1.1 kv.1.2 { d.fwdOf kv.1.1 kv.1.2 with srRtp := some (ntp, rtp) }
        else d
      | none => d) d

/-- Forwarding to receiver `r` stops (R295, R308): at its return every slot begins a new segment at a random access point. -/
def Dev.fwdStop (d : Dev) (r : Nat) : Dev :=
  (List.range 16).foldl (fun d j =>
    if !thas (r, j) d.fwd then d else
      let d := (d.endSegment r j false).leaveKf (slotConsumer r j)
      let x := d.fwdOf r j
      (d.setFwd r j { x with source := 0xFFFF, point := none, wanted := none, run := [], paused := false }).showSlot r j) d

end Sys2Proof.Machine
end

