-- ==== Sys2Proof/Machine/Faults.lean ====
section
/-! DEFINITION. Fault handling (R374 to R390): cells and their re-runs, blocks, coding pairs, composers, fabric rails, regions and
chip-level units; and the step-downs by which encodes converge on a limit cut below use (R118, R385). -/

namespace Sys2Proof.Machine

/-- The coded pixels in kpx/s of stream `s` of leg `n` with `down` steps taken: a composed encode by class, a tile encode by
layer, each of which halves the pictures (R118, R234, R238). -/
def Dev.stepPx (d : Dev) (n s down : Nat) : Nat :=
  if s = 2 then
    let z := classSize (min 5 (d.fld .ENC_CTRL n 0 25 23 + down))
    ceilDiv (z.1 * z.2 * fpsOf (d.fld .ENC_CTRL n 0 22 20)) 1000
  else ceilDiv (((tfind s (d.streamsOf n)).map (·.1)).getD 0) (2 ^ down)

/-- The encode of a stream. -/
def streamEnc (n s : Nat) : EncId := if s = 2 then .composed n else .tile n (s - 3)

/-- Steps one encode of leg `n` down, where it can still step: what it has reserved falls with it (R118). -/
def Dev.stepEnc (d : Dev) (n s : Nat) : Dev :=
  let e := streamEnc n s
  let x := d.encOf e
  let l := d.lifeOf n
  let room := if s = 2 then decide (d.fld .ENC_CTRL n 0 25 23 + x.down < 5) else decide (x.down < d.encLayers e)
  match tfind s l.charges with
  | none => d
  | some (p, (px, kb)) =>
    if !room then d else
      let less := min px (d.stepPx n s (x.down + 1))
      let cut := px - less
      let d := d.setEnc e { x with down := x.down + 1 }
      let d := (d.chargePair p (-(cut : Int)) 0).sub .ADMIT_PIXELS_USE 0 cut
      let d := d.setLife n { l with
        charges := l.charges.map fun c => if c.1 = s then (s, (p, (less, kb))) else c
        composer := l.composer.map fun c => (c.1, c.2 - cut) }
      let d := match l.composer with
        | some (k, _) => d.sub .COMPOSER_ADMIT_PIXELS k cut
        | none => d
      (d.sub .LEG_ADMIT_PIXELS n cut).confRecount (d.nat .LEG_CONFERENCE n)

/-- The order in which encodes step down: low-priority legs first, then descending leg number (R118). -/
def Dev.stepOrder (d : Dev) (ls : List Nat) : List Nat :=
  let down := (sortAsc id ls).reverse
  down.filter (fun n => d.flag .LEG_LOW_PRIORITY n) ++ down.filter fun n => !d.flag .LEG_LOW_PRIORITY n

/-- One round of step-downs over the streams `ss` of legs `ls`, until use fits (R118). -/
def Dev.stepRound (d : Dev) (ls ss : List Nat) (fits : Dev → Bool) : Dev :=
  (d.stepOrder ls).foldl (fun d n => ss.foldl (fun d s => if fits d then d else d.stepEnc n s) d) d

/-- The step-downs of an edge, of encodes that run (R118, R119): conferences over their pixel quota, the chip over its pixels (R118), composers over 800,000 kpx/s
(R385). -/
def Dev.stepDowns (d : Dev) : Dev :=
  let live := fun (d : Dev) => d.legs.filter fun n => decide (d.legState n = .active) && (d.lifeOf n).charges ≠ []
  let d := d.confs.foldl (fun d k =>
    let fits := fun (d : Dev) => decide (d.nat .CONF_PIXEL_USE k ≤ d.nat .CONF_PIXEL_QUOTA k)
    if fits d then d
    else d.stepRound ((live d).filter fun n => decide (d.nat .LEG_CONFERENCE n = k)) [2, 3, 4, 5, 6] fits) d
  let chip := fun (d : Dev) => decide (d.nat .ADMIT_PIXELS_USE ≤ d.nat .ADMIT_PIXELS_CAP)
  let d := if chip d then d else d.stepRound (live d) [2, 3, 4, 5, 6] chip
  (List.range 4).foldl (fun d j =>
    let fits := fun (d : Dev) => decide (d.nat .COMPOSER_ADMIT_PIXELS j ≤ 800000)
    if fits d then d
    else
      let ls := (live d).filter fun n => match (d.lifeOf n).composer with
        | some (c, _) => decide (c = j) && decide (d.confRegion (d.nat .LEG_CONFERENCE n) ≠ j)
        | none => false
      d.stepRound ls [2] fits) d

/-- Counts a recovered fault of a unit, and says whether it is the one that retires it (R376). -/
def Dev.hit (d : Dev) (u : UnitId) : Bool × Dev :=
  let lap := d.nat .LAP_COUNT
  let l := (tget [] u d.faults.hits ++ [lap]).filter fun x => decide (lap < x + d.nat .FAULT_RETIRE_LAPS)
  (decide (d.nat .FAULT_RETIRE_COUNT ≤ l.length), { d with faults := { d.faults with hits := tset u l d.faults.hits } })

/-- The reserve cell of block `b`, where it has one that can take a re-run (R379). -/
def Dev.idleReserve (d : Dev) (b : Nat) : Option Nat :=
  if d.nat .BLK_STATE b ≠ 0 ∨ (d.blkOf b).halted ∨ d.nat .RGN_STATE (b / 16) ≠ 0 then none else
    ((List.range 16).map (16 * b + ·)).find? fun c =>
      decide (d.nat .CELL_STATE c = 1) && !(d.cellOf c).halted && match (d.cellOf c).running with
        | some i => decide (i.kind = .check)
        | none => true

/-- The reserve cell for a failing item of block `b`: its own first, then the blocks of its region in ascending order, wrapping
(R379). -/
def Dev.reserveFor (d : Dev) (b : Nat) (own : Bool) : Option Nat :=
  ((List.range 16).filter fun i => own || decide (i ≠ 0)).findSome? fun i => d.idleReserve (b / 16 * 16 + (b % 16 + i) % 16)

/-- A block below 1.2 GHz starts a re-run: its clock steps up until the next edge, but not under a throttle (R379, R401). -/
def Dev.boostFor (d : Dev) (b : Nat) : Dev :=
  if d.nat .BLK_DVFS_STEP b = 0 ∨ d.nat .GOV_THROTTLE ≠ 0 then d else d.setBlk b { d.blkOf b with boost := true }

/-- Has block `b` passed the 75 % point at its cycle (R22, R379)? -/
def Dev.late (d : Dev) (b cycle : Nat) : Bool := decide (15625 * blockRate (d.blockStep b) ≤ 2 * cycle)

/-- A failing item of block `b` is re-run, concealed, missed or carried (R378 to R380): the device, and the action. -/
def Dev.rerun (d : Dev) (b : Nat) (own late : Bool) (i : Item) : Dev × RecAction :=
  let audio := decide (kindClass i.kind = 0)
  let give := fun (d : Dev) =>
    if i.kind = .feedback then
      (d.setBlk b { d.blkOf b with ready := (d.blkOf b).ready ++ [{ i with carried := true }] }, RecAction.none)
    else ((d.cutItem i.kind i.unit).bump .RERUNS_CONCEALED, .concealed)
  if i.kind = .check then (d, .none)
  else if audio && late then give d
  else match d.reserveFor b own with
    | none => give d
    | some c =>
      let d := (d.setCell c { d.cellOf c with running := some i, slots := [], began := d.gen.total, stopped := none }).loadCell c i
      let d := (d.bump (if c / 16 = b then .RERUNS_LOCAL else .RERUNS_REMOTE)).boostFor (c / 16)
      (d, if c / 16 = b then .rerunLocal else .rerunRemote)

/-- A cell is retired (R326, R376, R381): its reserve takes its homes, and the block admits 14 cells' cycles. -/
def Dev.retireCell (d : Dev) (c : Nat) : Dev :=
  if d.nat .CELL_STATE c = 3 then d else
    let b := c / 16
    let reserve : Bool := decide (d.nat .CELL_STATE c = 1)
    let spare := ((List.range 16).map (16 * b + ·)).find? fun x => decide (d.nat .CELL_STATE x = 1)
    let d := (d.setN .CELL_STATE c 3).setN .RETIRED_CELLS 0 (d.nat .RETIRED_CELLS + 1)
    let d := match reserve, spare with
      | false, some r =>
        let move := fun (h : Nat × Nat) => if h.2 = c then (h.1, r) else h
        let d := { d with homes := d.homes.map move }
        let d := (d.setLoad r (tget 0 r d.loads + tget 0 c d.loads)).setLoad c 0
        d.setN .CELL_STATE r 0
      | _, _ => d
    let cap := d.nat .BLK_CAPACITY b
    let d := (d.sub .ADMIT_CYCLES_CAP 0 (cap - 14 * 1995100)).setN .BLK_CAPACITY b (min cap (14 * 1995100))
    let d := (d.setN .BLK_RESERVE_CELL b 0xFFFF).setBlk b { d.blkOf b with renameReserve := true }
    d.logRec { level := 0, cls := .degraded, action := .retired, unit := c, code := 0x0105, detail := 0xFFFF }

/-- At an edge at which the admitted cycles of a block fit, its highest cell in service hands its homes over and becomes the
reserve (R326). -/
def Dev.nameReserve (d : Dev) (b : Nat) : Dev :=
  let x := d.blkOf b
  if !x.renameReserve ∨ 14 * 1995100 < d.nat .BLK_ADMIT_CYCLES b then d else
    match (((List.range 16).map (16 * b + ·)).filter fun c => decide (d.nat .CELL_STATE c = 0)).getLast? with
    | none => d
    | some c =>
      let mine := (d.homes.filter fun h => decide (h.2 = c)).map (·.1)
      let d := ((d.setN .CELL_STATE c 1).setN .BLK_RESERVE_CELL b c).setBlk b { x with renameReserve := false }
      mine.foldl (fun d key =>
        let demand := if key < 4096 then d.nat .LEG_ADMIT_CYCLES key else confBase
        (d.dropHome key demand).giveHome key b demand) d

/-- A cell's detector reports (R375, R378 to R381). -/
def Dev.cellFault (d : Dev) (c : Nat) (det : CellDetector) (cycle : Nat) (counts : Bool := true) : Dev :=
  if d.nat .CELL_STATE c = 3 ∨ d.nat .CELL_STATE c = 4 then d else
    let s := if det = .residue ∧ (d.cellOf c).running.isSome then d.spend 0 c else (0, d)
    let d := s.2
    match det with
    | .corrected =>
      d.logRec { level := 0, cls := .corrected, action := .corrected, unit := c, code := 0x0101
                 detail := Config.detail 0x0101 [cycle] }
    | _ =>
      let b := c / 16
      let x := d.cellOf c
      let y := d.blkOf b
      let d := d.spendCell c
      let d := d.setCell c { d.cellOf c with running := none, slots := [], halted := true }
      let d := d.setBlk b { y with ready := y.ready ++ x.slots.filter fun i => decide (i.kind ≠ .check) }
      let r := match x.running with
        | some i => d.rerun b (decide (d.nat .CELL_STATE c ≠ 1)) (d.late b cycle) i
        | none => (d, .none)
      let q := match det with
        | .secded => 1
        | .parity => 2
        | _ => 3
      let code := if det = .watchdog then 0x0103 else 0x0102
      let parts := match det, x.running with
        | .watchdog, some i => [cycle, i.est]
        | .watchdog, none => [cycle, 0]
        | _, _ => [q, cycle]
      let d := r.1.logRec
        { level := 0, cls := .recovered, action := r.2, unit := c, code := code, detail := Config.detail code parts + s.1
          leg := match x.running with
            | some i => if i.kind = .mix ∨ i.kind = .check then 0xFFFF else i.unit
            | none => 0xFFFF }
      if s.1 ≠ 0 ∨ !counts then d else
        let h := d.hit (.cell c)
        if h.1 then h.2.retireCell c else h.2

/-- A check item ends (R317, R376): one whose result differs from the reference retires its cell. -/
def Dev.checkDone (d : Dev) (c item word : Nat) (ok : Bool) : Dev :=
  let x := d.cellOf c
  let d := match x.running with
    | some i => if i.kind = .check then d.setCell c { x with running := none } else d
    | none => d
  if ok then d
  else (d.logRec { level := 0, cls := .degraded, action := .retired, unit := c, code := 0x0104
                   detail := Config.detail 0x0104 [item, word] }).retireCell c

/-- The failing items of block `b`: running, in slots and ready, audio first, in the order of R320 (R382). -/
def Dev.failingItems (d : Dev) (b : Nat) : List Item :=
  let cells := (List.range 16).map fun j => d.cellOf (16 * b + j)
  let all := (cells.map fun x => x.running.toList ++ x.slots).flatten ++ (d.blkOf b).ready
  let all := sortAsc d.orderKey (all.filter fun i => decide (i.kind ≠ .check))
  all.filter (fun i => decide (kindClass i.kind = 0)) ++ all.filter fun i => decide (kindClass i.kind ≠ 0)

/-- The failing items of a block go to the reserves of its region, or are concealed, missed or carried; its ordered results are
discarded (R382). -/
def Dev.failBlockItems (d : Dev) (b : Nat) : Dev :=
  let items := d.failingItems b
  let late := d.late b (d.blockNow b)
  let d := (List.range 16).foldl (fun d j => d.setCell (16 * b + j) { d.cellOf (16 * b + j) with running := none, slots := [] }) d
  let x := d.blkOf b
  let d := d.setBlk b { x with
    ready := [], order := x.order.filter fun o => match o.2.2 with
      | .held _ => false
      | _ => true }
  items.foldl (fun d i => (d.rerun b false late i).1) d

/-- A block leaves service for a state that stands: fenced 3 or retired 4 (R382); its flows move at the next edge (R383). -/
def Dev.closeBlock (d : Dev) (b st : Nat) : Dev :=
  let cells := ((List.range 16).map (16 * b + ·)).filter fun c => decide (d.nat .CELL_STATE c ≠ 3)
  let d := cells.foldl (fun d c => d.setN .CELL_STATE c (if st = 3 then 4 else 3)) d
  let d := d.setN .RETIRED_CELLS 0 (d.nat .RETIRED_CELLS + cells.length)
  let d := (d.setN .BLK_STATE b st).setBit .RETIRED_BLOCKS 0 0 b true
  let d := if st = 3 then (d.loseL (keyOfBlock b)).resetEvent 5 4 b 4 else d
  { d with faults := { d.faults with rehome := d.faults.rehome ++ [b] } }

/-- A block fault (R382). -/
def Dev.blockFault (d : Dev) (b : Nat) (cause : BlockCause) : Dev :=
  if 3 ≤ d.nat .BLK_STATE b then d else
    let reset := fun (d : Dev) (n : Nat) =>
      let s := if n = 2 then d.spend 1 b else (0, d)
      let d := s.2.failBlockItems b
      let d := (d.loseL (keyOfBlock b)).resetEvent 5 4 b 4
      let d := d.setBlk b { d.blkOf b with halted := true }
      let d := d.logRec { level := 1, cls := .recovered, action := .unitReset, unit := b, code := 0x0202, detail := n + s.1 }
      if s.1 ≠ 0 then d else
        let h := d.hit (.block b)
        if h.1 then
          let moved := (h.2.legs.filter fun n => decide (h.2.nat .LEG_ADMIT_BLOCK n = b)).length
          (h.2.closeBlock b 4).logRec
            { level := 1, cls := .degraded, action := .retired, unit := b, code := 0x0204, detail := moved }
        else h.2
    match cause with
    | .memCorrected a =>
      (d.bump .BLK_MEM_CORRECTED b).logRec
        { level := 1, cls := .corrected, action := .corrected, unit := b, code := 0x0201, detail := a }
    | .memory c _ => if c / 16 = b then d.cellFault c .secded (d.blockNow b) false else d
    | .scheduler => reset d 1
    | .bus => reset d 2
    | .watchdog => reset d 3
    | .clock khz =>
      ((d.failBlockItems b).closeBlock b 3).logRec
        { level := 1, cls := .degraded, action := .fenced, unit := b, code := 0x0203, detail := khz }

/-- A reset block is stable again (R382): it takes work from this edge on. -/
def Dev.rejoin (d : Dev) (b : Nat) : Dev := if (d.blkOf b).halted then d.setBlk b { d.blkOf b with halted := false } else d

/-- The block that a flow of `demand` cycles moves to: by R113 with spill, else the one with the most free cycles, which may be
overcommitted (R383). -/
def Dev.newHome (d : Dev) (region demand : Nat) : Option (Nat × Bool) :=
  match d.placeBlock region true demand with
  | some b => some (b, false)
  | none =>
    (minBy? (fun b => 2 ^ 40 + d.nat .BLK_ADMIT_CYCLES b - d.nat .BLK_CAPACITY b)
      ((List.range 64).filter d.blockServes)).map fun b => (b, true)

/-- Logs an overcommitted block (R383). -/
def Dev.overcommit (d : Dev) (b : Nat) : Dev :=
  let d := { d with faults := { d.faults with overcommitted := (d.faults.overcommitted ++ [b]).eraseDups } }
  d.logRec { level := 1, cls := .serviceAffecting, action := .rehomed, unit := b, code := 0x0205
             detail := d.nat .BLK_ADMIT_CYCLES b - d.nat .BLK_CAPACITY b }

/-- The flows of block `b` move at the edge after it is fenced or retired (R383). -/
def Dev.rehomeBlock (d : Dev) (b : Nat) : Dev :=
  let cap := d.nat .BLK_CAPACITY b
  let d := (d.sub .ADMIT_CYCLES_CAP 0 cap).setN .BLK_CAPACITY b 0
  let confs := d.confs.filter fun k => decide (d.nat .CONF_HOME_BLOCK k = b)
  let d := confs.foldl (fun d k =>
    match d.newHome (b / 16) confBase with
    | none => d
    | some (t, exceeds) =>
      let d := ((d.dropHome (4096 + k) confBase).chargeCycles b (-(confBase : Int))).chargeCycles t confBase
      let d := (d.setN .CONF_HOME_BLOCK k t).giveHome (4096 + k) t confBase
      if exceeds then d.overcommit t else d) d
  let legs := d.legs.filter fun n => decide (d.nat .LEG_ADMIT_BLOCK n = b)
  legs.foldl (fun d n =>
    let c := d.nat .LEG_ADMIT_CYCLES n
    match d.newHome (b / 16) c with
    | none => d
    | some (t, exceeds) =>
      let d := ((d.dropHome n c).chargeCycles b (-(c : Int))).chargeCycles t c
      let d := (d.sub .BLK_LEGS b 1).setN .BLK_LEGS t (d.nat .BLK_LEGS t + 1)
      let d := ((d.setN .LEG_ADMIT_BLOCK n t).giveHome n t c).ungate (blockDomain t)
      if exceeds then d.overcommit t else d) d

/-- The rehoming due at an edge (R383), and the overcommitted blocks whose use fits again (R390). -/
def Dev.rehomeEdge (d : Dev) : Dev :=
  let due := d.faults.rehome
  let d := { d with faults := { d.faults with rehome := [] } }
  let d := due.foldl Dev.rehomeBlock d
  let still := d.faults.overcommitted.filter fun b => decide (d.nat .BLK_CAPACITY b < d.nat .BLK_ADMIT_CYCLES b)
  { d with faults := { d.faults with overcommitted := still } }

/-- What a stream has reserved, in kpx/s. -/
def Dev.streamPx (d : Dev) (n s : Nat) : Nat := ((tfind s (d.lifeOf n).charges).map (·.2.1)).getD 0

/-- The pair, other than `p`, with the most capacity left below 400,000 kpx/s after admitted demand and the restarts `more`
(R384). -/
def Dev.sparePair (d : Dev) (p : Nat) (more : List (Nat × Nat)) : Option Nat :=
  minBy? (fun q => d.pairPx q + tget 0 q more)
    ((List.range 16).filter fun q => decide (q ≠ p) && d.pairServes q && !(tget {} q d.pairx : PairX).halted &&
      decide (d.nat .PAIR_STATE (q / 4) (q % 4) = 0))

/-- The open contexts of pair `p` are abandoned and restart elsewhere, from their packets (R227, R384). What its coupling buffer held is
discarded. -/
def Dev.restartPictures (d : Dev) (p : Nat) : Dev :=
  let d := d.setPairx p { d.pairxOf p with ring := [], open_ := 0, on := none, head := none, abandons := [] }
  let decs := (d.dec.map fun kv => (kv.2.active.filter fun (i : DecItem) =>
    i.ctx && decide (i.pair.getD (d.nat .DEC_PAIR kv.1.1 kv.1.2) = p)).map fun i => (kv.1, i.ts)).flatten
  let r := decs.foldl (fun (a : Dev × List (Nat × Nat)) k =>
    let d := a.1.countAbandon p
    let q := d.sparePair p a.2
    let x := d.decOf k.1.1 k.1.2
    let move := fun (i : DecItem) => if i.ts = k.2 ∧ i.ctx then
      { i with ctx := false, pair := q, ended := false, runs := [], errors := 0 } else i
    (d.setDec k.1.1 k.1.2 { x with active := x.active.map move },
     match q with
     | some q => tset q (tget 0 q a.2 + d.streamPx k.1.1 k.1.2) a.2
     | none => a.2)) (d, [])
  let encs := (r.1.enc.map fun kv => (kv.2.cur.filter fun (i : EncPic) =>
    i.ctx && decide (i.pair.getD (r.1.encPair kv.1) = p)).map fun i => (kv.1, i.period)).flatten
  let r := encs.foldl (fun (a : Dev × List (Nat × Nat)) k =>
    let d := a.1.countAbandon p
    let q := d.sparePair p a.2
    let x := d.encOf k.1
    let move := fun (i : EncPic) =>
      if i.period = k.2 ∧ i.ctx then
        { i with ctx := false, pair := q, bits := [], qps := [], satd := [], fresh := [], header := 0, coastAt := none } else i
    let px := match k.1 with
      | .composed n => d.streamPx n 2
      | .tile n c => d.streamPx n (3 + c)
      | .strip _ => 0
    (d.setEnc k.1 { x with cur := x.cur.map move },
     match q with
     | some q => tset q (tget 0 q a.2 + px) a.2
     | none => a.2)) r
  (r.2.map (·.1)).foldl (fun d q => d.pairUpdate q) (r.1.pairUpdate p)

/-- The streams of a retired or isolated pair move for good (R384). -/
def Dev.moveStreams (d : Dev) (p : Nat) : Dev :=
  let mine := (d.legs.map fun n => ((d.lifeOf n).charges.filter fun c => decide (c.2.1 = p)).map fun c => (n, c)).flatten
  mine.foldl (fun d m =>
    match d.sparePair p [] with
    | none => d
    | some q =>
      let n := m.1
      let s := m.2.1
      let px : Nat := m.2.2.2.1
      let kb : Nat := m.2.2.2.2
      let d := (d.chargePair p (-(px : Int)) (-(kb : Int))).chargePair q (px : Nat) (kb : Nat)
      let l := d.lifeOf n
      let d := d.setLife n { l with charges := l.charges.map fun (c : Nat × (Nat × (Nat × Nat))) => if c.1 = s then (s, (q, (px, kb))) else c }
      let d := d.setStreamPair n s q
      match l.strip, decide (s = 7) with
      | some k, true => d.setN .LAYOUT_PAIR k q
      | _, _ => d) d

/-- A coding pair leaves service (R376, R384, R387): its streams move and the chip's pixels fall by its 375,000 kpx/s. -/
def Dev.closePair (d : Dev) (p : Nat) : Dev :=
  if d.nat .PAIR_STATE (p / 4) (p % 4) = 2 then d else
    let d := (d.put .PAIR_STATE (p / 4) (p % 4) (.num 2)).setBit .RETIRED_PAIRS 0 0 p true
    let d := (d.restartPictures p).moveStreams p
    d.sub .ADMIT_PIXELS_CAP 0 375000

/-- Retires a coding pair with its record (R376). -/
def Dev.retirePair (d : Dev) (p : Nat) : Dev :=
  let d := d.closePair p
  d.logRec { level := 2, cls := .degraded, action := .retired, unit := 0x1000 + p, code := 0x0303
             detail := d.nat .ADMIT_PIXELS_CAP }

/-- A coding pair reports (R375, R384). -/
def Dev.pairFault (d : Dev) (p engine : Nat) (corrected : Bool) : Dev :=
  if d.nat .PAIR_STATE (p / 4) (p % 4) = 2 then d else
    let s := if corrected then (0, d) else d.spend 2 p
    let d := s.2
    if corrected then
      d.logRec { level := 2, cls := .corrected, action := .corrected, unit := 0x1000 + p, code := 0x0301
                 detail := Config.detail 0x0301 [engine] }
    else
      let open_ := d.nat .PAIR_CONTEXTS (p / 4) (p % 4)
      let y : PairX := tget {} p d.pairx
      let d := { d with pairx := tput {} p { y with halted := true } d.pairx }.restartPictures p
      let d := (d.loseL (keyOfPair p)).resetEvent 6 4 p 4
      let d := d.logRec { level := 2, cls := .recovered, action := .rerunRemote, unit := 0x1000 + p, code := 0x0302
                          detail := Config.detail 0x0302 [engine, open_] + s.1 }
      if s.1 ≠ 0 then d else
        let h := d.hit (.pair p)
        if h.1 then h.2.retirePair p else h.2

/-- The composer, other than `k`, with the most free admitted output (R385). -/
def Dev.spareComposer (d : Dev) (k : Nat) : Option Nat :=
  minBy? (fun j => d.nat .COMPOSER_ADMIT_PIXELS j)
    ((List.range 4).filter fun j => decide (j ≠ k) && decide (d.nat .COMPOSER_STATE j = 0) && decide (d.nat .RGN_STATE j = 0) &&
      !(d.compOf j).halted)

/-- What composer `k` has open and admitted goes to another (R385, R387). -/
def Dev.shiftComposer (d : Dev) (k : Nat) : Dev :=
  match d.spareComposer k with
  | none => d
  | some j =>
    let y := d.nat .COMPOSER_ADMIT_PIXELS k
    let d := (d.setN .COMPOSER_ADMIT_PIXELS k 0).setN .COMPOSER_ADMIT_PIXELS j (d.nat .COMPOSER_ADMIT_PIXELS j + y)
    let ls := d.legs.filter fun n => (d.lifeOf n).composer.any fun c => decide (c.1 = k)
    let d := ls.foldl (fun d n =>
      let l := d.lifeOf n
      d.setLife n { l with composer := l.composer.map fun c => (j, c.2) }) d
    d.moveItems k j

/-- A composer leaves service (R385, R387). -/
def Dev.closeComposer (d : Dev) (k : Nat) : Dev :=
  if d.nat .COMPOSER_STATE k = 2 then d
  else ((d.setN .COMPOSER_STATE k 2).setBit .RETIRED_COMPOSERS 0 0 k true).shiftComposer k

/-- Retires a composer with its record (R376, R288). -/
def Dev.retireComposer (d : Dev) (k : Nat) : Dev :=
  let j := (d.spareComposer k).getD 0xF
  (d.closeComposer k).logRec
    { level := 2, cls := .degraded, action := .retired, unit := 0x2000 + k, code := 0x0402, detail := j }

/-- A composer reports (R375, R385). No code is given for what its line buffers correct, and it changes nothing. -/
def Dev.composerFault (d : Dev) (k : Nat) (corrected : Bool) : Dev :=
  if corrected ∨ d.nat .COMPOSER_STATE k = 2 then d else
    let s := d.spend 3 k
    let d := s.2
    let items := ((d.compOf k).items.filter fun i => !i.finished).length
    let d := ((d.setComp k { d.compOf k with halted := true }).loseL (keyOfComposer k)).resetEvent 6 4 k 4
    let j := d.spareComposer k
    let d := match j with
      | some j => d.moveItems k j
      | none => d
    let d := d.logRec { level := 2, cls := .recovered, action := .rerunRemote, unit := 0x2000 + k, code := 0x0401
                        detail := Config.detail 0x0401 [items, j.getD 0xF] + s.1 }
    if s.1 ≠ 0 then d else
      let h := d.hit (.composer k)
      if h.1 then h.2.retireComposer k else h.2

/-- The units that were in reset for the rest of a stride return at its edge (R384, R385). -/
def Dev.unitsReturn (d : Dev) : Dev :=
  let pair := fun (x : Nat × PairX) => (x.1, { x.2 with halted := false })
  let comp := fun (x : Nat × Composer) => (x.1, { x.2 with halted := false })
  { d with pairx := d.pairx.map pair, comp := d.comp.map comp }

/-- A pair is isolated with its region, or for its clock (R387, R423). -/
def Dev.isolatePair (d : Dev) (p : Nat) : Dev :=
  if d.nat .PAIR_STATE (p / 4) (p % 4) = 2 then d
  else { d with faults := { d.faults with isolated := .pair p :: d.faults.isolated } }.closePair p

/-- A composer is isolated with its region, or for its clock (R387, R423). -/
def Dev.isolateComposer (d : Dev) (k : Nat) : Dev :=
  if d.nat .COMPOSER_STATE k = 2 then d
  else { d with faults := { d.faults with isolated := .composer k :: d.faults.isolated } }.closeComposer k

/-- A fenced block returns (R382, R424): its cells but the retired ones, and its capacity; one without all its cells admits 14 cells'
cycles (R326). -/
def Dev.unfence (d : Dev) (b : Nat) : Dev :=
  if d.nat .BLK_STATE b ≠ 3 then d else
    let cells := (List.range 16).map (16 * b + ·)
    let back := cells.filter fun c => decide (d.nat .CELL_STATE c = 4)
    let d := back.foldl (fun d c => d.setN .CELL_STATE c (if d.nat .BLK_RESERVE_CELL b = c then 1 else 0)) d
    let d := ((d.sub .RETIRED_CELLS 0 back.length).setN .BLK_STATE b 0).setBit .RETIRED_BLOCKS 0 0 b false
    let cap := if back.length = 16 then blockFull else 14 * 1995100
    let more := cap - d.nat .BLK_CAPACITY b
    let d := (d.setN .BLK_CAPACITY b cap).setN .ADMIT_CYCLES_CAP 0 (d.nat .ADMIT_CYCLES_CAP + more)
    { d with faults := { d.faults with rehome := d.faults.rehome.filter (· ≠ b) } }

/-- An isolated pair returns. -/
def Dev.returnPair (d : Dev) (p : Nat) : Dev :=
  if !d.faults.isolated.contains (.pair p) then d else
    let d := { d with faults := { d.faults with isolated := d.faults.isolated.erase (.pair p) } }
    let d := (d.put .PAIR_STATE (p / 4) (p % 4) (.num 0)).setBit .RETIRED_PAIRS 0 0 p false
    d.setN .ADMIT_PIXELS_CAP 0 (d.nat .ADMIT_PIXELS_CAP + 375000)

/-- An isolated composer returns. -/
def Dev.returnComposer (d : Dev) (k : Nat) : Dev :=
  if !d.faults.isolated.contains (.composer k) then d else
    let d := { d with faults := { d.faults with isolated := d.faults.isolated.erase (.composer k) } }
    (d.setN .COMPOSER_STATE k 0).setBit .RETIRED_COMPOSERS 0 0 k false

/-- The units of region `g` that a fence or isolation holds return. -/
def Dev.returnUnits (d : Dev) (g : Nat) : Dev :=
  let d := ((List.range 16).map (16 * g + ·)).foldl Dev.unfence d
  (((List.range 4).map (4 * g + ·)).foldl Dev.returnPair d).returnComposer g

/-- A region fails (R387). -/
def Dev.regionFail (d : Dev) (g : Nat) (clock : Bool) : Dev :=
  if d.nat .RGN_STATE g = 2 then d else
    let d := d.setN .RGN_STATE g 2
    let blocks := ((List.range 16).map (16 * g + ·)).filter fun b => decide (d.nat .BLK_STATE b < 3)
    let quiet := d.legs.filter fun n => blocks.contains (d.nat .LEG_ADMIT_BLOCK n)
    let d := { d with faults := { d.faults with silent := d.faults.silent ++ quiet } }
    let d := blocks.foldl (fun d b => (d.failBlockItems b).closeBlock b 3) d
    let d := ((List.range 4).map (4 * g + ·)).foldl Dev.isolatePair d
    let d := d.isolateComposer g
    d.logRec { level := 2, cls := .serviceAffecting, action := .fenced, unit := g, code := 0x0504
               detail := if clock then 2 else 1 }

/-- A rail fails (R386): until cold reset; with both gone the region fails. -/
def Dev.railFail (d : Dev) (g r : Nat) : Dev :=
  if bit (d.nat .FAILED_RAILS) (2 * g + r) then d else
    let d := (d.setBit .FAILED_RAILS 0 0 (2 * g + r) true).logRec
      { level := 2, cls := .degraded, action := .switched, unit := 0x3000 + 2 * g + r, code := 0x0502, detail := 2 * g + r }
    if bit (d.nat .FAILED_RAILS) (2 * g + 1 - r) then d.regionFail g false else d

/-- A line of rail `r` is corrected from the other rail (R386): 16 in a lap fail it. -/
def Dev.railCorrected (d : Dev) (g r : Nat) : Dev :=
  let u := 2 * g + r
  let s := d.spend 4 u
  let n := tget 0 u s.2.faults.rails + 1
  let d := { s.2 with faults := { s.2.faults with rails := tset u n s.2.faults.rails } }
  let d := (d.bump .RGN_RAIL_CORRECTED g).logRec
    { level := 2, cls := .corrected, action := .corrected, unit := 0x3000 + u, code := 0x0501
      detail := Config.detail 0x0501 [u, n] + s.1 }
  if 16 ≤ n ∧ s.1 = 0 then d.railFail g r else d

/-- The receiver of a fabric line finds an error (R386). A line that fails on both rails, or on the one that is left, is repeated
once, and so are lines that both pass and disagree: a repeat changes nothing in the region, and what a second failure means is the
requester's. -/
def Dev.railError (d : Dev) (g : Nat) (x : RailLine) : Dev :=
  if d.nat .RGN_STATE g = 2 then d else
    match x.silent with
    | some r => d.railFail g (r % 2)
    | none =>
      if bit (d.nat .FAILED_RAILS) (2 * g) || bit (d.nat .FAILED_RAILS) (2 * g + 1) then d
      else if x.aOk && !x.bOk then d.railCorrected g 1
      else if x.bOk && !x.aOk then d.railCorrected g 0
      else d

/-- An uncorrectable error of a chip-level unit's stage counts in the lap (R388): the first above FAULT_RETIRE_COUNT advises a reset. -/
def Dev.stageError (d : Dev) (unit stage : Nat) : Dev :=
  let key := unit * 65536 + stage
  let count := tget 0 key d.faults.stages + 1
  let d := { d with faults := { d.faults with stages := tset key count d.faults.stages } }
  if count = d.nat .FAULT_RETIRE_COUNT + 1 then
    d.logRec { level := 3, cls := .serviceAffecting, action := .resetAdvised, unit := unit, code := 0x0804
               detail := Config.detail 0x0804 [stage, count] }
  else d

/-- A chip-level unit reports an error (R388). A shared entry is loaded again from the dictionary's values, which the model reads in
every use. -/
def Dev.chipError (d : Dev) (e : ChipError) : Dev :=
  match e with
  | .corrected u t i =>
    d.logRec { level := 3, cls := .corrected, action := .corrected, unit := u, code := 0x0801, detail := Config.detail 0x0801 [t, i] }
  | .region g at_ two =>
    let r : Rec := { level := 2, cls := .corrected, action := .corrected, unit := g, code := 0x0503, detail := at_ }
    if two then d.logRec { r with cls := .recovered, action := .retried }
    else if g < 4 then (d.bump .RGN_MEM_CORRECTED g).logRec r else d
  | .packet u s => (d.logRec { level := 3, cls := .recovered, unit := u, code := 0x0802, detail := s }).stageError u s
  | .shared u s t i =>
    (d.logRec { level := 3, cls := .recovered, action := .retried, unit := u, code := 0x0801
                detail := Config.detail 0x0801 [t, i] }).stageError u s
  | .legEntry u s n t =>
    (d.logLeg { level := 3, cls := .serviceAffecting, action := .legFailed, unit := u, code := 0x0803, leg := n
                detail := t }).stageError u s

/-- Is port `p`, of a pair in mode 1 or 2, failed (R124)? -/
def Dev.portFailed (d : Dev) (p : Nat) : Bool :=
  d.pairMode (p / 2) && (decide (d.nat .PORT_LINK p ≠ 1) || (d.portOf p).fecBurst)

/-- The conditions of R390 as they stand. -/
def Dev.healthCause (d : Dev) : Nat :=
  d.healthBase ((List.range 4).any fun c => decide (d.chState c = 6))
    ((List.range 4).any fun c => decide (d.nat .CH_MARKED c ≠ 0))
    ((List.range 4).any d.portFailed) ((List.range 4).any fun g => decide (d.nat .RGN_STATE g = 2))

/-- HEALTHY and HEALTHY_CAUSE follow the conditions at an edge (R390); bits 0, 1, 7 and 8 act whatever the mask says. -/
def Dev.healthEdge (d : Dev) : Dev :=
  let cause := d.healthCause
  let low := cause &&& (d.nat .HEALTHY_MASK ||| 0x183)
  { d.setN .HEALTHY_CAUSE 0 cause with pins := { d.pins with healthy := if low = 0 then .high else .low } }

end Sys2Proof.Machine
end

