-- ==== Sys2Proof/Machine/Ports.lean ====
section
/-! DEFINITION. Ports and port pairs (R121 to R125), their PTP side (R49), and the SerDes references (R485). -/

namespace Sys2Proof.Machine

/-- The PTP side of a link change of port `p` (R49): a port that goes down is FAULTY, and its partner on the same instance is left to
the next Announce evaluation. -/
def Dev.ptpLink (d : Dev) (p link : Nat) : Dev :=
  let q := if p % 2 = 0 then p + 1 else p - 1
  let n := d.nat .PTP_INSTANCE p
  if d.nat .PTP_ROLE p = 0 then d
  else if link = 1 then d.bmca n
  else
    let slave := decide (d.nat .PTP_PORT_STATE p = 9)
    let d := (d.setPtp p { d.ptpOf p with best := none, foreign := [] }).setN .PTP_PORT_STATE p 2
    let partner := decide (d.nat .PTP_ROLE q ≠ 0) && decide (d.nat .PTP_INSTANCE q = n)
    let others := (d.ptpPorts n).any fun i => decide (d.nat .PTP_PORT_STATE i = 9 ∨ d.nat .PTP_PORT_STATE i = 6)
    if partner || (!slave && others) then d else d.holdoverEnter n

/-- Port `p` reports its link, and the codewords it could not correct and those it did (R121, R124). A port that is off has no link. -/
def Dev.portLink (d : Dev) (p link fec corrected : Nat) : Dev :=
  if d.nat .PORT_MODE p = 0 then d else
    let old := d.nat .PORT_LINK p
    let x := d.portOf p
    let errors := x.fecStride + fec
    let burst := x.fecBurst || decide (8 < errors)
    let since := if burst then d.stride + 1 else if link = 1 ∧ old ≠ 1 then d.stride else x.upSince
    let d := ((d.setN .PORT_LINK p link).add .PORT_FEC_UNCORRECTED p 0 fec).add .PORT_FEC_CORRECTED p 0 corrected
    let d := d.setPort p { x with fecStride := errors, fecBurst := burst, upSince := since }
    let d := if old = 1 ∧ link ≠ 1 then d.bump .PORT_LINK_DOWNS p else d
    let d := if link = 1 then
        { d with pins := { d.pins with srefLost := d.pins.srefLost.filter (· ≠ p % 2) } }
      else d
    if old = link then d else d.ptpLink p link

/-- A SerDes reference is lost (R485): the ports it serves lose link, and the shared transmit clock leaves it. -/
def Dev.srefLoss (d : Dev) (r : Nat) : Dev :=
  let d := (d.portLink r 0 0 0).portLink (r + 2) 0 0 0
  let lost := (d.pins.srefLost ++ [r]).eraseDups
  let clock := if r = 0 ∧ !lost.contains 1 then 1 else d.pins.txClock
  let d := { d with pins := { d.pins with srefLost := lost, txClock := clock } }
  d.logRec { level := 3, cls := .degraded, unit := 0x1000 + r, code := 0x0702
             detail := Config.detail 0x0702 [r, 5 * 2 ^ r] }

/-- Port `p` becomes the active port of pair `q` (R124, R125): the system queues move with it, and PTP stays where it is (R49). -/
def Dev.switchPair (d : Dev) (q p : Nat) : Dev :=
  let old := d.nat .PAIR_ACTIVE q
  if old = p then d else
    let a := d.portOf old
    let b := d.portOf p
    let moved := fun (k : Nat) => tget [] k b.sys ++ tget [] k a.sys
    let d := d.setPort old { a with sys := a.sys.filter fun kv => decide (kv.1 < 2) }
    let d := d.setPort p { b with
      sys := [2, 3, 4, 5, 6, 7].foldl (fun s k => tput [] k (moved k) s) b.sys
      rrControl := a.rrControl, rrAudio := a.rrAudio, rrNormal := a.rrNormal, rrLow := a.rrLow
      visitNormal := a.visitNormal, visitLow := a.visitLow }
    ((d.setN .PAIR_ACTIVE q p).bump .PAIR_SWITCHES q).logRec
      { level := 3, cls := .recovered, action := .switched, unit := 0x1000 + p, code := 0x0701
        detail := Config.detail 0x0701 [old, p] }

/-- The pairs at an edge (R124, R125): a forced port that has not failed, else the partner of a failed active port. -/
def Dev.pairEdge (d : Dev) : Dev :=
  (List.range 2).foldl (fun d q =>
    let x : PortPair := tget {} q d.pairs
    let d := { d with pairs := tput {} q {} d.pairs }
    let a := d.nat .PAIR_ACTIVE q
    let partner := if a % 2 = 0 then a + 1 else a - 1
    if d.nat .PAIR_MODE q = 0 then d
    else match x.force.filter fun p => !d.portFailed p with
      | some p => d.switchPair q p
      | none => if d.portFailed a && !d.portFailed partner then d.switchPair q partner else d) d

/-- The codewords that each port could not correct are counted by stride (R124). -/
def Dev.portsClear (d : Dev) : Dev :=
  d.ports.foldl (fun d kv => d.setPort kv.1 { d.portOf kv.1 with fecStride := 0, fecBurst := false }) d

/-- In revertive mode the lower port has been up for PAIR_REVERT_LAPS at the edge in hand (R125). -/
def Dev.pairRevert (d : Dev) (q : Nat) : Dev :=
  if d.nat .PAIR_MODE q = 2 ∧ d.nat .PAIR_ACTIVE q = 2 * q + 1 ∧ !d.portFailed (2 * q) ∧
      (d.portOf (2 * q)).upSince + 600 * d.nat .PAIR_REVERT_LAPS q ≤ d.stride + 1 then d.switchPair q (2 * q) else d

/-- A write of PAIR_FORCE (R125). -/
def Dev.writePairForce (d : Dev) (q p : Nat) : Res := do
  d.need (decide (d.nat .PAIR_MODE q ≠ 0) && decide (p / 2 = q)) .range
  d.need (!d.portFailed p) .deviceState
  .ok { d with pairs := tput {} q { force := some p } d.pairs }

end Sys2Proof.Machine
end

