-- ==== Sys2Proof/Machine/Session.lean ====
section
/-! DEFINITION. HDP sessions (R82 to R90): what an accepted datagram must pass, how answers are sent and kept, OPEN, the close
of a session, and the punt channel (R98). -/

namespace Sys2Proof.Machine

/-- An address of 16 octets that is IPv4 in IPv4-mapped form, from a number of 32 bits. -/
def mapped (v : Nat) : Octets := List.replicate 10 0 ++ [0xFF, 0xFF] ++ natToOctets 4 v

/-- The management address of a family (R128, [1120]); none while it is 0. -/
def Dev.mgmtAddr (d : Dev) (v6 : Bool) : Option Octets :=
  if v6 then (if isZero (d.bytes .MGMT_IPV6) then none else some (d.bytes .MGMT_IPV6))
  else (if d.nat .MGMT_IPV4 = 0 then none else some (mapped (d.nat .MGMT_IPV4)))

/-- Is `ip` a management address on port `p` and VLAN `v`? -/
def Dev.isMgmt (d : Dev) (p v : Nat) (ip : Octets) : Bool :=
  bit (d.nat .MGMT_PORTS) p && decide (d.nat .MGMT_VLAN = v) &&
    (decide (d.mgmtAddr false = some ip) || decide (d.mgmtAddr true = some ip))

/-- Acts on a datagram that reaches HDP (R88): on a port and a VLAN of the management settings, to a management address. -/
def Dev.atMgmt (d : Dev) (h : HdpHdr) (f : Dev → Dev) : Dev := if d.isMgmt h.port h.vlan h.dst then f d else d

/-- The open session of an identifier. -/
def Dev.sessionOf (d : Dev) (id : Nat) : Option Session := d.hdp.sessions.find? fun s => s.id = id

/-- Replaces an open session. -/
def Dev.setSession (d : Dev) (s : Session) : Dev :=
  { d with hdp := { d.hdp with sessions := d.hdp.sessions.map fun x => if x.id = s.id then s else x } }

/-- Sends a datagram of a session: sealed under its key, with its next SEQ and bit 63 set (R82, R86). -/
def Dev.hdpSend (d : Dev) (id type : Nat) (payload : Octets) : Dev :=
  match d.sessionOf id, d.mgmtPort with
  | some s, some p =>
    (d.setSession { s with txSeq := s.txSeq + 1 }).sysEnqueue p 3 (.hdp s.peer id type (2 ^ 63 + s.txSeq) 0 s.key payload)
  | _, _ => d

/-- Sends the answer to request `req` and keeps it (R89). -/
def Dev.hdpAnswer (d : Dev) (id type req : Nat) (body : Octets) : Dev :=
  let payload := natToOctets 4 req ++ body
  match d.sessionOf id with
  | none => d
  | some s =>
    let kept := s.kept ++ [(req, (type, (d.stride, payload)))]
    (d.setSession { s with kept := kept.drop (kept.length - 32) }).hdpSend id type payload

/-- A whole-request refusal of READ, as READ_RESP (R91). -/
def readRefusal (a : Abort) : Octets := natToOctets 2 0 ++ natToOctets 4 a.code

/-- A WRITE_RESP (R91). -/
def writeResp (status applied index sub : Nat) : Octets :=
  natToOctets 4 status ++ natToOctets 2 applied ++ natToOctets 2 index ++ natToOctets 1 sub ++ [0]

/-- Four laps, in strides (R89, R90, R97). -/
def fourLaps : Nat := 2400

/-- Moves what waits in the punt hold into the HDP system queue while there is room; without an owner it is dropped and
counted (R98). -/
def Dev.puntDrain (d : Dev) : Nat → Dev
  | 0 => d
  | fuel + 1 =>
    match d.hdp.punt with
    | [] => d
    | x :: r =>
      let owner := d.nat .PUNT_OWNER
      if owner = 0 then ({ d with hdp := { d.hdp with punt := [] } }).add .PUNT_DROPPED 0 0 (r.length + 1)
      else match d.mgmtPort with
        | none => d
        | some p =>
          if (tget [] 3 (d.portOf p).sys).length < 64 then
            (({ d with hdp := { d.hdp with punt := r } }).hdpSend owner 0x41 x).puntDrain fuel
          else d

/-- What a punted packet carries of its origin (R98). -/
structure PuntInfo where
  leg : Nat := 0xFFFF
  port : Nat := 0
  reason : Nat := 1
  stamp : Nat := 0
  src : Octets := []
  dst : Octets := []
  sport : Nat := 0
  dport : Nat := 0
  data : Octets := []
deriving DecidableEq, Repr

/-- The payload of a PUNT_RX (R98). -/
def PuntInfo.payload (x : PuntInfo) : Octets :=
  natToOctets 2 x.leg ++ [x.port, x.reason] ++ natToOctets 10 x.stamp ++ x.src ++ x.dst ++ natToOctets 2 x.sport ++
    natToOctets 2 x.dport ++ natToOctets 2 x.data.length ++ x.data

/-- A packet is punted (R98): held for the owner, or dropped and counted. -/
def Dev.punt (d : Dev) (x : PuntInfo) : Dev :=
  if d.nat .PUNT_OWNER = 0 ∨ 256 ≤ d.hdp.punt.length ∨ 1404 < x.payload.length then d.bump .PUNT_DROPPED
  else ({ d with hdp := { d.hdp with punt := d.hdp.punt ++ [x.payload] } }).puntDrain 257

/-- Is this a datagram of the session? -/
def NetOut.ofSession (id : Nat) : NetOut → Bool
  | .hdp _ s _ _ _ _ _ => decide (s = id)
  | _ => false

/-- Is it an HDP request, of which the queue holds 64 (R90)? -/
def ReqBody.ofHdp : ReqBody → Bool
  | .sdoDownload .. => false
  | .sdoUpload .. => false
  | .rpdo .. => false
  | .access src .. => match src with
    | .hdp _ => true
    | _ => false
  | _ => true

/-- Queued HDP requests are discarded unexecuted; those of CAN stay (R100). -/
def Dev.dropHdpRequests (d : Dev) : Dev :=
  { d with hdp := { d.hdp with queue := d.hdp.queue.filter fun q => !q.body.ofHdp } }

/-- A session closes (R88): its subscriptions and bulk transfer end, punt ownership is released, the answers still owed are
dropped, and the service-cipher lock it holds is released (R451). -/
def Dev.closeSession (d : Dev) (id : Nat) : Dev :=
  match d.sessionOf id with
  | none => d
  | some s =>
    let d := match s.bulk with
      | some b => d.dropAll 2 b.handles
      | none => d
    let d := { d with hdp := { d.hdp with sessions := d.hdp.sessions.filter fun x => decide (x.id ≠ id) } }
    let d := (List.range 4).foldl (fun d p =>
      let x := d.portOf p
      if thas 3 x.sys then
        d.setPort p { x with sys := tset 3 ((tget [] 3 x.sys).filter fun y => !y.ofSession id) x.sys }
      else d) d
    let d := if d.nat .PUNT_OWNER = id then
        let held := d.hdp.punt.length
        (({ d with hdp := { d.hdp with punt := [] } }).setN .PUNT_OWNER 0 0).add .PUNT_DROPPED 0 0 held
      else d
    if d.locked && decide (d.nat .SC_LOCK_OWNER = id) then d.lockExpire 2 else d

/-- A session that has accepted no datagram for its TIMEOUT_LAPS closes (R88). -/
def Dev.idleClose (d : Dev) (id : Nat) : Dev :=
  match d.sessionOf id with
  | none => d
  | some s => if s.heard + 600 * s.timeout ≤ d.stride then d.closeSession id else d

/-- Every session closes (R88). -/
def Dev.closeSessions (d : Dev) : Dev := d.hdp.sessions.foldl (fun d s => d.closeSession s.id) d

/-- A datagram's form (R82): its size, MAGIC, VERSION, reserved fields and LENGTH. KEY_SLOT is reserved in all but an OPEN. -/
def hdpFormed (h : HdpHdr) (isOpen : Bool) : Bool :=
  decide (36 ≤ h.size ∧ h.size ≤ 1440) && decide (h.magic = 0x4844) && decide (h.version = 1) &&
    decide (h.reserved = 0) && h.lenOk && (isOpen || decide (h.keySlot = 0))

/-- A datagram other than OPEN is authenticated and checked against the replay window (R82, R87): the session it belongs
to, or none where it is discarded. -/
def Dev.hdpAccept (d : Dev) (h : HdpHdr) : Option Session × Dev :=
  if !hdpFormed h false then (none, d) else
    match d.sessionOf h.session with
    | none => (none, d.bump .HDP_AUTH_FAILS)
    | some s =>
      if h.sealKey ≠ s.key then (none, d.bump .HDP_AUTH_FAILS)
      else if 2 ^ 63 ≤ h.seq ∨ h.seq + 64 ≤ s.high ∨ s.seen.contains h.seq then (none, d.bump .HDP_REPLAYS)
      else
        let high := max s.high h.seq
        let s := { s with
          peer := ⟨h.src, h.sport⟩, high := high, heard := d.stride, seen := (h.seq :: s.seen).filter fun x => decide (high < x + 64) }
        (some s, d.setSession s)

/-- Is the request of this identifier still executing? -/
def Dev.executing (d : Dev) (id req : Nat) : Bool :=
  d.hdp.queue.any fun q => decide (q.session = id) && decide (q.req = req)

/-- A request arrives (R82, R83, R89): discarded, answered again from the kept answers, refused as MALFORMED in its own
answer form, or executed by `f`. An authenticated message of an unlisted type, and one too short for a REQUEST_ID, is answered with nothing. -/
def Dev.hdpRequest (d : Dev) (h : HdpHdr) (req type : Nat) (malformed : Octets) (f : Nat → Dev → Dev) : Dev :=
  let r := d.hdpAccept h
  let d := r.2
  match r.1 with
  | none => d
  | some s =>
    if h.short || !h.listed then d else
    match s.kept.find? fun x => decide (x.1 = req) && decide (d.stride ≤ x.2.2.1 + fourLaps) with
    | some x => d.hdpSend s.id x.2.1 x.2.2.2
    | none =>
      if d.executing s.id req then d
      else if !h.parses then
        (if type = 0x11 ∨ type = 0x13 then d.bump .DICT_ABORTS else d).hdpAnswer s.id type req malformed
      else f s.id d

/-- A new SESSION_ID from a random number: non-zero, and of no open session (R86). -/
def Dev.newSession (d : Dev) (r : Nat) : Nat :=
  (((List.range 6).map fun i => (r + i) % (2 ^ 32 - 1) + 1).find? fun i => (d.sessionOf i).isNone).getD 1

/-- The OPEN_ACK of an OPEN (R86), under the same master key and with the same KEY_SLOT. -/
def Dev.openAck (d : Dev) (h : HdpHdr) (key : Octets) (req status session : Nat) (nonce : Octets) (laps : Nat) : Dev :=
  match d.mgmtPort with
  | none => d
  | some p =>
    d.sysEnqueue p 3 (.hdp ⟨h.src, h.sport⟩ 0 0x02 (2 ^ 63 + h.seq) h.keySlot key
      (natToOctets 4 req ++ natToOctets 4 status ++ natToOctets 4 session ++ nonce ++ natToOctets 2 laps))

/-- The check of R86 that an OPEN fails first. -/
def Dev.openRefusal (d : Dev) (timeout : Nat) : Option Abort :=
  if d.alarmed then some .alarm
  else if !d.flag .HDP_ENABLE then some .deviceState
  else if 4 ≤ d.hdp.sessions.length then some .sessionLimit
  else if timeout ≠ 0 ∧ (timeout < 4 ∨ 600 < timeout) then some .range
  else none

/-- An OPEN (R82, R85, R86). The answer to a malformed one is of its own form too; one too short for a REQUEST_ID draws none. DESIGN CHOICE
(log entry 135): SESSION_ID not 0 is a wrong header, discarded and counted nowhere; an OPEN that passes its tag and its SEQ counts as accepted,
whatever is refused after. -/
def Dev.hdpOpen (d : Dev) (h : HdpHdr) (req : Nat) (nonce : Octets) (timeout : Nat) : Dev :=
  if !h.listed then (d.hdpAccept h).2
  else if !hdpFormed h true ∨ h.session ≠ 0 then d else
    match if h.keySlot ≤ 3 then tfind h.keySlot d.sec.hdpKeys else none with
    | none => d.bump .HDP_AUTH_FAILS
    | some key =>
      if h.sealKey ≠ key then d.bump .HDP_AUTH_FAILS
      else if 2 ^ 63 ≤ h.seq ∨ (tfind h.keySlot d.hdp.openSeq).any (fun q => decide (h.seq ≤ q)) then d.bump .HDP_REPLAYS
      else
        let d := { d with hdp := { d.hdp with openSeq := tset h.keySlot h.seq d.hdp.openSeq } }
        if h.short then d else
        match if h.parses then d.openRefusal timeout else some .malformed with
        | some a => d.openAck h key req a.code 0 (List.replicate 16 0) 0
        | none =>
          let r := d.draw
          let id := r.2.newSession r.1
          let q := r.2.draw
          let d := q.2
          let mine := natToOctets 16 (q.1 % 2 ^ 128)
          let laps := if timeout = 0 then d.nat .HDP_SESSION_TIMEOUT else timeout
          let s : Session :=
            { id := id, peer := ⟨h.src, h.sport⟩, slot := h.keySlot, timeout := laps, heard := d.stride
              key := sessionKey key nonce mine id }
          ({ d with hdp := { d.hdp with sessions := d.hdp.sessions ++ [s] } }).openAck h key req 0 id mine laps

/-- A CLOSE (R83, R88): the session ends and nothing is answered. -/
def Dev.hdpClose (d : Dev) (h : HdpHdr) : Dev :=
  let r := d.hdpAccept h
  match r.1 with
  | some s => if h.parses && h.listed then r.2.closeSession s.id else r.2
  | none => r.2

/-- A KEEPALIVE (R83, R84): the device echoes it. A payload that does not parse has no STATUS to answer in. -/
def Dev.hdpKeepalive (d : Dev) (h : HdpHdr) (req : Nat) : Dev :=
  if !h.parses ∨ !h.listed then (d.hdpAccept h).2
  else d.hdpRequest h req 0x04 [] fun id d => d.hdpAnswer id 0x04 req []

/-- A PUNT_CLAIM (R98). -/
def Dev.hdpPuntClaim (d : Dev) (h : HdpHdr) (req : Nat) : Dev :=
  d.hdpRequest h req 0x43 (natToOctets 4 Abort.malformed.code) fun id d =>
    (d.setN .PUNT_OWNER 0 id).hdpAnswer id 0x43 req (natToOctets 4 0)

/-- A PUNT_TX (R99): the bytes leave on the leg's 5-tuple through its control queue. A leg number that no leg has, or more than
1,340 bytes, does not parse. -/
def Dev.hdpPuntTx (d : Dev) (h : HdpHdr) (req leg : Nat) (data : Octets) : Dev :=
  let bad := decide (4096 ≤ leg) || decide (1340 < data.length)
  d.hdpRequest { h with parses := h.parses && !bad } req 0x43 (natToOctets 4 Abort.malformed.code) fun id d =>
    if d.legState leg = .idle then d.hdpAnswer id 0x43 req (natToOctets 4 Abort.deviceState.code)
    else (d.enqueue leg .control { raw := some data }).hdpAnswer id 0x43 req (natToOctets 4 0)

end Sys2Proof.Machine
end

