-- ==== Sys2Proof/Machine/Sweep.lean ====
section
/-! DEFINITION. The references that the packet path and the coders hold (R305, R361, R367): every place that keeps a buffer, and the
drops and adds that bring the descriptors to what is held. -/

namespace Sys2Proof.Machine

/-- The buffers that a receive side keeps: of packets in the jitter buffers, of frames in the hold and of video packets held for NACK and
FEC (R145, R147, R148). -/
def Rx.holders (r : Rx) : List Nat :=
  ((r.jbs.map fun j => j.2.pkts.filterMap (·.buf)) ++ r.hold.map (·.bufs)).flatten ++ r.held.filterMap (·.buf)

/-- The buffers that a send side keeps: of queued packets and of the history (R151, R164). -/
def Tx.holders (x : Tx) : List Nat :=
  ([x.control, x.audio, x.retransmission, x.video].map fun q => q.filterMap (·.buf)).flatten ++ x.history.filterMap (·.buf)

/-- The buffers of a frame that is to be decoded: its packets', and those taken for its pictures (R217, R227). -/
def DecItem.holders (i : DecItem) : List Nat := i.bufs ++ (i.out.map (·.2)).flatten

/-- The buffers that a decode slot keeps (R217, R220, R227): of its frames, its pictures and its context. -/
def DecSlot.holders (x : DecSlot) : List Nat :=
  ((x.waiting ++ x.active).map (·.holders)).flatten ++
    ((x.pics ++ x.newest.map (·.2) ++ x.last.toList).map (·.bufs)).flatten ++ x.context

/-- The buffers that an encode keeps (R235, R238, R257). -/
def Enc.holders (x : Enc) : List Nat :=
  (x.refs.map (·.2)).flatten ++ (x.cur.map fun c => c.input ++ c.recon).flatten ++ x.context ++
    (x.shown.map fun s => s.2.bufs).flatten

/-- The buffers that anything in the packet path or in the coders keeps, once for each time it is kept. -/
def Dev.holders (d : Dev) : List Nat :=
  (d.rx.map (·.2.holders)).flatten ++ (d.tx.map (·.2.holders)).flatten ++ (d.dec.map (·.2.holders)).flatten ++
    (d.enc.map (·.2.holders)).flatten ++ (d.comp.map fun c => (c.2.items.map (·.buf)).flatten).flatten ++ d.pool.current.toList

/-- Brings the references of one handle from what was counted to what is held: none left frees the buffer (R367). A handle whose buffer
has gone otherwise is forgotten. -/
def Dev.sweepOne (d : Dev) (held : List Nat) (h was : Nat) : Dev :=
  let p := handlePool h
  let i := handleIndex h
  let x := d.descOf p i
  let n := held.count h
  let keep := fun (d : Dev) => { d with pool := { d.pool with managed := d.pool.managed ++ [(h, n)] } }
  if !x.allocated || x.gen ≠ handleGen h then d
  else if n = was then keep d
  else
    let refs := x.refs + n - was
    let d := d.setDesc p i { x with refs := refs }
    if refs = 0 then d.freeDesc p i
    else keep (if d.nat .POOL_PEAK_REFS p < refs then d.setN .POOL_PEAK_REFS p refs else d)

/-- The descriptors of every buffer that the packet path and the coders keep follow what keeps them (R367; log entry 71). -/
def Dev.bufferSweep (d : Dev) : Dev :=
  let held := d.holders
  d.pool.managed.foldl (fun d x => d.sweepOne held x.1 x.2) { d with pool := { d.pool with managed := [] } }

end Sys2Proof.Machine
end

