-- ==== Sys2Proof/Machine/Ingress.lean ====
section
/-! DEFINITION. Ingress (R120 to R153): the filters of a port, ARP and ND, the policers, the ICE-lite responder, the line cipher's
receive side, jitter buffers, the video hold, FlexFEC and RTX, NACK, and the consumers of RTCP. -/

namespace Sys2Proof.Machine

/-- The address entries in use that port `p` and VLAN `v` enable (R126). -/
def Dev.entriesAt (d : Dev) (p v : Nat) : List Nat :=
  (List.range 32).filter fun i =>
    !isZero (d.bytes .ADDR_IP i) && bit (d.nat .ADDR_PORTS i) p && decide (d.nat .ADDR_VLAN i = v)

/-- The solicited-node multicast MAC of an IPv6 address. -/
def solicitedMac (ip : Octets) : Octets := [0x33, 0x33, 0xFF] ++ ip.drop 13

/-- The MAC groups of PTP: over Ethernet, UDP/IPv4 and UDP/IPv6, general and peer delay (R47). -/
def ptpGroups : List Octets :=
  [[0x01, 0x1B, 0x19, 0, 0, 0], [0x01, 0x80, 0xC2, 0, 0, 0x0E], [0x01, 0, 0x5E, 0, 1, 0x81], [0x01, 0, 0x5E, 0, 0, 0x6B],
   [0x33, 0x33, 0, 0, 1, 0x81], [0x33, 0x33, 0, 0, 0, 0x6B]]

/-- Does port `p` take a frame to this MAC address (R122)? In a pair mode both ports answer to the lower port's address too. -/
def Dev.macOk (d : Dev) (p : Nat) (mac : Octets) (arp : Bool) : Bool :=
  let own := d.bytes .PORT_MAC p
  let lower := d.bytes .PORT_MAC (p / 2 * 2)
  let v6 := ((List.range 32).map fun i => d.bytes .ADDR_IP i).filter fun a => !isZero a && !isMapped a
  !isZero own && (mac == own || (d.pairMode (p / 2) && !isZero lower && mac == lower) ||
    (arp && mac == List.replicate 6 0xFF) ||
    (v6 ++ (d.mgmtAddr true).toList).any (fun a => mac == solicitedMac a) ||
    (decide (d.nat .PTP_ROLE p ≠ 0) && ptpGroups.contains mac))

/-- The VLAN of a frame: 0 for untagged. -/
def vlanOf (f : Frame) : Nat := f.vlans.headD 0

/-- Does a setting on port `p` name VLAN `v` (R122)? -/
def Dev.vlanOk (d : Dev) (p v : Nat) : Bool :=
  decide (v = 0) || !(d.entriesAt p v).isEmpty || (bit (d.nat .MGMT_PORTS) p && decide (d.nat .MGMT_VLAN = v))

/-- Is it a PTP event message (R47)? -/
def ptpEvent : PtpMsg → Bool
  | .sync .. => true
  | .delayReq .. => true
  | .pdelayReq .. => true
  | .pdelayResp .. => true
  | _ => false

/-- The place in the table of R122 of the first reason to drop a frame on port `p`, none where it passes. -/
def Dev.dropReason (d : Dev) (p : Nat) (f : Frame) : Option Nat :=
  let tests : List Bool :=
    match f.body with
    | .ip x =>
      let ns := x.nsTarget.isSome
      [decide (d.nat .PORT_MTU p < x.ipLen), !d.macOk p f.dstMac false, false, false, !x.headerOk || x.extended,
       x.fragment, !x.udp && !ns, x.udp && !ns && ((!x.csumZero && !x.csumOk) || (x.csumZero && x.v6)),
       !ns && !(d.entriesAt p (vlanOf f)).any (fun i => d.bytes .ADDR_IP i == x.dst) && !d.isMgmt p (vlanOf f) x.dst,
       f.fifoFull]
    | .ptp m => [false, !d.macOk p f.dstMac false, false, false, false, false, false, false, false, f.fifoFull && !ptpEvent m]
    | .arp .. => [false, !d.macOk p f.dstMac true, false, false, false, false, false, false, false, f.fifoFull]
    | .other => [false, !d.macOk p f.dstMac false, false, false, false, false, true, false, false, f.fifoFull]
  let vlan := decide (1 < f.vlans.length) || !d.vlanOk p (vlanOf f)
  let ether := !([0x0800, 0x86DD, 0x0806, 0x88F7].contains f.etherType)
  ((!f.fcsOk || decide (f.len < 64)) :: (tests.set 2 vlan).set 3 ether).findIdx? (· == true)

/-- Colours of a policer (R138). -/
inductive Colour where
  | green
  | yellow
  | red
deriving DecidableEq, Repr

/-- The policer profile `i` in force (R137). -/
def Dev.profile (d : Dev) (i : Nat) : Profile :=
  { mode := d.nat .POL_MODE i, cir := d.nat .POL_CIR i, cbs := d.nat .POL_CBS i, ebs := d.nat .POL_EBS_PBS i, pir := d.nat .POL_PIR i
    action := d.nat .POL_YELLOW_ACTION i, floor := d.nat .POL_YELLOW_FLOOR i
    dscpYellow := d.nat .POL_DSCP_YELLOW i, dscpRed := d.nat .POL_DSCP_RED i }

/-- The policer profile that a packet stamped `stamp` comes under: the old values where it is stamped before the commit edge (R139, R153). -/
def Dev.profileFor (d : Dev) (i stamp : Nat) : Profile :=
  match if d.beforeEdge stamp then tfind i d.polOld else none with
  | some q => q
  | none => d.profile i

/-- The remainder that a division by 1,000,000 leaves for the next packet, and the tokens of `dt` ns at a rate in kbit/s (R138). -/
def tokens (dt rate rem : Nat) : Nat × Nat :=
  let n := dt * rate * 8192 + rem
  (n / 1000000, n % 1000000)

/-- A policer colours a packet of `len` IP bytes stamped `ts` ns (R138). -/
def Profile.police (q : Profile) (b : Bucket) (len dscp ts : Nat) : Colour × Bucket :=
  let cbs := q.cbs * 65536
  let xbs := q.ebs * 65536
  let tr := decide (2 ≤ q.mode)
  let b := if b.full then { b with tc := cbs, tx := xbs, last := ts, full := false } else b
  let c := tokens (ts - b.last) q.cir b.remC
  let x := tokens (ts - b.last) q.pir b.remP
  let b := { b with last := ts, remC := c.2, remP := if tr then x.2 else b.remP }
  let tc := b.tc + c.1
  let (tc, tx) := if tr then (min tc cbs, min (b.tx + x.1) xbs)
    else if cbs < tc then (cbs, min (b.tx + tc - cbs) xbs) else (tc, b.tx)
  let need := len * 65536
  let aware := decide (q.mode % 2 = 1)
  let seen := if aware && bit q.dscpRed dscp then Colour.red
    else if aware && bit q.dscpYellow dscp then .yellow else .green
  if tr then
    if seen = .red ∨ tx < need then (.red, { b with tc := tc, tx := tx })
    else if seen = .yellow ∨ tc < need then (.yellow, { b with tc := tc, tx := tx - need })
    else (.green, { b with tc := tc - need, tx := tx - need })
  else if seen = .green ∧ need ≤ tc then (.green, { b with tc := tc - need, tx := tx })
  else if seen ≠ .red ∧ need ≤ tx then (.yellow, { b with tc := tc, tx := tx - need })
  else (.red, { b with tc := tc, tx := tx })

/-- Is a packet of a colour accepted under a profile (R137, R139)? -/
def Dev.accepts (d : Dev) (q : Profile) : Colour → Bool
  | .green => true
  | .yellow => match q.action with
    | 0 => true
    | 1 => false
    | _ => decide (q.floor * d.nat .POOL_BUFFERS 1 < d.poolFree 1 * 100)
  | .red => false

/-- Tokens above new burst sizes are cut to them, and others are kept: a bucket that was full holds what `old` gave it (R139). -/
def Dev.cutBucket (d : Dev) (i : Nat) (old : Profile) (b : Bucket) : Bucket :=
  let b := if b.full then
    { b with tc := old.cbs * 65536, tx := old.ebs * 65536, last := d.now d.stb / 65536, full := false } else b
  { b with tc := min b.tc (d.nat .POL_CBS i * 65536), tx := min b.tx (d.nat .POL_EBS_PBS i * 65536) }

/-- A commit has changed policer profile `i` from `old`: it is kept for the packets stamped before this edge, and every bucket under
it is cut (R139). -/
def Dev.cutBuckets (d : Dev) (i : Nat) (old : Profile) : Dev :=
  let d := { d with polOld := tset i old d.polOld }
  let d := (d.rx.map (·.1)).foldl (fun d n =>
    if d.nat .LEG_POLICER n = i then d.setRx n { d.rxOf n with bucket := d.cutBucket i old (d.rxOf n).bucket } else d) d
  let cut := fun (x : Nat × Bucket) => if d.nat .ADDR_POLICER x.1 = i then (x.1, d.cutBucket i old x.2) else x
  let d := { d with addrBuckets := d.addrBuckets.map cut }
  (List.range 4).foldl (fun d p =>
    if d.nat .PORT_SYS_POLICER p = i then d.setPort p { d.portOf p with bucket := d.cutBucket i old (d.portOf p).bucket } else d) d

/-- Does a packet of port `p`'s system traffic, with its IP length, DSCP and stamp, pass its policer (R121, R128)? -/
def Dev.sysPoliced (d : Dev) (p len dscp stamp : Nat) : Bool × Dev :=
  let i := d.nat .PORT_SYS_POLICER p
  if 32 ≤ i then (true, d) else
    let q := d.profileFor i stamp
    let r := q.police (d.portOf p).bucket len dscp (stamp / 65536)
    (d.accepts q r.1, d.setPort p { d.portOf p with bucket := r.2 })

/-- Does the device answer ARP or ND for this address on port `p` and VLAN `v` (R128)? -/
def Dev.answersFor (d : Dev) (p v : Nat) (ip : Octets) : Bool :=
  (d.entriesAt p v).any (fun i => d.bytes .ADDR_IP i == ip && bit (d.nat .ADDR_FLAGS i) 0) || d.isMgmt p v ip

/-- The station address that a port sends with: in a pair mode that of the pair's lower port (R123). -/
def Dev.stationMac (d : Dev) (p : Nat) : Octets := d.bytes .PORT_MAC (if d.pairMode (p / 2) then p / 2 * 2 else p)

/-- Answers an ARP request from `mac` and `sender` (R128). -/
def Dev.arpRx (d : Dev) (p v stamp : Nat) (request : Bool) (target mac sender : Octets) : Dev :=
  let ip := if target.length = 4 then List.replicate 10 0 ++ [0xFF, 0xFF] ++ target else target
  if request && d.answersFor p v ip then
    let r := d.sysPoliced p 28 0 stamp
    if r.1 then r.2.sysEnqueue p 2 (.arpReply v { target := ip, mac := d.stationMac p, toMac := mac, toIp := sender }) else r.2
  else d

/-- The link-local all-nodes group, and its MAC address. -/
def allNodes : Octets × Octets := ([0xFF, 2] ++ List.replicate 13 0 ++ [1], [0x33, 0x33, 0, 0, 0, 1])

/-- Answers a Neighbor Solicitation in packet `x` from `mac` (R128): S is clear, and the advertisement goes to all nodes, where the
solicitation's source is the unspecified address. -/
def Dev.nsRx (d : Dev) (p v stamp : Nat) (mac : Octets) (x : IpPkt) (target : Octets) : Dev :=
  if d.answersFor p v target then
    let r := d.sysPoliced p x.ipLen x.dscp stamp
    let all := x.nsUnspecified
    if r.1 then r.2.sysEnqueue p 2 (.naReply v {
      target := target, solicited := !all, override := true, linkLayer := d.stationMac p
      toMac := if all then allNodes.2 else mac, toIp := if all then allNodes.1 else x.src }) else r.2
  else d

/-- Where a UDP packet comes from, as the stages carry it: port, ingress stamp in 2^-16 ns, and the packet. -/
structure Arrival where
  port : Nat
  stamp : Nat
  pkt : IpPkt
deriving DecidableEq, Repr

/-- A packet is punted for a reason (R98). -/
def Dev.puntPkt (d : Dev) (a : Arrival) (leg reason : Nat) : Dev :=
  d.punt { leg := leg, port := a.port, reason := reason, stamp := a.stamp, src := a.pkt.src, dst := a.pkt.dst
           sport := a.pkt.sport, dport := a.pkt.dport, data := a.pkt.bytes }

/-- A packet that finds no leg (R129). -/
def Dev.noLeg (d : Dev) (a : Arrival) (entry : Option Nat) : Dev :=
  match entry with
  | none => d.bump .PORT_DROP a.port 9
  | some i =>
    if !bit (d.nat .ADDR_FLAGS i) 1 then d.bump .PORT_DROP a.port 9 else
      let pol := d.nat .ADDR_POLICER i
      if 32 ≤ pol then d.puntPkt a 0xFFFF 3 else
        let q := d.profileFor pol a.stamp
        let r := q.police (tget {} i d.addrBuckets) a.pkt.ipLen a.pkt.dscp (a.stamp / 65536)
        let d := { d with addrBuckets := tset i r.2 d.addrBuckets }
        if d.accepts q r.1 then d.puntPkt a 0xFFFF 3 else d.bump .PORT_DROP a.port 9

/-- Polices a packet of leg `n` (R138, R139). -/
def Dev.legPoliced (d : Dev) (n : Nat) (a : Arrival) : Bool × Dev :=
  let i := d.nat .LEG_POLICER n
  if 32 ≤ i then (true, d) else
    let q := d.profileFor i a.stamp
    let r := q.police (d.rxOf n).bucket a.pkt.ipLen a.pkt.dscp (a.stamp / 65536)
    let d := d.setRx n { d.rxOf n with bucket := r.2 }
    if d.accepts q r.1 then (true, d)
    else (false, d.bump (if r.1 = .red then .POLICED_RED else .POLICED_YELLOW) n)

/-- Does a Binding request pass the checks of R135? -/
def Dev.stunOk (d : Dev) (n : Nat) (m : StunMsg) : Bool :=
  let name := d.bytes .LEG_ICE_UFRAG n ++ [0x3A]
  let pwd := d.bytes .LEG_ICE_PWD n
  let proof := match m.key256 with
    | some k => k == pwd
    | none => m.key1 == some pwd
  (m.user.take name.length == name) && proof && m.fingerprint && m.priority

/-- A nomination is answered (R136). -/
def Dev.nominate (d : Dev) (n : Nat) (ip : Octets) (port : Nat) : Dev :=
  let d := d.put .LEG_ICE_NOMINATED n 0 (.bytes (ip ++ natToOctets 2 port))
  let d := if d.nat .LEG_ICE_MODE n = 2 then d.setRx n { d.rxOf n with nominated := some (ip, port) } else d
  d.logRec { level := 3, cls := .corrected, action := .none, unit := 0x4000, code := 0x0F01, leg := n
             detail := Config.detail 0x0F01 (port :: ip) }

/-- A STUN message for leg `n` (R134 to R136). -/
def Dev.stunRx (d : Dev) (n : Nat) (a : Arrival) (m : StunMsg) : Dev :=
  if d.nat .LEG_ICE_MODE n = 0 then d.puntPkt a n 2
  else if m.binding && m.indication then d
  else if !(m.binding && m.request) then d.puntPkt a n 2
  else if !d.stunOk n m then d.bump .AUTH_FAILS n
  else
    let x := a.pkt
    let status := if m.controlled then 487 else if m.unknown ≠ [] then 420 else 200
    let answer : StunTx := {
      status := status, txid := m.txid, toIp := x.src, toPort := x.sport
      mapped := if status = 200 then some (x.src, x.sport) else none
      unknown := if status = 420 then m.unknown else [], sha256 := m.key256.isSome, key := d.bytes .LEG_ICE_PWD n }
    let d := (d.enqueue n .control { stun := some answer }).bump .STUN_ANSWERED n
    if m.useCandidate then d.nominate n x.src x.sport else d

/-- The adoption of a nomination at an edge (R136). -/
def Dev.adoptNominations (d : Dev) : Dev :=
  (d.rx.filterMap fun kv => kv.2.nominated.map fun x => (kv.1, x)).foldl (fun d x =>
    let d := (d.put .LEG_REMOTE_IP x.1 0 (.bytes x.2.1)).setN .LEG_REMOTE_PORT x.1 x.2.2
    d.setRx x.1 { d.rxOf x.1 with nominated := none }) d

/-- Is an index behind the window or marked in it (R142)? -/
def Window.refuses (w : Window) (i : Nat) : Bool :=
  decide (w.mask ≠ 0) && (decide (i + 127 < w.high) || (decide (i ≤ w.high) && bit w.mask (w.high - i)))

/-- Marks an index in the window (R142). -/
def Window.mark (w : Window) (i : Nat) : Window :=
  if w.mask = 0 then { high := i, mask := 1 }
  else if w.high < i then { high := i, mask := if 128 ≤ i - w.high then 1 else (w.mask * 2 ^ (i - w.high) + 1) % 2 ^ 128 }
  else { w with mask := withBit w.mask (w.high - i) true }

/-- The SRTP index of a sequence number by a window (R142): of rollover counter 0 where nothing has been accepted. -/
def Window.index (w : Window) (seq : Nat) : Nat := if w.mask = 0 then seq else srtpIndex w.high seq

/-- The slot of an SSRC, or the one a new SSRC takes (R141), with what it holds. -/
def Dev.slotFor (d : Dev) (n ssrc : Nat) : Option (Nat × SsrcSlot) :=
  let slots := (d.rxOf n).slots
  match slots.find? fun x => x.2.ssrc = ssrc with
  | some x => some x
  | none =>
    match (List.range 8).find? fun i => !thas i slots with
    | some i => some (i, { ssrc := ssrc })
    | none =>
      (minBy? (fun x => x.2.last) (slots.filter fun x => decide (x.2.last + 18000 ≤ d.stride))).map fun x =>
        (x.1, { ssrc := ssrc })

/-- The receive key of leg `n` for a packet stamped `stamp`: the old one where it is stamped before the edge of REKEY_DONE (R144, R153). -/
def Dev.rxKeyFor (d : Dev) (n stamp : Nat) : Option Octets :=
  let k := d.keysOf n
  match if d.beforeEdge stamp then k.rxOld else none with
  | some old => some old
  | none => k.rx

/-- The index at which the highest accepted index of a window is a key event (R143). -/
def keyLimit (srtcp : Bool) : Nat := if srtcp then 2 ^ 31 - 2 ^ 16 else 2 ^ 48 - 2 ^ 16

/-- Stage 9 and 10 for index `x` of slot `i` of leg `n` (R141 to R144): does the packet authenticate? `roc` is the rollover counter that an
SRTP packet's tag covers. -/
def Dev.authenticate (d : Dev) (n i : Nat) (s : SsrcSlot) (roc : Option Nat) (x stamp : Nat) (key : Octets) : Bool × Dev :=
  let srtcp := roc.isNone
  let w := if srtcp then s.rtcp else s.rtp
  if w.refuses x then (false, d.bump .REPLAYS n)
  else if !d.verifies n srtcp (d.rxKeyFor n stamp) key || roc.any (· ≠ x / 65536) then (false, d.bump .AUTH_FAILS n)
  else
    let w := w.mark x
    let s := if srtcp then { s with rtcp := w, last := d.stride } else { s with rtp := w, last := d.stride }
    let r := d.rxOf n
    let d := d.setRx n { r with slots := tset i s r.slots }
    let d := d.setLife n { d.lifeOf n with silentFrom := d.stride }
    (true, if keyLimit srtcp ≤ w.high then d.keyEvent n s.ssrc true srtcp else d)

/-- The receive entry of leg `n` for a payload type (R132, R134). -/
def Dev.rxEntry (d : Dev) (n pt : Nat) : Option Nat :=
  (List.range 8).find? fun k => d.bitOf .LEG_RX_PT n k 31 && decide (d.fld .LEG_RX_PT n k 6 0 = pt)

/-- The RTP clock of receive entry `k` of leg `n`: its codec's for audio, and 90 kHz for the rest. -/
def Dev.entryClock (d : Dev) (n k : Nat) : Nat :=
  if d.fld .LEG_RX_PT n k 10 8 = 1 then codecClock (d.nat .LEG_RX_CODEC n (d.fld .LEG_RX_PT n k 17 16)) else 90000

/-- One authenticated RTP packet in the counts of its slot (R163; RFC 3550), of index `x`, that came in at `arrival` in units of the RTP
clock. -/
def RxCount.count_ (c : RxCount) (x ts : Nat) (arrival : Option Nat) : RxCount :=
  let c := { c with first := some (c.first.getD x), count := c.count + 1 }
  match arrival with
  | none => c
  | some a =>
    let transit := ofWord 32 (toWord 32 ((a : Int) - ts))
    { c with
      transit := some transit
      jitter16 := match c.transit with
        | some t => c.jitter16 + (ofWord 32 (toWord 32 (transit - t))).natAbs - (c.jitter16 + 8) / 16
        | none => c.jitter16 }

/-- What an authenticated RTP packet leaves for the reports about its SSRC (R163). -/
def Dev.noteHeard (d : Dev) (n i x stamp : Nat) (p : RtpPkt) : Dev :=
  let r := d.rxOf n
  let arrival := (d.rxEntry n p.pt).map fun k => stamp / 65536 * d.entryClock n k / 1000000000 % 2 ^ 32
  let s := tget {} i r.slots
  d.setRx n { r with
    slots := tset i { s with stats := s.stats.count_ x p.ts arrival } r.slots
    heard := if d.nat .LEG_FB_MODE n = 0 then r.heard else r.heard ++ [{ ssrc := p.ssrc, seq := p.seq, twcc := p.twcc, stamp := stamp }] }

/-- An audio packet of codec slot `slot` reaches the jitter buffer of its stream (R145, R146, R177). One for an empty slot, or beyond the
limits of its codec, is dropped. -/
def Dev.audioRx (d : Dev) (n slot stamp : Nat) (p : RtpPkt) : Dev :=
  let w := d.nat .LEG_RX_CODEC n slot
  if bits w 3 0 = 0 ∨ !payloadOk w p.payload then d.bump .NOT_ACTIVE n else
    let r := { d.rxOf n with voice := p.ssrc }
    let clock := codecClock w
    let x := ({ r.jb with clock := clock } : Jitter).receive (d.nat .LEG_JB_MIN n) (d.nat .LEG_JB_MAX n)
      (stamp / 65536 * clock / 1000000000 % 2 ^ 32)
      { ts := p.ts, duration := payloadDuration w p.payload, slot := slot, payload := p.payload, buf := d.pool.current }
    let d := d.setRx n (r.setJb x.2)
    match x.1 with
    | some o => d.bump o n
    | none => d

/-- The re-anchoring of leg `n`'s buffers at an edge (R146). -/
def Dev.reanchor (d : Dev) (n : Nat) : Dev :=
  let r := d.rxOf n
  if r.jbs.any fun j => j.2.reanchor.isSome then d.setRx n { r with jbs := r.jbs.map fun j => (j.1, j.2.reanchored) } else d

/-- The decode slots of leg `n` that take the stream of receive entry `k` (R215). -/
def Dev.decodersOf (d : Dev) (n k : Nat) : List Nat :=
  (List.range 2).filter fun s => d.decOn n s && decide (d.fld .DEC_CTRL n s 23 20 = k)

/-- The strides that a video packet of receive entry `k` stays held (R148). -/
def Dev.holdOf (d : Dev) (n k : Nat) : Nat := if d.decodersOf n k = [] then 300 else d.nat .LEG_VIDEO_HOLD n

/-- Does decode slot `s` decode the layer of this packet (R215, R218, R231): one at or below SPATIAL, or SPATIAL alone where spatial layers
are independent, and at or below TEMPORAL? -/
def Dev.decWants (d : Dev) (n s : Nat) (v : VideoInfo) : Bool :=
  let sp := d.fld .DEC_CTRL n s 11 8
  let t := d.fld .DEC_CTRL n s 7 4
  (if d.bitOf .DEC_CTRL n s 12 then decide (v.s = sp) else decide (v.s ≤ sp)) && (decide (7 ≤ t) || decide (v.t ≤ t))

/-- Is a gathered frame complete: begun, marked, and without a gap between (R147)? It holds every layer, wanted or not. -/
def HeldFrame.complete (f : HeldFrame) : Bool :=
  match f.begins, f.marker with
  | some a, some b => decide (a ≤ b) && decide (f.parts.length = b - a + 1) && f.parts.all fun x => decide (a ≤ x.index ∧ x.index ≤ b)
  | _, _ => false

/-- A packet enters a frame (R147). The frame begins with the first packet of its lowest layer. -/
def HeldFrame.add (f : HeldFrame) (x : FramePart) (v : VideoInfo) (marker : Bool) : HeldFrame :=
  if f.parts.any fun y => decide (y.index = x.index) then f else
    { f with
      parts := sortAsc (·.index) (f.parts ++ [x])
      begins := if v.frameStart ∧ v.s = 0 then some (min x.index (f.begins.getD x.index)) else f.begins
      marker := if marker then some x.index else f.marker
      bufs := f.bufs ++ x.buf.toList }

/-- The video hold releases a frame (R147): the decoder takes the packets of the layers that it decodes. -/
def Dev.releaseFrame (d : Dev) (n : Nat) (f : HeldFrame) : Dev :=
  let r := d.rxOf n
  let gone := r.released ++ [(f.slot, (f.ssrc, f.ts))]
  let d := d.setRx n { r with
    hold := r.hold.filter fun x => decide (¬(x.slot = f.slot ∧ x.ssrc = f.ssrc ∧ x.ts = f.ts))
    released := gone.drop (gone.length - 64) }
  let parts := f.parts.filter fun x => x.wanted && !d.contentLost x.buf
  let complete := f.complete && !f.parts.any (d.contentLost ·.buf)
  if parts = [] then d else d.decWaits n f.slot { ts := f.ts, complete := complete, parts := parts, bufs := f.bufs }

/-- A video packet enters the hold for decode slot `s` (R147). -/
def Dev.gather (d : Dev) (n s index : Nat) (p : RtpPkt) : Dev :=
  let r := d.rxOf n
  if r.released.contains (s, (p.ssrc, p.ts)) then d else
    let mine := fun (x : HeldFrame) => decide (x.slot = s ∧ x.ssrc = p.ssrc ∧ x.ts = p.ts)
    let v := p.video
    let x : FramePart := {
      index := index, layer := v.s, wanted := d.decWants n s v, number := v.frameNumber, seq := v.seq, head := v.head
      payload := p.payload, len := p.len, buf := d.pool.current }
    let f := ((r.hold.find? mine).getD { ssrc := p.ssrc, ts := p.ts, slot := s, first := d.stride }).add x v p.marker
    if f.complete then d.releaseFrame n f
    else d.setRx n { r with hold := if r.hold.any mine then r.hold.map fun x => if mine x then f else x else r.hold ++ [f] }

/-- LEG_VIDEO_HOLD strides have passed since a frame's first packet (R147). -/
def Dev.holdExpiry (d : Dev) (n ssrc ts : Nat) : Dev :=
  ((d.rxOf n).hold.filter fun f => decide (f.ssrc = ssrc ∧ f.ts = ts)).foldl (fun d f => d.releaseFrame n f) d

/-- A gap is given up: the decode slots of its stream ask for a keyframe (R150, R225). -/
def Dev.gapLost (d : Dev) (n ssrc : Nat) : Dev :=
  ((List.range 8).filter fun k => decide (tfind k (d.rxOf n).lastOf = some ssrc)).foldl (fun d k =>
    (d.decodersOf n k).foldl (fun d s => d.decRequest n s) d) d

/-- The gap that index `i` of an SSRC opens or closes (R150). -/
def Dev.noteGap (d : Dev) (n ssrc i : Nat) : Dev :=
  let r := d.rxOf n
  match tfind ssrc r.vhigh with
  | none => d.setRx n { r with vhigh := tset ssrc i r.vhigh }
  | some h =>
    if i ≤ h then d.setRx n { r with gaps := r.gaps.filter fun g => decide (¬(g.ssrc = ssrc ∧ g.seq = i)) }
    else
      let lost := i - h - 1
      let r := { r with vhigh := tset ssrc i r.vhigh }
      if 256 < lost then (d.setRx n r).gapLost n ssrc
      else d.setRx n { r with
        gaps := r.gaps ++ (List.range lost).map fun j => { ssrc := ssrc, seq := h + 1 + j, seen := d.stride } }

/-- A video packet as stage 12 has it, original, unwrapped or rebuilt: toward the gaps, forwarding and the hold. -/
def Dev.videoRx (d : Dev) (n k index len stamp : Nat) (p : RtpPkt) : Dev :=
  let r := d.rxOf n
  let keep := max 300 (d.nat .LEG_VIDEO_HOLD n)
  let held := (r.held.filter fun x => decide (d.stride ≤ x.stride + keep)) ++
    [{ ssrc := p.ssrc, index := index, stride := d.stride, buf := d.pool.current }]
  let d := d.setRx n { r with held := held, lastOf := tset k p.ssrc r.lastOf }
  let d := (d.noteGap n p.ssrc index).forwardPacket n k index len stamp p
  ((d.decodersOf n k).filter fun s => decide (d.ridStream n p = some (d.fld .DEC_CTRL n s 19 16))).foldl
    (fun d s => d.gather n s index p) d

/-- Step 3 of R142 for a packet rebuilt on SSRC `ssrc`: its index, or none where it is already marked. The window may reach a key event
(R143). -/
def Dev.markRebuilt (d : Dev) (n ssrc seq : Nat) : Option Nat × Dev :=
  let r := d.rxOf n
  match r.slots.find? fun x => x.2.ssrc = ssrc with
  | none => (none, d)
  | some (i, s) =>
    let x := s.rtp.index seq
    if s.rtp.refuses x then (none, d.bump .REPLAYS n)
    else
      let w := s.rtp.mark x
      let d := d.setRx n { r with slots := tset i { s with rtp := w } r.slots }
      (some x, if keyLimit false ≤ w.high then d.keyEvent n ssrc true false else d)

/-- An RTX packet (R149). -/
def Dev.rtxRx (d : Dev) (n k len stamp : Nat) (p : RtpPkt) : Dev :=
  let target := d.fld .LEG_RX_PT n k 19 16
  match tfind target (d.rxOf n).lastOf with
  | none => d
  | some ssrc =>
    let r := d.markRebuilt n ssrc p.osn
    match r.1 with
    | none => r.2
    | some x =>
      r.2.videoRx n target x (len - 2) stamp
        { p with ssrc := ssrc, seq := p.osn, pt := d.fld .LEG_RX_PT n target 6 0, len := p.len - 2 }

/-- The one packet that a FlexFEC packet covers and nothing holds (R148): none where there is none or more than one. -/
def Dev.fecMissing (d : Dev) (n : Nat) (h : FecHeld) : Option Nat :=
  let r := d.rxOf n
  match r.slots.find? fun x => x.2.ssrc = h.info.ssrc with
  | none => none
  | some (_, s) =>
    let limit := d.holdOf n h.entry
    let isHeld := fun (q : Nat) => r.held.any fun x =>
      decide (x.ssrc = h.info.ssrc) && decide (x.index = s.rtp.index q) && decide (d.stride ≤ x.stride + limit) &&
        !d.contentLost x.buf
    match h.info.covers.filter fun q => !isHeld q with
    | [q] => some q
    | _ => none

/-- Rebuilds what the FlexFEC packets kept allow, one after another, and forgets those that have served or are too old (R148). -/
def Dev.fecRetry (d : Dev) (n stamp : Nat) : Nat → Dev
  | 0 => d
  | fuel + 1 =>
    let r := d.rxOf n
    let live := r.fecs.filter fun h => decide (d.stride ≤ h.stride + d.holdOf n h.entry)
    match live.find? fun h => (d.fecMissing n h).isSome with
    | none => if live = r.fecs then d else d.setRx n { r with fecs := live }
    | some h =>
      let f := h.info
      let q := (d.fecMissing n h).getD 0
      let d := d.setRx n { r with fecs := live.filter (· ≠ h) }
      let m := d.markRebuilt n f.ssrc q
      let d := match m.1 with
        | none => m.2
        | some x =>
          (m.2.bump .FEC_RECOVERED n).videoRx n h.entry x f.ipLen stamp
            { ssrc := f.ssrc, seq := q, ts := f.ts, pt := d.fld .LEG_RX_PT n h.entry 6 0, marker := f.marker, len := f.len
              rid := f.rid, video := f.video }
      d.fecRetry n stamp fuel

/-- A FlexFEC packet (R148). -/
def Dev.fecRx (d : Dev) (n k stamp : Nat) (p : RtpPkt) : Dev :=
  if !p.fec.flagsOk then d.bump .NOT_ACTIVE n else
    let r := d.rxOf n
    (d.setRx n { r with fecs := r.fecs ++ [{ entry := d.fld .LEG_RX_PT n k 19 16, info := p.fec, stride := d.stride }] }).fecRetry n stamp 64

/-- An RTP packet of leg `n` from stage 9 on (R134, R141 to R144). -/
def Dev.rtpRx (d : Dev) (n : Nat) (a : Arrival) (p : RtpPkt) : Dev :=
  let media := (d.lifeOf n).media
  if media < 2 ∨ 4 < media ∨ (d.keysOf n).rx.isNone then d.bump .NOT_ACTIVE n else
    match d.slotFor n p.ssrc with
    | none => d.bump .SSRC_FULL n
    | some (i, s) =>
      let x := s.rtp.index p.seq
      let r := d.authenticate n i s (some p.roc) x a.stamp p.sealKey
      if !r.1 then r.2
      else
        let d := r.2.noteHeard n i x a.stamp p
        if media ≠ 2 then d.bump .NOT_ACTIVE n
        else match d.rxEntry n p.pt with
          | none => d.bump .NOT_ACTIVE n
          | some k =>
            match d.fld .LEG_RX_PT n k 10 8 with
            | 1 => d.audioRx n (d.fld .LEG_RX_PT n k 17 16) a.stamp p
            | 2 => d.eventRx n p
            | 3 => (d.videoRx n k x a.pkt.ipLen a.stamp p).fecRetry n a.stamp 64
            | 4 => (d.rtxRx n k a.pkt.ipLen a.stamp p).fecRetry n a.stamp 64
            | 5 => d.fecRx n k a.stamp p
            | _ => d.bump .NOT_ACTIVE n

/-- A PLI, or a FIR by its number, goes to the composed encode, the spliced view or the forwarding slot of that SSRC (R152). -/
def Dev.keyframeAsked (d : Dev) (n ssrc : Nat) (fir : Option Nat) : Dev :=
  if ssrc = (d.encOf (.composed n)).ssrc then d.encAsk n fir
  else if ssrc = (d.viewOf n).ssrc then d.viewAsk n fir
  else d.fwdAsk n ssrc fir

/-- The NTP middle bits and the stamp of an SR, for the RR blocks about its SSRC (R163). -/
def Dev.noteSr (d : Dev) (n ssrc ntp stamp : Nat) : Dev :=
  let r := d.rxOf n
  d.setRx n { r with slots := r.slots.map fun x =>
    if x.2.ssrc = ssrc then (x.1, { x.2 with stats := { x.2.stats with lsr := ntp / 65536 % 2 ^ 32, lsrAt := stamp } }) else x }

/-- A report of packets received goes to the line monitor and to the spliced view (R152, R283). -/
def Dev.feedbackRx (d : Dev) (n stamp mode : Nat) (packets : List ((Nat × Nat) × Option Int)) : Dev :=
  let named := fun (got : Bool) => (packets.filter fun x => x.2.isSome == got).map (·.1)
  (d.lineFeedback n stamp mode packets).viewFeedback n (named false) (named true)

/-- One part of a received RTCP packet goes to its consumer (R152). -/
def Dev.rtcpPart (d : Dev) (n stamp : Nat) : RtcpPart → Dev
  | .sr ssrc ntp rtp => ((d.noteSr n ssrc ntp stamp).owdReceive n ntp stamp).fwdSr n ssrc ntp rtp
  | .rr ssrc fraction jitter lsr dlsr => d.lineRr n stamp ssrc fraction jitter lsr dlsr
  | .nack ssrc seqs => (d.viewNack n ssrc seqs).resend n ssrc seqs
  | .tmmbr sender ssrc bps => d.lineTmmbr n sender ssrc bps false
  | .tmmbn sender ssrc bps => d.lineTmmbr n sender ssrc bps true
  | .rfc8888 time reports => (d.owdForward n time reports).feedbackRx n stamp 1 (reports8888 time reports)
  | .transportWide base reference deltas => d.feedbackRx n stamp 2 (reportsWide (d.txOf n).records reference base 0 deltas)
  | .pli ssrc => d.keyframeAsked n ssrc none
  | .fir ssrc seq => d.keyframeAsked n ssrc (some seq)
  | .bye => d.setRx n { d.rxOf n with bye := true }
  | .other => d

/-- An RTCP packet of leg `n` from stage 9 on (R134, R141 to R144, R152). Its E flag may be set or clear (R140). -/
def Dev.rtcpRx (d : Dev) (n : Nat) (a : Arrival) (p : RtcpPkt) : Dev :=
  let media := (d.lifeOf n).media
  if media < 2 ∨ 4 < media ∨ (d.keysOf n).rx.isNone then d.bump .NOT_ACTIVE n else
    match d.slotFor n p.ssrc with
    | none => d.bump .SSRC_FULL n
    | some (i, s) =>
      let r := d.authenticate n i s none p.index a.stamp p.sealKey
      if !r.1 then r.2
      else if (d.lifeOf n).suspended then r.2.bump .NOT_ACTIVE n
      else p.parts.foldl (fun d x => d.rtcpPart n a.stamp x) r.2

/-- A packet that has found leg `n` (R130, R133, R134): remote check, class, policing, and the class's own action. -/
def Dev.legRx (d : Dev) (n : Nat) (a : Arrival) : Dev :=
  let x := a.pkt
  let d := (d.bump .RX_PACKETS n).add .RX_BYTES n 0 x.ipLen
  let stun := decide (x.first ≤ 3)
  let media := decide (128 ≤ x.first ∧ x.first ≤ 191)
  let dtls := decide (20 ≤ x.first ∧ x.first ≤ 63)
  let control := decide (192 ≤ x.second ∧ x.second ≤ 223)
  if !stun && (x.src != d.bytes .LEG_REMOTE_IP n || x.sport != d.nat .LEG_REMOTE_PORT n) then d.bump .REMOTE_MISMATCH n
  else if !stun && !media && !dtls then d.bump .NOT_ACTIVE n
  else
    let r := d.legPoliced n a
    let d := r.2
    if !r.1 then d
    else if dtls then d.puntPkt a n 1
    else match x.body with
      | .stun m => if stun then d.stunRx n a m else d.bump .NOT_ACTIVE n
      | .rtp p => if media && !control then d.rtpRx n a p else if stun then d.puntPkt a n 2 else d.bump .NOT_ACTIVE n
      | .rtcp p => if media && control then d.rtcpRx n a p else if stun then d.puntPkt a n 2 else d.bump .NOT_ACTIVE n
      | .raw => if stun then d.puntPkt a n 2 else d.bump .NOT_ACTIVE n

/-- The leg outside IDLE that uses a local entry and port (R129). -/
def Dev.legAt (d : Dev) (entry port : Nat) : Option Nat :=
  d.legs.find? fun n => decide (d.nat .LEG_LOCAL_ADDR n = entry) && decide (d.nat .LEG_LOCAL_PORT n = port)

/-- A UDP packet from stage 4 on (R129). HDP at the management address is the HDP commands' own. -/
def Dev.udpRx (d : Dev) (v : Nat) (a : Arrival) : Dev :=
  if a.pkt.dport = 47110 ∧ d.isMgmt a.port v a.pkt.dst then d else
    let entry := (d.entriesAt a.port v).find? fun i => d.bytes .ADDR_IP i == a.pkt.dst
    match entry.bind fun i => d.legAt i a.pkt.dport with
    | some n => d.legRx n a
    | none => d.noLeg a entry

/-- A frame arrives on port `p` (R120, R122). Nothing is received on a port that is off or whose link is not up. -/
def Dev.frameRx (d : Dev) (p : Nat) (f : Frame) : Dev :=
  if d.service = .boot ∨ d.nat .PORT_MODE p = 0 ∨ d.nat .PORT_LINK p ≠ 1 then d else
    let stamp := d.rxStamp p d.stb f.pcs
    let d := (d.bump .PORT_RX_FRAMES p).add .PORT_RX_BYTES p 0 f.len
    match d.dropReason p f with
    | some i => d.bump .PORT_DROP p i
    | none =>
      match f.body with
      | .arp request target sender => d.arpRx p (vlanOf f) stamp request target f.srcMac sender
      | .ptp m => d.ptpRx p m f.pcs
      | .other => d
      | .ip x =>
        match x.nsTarget with
        | some t => d.nsRx p (vlanOf f) stamp f.srcMac x t
        | none =>
          let got := d.allocKept .rxPacket 0 x.ipLen none
          if got.1 = [] then got.2.bump .PORT_DROP p 11
          else
            let d := { got.2 with pool := { got.2.pool with current := got.1.head? } }
            let d := d.udpRx (vlanOf f) { port := p, stamp := stamp, pkt := x }
            ({ d with pool := { d.pool with current := none } } : Dev).bufferSweep

/-- The NACKs of leg `n` at edge `e` (R150): gaps first requested two edges after they were seen, repeated at most twice, and given
up when older than their hold. -/
def Dev.nackEdge (d : Dev) (n e : Nat) : Dev :=
  let r := d.rxOf n
  if r.gaps = [] then d else
    let holdOf := fun (g : Gap) =>
      match (List.range 8).find? fun k => decide (tfind k r.lastOf = some g.ssrc) with
      | some k => d.holdOf n k
      | none => 300
    let dead := r.gaps.filter fun g => decide (g.seen + holdOf g < e)
    let live := r.gaps.filter fun g => decide (e ≤ g.seen + holdOf g)
    let d := (dead.map (·.ssrc)).eraseDups.foldl (fun d s => d.gapLost n s) d
    if !d.mediaActive n || !d.bitOf .LEG_NACK_MODE n 0 0 then d.setRx n { d.rxOf n with gaps := live } else
      let again := max 6 (d.rttStrides n)
      let due := fun (g : Gap) => decide (g.asked < 3) &&
        (if g.asked = 0 then decide (g.seen + 2 ≤ e) else decide (g.lastAsk + again ≤ e))
      let d := d.setRx n { d.rxOf n with
        gaps := live.map fun g => if due g then { g with asked := g.asked + 1, lastAsk := e } else g }
      let ask := live.filter due
      (ask.map (·.ssrc)).eraseDups.foldl (fun d s =>
        let l := (ask.filter fun g => decide (g.ssrc = s)).map fun g => g.seq % 65536
        (d.sendRtcp n [.nack s l]).add .NACK_SENT n 0 l.length) d

end Sys2Proof.Machine
end

