-- ==== Sys2Proof/Machine/OptBlock.lean ====
section
/-! DEFINITION. The option block (R425 to R431, R460): what its octets spell, how a copy is judged, and the writing of a new one.
The requests of RESET_CMD (R421) stand here too. -/

namespace Sys2Proof.Machine

/-- `n` octets at `at_` as a number. -/
def numAt (b : Octets) (at_ n : Nat) : Nat := Octets.toNat ((b.drop at_).take n)

/-- Octets rounded up to whole words of 4. -/
def padWord (n : Nat) : Nat := (n + 3) / 4 * 4

/-- The entries of a P-image table (R428). What does not hold a whole entry ends the table. -/
def parsePEntries : Nat → Octets → List PEntry
  | 0, _ => []
  | fuel + 1, b =>
    let len := numAt b 4 2
    if b.length < 6 ∨ b.length < padWord (6 + len) then []
    else ⟨numAt b 0 2, numAt b 2 1, (b.drop 6).take len⟩ :: parsePEntries fuel (b.drop (padWord (6 + len)))

/-- The records of a standing table (R429). What is no record ends the table. -/
def parseStanding : Nat → Octets → List Standing
  | 0, _ => []
  | fuel + 1, b =>
    if 8 ≤ b.length ∧ numAt b 0 1 = 1 then
      .conf (numAt b 2 2) (numAt b 1 1) (numAt b 4 2) :: parseStanding fuel (b.drop 8)
    else if 120 ≤ b.length ∧ numAt b 0 1 = 2 then
      .leg (numAt b 2 2) (numAt b 1 1) (numAt b 4 2) (numAt b 6 1) (numAt b 7 1) (numAt b 8 2) (numAt b 10 2)
        ((b.drop 12).take 16) (numAt b 28 4) (numAt b 32 4) (numAt b 36 1) (numAt b 37 1) ((b.drop 40).take 40)
        ((b.drop 80).take 40) :: parseStanding fuel (b.drop 120)
    else []

/-- Octets of a P-image entry in its table (R428). -/
def PEntry.size (e : PEntry) : Nat := padWord (6 + e.data.length)

/-- Octets of a standing record in its table (R429). -/
def Standing.size : Standing → Nat
  | .conf _ _ _ => 8
  | .leg _ _ _ _ _ _ _ _ _ _ _ _ _ _ => 120

/-- Do the tables lie as R427 asks: within 0x2000 to 0xAFFF, on whole words, apart? -/
def tablesOk (po pl so sl : Nat) : Bool :=
  let inside := fun (o l : Nat) => decide (l = 0) ||
    (decide (0x2000 ≤ o) && decide (o + l ≤ 0xB000) && decide (o % 4 = 0) && decide (l % 4 = 0))
  inside po pl && inside so sl && (decide (pl = 0) || decide (sl = 0) || decide (po + pl ≤ so) || decide (so + sl ≤ po))

/-- What the first 45,056 bytes of a half spell (R427, R460). -/
def parseOption (b : Octets) : OptCopy :=
  let po := numAt b 0x24 4
  let pl := numAt b 0x28 4
  let so := numAt b 0x4C 4
  let sl := numAt b 0x50 4
  let ptable := (b.drop po).take pl
  let stable := (b.drop so).take sl
  let key := (b.drop 0x1010).take 1312
  let digestOf := fun (l : Nat) (t stated : Octets) => decide (l = 0) || decide (sha3_256 t = stated)
  { answered := true
    magic := numAt b 0 4
    format := numAt b 4 2
    sequence := numAt b 8 4
    serial := numAt b 12 4
    releaseGap := numAt b 0x10 2
    warmup := numAt b 0x12 1
    ranks := numAt b 0x13 1
    shares := (b.drop 0x1C).take 6
    keyMagic := numAt b 0x1000 4
    keyFormat := numAt b 0x1004 2
    ownerSlot := numAt b 0x1006 1
    keyDigest := sha3_256 key
    signatureOk := Config.optionVerify key (b.take 0x68C) ((b.drop 0x68C).take 2420)
    boundsOk := tablesOk po pl so sl
    digestOk := digestOf pl ptable ((b.drop 0x2C).take 32) && digestOf sl stable ((b.drop 0x54).take 32)
    digest := sha3_256 (b.take 4096)
    ptable := parsePEntries pl ptable
    stable := parseStanding sl stable }

/-- Is the key record of a copy accepted (R460)? -/
def Dev.ownerOk (d : Dev) (c : OptCopy) : Bool :=
  decide (c.keyMagic = 0x4C4E4B52) && decide (c.keyFormat = 1) &&
    (decide (d.nat .OWNER_STATE % 16 = 0) ||
      (decide (c.ownerSlot < 4) && d.bitOf .OWNER_STATE 0 0 c.ownerSlot && !d.bitOf .OWNER_STATE 0 0 (4 + c.ownerSlot) &&
        decide (c.keyDigest = d.bytes .OWNER_DIGEST 0 c.ownerSlot)))

/-- How a copy is judged: the first check that fails, in the order of the OPT_STATUS result values (R426, R441). -/
def Dev.optResult (d : Dev) (c : OptCopy) : Nat :=
  if !c.answered then 2
  else if c.magic ≠ 0x4C4E4F42 ∨ c.format ≠ 1 ∨ c.sequence = 0 ∨ 0xFFFFFFFE < c.sequence then 3
  else if c.serial ≠ 0 ∧ c.serial ≠ d.nat .SERIAL then 4
  else if !d.ownerOk c then 5
  else if !c.signatureOk then 6
  else if !c.boundsOk then 7
  else if !c.digestOk then 8
  else 1

/-- A write of OPT_IMAGE (R431): the half not booted is erased first; with no copy booted, A and then B. -/
def Dev.writeOption (d : Dev) (c : OptCopy) : Res := do
  let booted := d.nat .OPT_COPY
  d.need (decide (d.optResult c = 1)) .range
  d.need (decide (booted = 0xFF) || decide (d.nat .OPT_SEQUENCE < c.sequence)) .range
  d.need (!(decide (1 ≤ d.nat .OPT_WRITE_STATE) && decide (d.nat .OPT_WRITE_STATE ≤ 3))) .deviceState
  let half := if booted = 0xFF then d.rst.writeHalf else 1 - booted
  let gone : Half := { touched := true }
  let d := { d with rst := { d.rst with
    writing := some c, writeHalf := if booted = 0xFF then 1 - half else half
    halfA := if half = 0 then gone else d.rst.halfA, halfB := if half = 0 then d.rst.halfB else gone } }
  .ok ((d.setN .OPT_WRITE_STATE 0 1).emit (.flash half))

/-- The half that a write in hand programs. -/
def Dev.optHalf (d : Dev) : Nat := if d.nat .OPT_COPY = 0xFF then 1 - d.rst.writeHalf else d.rst.writeHalf

/-- The erase of the half completes (R431). -/
def Dev.optErased (d : Dev) : Dev := if d.nat .OPT_WRITE_STATE = 1 then d.setN .OPT_WRITE_STATE 0 2 else d

/-- Programming and read-back end (R431): done, or the half holds a copy that fails. -/
def Dev.optWritten (d : Dev) (ok : Bool) : Dev :=
  match d.rst.writing with
  | none => d
  | some c =>
    if d.nat .OPT_WRITE_STATE ≠ 2 then d
    else
      let half := d.optHalf
      let x : Half := if ok then { touched := true, img := some c } else {}
      let d := { d with rst := { d.rst with
        writing := none, halfA := if half = 0 then x else d.rst.halfA, halfB := if half = 0 then d.rst.halfB else x } }
      if ok then
        (d.setN .OPT_WRITE_STATE 0 4).logRec
          { level := 3, cls := .corrected, action := .none, unit := 0, code := 0x0C09
            detail := Config.detail 0x0C09 [half, c.sequence] }
      else
        (d.setN .OPT_WRITE_STATE 0 5).logRec
          { level := 3, cls := .degraded, unit := 0, code := 0x0C03
            detail := Config.detail 0x0C03 [half, 0] }

/-- A half as the reader finds it: what the device last left there, or what the flash brought (R425, R431). An erased or partly programmed
half fails its first check. -/
def Half.found (h : Half) (c : OptCopy) : OptCopy :=
  if !h.touched then c
  else match h.img with
    | some i => { i with answered := c.answered }
    | none => { c with magic := 0xFFFFFFFF }

/-- A write of RESET_CMD (R421): performed at the second edge after acceptance. -/
def Dev.writeReset (d : Dev) (src : Src) (v : Nat) : Res := do
  d.need (decide (v = 1) || decide (v = 2) || (decide (0x10 ≤ v) && decide (v ≤ 0x13))) .range
  d.need (decide (v = 2) || decide (d.service ≠ .minimum)) .deviceState
  let ask : ResetAsk := if v = 1 then .warm else if v = 2 then .cold else .region (v - 0x10)
  d.need (decide (v < 0x10) || (decide (d.service = .full) && decide (d.nat .RGN_STATE (v - 0x10) ≠ 2))) .deviceState
  .ok { d with rst := { d.rst with asks := d.rst.asks ++ [(2, (ask, decide (src = .can)))] } }

end Sys2Proof.Machine
end

