-- ==== Sys2Proof/Machine/Relations.lean ====
section
/-! DEFINITION. What a written value must satisfy beyond its type and numeric range: the forms that an object's own table states
(R496), and the relations between objects (R33, R497), each with the objects it names. -/

namespace Sys2Proof.Machine

/-- What a check sees in force: the value of every object. -/
abbrev Look := Obj → Nat → Nat → Val

/-- The number an object shows. -/
def Look.int (l : Look) (o : Obj) (u : Nat := 0) (k : Nat := 0) : Int := (l o u k).toInt

/-- The unsigned number an object shows. -/
def Look.nat (l : Look) (o : Obj) (u : Nat := 0) (k : Nat := 0) : Nat := (l o u k).toInt.toNat

/-- Bits `hi` to `lo` of the number an object shows. -/
def Look.fld (l : Look) (o : Obj) (u k hi lo : Nat) : Nat := l.nat o u k / 2 ^ lo % 2 ^ (hi + 1 - lo)

/-- Is bit 31, the ENABLE or VALID of a control word, set? -/
def Look.on (l : Look) (o : Obj) (u : Nat := 0) (k : Nat := 0) : Bool := bit (l.nat o u k) 31

/-- A slot source value (R263); FOLLOW is a VIEW_SLOT value only. -/
def slotSource (v : Nat) (follow : Bool) : Bool :=
  decide (v ≤ 4095) || (decide (0xF000 ≤ v) && decide (v ≤ 0xF01F)) || decide (v = 0xFFFF) || (follow && decide (v = 0xFFFE))

/-- The fields of LEG_RX_CODEC (R178). -/
def rxCodecOk (v : Nat) : Bool :=
  let c := v % 16
  decide (c ≤ 5) && (decide (c = 5) || decide (v / 256 % 16 = 0)) && decide (v / 256 % 8 ≤ 6)

/-- The fields of LEG_TX_CODEC, with the send frames of the Audio codecs table (R177, R178). -/
def txCodecOk (v : Nat) : Bool :=
  let c := v % 16
  let frame := v / 2 ^ 11 % 8
  let rate := v / 256 % 8
  let frameOk := match c with
    | 0 => decide (frame ≤ 5)
    | 4 => [0, 1, 2, 4, 5].contains frame
    | _ => [1, 2, 3, 4].contains frame
  decide (c ≤ 5) && frameOk && (if c = 5 then decide (rate ≤ 6) else decide (rate = 0)) &&
    (decide (c = 4) || decide (c = 5) || !bit v 7) &&
    (decide (c ≠ 4) || (decide (6 ≤ v / 2 ^ 20 % 512) && decide (v / 2 ^ 20 % 512 ≤ 510) && decide (v / 2 ^ 14 % 8 ≤ 4)))

/-- The fields of a composed encode's word while ENABLE is set (R234, R236). -/
def encFieldsOk (v : Nat) : Bool :=
  let codec := v / 2 ^ 28 % 8
  let cls := v / 2 ^ 23 % 8
  let fps := v / 2 ^ 20 % 8
  !bit v 31 || (decide (1 ≤ codec) && decide (codec ≤ 3) && decide (v / 2 ^ 26 % 4 ≤ (if codec = 1 then 2 else 1)) &&
    decide (cls ≤ 5) && decide (fps ≤ 4) && (decide (cls ≠ 0) || decide (2 ≤ fps)))

/-- The fields of a tile encode's word while ENABLE is set (R236). -/
def tileFieldsOk (v : Nat) : Bool :=
  let codec := v / 2 ^ 28 % 8
  let kbps := v % 2 ^ 20
  !bit v 31 || (decide (2 ≤ codec) && decide (codec ≤ 3) && decide (v / 2 ^ 24 % 4 ≤ 2) && decide (v / 2 ^ 21 % 8 ≤ 4) &&
    decide (64 ≤ kbps) && decide (kbps ≤ 1000000))

/-- The fields of LAYOUT_SPLICE (R261, R262): the grid, its codec, and the strip's rate in G9. -/
def spliceFieldsOk (v : Nat) : Bool :=
  let grid := v / 2 ^ 28 % 16
  let codec := v / 2 ^ 26 % 4
  let strip := v % 2 ^ 19
  decide (v / 2 ^ 23 % 4 ≤ 2) && decide (v / 2 ^ 20 % 8 ≤ 4) &&
    (decide (grid = 0) || (decide (grid ≤ 7) && (decide (codec = 2) || (decide (codec = 3) && [1, 5, 6, 7].contains grid)) &&
      (decide (grid ≠ 3) || (decide (64 ≤ strip) && decide (strip ≤ 100000)))))

/-- The header of an image: width, height, alpha, 10-bit (R271). -/
def imageHeader (b : Octets) : Nat × Nat × Bool × Bool :=
  let w := fun (i : Nat) => b.getD i 0 * 256 + b.getD (i + 1) 0
  (w 0, w 2, bit (w 4) 0, bit (w 4) 1)

/-- Is an image's length that of its header (R271)? -/
def imageOk (b : Octets) : Bool :=
  let (w, h, alpha, deep) := imageHeader b
  let bytes := if deep then 2 else 1
  decide (8 ≤ b.length) && decide (w % 2 = 0) && decide (h % 2 = 0) && decide (w ≤ 1920) && decide (h ≤ 1088) &&
    decide (b.length = 8 + w * h * bytes * 3 / 2 + if alpha then w * h else 0)

/-- The 16-bit fields of a 64-bit word, most significant first. -/
def quads (v : Nat) : List Nat := [v / 2 ^ 48 % 65536, v / 2 ^ 32 % 65536, v / 2 ^ 16 % 65536, v % 65536]

/-- Refuses with RANGE where a form is broken. -/
def formRange (c : Bool) : Except Abort Unit := if c then .ok () else .error .range

/-- The form of a number (R496). -/
def Key.formNum (k : Key) (v : Nat) : Except Abort Unit :=
  match k.o with
  | .RPDO_TYPE => if v = 254 ∨ v = 255 then .ok () else .error .paramIncompatible
  | .TPDO_TYPE => if v = 254 ∨ v = 255 then .ok () else .error .paramIncompatible
  | .SLOT_SRC => formRange (slotSource v false)
  | .VIEW_SLOT => formRange (slotSource v true)
  | .LAYER_SRC =>
    formRange (match v / 2 ^ 28 with
      | 1 => decide (v % 65536 ≤ 4095)
      | 3 => decide (v % 65536 ≤ 15)
      | kind => decide (kind ≤ 4))
  | .LAYER_CROP => formRange ((quads v).all fun x => decide (x ≤ 4096))
  | .LAYER_DEST => formRange ((quads v).all fun x => decide (x % 2 = 0))
  | .LAYER_IND => formRange (decide (v / 16 % 4 ≤ 2) && decide (v / 65536 ≤ 4095))
  | .FWD_SLOT => formRange (slotSource (v / 65536) false && decide (v / 4096 % 16 ≤ 2) && decide (v / 256 % 16 ≤ 2))
  | .FWD_SRC_CTRL => formRange (decide (v / 2 ^ 18 % 4 ≠ 0) && decide (v / 2 ^ 20 % 16 ≤ 7))
  | .SLOT_PARENT => formRange (decide (v < max 1 k.u))
  | .SLOT_USE => formRange (decide (v % 4 ≠ 3))
  | .SC_KEY_SLOT => if v = 0 then .error .range else if 7 < v then .error .tooHigh else .ok ()
  | .LEG_RX_PT => formRange (!bit v 31 || (decide (1 ≤ v / 256 % 8) && decide (v / 256 % 8 ≤ 5)))
  | .LEG_RX_CODEC => formRange (rxCodecOk v)
  | .LEG_TX_CODEC => formRange (txCodecOk v)
  | .VRX_CODEC => formRange (decide (v % 16 ≤ 3) && (if v % 16 = 1 then decide (v / 16 % 4 ≤ 1) else decide (v / 16 % 4 = 0)))
  | .DEC_MAX_WIDTH => formRange (decide (v % 16 = 0))
  | .DEC_MAX_HEIGHT => formRange (decide (v % 16 = 0))
  | .DEC_CTRL =>
    formRange (decide (v / 16 % 16 ≤ 7) && decide (v / 256 % 16 ≤ 2) && decide (v / 2 ^ 16 % 16 ≤ 2) &&
      decide (v / 2 ^ 20 % 16 ≤ 7))
  | .ENC_CTRL => formRange (encFieldsOk v)
  | .TILE_CTRL => formRange (tileFieldsOk v)
  | .TILE_LAYER_WEIGHT => formRange (decide (v % 256 ≠ 0) && decide (v / 256 % 256 ≠ 0) && decide (v / 65536 % 256 ≠ 0))
  | .VIEW_CTRL => formRange (decide (v / 2 ^ 28 % 4 ≤ 2))
  | .LAYOUT_SPLICE => formRange (spliceFieldsOk v)
  | .LAYOUT_COLOUR => formRange (decide (v % 4 ≤ 2))
  | .INJ_TARGET => formRange (decide (v / 2 ^ 28 ≤ 5))
  | _ => .ok ()

/-- The form of a value (R268, R271, R496). -/
def Key.form (k : Key) (v : Val) : Except Abort Unit :=
  match v with
  | .num n => k.formNum n.toNat
  | .bytes b =>
    match k.o with
    | .PORT_MAC => formRange (!bit (b.getD 0 0) 0)
    | .SCALER_SET => formRange (scalerOk b)
    | .LUT_PRE => formRange (lutOk b)
    | .LUT_POST => formRange (lutOk b)
    | .LAYOUT_IMAGE => formRange (imageOk b)
    | _ => .ok ()

/-- The bits a number keeps when it is stored, where a form leaves some reserved (R6). -/
def Key.kept (k : Key) (v : Val) : Val :=
  let cut := fun (m : Nat) => match v with
    | .num n => Val.num ((n.toNat &&& m : Nat))
    | x => x
  match k.o with
  | .LAYER_SRC => cut 0xF001FFFF
  | .LAYER_IND => cut 0xFFFFFF31
  | .FWD_SLOT => cut 0xFFFFFF00
  | _ => v

/-- The relations between objects (R497 and the chapters' own words). -/
inductive Relation where
  | follow (n : Nat)
  | ptpMode (n : Nat)
  | ptpPort (p : Nat)
  | servoGains (n : Nat)
  | lockStep (n : Nat)
  | pulseWidth (k : Nat)
  | policer (i : Nat)
  | losses (j : Nat)
  | rates (n : Nat)
  | jitter (n : Nat)
  | gate (n : Nat)
  | power
  | qps (n : Nat)
  | pairPorts (i : Nat)
  | payloadTypes (n : Nat)
  | layoutGrid (k : Nat)
  | indicator (k l : Nat)
  | decode (n s : Nat)
  | encode (n : Nat)
  | biquad (f s : Nat)
deriving DecidableEq, Repr

/-- The objects that a relation names. -/
def Relation.keys : Relation → List Key
  | .follow n => [⟨.TB_MODE, n, 0⟩, ⟨.TB_SOURCE, n, 0⟩]
  | .ptpMode n => [⟨.TB_MODE, n, 0⟩]
  | .ptpPort p => [⟨.PTP_ROLE, p, 0⟩, ⟨.PTP_INSTANCE, p, 0⟩]
  | .servoGains n => [⟨.TB_SERVO_KP, n, 0⟩, ⟨.TB_SERVO_KI, n, 0⟩]
  | .lockStep n => [⟨.TB_STEP_THRESHOLD, n, 0⟩, ⟨.TB_LOCK_THRESHOLD, n, 0⟩]
  | .pulseWidth k => [⟨.PULSE_PERIOD, k, 0⟩, ⟨.PULSE_WIDTH, k, 0⟩]
  | .policer i => [⟨.POL_MODE, i, 0⟩, ⟨.POL_CIR, i, 0⟩, ⟨.POL_CBS, i, 0⟩, ⟨.POL_PIR, i, 0⟩]
  | .losses j => [⟨.TC_LOSS_HIGH, j, 0⟩, ⟨.TC_LOSS_LOW, j, 0⟩]
  | .rates n => [⟨.LEG_MIN_RATE, n, 0⟩, ⟨.LEG_MAX_RATE, n, 0⟩, ⟨.LEG_START_RATE, n, 0⟩]
  | .jitter n => [⟨.LEG_JB_MIN, n, 0⟩, ⟨.LEG_JB_MAX, n, 0⟩]
  | .gate n => [⟨.LEG_GATE_OPEN, n, 0⟩, ⟨.LEG_GATE_CLOSE, n, 0⟩]
  | .power => [⟨.GOV_BUDGET, 0, 0⟩, ⟨.GOV_HARD, 0, 0⟩]
  | .qps n => [⟨.ENC_QP_MIN, n, 0⟩, ⟨.ENC_QP_MAX, n, 0⟩]
  | .pairPorts i => [⟨.ADDR_PORTS, i, 0⟩, ⟨.PAIR_MODE, 0, 0⟩, ⟨.PAIR_MODE, 1, 0⟩]
  | .payloadTypes n => (List.range 8).map fun i => ⟨.LEG_RX_PT, n, i⟩
  | .layoutGrid k => [⟨.LAYOUT_KIND, k, 0⟩, ⟨.LAYOUT_SPLICE, k, 0⟩]
  | .indicator k l =>
    [⟨.LAYER_SRC, k, l⟩, ⟨.LAYER_IND, k, l⟩, ⟨.LAYER_ALPHA, k, l⟩, ⟨.LAYER_DEST, k, l⟩, ⟨.LAYOUT_SPLICE, k, 0⟩,
      ⟨.LAYOUT_KIND, k, 0⟩] ++ (List.range 16).map fun i => ⟨.LAYOUT_IMAGE, k, i⟩
  | .decode n s =>
    [⟨.DEC_CTRL, n, s⟩, ⟨.DEC_MAX_WIDTH, n, s⟩, ⟨.DEC_MAX_HEIGHT, n, s⟩, ⟨.DEC_MAX_FPS, n, s⟩, ⟨.DEC_MAX_DPB, n, s⟩,
      ⟨.DEC_MAX_KBPS, n, s⟩] ++ (List.range 4).map fun i => ⟨.VRX_CODEC, n, i⟩
  | .encode n => [⟨.ENC_CTRL, n, 0⟩, ⟨.VIEW_CTRL, n, 0⟩, ⟨.ENC_PT, n, 0⟩]
  | .biquad f s => ⟨.AF_SECTIONS, f, 0⟩ :: (List.range 5).map fun i => ⟨.AF_COEF, f, 5 * s + i⟩

/-- The relations that name an object. -/
def Key.relations (k : Key) : List Relation :=
  match k.o with
  | .TB_MODE => [.follow k.u, .ptpMode k.u]
  | .TB_SOURCE => [.follow k.u]
  | .PTP_ROLE => [.ptpPort k.u]
  | .PTP_INSTANCE => [.ptpPort k.u]
  | .TB_SERVO_KP => [.servoGains k.u]
  | .TB_SERVO_KI => [.servoGains k.u]
  | .TB_STEP_THRESHOLD => [.lockStep k.u]
  | .TB_LOCK_THRESHOLD => [.lockStep k.u]
  | .PULSE_PERIOD => [.pulseWidth k.u]
  | .PULSE_WIDTH => [.pulseWidth k.u]
  | .POL_MODE => [.policer k.u]
  | .POL_CIR => [.policer k.u]
  | .POL_CBS => [.policer k.u]
  | .POL_PIR => [.policer k.u]
  | .TC_LOSS_HIGH => [.losses k.u]
  | .TC_LOSS_LOW => [.losses k.u]
  | .LEG_MIN_RATE => [.rates k.u]
  | .LEG_MAX_RATE => [.rates k.u]
  | .LEG_START_RATE => [.rates k.u]
  | .LEG_JB_MIN => [.jitter k.u]
  | .LEG_JB_MAX => [.jitter k.u]
  | .LEG_GATE_OPEN => [.gate k.u]
  | .LEG_GATE_CLOSE => [.gate k.u]
  | .GOV_BUDGET => [.power]
  | .GOV_HARD => [.power]
  | .ENC_QP_MIN => [.qps k.u]
  | .ENC_QP_MAX => [.qps k.u]
  | .ADDR_PORTS => [.pairPorts k.u]
  | .PAIR_MODE => (List.range 32).map .pairPorts
  | .LEG_RX_PT => [.payloadTypes k.u]
  | .LAYOUT_KIND => .layoutGrid k.u :: (List.range 16).map (.indicator k.u)
  | .LAYOUT_SPLICE => .layoutGrid k.u :: (List.range 16).map (.indicator k.u)
  | .LAYOUT_IMAGE => (List.range 16).map (.indicator k.u)
  | .LAYER_SRC => [.indicator k.u k.k]
  | .LAYER_IND => [.indicator k.u k.k]
  | .LAYER_ALPHA => [.indicator k.u k.k]
  | .LAYER_DEST => [.indicator k.u k.k]
  | .DEC_CTRL => [.decode k.u k.k]
  | .DEC_MAX_WIDTH => [.decode k.u k.k]
  | .DEC_MAX_HEIGHT => [.decode k.u k.k]
  | .DEC_MAX_FPS => [.decode k.u k.k]
  | .DEC_MAX_DPB => [.decode k.u k.k]
  | .DEC_MAX_KBPS => [.decode k.u k.k]
  | .VRX_CODEC => [.decode k.u 0, .decode k.u 1]
  | .ENC_CTRL => [.encode k.u]
  | .VIEW_CTRL => [.encode k.u]
  | .ENC_PT => [.encode k.u]
  | .AF_COEF => [.biquad k.u (k.k / 5)]
  | .AF_SECTIONS => (List.range 4).map (.biquad k.u)
  | _ => []

/-- Does the FOLLOW chain from time base `n` end (R41)? -/
def Look.followEnds (l : Look) : Nat → Nat → Bool
  | 0, _ => false
  | fuel + 1, n => decide (l.nat .TB_MODE n ≠ 3) || l.followEnds fuel (l.nat .TB_SOURCE n % 8)

/-- Is port `p` assigned to time base `n` (R41)? -/
def Look.assigned (l : Look) (p n : Nat) : Bool := decide (l.nat .PTP_ROLE p ≠ 0) && decide (l.nat .PTP_INSTANCE p = n)

/-- The relation of an indicator layer (R286): its images, its opacity, and its place in a G9 layout. -/
def Look.indicatorOk (l : Look) (k i : Nat) : Bool :=
  let images := [l.fld .LAYER_IND k i 15 12, l.fld .LAYER_IND k i 11 8].map fun j => (l .LAYOUT_IMAGE k j).toBytes
  let g9 := decide (l.nat .LAYOUT_KIND k = 2) && decide (l.fld .LAYOUT_SPLICE k 0 31 28 = 3)
  let y := l.fld .LAYER_DEST k i 47 32
  decide (l.fld .LAYER_SRC k i 31 28 ≠ 4) ||
    (decide (l.nat .LAYER_ALPHA k i = 1024) &&
      images.all fun b =>
        let h := imageHeader b
        decide (b ≠ []) && !h.2.2.1 && (!g9 || (decide (1056 ≤ y) && decide (y + h.2.1 ≤ 1080))))

/-- The relation of a decode slot while it is enabled (R212, R215, R216). -/
def Look.decodeOk (l : Look) (n s : Nat) : Bool :=
  let w := l.nat .DEC_MAX_WIDTH n s
  let h := l.nat .DEC_MAX_HEIGHT n s
  let fps := l.nat .DEC_MAX_FPS n s
  let share := bit (l.nat .DEC_CTRL n s) 30
  let size := if share then decide (w ≤ 3840) && decide (h ≤ 2176)
    else (decide (w ≤ 1920) && decide (h ≤ 1088)) || (decide (w ≤ 1088) && decide (h ≤ 1920))
  let spatial := if bit (l.nat .DEC_CTRL n s) 12 then 0 else l.fld .DEC_CTRL n s 11 8
  let layers := match spatial with
    | 0 => 16
    | 1 => 20
    | _ => 21
  let slot := l.fld .LEG_RX_PT n (l.fld .DEC_CTRL n s 23 20) 19 16
  !l.on .DEC_CTRL n s ||
    (size && decide (w * h * fps * layers ≤ 125337600 * 16) && decide (fps ≤ (if share then 15 else 60)) &&
      !(bit (l.nat .DEC_CTRL n s) 0 && decide (slot < 4) && decide (l.fld .VRX_CODEC n slot 3 0 = 1)))

/-- The payload types of a leg (R132): valid entries differ, and an RTX or FEC entry protects a video entry. -/
def Look.typesOk (l : Look) (n : Nat) : Bool :=
  let entries := (List.range 8).map fun i => l.nat .LEG_RX_PT n i
  let valid := entries.filter fun e => bit e 31
  let types := valid.map (· % 128)
  decide (types.eraseDups.length = types.length) &&
    valid.all fun e =>
      let kind := e / 256 % 8
      let t := entries.getD (e / 65536 % 16) 0
      decide (kind ≠ 4 ∧ kind ≠ 5) || (bit t 31 && decide (t / 256 % 8 = 3))

/-- Does a relation hold? -/
def Relation.holds (l : Look) : Relation → Bool
  | .follow n =>
    l.followEnds 8 n && (decide (l.nat .TB_MODE n ≠ 2) || decide (l.nat .TB_SOURCE n ≤ 1))
  | .ptpMode n =>
    let ports := (List.range 4).filter fun p => l.assigned p n
    if l.nat .TB_MODE n = 1 then decide (ports ≠ []) else decide (ports = [])
  | .ptpPort p =>
    (decide (l.nat .PTP_ROLE p = 0) || decide (l.nat .TB_MODE (l.nat .PTP_INSTANCE p) = 1)) &&
      (List.range 8).all fun n => decide (l.nat .TB_MODE n ≠ 1) || (List.range 4).any fun q => l.assigned q n
  | .servoGains n => decide (l.nat .TB_SERVO_KP n < l.nat .TB_SERVO_KI n)
  | .lockStep n => decide (l.nat .TB_LOCK_THRESHOLD n ≤ l.nat .TB_STEP_THRESHOLD n)
  | .pulseWidth k => decide (l.nat .PULSE_WIDTH k + 8 ≤ l.nat .PULSE_PERIOD k)
  | .policer i =>
    decide (1280 ≤ l.nat .POL_CBS i) && (decide (l.nat .POL_MODE i < 2) || decide (l.nat .POL_CIR i ≤ l.nat .POL_PIR i))
  | .losses j => decide (l.nat .TC_LOSS_LOW j ≤ l.nat .TC_LOSS_HIGH j)
  | .rates n =>
    decide (l.nat .LEG_MIN_RATE n ≤ l.nat .LEG_START_RATE n) && decide (l.nat .LEG_START_RATE n ≤ l.nat .LEG_MAX_RATE n)
  | .jitter n => decide (l.nat .LEG_JB_MIN n ≤ l.nat .LEG_JB_MAX n)
  | .gate n => decide (l.nat .LEG_GATE_CLOSE n ≤ l.nat .LEG_GATE_OPEN n)
  | .power => decide (l.nat .GOV_BUDGET ≤ l.nat .GOV_HARD)
  | .qps n => decide (l.nat .ENC_QP_MIN n ≤ l.nat .ENC_QP_MAX n)
  | .pairPorts i =>
    (List.range 2).all fun q =>
      decide (l.nat .PAIR_MODE q = 0) ||
        (bit (l.nat .ADDR_PORTS i) (2 * q) == bit (l.nat .ADDR_PORTS i) (2 * q + 1))
  | .payloadTypes n => l.typesOk n
  | .layoutGrid k =>
    let grid := l.fld .LAYOUT_SPLICE k 0 31 28
    match l.nat .LAYOUT_KIND k with
    | 1 => decide (grid = 0)
    | 2 => decide (grid ≠ 0)
    | _ => true
  | .indicator k i => l.indicatorOk k i
  | .decode n s => l.decodeOk n s
  | .encode n => !l.on .ENC_CTRL n || (!l.on .VIEW_CTRL n && decide (l.nat .ENC_PT n ≠ 0xFF))
  | .biquad f s =>
    let a1 := l.int .AF_COEF f (5 * s + 3)
    let a2 := l.int .AF_COEF f (5 * s + 4)
    !bit (l.nat .AF_SECTIONS f) s ||
      (decide (a2.natAbs < 0x200000) && decide ((a1.natAbs : Int) < 0x200000 + a2))

/-- The relations that a write of an object is checked against; a video codec slot touches the decode slots whose RX_ENTRY names it
(R215). -/
def Look.relationsOf (l : Look) (k : Key) : List Relation :=
  if k.o = .VRX_CODEC then
    ((List.range 2).filter fun s =>
      decide (l.fld .LEG_RX_PT k.u (l.fld .DEC_CTRL k.u s 23 20) 19 16 = k.k)).map (.decode k.u)
  else k.relations

/-- Do all relations that name an object hold? -/
def Look.related (l : Look) (k : Key) : Bool := (l.relationsOf k).all (Relation.holds l)

/-- The values in force. -/
def Dev.look (d : Dev) : Look := fun o u k => d.get o u k

/-- The values in force with one written. -/
def Dev.lookWith (d : Dev) (key : Key) (v : Val) : Look :=
  fun o u k => if key = ⟨o, u, k⟩ then v else d.get o u k

/-- The values in force with the staged set over them (R33). -/
def Dev.lookStaged (d : Dev) : Look :=
  fun o u k => match tfind ⟨o, u, k⟩ d.stage with
    | some v => v
    | none => d.get o u k

/-- Does leg `n` count as idle for its rwi objects (R104)? -/
def Dev.legIdle (d : Dev) (n : Nat) : Bool :=
  match d.legState n with
  | .idle => true
  | .configured => true
  | .held => true
  | _ => false

/-- Is the owner of an rwi object idle (R51, R101, R104, R126, R261, R448)? -/
def Dev.ownerIdle (d : Dev) (k : Key) : Bool :=
  match k.o.row.base with
  | 0x2050 => decide (d.nat .PULSE_MODE k.u = 0)
  | 0x2090 => !d.legs.any fun n => decide (d.nat .LEG_LOCAL_ADDR n = k.u)
  | 0x2800 => decide (d.nat .CONF_STATE k.u = 0)
  | 0x2C00 => d.legs.all fun n => decide (d.nat .VIEW_LAYOUT n ≠ k.u) || d.legIdle n
  | 0x21C8 => decide (d.nat .SLOT_STATE k.u = 0)
  | _ => d.legIdle k.u

end Sys2Proof.Machine
end

