-- ==== Sys2Proof/Machine/Power.lean ====
section
/-! DEFINITION. Power domains and the energy governor (R398 to R416): gating and waking, DOZE, the senses, the limits, the
throttle, climbs and restores, block clocks; and the voltage request over AVSBus (R482, R483). -/

namespace Sys2Proof.Machine

/-- The blocks of quad `q`. -/
def quadBlocks (q : Nat) : List Nat := (List.range 4).map (4 * q + ·)

/-- The state that a block's cells and itself show while its quad is gated (R398, R403). -/
def Dev.gateBlock (d : Dev) (b st : Nat) : Dev :=
  if 3 ≤ d.nat .BLK_STATE b then d else
    let cells := ((List.range 16).map (16 * b + ·)).filter fun c => decide (d.nat .CELL_STATE c < 3)
    cells.foldl (fun d c => d.setN .CELL_STATE c 2) (d.setN .BLK_STATE b st)

/-- A block of a quad that is on again. -/
def Dev.wakeBlock (d : Dev) (b : Nat) : Dev :=
  if d.nat .BLK_STATE b = 1 ∨ d.nat .BLK_STATE b = 2 then
    let cells := ((List.range 16).map (16 * b + ·)).filter fun c => decide (d.nat .CELL_STATE c = 2)
    cells.foldl (fun d c => d.setN .CELL_STATE c (if d.nat .BLK_RESERVE_CELL b = c then 1 else 0)) (d.setN .BLK_STATE b 0)
  else d

/-- Domain `dom` is gated, with or without retention (R398, R402). Gating without retention loses the L objects of the unit
(R439). -/
def Dev.gateDomain (d : Dev) (dom : Nat) (keep : Bool) : Dev :=
  if d.nat .PD_STATE dom ≠ 0 then d else
    let d := d.setN .PD_STATE dom (if keep then 1 else 2)
    let d := d.resetEvent (if keep then 8 else 9) 5 dom (if keep then 0 else 4)
    if dom < 16 then
      let d := (quadBlocks dom).foldl (fun d b => d.gateBlock b (if keep then 1 else 2)) d
      if keep then d else d.loseL fun k => (quadBlocks dom).any fun b => keyOfBlock b k
    else if dom < 32 then
      let p := dom - 16
      let d := if d.nat .PAIR_STATE (p / 4) (p % 4) = 0 then d.put .PAIR_STATE (p / 4) (p % 4) (.num 1) else d
      d.loseL (keyOfPair p)
    else if dom < 36 then
      let k := dom - 32
      (if d.nat .COMPOSER_STATE k = 0 then d.setN .COMPOSER_STATE k 1 else d).loseL (keyOfComposer k)
    else d

/-- Domain `dom` is on again, and its units with it. -/
def Dev.wakeDomain (d : Dev) (dom : Nat) : Dev :=
  if d.nat .PD_STATE dom = 3 then d else
    let d := d.setN .PD_STATE dom 0
    if dom < 16 then (quadBlocks dom).foldl Dev.wakeBlock d
    else if dom < 32 then
      let p := dom - 16
      if d.nat .PAIR_STATE (p / 4) (p % 4) = 1 then (d.put .PAIR_STATE (p / 4) (p % 4) (.num 0)).pairUpdate p else d
    else if dom < 36 then (if d.nat .COMPOSER_STATE (dom - 32) = 1 then d.setN .COMPOSER_STATE (dom - 32) 0 else d)
    else d

/-- Is the unit of domain `dom` idle: no home, no item, no admitted demand, no context open (R398)? -/
def Dev.domainIdle (d : Dev) (dom : Nat) : Bool :=
  if dom < 16 then
    (quadBlocks dom).all fun b => decide (d.nat .BLK_ADMIT_CYCLES b = 0) && ((List.range 16).all fun j => tget 0 (16 * b + j) d.loads = 0) &&
      (d.blkOf b).ready.isEmpty && (List.range 16).all fun j => d.cellEmpty (16 * b + j)
  else if dom < 32 then
    let p := dom - 16
    decide (d.pairPx p = 0) && decide (d.nat .PAIR_CONTEXTS (p / 4) (p % 4) = 0)
  else if dom < 36 then decide (d.nat .COMPOSER_ADMIT_PIXELS (dom - 32) = 0) && (d.compOf (dom - 32)).items.isEmpty
  else false

/-- The edges at which each domain that may gate under TRIM has been idle in a row (R398). -/
def Dev.idleEdge (d : Dev) : Dev :=
  let count := fun (l : List (Nat × Nat)) (dom : Nat) =>
    if d.domainIdle dom then tset dom (tget 0 dom d.gov.idle + 1) l else l
  { d with gov := { d.gov with
      idle := if d.flag .GOV_TRIM && decide (d.service = .full) then (List.range 36).foldl count [] else [] } }

/-- A domain has been idle for GOV_TRIM_IDLE strides under TRIM: it gates (R398, R402). -/
def Dev.idleGate (d : Dev) (dom : Nat) : Dev :=
  if d.flag .GOV_TRIM && decide (d.nat .PD_MODE dom = 0) && decide (d.service = .full) && d.domainIdle dom &&
      decide (d.nat .GOV_TRIM_IDLE ≤ tget 0 dom d.gov.idle) && !d.waking.contains dom then d.gateDomain dom (decide (dom < 16)) else d

/-- A domain's wake completes (R403). -/
def Dev.wakeDone (d : Dev) (dom : Nat) : Dev :=
  if d.waking.contains dom then
    ({ d with waking := d.waking.filter (· ≠ dom) }.wakeDomain dom).bump .PD_WAKES dom
  else d

/-- A domain fails to wake within twice its wake time (R403): it is retired. -/
def Dev.wakeFailed (d : Dev) (dom : Nat) : Dev :=
  if !d.waking.contains dom then d else
    let d := { d with waking := d.waking.filter (· ≠ dom) }.bump .PD_WAKES dom
    let d := d.setN .PD_STATE dom 3
    let d := if dom < 16 then ((quadBlocks dom).filter fun b => decide (d.nat .BLK_STATE b < 3)).foldl (fun d b => d.closeBlock b 4) d
      else if dom < 32 then d.closePair (dom - 16)
      else if dom < 36 then d.closeComposer (dom - 32)
      else d
    d.logRec { level := 3, cls := .degraded, action := .retired, unit := 0x7000 + dom, code := 0x0D06, detail := dom }

/-- A write of GOV_CMD (R404, R416). -/
def Dev.writeGovCmd (d : Dev) (v : Nat) : Res :=
  if v = 1 then do
    d.need (decide (d.nat .LEGS_ADMITTED = 0) && decide (d.service = .full)) .deviceState
    .ok { d with gov := { d.gov with doze := true } }
  else if v = 2 then do
    d.need (decide (d.service = .doze)) .deviceState
    .ok { d with gov := { d.gov with wake := true } }
  else .error (.range, d)

/-- DOZE is entered at the edge after its acceptance (R404). -/
def Dev.dozeEdge (d : Dev) : Dev :=
  if !d.gov.doze then d else
    let d := { d with gov := { d.gov with doze := false } }
    if d.nat .LEGS_ADMITTED ≠ 0 ∨ d.service ≠ .full then d else
      let d := (List.range 4).foldl Dev.selfRefresh d
      let d := (List.range 40).foldl (fun d dom => d.gateDomain dom false) d
      ({ d with waking := [] }).setService .doze

/-- The wake from DOZE completes (R346, R349, R404): `fails` are the channels whose retraining failed. -/
def Dev.dozeWake (d : Dev) (fails : List Nat) : Dev :=
  if d.service ≠ .doze ∨ !d.gov.wake then d else
    let d := { d with gov := { d.gov with wake := false } }
    let d := (List.range 40).foldl (fun d dom => if d.nat .PD_STATE dom = 2 then (d.wakeDomain dom).bump .PD_WAKES dom else d) d
    let d := (List.range 4).foldl (fun d c => d.leaveSelfRefresh c (!fails.contains c)) d
    { d with rst := { d.rst with returnDue := d.rst.returnDue || decide (d.inService < 2) } }.setService .full

/-- AIN `j` at an edge (R406): its value from the average of 80 samples, or its last good value when it has failed. -/
def Dev.senseEdge (d : Dev) (j : Nat) (sum : Option Nat) : Dev :=
  match sum with
  | none => d
  | some s =>
    let avg := s / 80
    let was := d.bitOf .GOV_SENSE_FAIL 0 0 j
    if avg = 0 ∨ avg = 4095 then
      let d := d.setBit .GOV_SENSE_FAIL 0 0 j true
      if was then d
      else d.logRec { level := 3, cls := .degraded, unit := 0x7031, code := 0x0D05, detail := Config.detail 0x0D05 [j] }
    else
      let v := ((avg * d.nat .AIN_GAIN 0 j / 65536 : Nat) : Int) + d.int .AIN_OFFSET 0 j
      (d.setBit .GOV_SENSE_FAIL 0 0 j false).setI .AIN_VALUE 0 j v

/-- Is domain `dom` on VDD, whose monitors are calibrated against AIN2 (R405)? -/
def onVdd (dom : Nat) : Bool := decide (dom < 40) || decide (48 ≤ dom)

/-- The power measured over a stride in mW, from its energy in µJ (R405). -/
def strideMw (uj : Nat) : Nat := uj * 600 / 1000

/-- The energy monitors at an edge (R405), with the DDR domains' shares of AIN3 by bytes and the ports' fixed figures: PD_ENERGY, PD_POWER, P1 and P60; at a lap edge the calibration. -/
def Dev.energyEdge (d : Dev) (raw : List Nat) (coding vdd : Nat) (lap : Bool) : Dev :=
  if raw = [] then d else
    let moved := (List.range 4).map fun c => d.nat .CH_BYTES c - d.gov.bytes.getD c 0
    let total := moved.foldl (· + ·) 0
    let ddr := Config.ddrEnergy (d.nat .AIN_VALUE 0 3)
    let scale := fun (dom : Nat) =>
      if onVdd dom then raw.getD dom 0 * d.gov.ratio.1 / d.gov.ratio.2
      else if dom < 44 then
        if total = 0 then Config.ddrIdleShare ddr (dom - 40) else ddr * moved.getD (dom - 40) 0 / total
      else Config.portEnergy (d.nat .PORT_MODE (dom - 44))
    let es := (List.range 50).map scale
    let doms := (d.gov.doms ++ [es]).drop (d.gov.doms.length + 1 - 60)
    let p1 := strideMw (es.foldl (· + ·) 0)
    let p1s := (d.gov.p1s ++ [p1]).drop (d.gov.p1s.length + 1 - 60)
    let d := (List.range 50).foldl (fun d dom =>
      let mean := strideMw (doms.foldl (fun a l => a + l.getD dom 0) 0) / doms.length
      (d.add .PD_ENERGY dom 0 (es.getD dom 0)).setN .PD_POWER dom mean) d
    let pairs := (List.range 16).foldl (fun a q => a + es.getD (pairDomain q) 0) 0
    let d := d.add .CODING_ENERGY 0 0 (pairs + coding)
    let d := (d.setN .GOV_P1 0 p1).setN .GOV_P60 0 (p1s.foldl (· + ·) 0 / p1s.length)
    let d := { d with gov := { d.gov with p1s := p1s, doms := doms, bytes := (List.range 4).map fun c => d.nat .CH_BYTES c } }
    if !lap then d else
      let sum := strideMw (((List.range 50).filter onVdd).foldl (fun a dom => a + raw.getD dom 0) 0)
      let true_ := d.nat .AIN_VALUE 0 2 * vdd / 1000
      if sum = 0 then d
      else if true_ * 10 < sum * 9 ∨ sum * 11 < true_ * 10 then
        let d := { d with gov := { d.gov with ratio := if true_ < sum then (9, 10) else (11, 10) } }
        d.logRec { level := 3, cls := .degraded, unit := 0x7031, code := 0x0D05
                   detail := Config.detail 0x0D05 [true_, sum] }
      else { d with gov := { d.gov with ratio := (true_, sum) } }

/-- The share of the feed, the budget B and the hard limit H (R407, R408): answers H. -/
def Dev.limitEdge (d : Dev) : Nat × Dev :=
  let imax := d.nat .GOV_FEED_IMAX
  let feed := d.nat .AIN_VALUE 0 0 * imax / 1000
  let share := if imax = 0 then d.nat .GOV_HARD else feed * d.nat .GOV_FEED_EFF / 65536 - d.nat .GOV_CARD_OTHER
  let budget := d.nat .GOV_BUDGET
  let src := (if budget ≤ share then 1 else 0) + if imax ≠ 0 ∧ share ≤ budget then 2 else 0
  (min (d.nat .GOV_HARD) share,
   ((d.setN .GOV_FEED_SHARE 0 share).setN .GOV_LIMIT 0 (min budget share)).setN .GOV_LIMIT_SRC 0 src)

/-- GOV_TJ and its records (R414). -/
def Dev.tjEdge (d : Dev) (tj : List Int) : Dev :=
  match tj with
  | [] => d
  | t :: r =>
    let top := r.foldl max t
    let est := top + d.int .DRAM_TEMP_OFFSET
    let d := (d.setI .GOV_TJ 0 0 top).setI .DRAM_TEMP_EST 0 0 (clamp (-128) 127 est)
    let d := { d with gov := { d.gov with dramHot := decide (85 ≤ est) || d.gov.dramHot && decide (82 ≤ est) } }
    let hot := decide (d.int .GOV_TJ_THROTTLE ≤ top)
    let was := d.gov.hot
    let d := { d with gov := { d.gov with hot := hot } }
    if hot && !was then
      d.logRec { level := 3, cls := .degraded, unit := 0x7031, code := 0x0D04
                 detail := Config.detail 0x0D04 [toWord 8 top, (t :: r).findIdx (· == top)] }
    else d

/-- The bits 0 and 2 of GOV_THROTTLE at an edge (R412). -/
def Dev.throttleEdge (d : Dev) (hard : Nat) : Dev :=
  let p1 := d.nat .GOV_P1
  let d := match d.gov.gainFrom with
    | some p => { d with gov := { d.gov with gainFrom := none } }.setN .GOV_THROTTLE_GAIN 0 (p - p1)
    | none => d
  let calm := if p1 + d.nat .GOV_HYST ≤ hard then d.gov.calm + 1 else 0
  let d := { d with gov := { d.gov with calm := calm } }
  let d := if d.bitOf .GOV_THROTTLE 0 0 0 then (if 60 ≤ calm then d.setBit .GOV_THROTTLE 0 0 0 false else d)
    else if hard < p1 then
      let d := { (d.setBit .GOV_THROTTLE 0 0 0 true).bump .GOV_HARD_EVENTS with gov := { d.gov with gainFrom := some p1 } }
      d.logRec { level := 3, cls := .recovered, unit := 0x7031, code := 0x0D03, detail := Config.detail 0x0D03 [p1, hard] }
    else d
  let tj := d.int .GOV_TJ
  if 110 ≤ tj then d.setBit .GOV_THROTTLE 0 0 2 true
  else if tj ≤ 105 then d.setBit .GOV_THROTTLE 0 0 2 false else d

/-- The composed pixels in kpx/s of the legs that encode, with `more` classes below the configured one, at their own rate or at
15 fps (R411, R413). -/
def Dev.composedAt (d : Dev) (more : Nat) (slow : Bool) : Nat :=
  (d.legs.filter fun n => (tfind 2 (d.lifeOf n).charges).isSome).foldl (fun a n =>
    let z := classSize (min 5 (d.fld .ENC_CTRL n 0 25 23 + (d.encOf (.composed n)).down + more))
    a + ceilDiv (z.1 * z.2 * (if slow then 15 else fpsOf (d.fld .ENC_CTRL n 0 22 20))) 1000) 0

/-- The power that step `k` withholds, ΔE(k) in mW (R413). -/
def Dev.withheld (d : Dev) (k : Nat) : Nat :=
  let kp := d.nat .GOV_K 0 2
  let kc := d.nat .GOV_K 0 3
  let mw := fun (nw : Nat) => (nw + 500000) / 1000000
  match k with
  | 6 => d.nat .GOV_THROTTLE_GAIN
  | 5 =>
    let l := (d.legs.filter fun n => d.reserved n && d.videoLeg n && d.flag .LEG_LOW_PRIORITY n).length
    (l * d.nat .GOV_K 0 4 + 500) / 1000
  | 4 =>
    let coded := d.legs.foldl (fun a n => (d.lifeOf n).charges.foldl (fun a c => if c.1 = 2 then a else a + c.2.2.1) a) 0
    let slow := d.composedAt 1 true
    let y := (List.range 4).foldl (fun a j => a + d.nat .COMPOSER_ADMIT_PIXELS j) 0
    let full := d.legs.foldl (fun a n => match tfind 2 (d.lifeOf n).charges with
      | some c => a + c.2.1
      | none => a) 0
    mw ((coded + slow) * kp + (y - full + slow) * kc)
  | 3 => mw ((d.composedAt 1 false - d.composedAt 1 true) * (kp + kc))
  | 2 => mw ((d.composedAt 0 false - d.composedAt 1 false) * (kp + kc))
  | _ => 0

/-- Climbs and restores at an edge (R410, R413); `old` is GOV_THROTTLE before this edge. -/
def Dev.govEdge (d : Dev) (old edge : Nat) : Dev :=
  let step := d.nat .GOV_STEP
  let b := d.nat .GOV_LIMIT
  let p60 := d.nat .GOV_P60
  let g := d.gov
  let rested := match g.climbAt with
    | some c => decide (c + 60 ≤ edge)
    | none => true
  let th := d.nat .GOV_THROTTLE
  let wanted := decide (b < p60) || bit th 0 || bit th 2 || decide (d.int .GOV_TJ_THROTTLE ≤ d.int .GOV_TJ)
  if decide (step < 6) && rested && wanted then
    let d := { d with gov := { g with climbAt := some edge, hold := 0 } }
    let d := ((d.setN .GOV_STEP 0 (step + 1)).bump .GOV_STEP_CHANGES).setBit .GOV_THROTTLE 0 0 1 (decide (step + 1 = 6))
    d.logRec { level := 3, cls := .degraded, action := .steppedDown, unit := 0x7031, code := 0x0D01
               detail := Config.detail 0x0D01 [step + 1, p60, b] }
  else
    let de := d.withheld step
    let calm := !(bit old 0 || bit old 2 || bit th 0 || bit th 2) && decide (d.int .GOV_TJ + 5 ≤ d.int .GOV_TJ_THROTTLE) &&
      decide (p60 + de + d.nat .GOV_HYST ≤ b)
    let hold := if calm ∧ 0 < step then g.hold + 1 else 0
    if 0 < step ∧ calm ∧ d.nat .GOV_RESTORE_STRIDES ≤ hold then
      let d := { d with gov := { g with hold := 0 } }
      let d := ((d.setN .GOV_STEP 0 (step - 1)).bump .GOV_STEP_CHANGES).setBit .GOV_THROTTLE 0 0 1 false
      d.logRec { level := 3, cls := .recovered, unit := 0x7031, code := 0x0D02
                 detail := Config.detail 0x0D02 [step - 1, p60, de] }
    else { d with gov := { g with hold := hold } }

/-- The DVFS step of block `b` for the stride that begins (R400, R412). -/
def Dev.dvfsFor (d : Dev) (b : Nat) : Nat :=
  let admitted := d.nat .BLK_ADMIT_CYCLES b
  let slowest := fun (need : Nat) =>
    if need ≤ 15 * workPhase 2 then 2 else if need ≤ 15 * workPhase 1 then 1 else 0
  if d.nat .GOV_THROTTLE ≠ 0 then slowest (admitted - 5500 * d.nat .BLK_LEGS b)
  else if d.nat .GOV_DVFS_MODE = 1 then 0 else slowest admitted

/-- The block clocks at an edge, and PD_STEPS (R400, R415). -/
def Dev.dvfsEdge (d : Dev) : Dev :=
  let d := (List.range 64).foldl (fun d b =>
    let s := d.dvfsFor b
    if s = d.nat .BLK_DVFS_STEP b then d else d.setN .BLK_DVFS_STEP b s) d
  (List.range 16).foldl (fun d q =>
    let v := (List.range 4).foldl (fun a i => a + d.nat .BLK_DVFS_STEP (4 * q + i) * 4 ^ i) 0
    if v = d.nat .PD_STEPS q then d else d.setN .PD_STEPS q v) d

/-- The voltage request at an edge (R483): a rise in one step, a fall by at most 10 mV in a lap, and none while AVS has failed. -/
def Dev.avsEdge (d : Dev) (vdd : Nat) : Dev :=
  let d := d.setN .VDD_MEASURED 0 vdd
  let need := ((Config.vddNeed (d.int .GOV_TJ) : Nat) : Int) + d.int .AVS_MARGIN
  let want := min 880 (max 720 ((need + 4) / 5 * 5).toNat)
  let now := d.nat .VDD_REQUEST
  let lap := d.nat .LAP_COUNT
  let write := fun (d : Dev) (mv : Nat) =>
    ({ d with gov := { d.gov with avsOpen := some mv } }.setN .VDD_REQUEST 0 mv).emit (.avsWrite mv)
  if now < want then write d want
  else if want < now ∧ !d.gov.avsHeld ∧ d.gov.fallLap ≠ some lap then
    write { d with gov := { d.gov with fallLap := some lap } } (max want (now - 10))
  else d

/-- A transaction with the regulator ends (R482, R483): a failed one is repeated once; two failures in a row stop falls until a
read-back succeeds. -/
def Dev.avsDone (d : Dev) (ok : Bool) (readback : Option Nat) (status : Nat) : Dev :=
  let g := d.gov
  if ok then
    let held := g.avsHeld && readback.isNone
    { d with gov := { g with avsFails := 0, avsHeld := held, avsOpen := none } }
  else
    let fails := g.avsFails + 1
    if fails = 1 then
      let d := { d with gov := { g with avsFails := 1 } }
      match g.avsOpen with
      | some mv => d.emit (.avsWrite mv)
      | none => d
    else
      let d := { d with gov := { g with avsFails := fails, avsHeld := true, avsOpen := none } }
      (d.add .AVS_ERRORS 0 0 (if fails = 2 then 2 else 1)).logRec
        { level := 3, cls := .degraded, unit := 0x7031, code := 0x0D07
          detail := Config.detail 0x0D07 [d.nat .VDD_REQUEST, status] }

/-- Power at step 6 of an edge (R400, R405 to R414, R483). -/
def Dev.powerEdge (d : Dev) (e : EdgeInput) (lap : Bool) : Dev :=
  let d := (List.range 4).foldl (fun d j => d.senseEdge j e.ainSum[j]?) d
  let d := d.energyEdge e.energy e.coding e.vddMv lap
  let r := d.limitEdge
  let d := r.2.tjEdge e.tj
  let old := d.nat .GOV_THROTTLE
  let d := (d.throttleEdge r.1).govEdge old d.stride
  d.dvfsEdge.avsEdge e.vddMv

end Sys2Proof.Machine
end

