-- ==== Sys2Proof/Machine/Alarms.lean ====
section
/-! DEFINITION. The alarms (R454 to R457): detection, what each does at once, erasure and its read-back, and the clear. -/

namespace Sys2Proof.Machine

/-- The alarm range of a supply in mV (R454), in the order VDD, VDDM, VDDQ, VPP, AVDD09, AVDD12, VIO and the 3.3 V bank. -/
def supplyRange (i : Nat) : Nat × Nat :=
  [(680, 920), (800, 900), (1130, 1270), (2350, 2750), (840, 960), (1130, 1270), (1700, 1900), (3100, 3500)].getD i (0, 0)

/-- The EMCY code of an alarm source (R454). -/
def alarmEmcy (source : Nat) : Nat := [0x3000, 0xFF10, 0x4200, 0xFF11].getD source 0xFF11

/-- Everything that an alarm erases is overwritten with zero (R456). -/
def Dev.eraseKeys (d : Dev) : Dev :=
  let d := { d with sec := { d.sec with slots := [], hdpKeys := [], legKeys := [], erasing := true } }
  let d := (List.range 8).foldl (fun d s => (d.setN .SLOT_STATE s 0).setN .SLOT_KCV s 0) d
  d.clearScBuffers.setN .ALARM_ERASE_STATE 0 1

/-- An alarm source is detected (R455): its bit, the count, the time, the record with its EMCY, the legs (R108), the lock and job
(R451), the queued requests (R100), the sessions (R88) and the erasure. -/
def Dev.alarm (d : Dev) (source : Nat) (parts : List Nat) : Dev :=
  let d := (d.setBit .ALARM_LATCH 0 0 source true).setBit .ALARM_ACTIVE 0 0 source true
  let d := (d.bump .ALARM_COUNT).setN .ALARM_TIME 0 (d.now 0)
  let d := d.legs.foldl Dev.alarmLeg d
  let d := (d.lockExpire 3).dropHdpRequests
  let d := d.eraseKeys.closeSessions
  let code := 0x0E01 + source
  d.logRec { level := 3, cls := .serviceAffecting, action := .lost, unit := secUnit, code := code
             detail := Config.detail code parts } (some (alarmEmcy source))

/-- A supply has stood at `mv` for 2 µs (R454). -/
def Dev.supplyAlarm (d : Dev) (supply mv : Nat) : Dev :=
  let r := supplyRange supply
  if mv < r.1 ∨ r.2 < mv then d.alarm 0 [supply, mv] else d

/-- A die sensor reads `t` °C (R414, R454). -/
def Dev.temperatureAlarm (d : Dev) (sensor : Nat) (t : Int) : Dev :=
  if 125 < t ∨ t < -50 then d.alarm 2 [sensor, toWord 8 t] else d

/-- The read-back of an erasure ends (R455): passed, or the erasure is repeated and the attempt counted. -/
def Dev.eraseVerified (d : Dev) (zero : Bool) : Dev :=
  if !d.sec.erasing then d
  else if zero then { d with sec := { d.sec with erasing := false } }.setN .ALARM_ERASE_STATE 0 2
  else d.eraseKeys.bump .ALARM_ERASE_RETRIES

/-- A source is no longer present (R457). -/
def Dev.alarmGone (d : Dev) (source : Nat) : Dev :=
  if source < 4 then d.setBit .ALARM_ACTIVE 0 0 source false else d

/-- A write of ALARM_CLEAR (R457). -/
def Dev.writeAlarmClear (d : Dev) : Res :=
  let latch := d.nat .ALARM_LATCH
  if latch = 0 then .ok d
  else if d.nat .ALARM_ACTIVE = 0 ∧ d.nat .ALARM_ERASE_STATE = 2 then
    let old := d.errorRegister
    let d := (d.setN .ALARM_LATCH 0 0).logRec
      { level := 3, cls := .recovered, unit := secUnit, code := 0x0E05, detail := latch }
    .ok (d.registerCleared old)
  else .error (.deviceState, d)

end Sys2Proof.Machine
end

