-- ==== Sys2Proof/Machine/Snap.lean ====
section
/-! DEFINITION. The photo finish (R466 to R472) and fault injection (R475). -/

namespace Sys2Proof.Machine

/-- What one block latches (R471, R472): nothing where it is gated without retention, fenced or retired. -/
def Dev.snapBlock (d : Dev) (b : Nat) : Dev :=
  let st := d.nat .BLK_STATE b
  if 2 ≤ st then (d.loseL fun k => decide (k.o.row.base = 0x6810) && decide (k.u = b)).setN .SB_FLAGS b 15
  else
    let x := d.blkOf b
    let step := d.blockStep b
    let items := fun (c : Nat) => min 255 (x.ready.filter fun i => decide (kindClass i.kind = c)).length
    let held := (x.order.filter fun o => match o.2.2 with
      | .held _ => true
      | _ => false).length
    let d := (d.setN .SB_FLAGS b (128 + if st = 1 then 15 else step)).setN .SB_CYCLE b
      (d.blockNow b + (blockRate step * 5 + 31) / 32)
    let d := d.setN .SB_READY b ((List.range 4).foldl (fun a c => a + items c * 256 ^ c) 0)
    let d := ((d.setN .SB_REORDER b held).setN .SB_OVERRUNS b (d.nat .BLK_OVERRUNS b)).setN .SB_DEFERRED b
      (d.nat .BLK_DEFERRED b)
    (List.range 16).foldl (fun d i =>
      let c := 16 * b + i
      let y := d.cellOf c
      let state := d.nat .CELL_STATE c
      let item := match y.running with
        | none => 0xFFFF
        | some j =>
          (kindNum j.kind) * 2 ^ 28 + (if state = 1 ∧ j.kind ≠ .check then 2 ^ 27 else 0) +
            if j.kind = .check then 0xFFFF else j.unit
      d.put .SB_CELL b i (.num ((item + y.slots.length * 2 ^ 25 + (if y.stopped.isSome then 2 ^ 24 else 0) +
        state * 2 ^ 20 : Nat)))) d

/-- What one region latches (R472). -/
def Dev.snapRegion (d : Dev) (g : Nat) : Dev :=
  if d.nat .RGN_STATE g ≠ 0 then d.loseL fun k => decide (k.o.row.base = 0x6804) && decide (k.u = g)
  else
    let runs := (d.compOf g).items.find? fun i => i.started && !i.finished
    let comp := match runs.map (·.id) with
      | some (.composition n) => 2 ^ 28 + n
      | some (.scaling n _) => 2 * 2 ^ 28 + n
      | some (.strip l) => 3 * 2 ^ 28 + l
      | none => 0xFFFFFFFF
    let open_ := (List.range 4).foldl (fun a i => a + d.nat .PAIR_CONTEXTS g i * 256 ^ i) 0
    let d := ((d.setN .SR_VALID g 1).setN .SR_CONTEXTS g open_).setN .SR_COMPOSER g comp
    d.setN .SR_RAILS g (d.nat .FAILED_RAILS / 4 ^ g % 4)

/-- Bytes queued in all egress queues. -/
def Dev.egressBytes (d : Dev) : Nat :=
  let leg := d.tx.foldl (fun a kv =>
    (kv.2.control ++ kv.2.audio ++ kv.2.retransmission ++ kv.2.video).foldl (fun a q => a + d.ipLenOf kv.1 q) a) 0
  d.ports.foldl (fun a kv => kv.2.sys.foldl (fun a q => q.2.foldl (fun a x => a + sysLen x) a) a) leg

/-- The photo finish latches for the causes that have met (R466 to R472), and SNAP_OUT rises; while LATCHED they are counted
as dropped (R470). -/
def Dev.snapLatch (d : Dev) : Dev :=
  let causes := d.trig
  let d := { d with trig := [] }
  if causes = [] then d
  else if d.nat .SNAP_STATE = 2 then d.add .SNAP_DROPPED 0 0 causes.length
  else
    let cause := (causes.map (·.1)).eraseDups.foldl (fun a i => a + 2 ^ i) 0
    let record := match causes.find? fun c => decide (c.1 = 2) with
      | some c => c.2
      | none => 0xFFFFFFFF
    let d := ((d.setN .SNAP_STATE 0 2).bump .SNAP_SEQ).setN .SNAP_CAUSE 0 cause
    let d := ((d.setN .SNAP_TIME 0 (d.now 0)).setN .SNAP_TIME_STB 0 (d.now d.stb)).setN .SNAP_STRIDE 0 d.stride
    let d := (d.setN .SNAP_RECORD_SEQ 0 record).setN .SNAP_P1 0 (d.nat .GOV_P1)
    let d := (d.setN .SNAP_EGRESS_BYTES 0 d.egressBytes).setN .SNAP_DICT_QUEUE 0 d.hdp.queue.length
    let d := (List.range 6).foldl (fun d p => d.put .SNAP_POOL_FREE 0 p (d.get .POOL_FREE p)) d
    let d := (List.range 4).foldl Dev.snapRegion d
    let d := (List.range 64).foldl Dev.snapBlock d
    { d with pins := { d.pins with snapOut := .high } }.emit (.snapOut true)

/-- A trigger of the photo finish (R466): bit 3 is SNAP_NOW. -/
def Dev.trigger (d : Dev) (cause : Nat) : Dev := { d with trig := d.trig ++ [(cause, 0)] }

/-- A rising edge on SNAP_IN (R466). -/
def Dev.snapIn (d : Dev) : Dev := if d.bitOf .SNAP_SOURCES 0 0 1 then d.trigger 1 else d

/-- The armed edge (R466, R467), latched at step 3 of the edge. -/
def Dev.snapEdge (d : Dev) : Dev :=
  if d.bitOf .SNAP_SOURCES 0 0 0 && d.flag .SNAP_EDGE && decide (d.nat .SNAP_EDGE = d.stride)
  then (d.settleRecs.trigger 0).snapLatch else d

/-- SNAP_OUT_WIDTH runs out (R469). -/
def Dev.snapOutEnd (d : Dev) : Dev :=
  if d.pins.snapOut = .high then { d with pins := { d.pins with snapOut := .low } }.emit (.snapOut false) else d

/-- A write of SNAP_EDGE (R468). -/
def Dev.writeSnapEdge (d : Dev) (v : Nat) : Res := do
  d.need (decide (v = 0) || decide (d.stride < v)) .range
  .ok (d.setN .SNAP_EDGE 0 v)

/-- A write of SNAP_RELEASE (R470). -/
def Dev.writeSnapRelease (d : Dev) : Res := .ok (d.setN .SNAP_STATE 0 d.snapRest)

/-- The number of the unit that INJ_TARGET names: the cell or block, and for the other kinds bits [11:0], with bits [15:12] zero or
R393's code of the kind that bits [31:28] give already (R393, R474). -/
def injNumber (kind unit : Nat) : Option Nat :=
  match kind with
  | 0 => if unit < 1024 then some unit else none
  | 1 => if unit < 64 then some unit else none
  | 2 => if (unit / 4096 = 0 ∨ unit / 4096 = 1) ∧ unit % 4096 < 16 then some (unit % 4096) else none
  | 3 => if (unit / 4096 = 0 ∨ unit / 4096 = 2) ∧ unit % 4096 < 4 then some (unit % 4096) else none
  | 4 => if (unit / 4096 = 0 ∨ unit / 4096 = 3) ∧ unit % 4096 < 8 then some (unit % 4096) else none
  | 5 => if (unit / 4096 = 0 ∨ unit / 4096 = 2) ∧ unit % 4096 < 4 then some (unit % 4096) else none
  | _ => none

/-- Is unit `n` of an injection's kind in service (R475)? Cells 0 and 1 of CELL_STATE are the two states in which a cell runs
items. -/
def Dev.injectable (d : Dev) (kind n : Nat) : Bool :=
  match kind with
  | 0 => decide (d.nat .CELL_STATE n ≤ 1) && decide (d.nat .BLK_STATE (n / 16) = 0)
  | 1 => decide (d.nat .BLK_STATE n = 0)
  | 2 => decide (d.nat .PAIR_STATE (n / 4) (n % 4) = 0)
  | 3 => decide (d.nat .COMPOSER_STATE n = 0)
  | 4 => !bit (d.nat .FAILED_RAILS) n && decide (d.nat .RGN_STATE (n / 2) = 0)
  | _ => decide (d.chState n = 3) || decide (d.chState n = 4)

/-- A write of INJ_CMD (R475): the fault waits for the report of the unit's own detector. -/
def Dev.writeInj (d : Dev) : Res :=
  let t := d.nat .INJ_TARGET
  let kind := t / 2 ^ 28
  match injNumber kind (t % 65536) with
  | none => .error (.deviceState, d)
  | some n => do
    d.need (decide (d.service ≠ .minimum) && d.injectable kind n) .deviceState
    .ok ({ d with faults := { d.faults with injected := d.faults.injected ++ [kind * 2 ^ 28 + n] } }.bump .INJ_COUNT)

end Sys2Proof.Machine
end

