-- ==== Sys2Proof/Machine/Access.lean ====
section
/-! DEFINITION. Every read and write of the dictionary (R60 to R70): what a read returns at the moment it is taken, and what a write
does, whichever interface carries it. -/

namespace Sys2Proof.Machine

/-- The loops of blocks in service in region `g` (R473). -/
def Dev.blocksIn (d : Dev) (g : Nat) : Nat :=
  ((List.range 16).filter fun i => decide (d.nat .BLK_STATE (16 * g + i) ≤ 2)).length

/-- The value of an object that the device computes when it is read, where it is not held as a value. -/
def Dev.liveInt (d : Dev) (k : Key) : Option Int :=
  match k.o with
  | .TB_TIME => some (d.now k.u)
  | .TB_RATE_ADJ => some (d.rateOf k.u)
  | .TB_STATUS => some (d.tbStatus k.u)
  | .TB_UTC_OFFSET =>
    match d.nat .TB_MODE k.u, (d.tbOf k.u).utc with
    | 1, some x => some x
    | _, _ => none
  | .CAPTURE_LEVEL => some (d.capOf k.u).fifo.length
  | .COMMIT_STATUS =>
    let v := d.nat .COMMIT_STATUS
    some (if v % 16 = 3 then v else v % 65536 % 256)
  | .STAGED_COUNT => some d.stage.length
  | .ERROR_REGISTER => some d.errorRegister
  | .HDP_SESSIONS_OPEN => some d.hdp.sessions.length
  | .LEG_KEY_STATE => some (d.legKeyState k.u)
  | .SC_LEASE_LEFT => some d.leaseLeft
  | .JB_TARGET => some (d.rxOf k.u).jb.target
  | .LEG_RX_SSRC => some (tget {} k.k (d.rxOf k.u).slots).ssrc
  | .LEG_EVENT_LEVEL => some (d.audioOf k.u).events.length
  | .LAYOUT_VIEWERS =>
    some (d.legs.filter fun n => decide (d.nat .VIEW_LAYOUT n = k.u) && d.reserved n).length
  | .LINE_OWD => if d.owdOn k.u then none else some noOwd
  | .LINE_OWD_RX => if d.owdOn k.u then none else some noOwd
  | .RGN_BLOCKS => some (d.blocksIn k.u)
  | .GOV_EST => some (d.estimateWith 0 0 0 0)
  | .COB_ID_CLIENT_TO_SERVER => some (0x600 + d.can.node)
  | .COB_ID_SERVER_TO_CLIENT => some (0x580 + d.can.node)
  | _ => none

/-- Is the object one of the snapshot, which only a latched photo finish fills (R470)? -/
def Key.snapped (k : Key) : Bool := decide (0x6801 ≤ k.index) && decide (k.index ≤ 0x684F)

/-- The value a read takes, with the device after it: a read of CAPTURE_TIME (R56), LEG_EVENT (R195), POOL_LOW_WATER and
POOL_PEAK_REFS (R372) changes what it reads. -/
def Dev.take (d : Dev) (k : Key) : Except Abort (Val × Dev) :=
  match d.mayRead k with
  | .error a => .error a
  | .ok _ =>
    match d.liveInt k with
    | some v => .ok (.num v, d)
    | none =>
      if k.snapped ∧ d.nat .SNAP_STATE ≠ 2 then .error .noData
      else match k.o with
        | .CAPTURE_TIME =>
          let r := d.readCapture k.u
          .ok (.num r.1, r.2)
        | .LEG_EVENT =>
          match d.readEvent k.u with
          | some r => .ok (.num r.1, r.2)
          | none => .error .noData
        | .POOL_LOW_WATER =>
          let r := d.readLowWater k.u false
          .ok (.num r.1, r.2)
        | .POOL_PEAK_REFS =>
          let r := d.readLowWater k.u true
          .ok (.num r.1, r.2)
        | .LOG_RECORD =>
          match d.logSlot k.u k.k with
          | some b => .ok (.bytes b, d)
          | none => .error .noData
        | _ => .ok (d.get k.o k.u k.k, d)

/-- A read of an index and subindex: its octets, most significant first, with the device after it (R60, R61). -/
def Dev.readAt (d : Dev) (index sub : Nat) : Except Abort (Octets × Dev) :=
  match lookup index sub with
  | .at k => (d.take k).map fun r => (k.encode r.1, r.2)
  | .highest n =>
    if d.service = .minimum ∧ 0x2800 ≤ index ∧ index ≤ 0x5FFF then .error .deviceState else .ok ([n], d)
  | .noSub => .error .noSubindex
  | .noObject => .error .noObject

/-- The staged value of an object (R63). -/
def Dev.readStaged (d : Dev) (index sub : Nat) : Except Abort Octets :=
  match lookup index sub with
  | .at k =>
    if k.o.row.acc = .wo then .error .writeOnly
    else match tfind k d.stage with
      | some v => .ok (k.encode v)
      | none => .error .noData
  | .highest _ => .error .noData
  | .noSub => .error .noSubindex
  | .noObject => .error .noObject

/-- A read that is a row of its own: its answer goes out, and a refusal is counted (R67). -/
def Dev.answerRead (d : Dev) (src : Src) (k : Key) : Dev :=
  match d.take k with
  | .ok (v, d) => d.emit (.value src k.index k.sub (k.encode v))
  | .error a => (d.bump .DICT_ABORTS).emit (.answer src k.index k.sub a.code)

/-- A commit is requested (R31, R36), or its request withdrawn (R34): the status is then that from before the request. While the
commit is pending no failure is shown (R35). -/
def Dev.writeCommit (d : Dev) (v : Nat) : Dev :=
  let status := d.nat .COMMIT_STATUS
  let pending := d.flag .STRIDE_COMMIT
  if v = 1 then
    if pending then d
    else ({ d with resultBefore := status }.setN .STRIDE_COMMIT 0 1).setN .COMMIT_STATUS 0 4
  else if pending then (d.setN .STRIDE_COMMIT 0 0).setN .COMMIT_STATUS 0 d.resultBefore
  else d

/-- The error field and its count are cleared (R72). -/
def Dev.clearErrors (d : Dev) : Dev :=
  (List.range 8).foldl (fun d i => d.setI .ERROR_FIELD 0 i 0) (d.setN .ERROR_COUNT 0 0)

/-- The legs under a traffic class profile take its new weight or group (R173). -/
def Dev.reweighAll (d : Dev) (j : Nat) (moved : Bool) : Dev :=
  (d.tx.map (·.1)).foldl (fun d n => if d.nat .LEG_TC n = j then d.reweigh n moved else d) d

/-- What the storing of a value brings with it, beside the value. `old` is the device before. -/
def Dev.stored (d old : Dev) (k : Key) : Dev :=
  match k.o with
  | .LEG_CONFERENCE => (d.confRecount (old.nat .LEG_CONFERENCE k.u)).confRecount (d.nat .LEG_CONFERENCE k.u)
  | .LEG_TC =>
    d.reweigh k.u (decide (old.nat .TC_GROUP (old.nat .LEG_TC k.u) ≠ d.nat .TC_GROUP (d.nat .LEG_TC k.u)))
  | .TC_WEIGHT => d.reweighAll k.u false
  | .TC_GROUP => d.reweighAll k.u (decide (old.nat .TC_GROUP k.u ≠ d.nat .TC_GROUP k.u))
  | .LEG_LOW_PRIORITY => d.resort k.u
  | .LEG_POLICER => d.setRx k.u { d.rxOf k.u with bucket := {} }
  | .ADDR_POLICER => { d with addrBuckets := tdel k.u d.addrBuckets }
  | .SNAP_SOURCES => if d.nat .SNAP_STATE = 2 then d else d.setN .SNAP_STATE 0 d.snapRest
  | _ => d

/-- Stores a value as the one in force. -/
def Dev.store (d : Dev) (k : Key) (v : Val) : Dev := (d.put k.o k.u k.k (k.kept v)).stored d k

/-- The objects that only the holder of the service-cipher lock writes: [21C0.04] to [21C0.0B] (R451). -/
def Key.lockedWrite (k : Key) : Bool := decide (k.index = 0x21C0) && decide (4 ≤ k.sub) && decide (k.sub ≤ 11)

/-- The PDO whose mapping or type an object is, with its COB-ID object (R80). -/
def Key.pdo (k : Key) : Option Obj :=
  match k.o with
  | .RPDO_MAP => some .RPDO_COB_ID
  | .RPDO_TYPE => some .RPDO_COB_ID
  | .TPDO_MAP => some .TPDO_COB_ID
  | .TPDO_TYPE => some .TPDO_COB_ID
  | _ => none

/-- May a TPDO map an index (R80)? -/
def tpdoRange (i : Nat) : Bool :=
  (decide (0x1000 ≤ i) && decide (i ≤ 0x1FFF)) || (decide (0x2000 ≤ i) && decide (i ≤ 0x2140)) ||
  (decide (0x2180 ≤ i) && decide (i ≤ 0x21FF)) || (decide (0x6000 ≤ i) && decide (i ≤ 0x6143))

/-- A mapping entry as index, subindex and bits (R72, R80). -/
def mapEntry (v : Nat) : Nat × (Nat × Nat) := (v / 65536, (v / 256 % 256, v % 256))

/-- The bits of what a mapping entry names, where a PDO of that direction may map it (R80). A subindex 0 that reads as the highest
subindex is an object of 8 bits. -/
def mappable (tpdo : Bool) (index sub : Nat) : Option Nat :=
  match lookup index sub with
  | .at k =>
    let bits := match k.o.row.ty with
      | .octets [n] => 8 * n
      | _ => k.bits
    let readable := decide (k.o.row.acc ≠ .wo) && tpdoRange index
    let writable := canWritable index sub && decide (k.o.row.acc ≠ .ro) && (decide (k.o.row.cls ≠ .P) || oneTime k.o)
    if (if tpdo then readable else writable) && decide (0 < bits) && decide (bits ≤ 64) then some bits else none
  | .highest _ => if tpdo && tpdoRange index then some 8 else none
  | _ => none

/-- A write of a PDO mapping entry or of the count of entries (R72, R80). -/
def Dev.writeMap (d : Dev) (k : Key) (v : Nat) : Res := do
  let tpdo := decide (k.o = .TPDO_MAP)
  let entries := (List.range 8).map fun i => mapEntry (d.nat k.o k.u (i + 1))
  if k.k = 0 then
    d.need (v ≤ 8) .tooHigh
    let used := entries.take v
    d.need (used.all fun e => (mappable tpdo e.1 e.2.1).isSome) .notMappable
    d.need (used.foldl (fun a e => a + e.2.2) 0 ≤ 64) .pdoLength
    .ok (d.put k.o k.u 0 (.num v))
  else
    let e := mapEntry v
    if v = 0 then .ok (d.put k.o k.u k.k (.num 0)) else
    match mappable tpdo e.1 e.2.1 with
    | none => .error (.notMappable, d)
    | some bits =>
      d.need (e.2.2 ≤ 64) .pdoLength
      d.need (decide (e.2.2 % 8 = 0) && decide (e.2.2 = bits)) .notMappable
      let rest := ((entries.take (d.nat k.o k.u)).zipIdx.filter fun x => x.2 + 1 ≠ k.k).foldl (fun a x => a + x.1.2.2) 0
      d.need (k.k > d.nat k.o k.u || rest + e.2.2 ≤ 64) .pdoLength
      .ok (d.put k.o k.u k.k (.num v))

/-- The effect of a write whose type, range and form have passed: the command that the object stands for, or its store. -/
def Dev.effect (d : Dev) (src : Src) (k : Key) (v : Val) : Res :=
  let n := v.toInt.toNat
  let u := k.u
  match k.o with
  | .STRIDE_COMMIT => .ok (d.writeCommit n)
  | .STAGE_DISCARD => if d.flag .STRIDE_COMMIT then .error (.deviceState, d) else .ok { d with stage := [] }
  | .TB_TIME => d.orRefuse (d.writeTbTime u n)
  | .TB_RATE_ADJ => if d.nat .TB_MODE u = 0 then .ok (d.store k v) else .error (.deviceState, d)
  | .PULSE_TARGET => d.orRefuse (d.writePulseTarget u n)
  | .PULSE_MODE => d.orRefuse (d.writePulseMode u n)
  | .ERROR_COUNT => .ok d.clearErrors
  | .HDP_KEY => d.writeHdpKey src k.k v.toBytes
  | .CONF_CMD => d.writeConfCmd u n
  | .LEG_CMD => d.writeLegCmd u n
  | .PAIR_FORCE => d.writePairForce u n
  | .LEG_SUITE => .ok (d.writeLegSuite u n)
  | .LEG_SSRC_FLUSH => .ok (d.setRx u { d.rxOf u with flush := true })
  | .CH_CMD => d.writeChCmd u n
  | .MARGIN_CMD => d.writeMargin u n
  | .LOG_CLEAR => .ok d.clearLog
  | .GOV_CMD => d.writeGovCmd n
  | .RESET_CMD => d.writeReset src n
  | .REVERTED_MASK => .ok (d.setN .REVERTED_MASK 0 (d.nat .REVERTED_MASK - (d.nat .REVERTED_MASK &&& n)))
  | .OPT_IMAGE => if v.toBytes.length = 45056 then d.writeOption (parseOption v.toBytes) else .error (.range, d)
  | .SLOT_WRAP => d.writeSlotWrap src u v.toBytes
  | .LEG_TX_KEY => d.writeLegKey src u true v.toBytes
  | .LEG_RX_KEY => d.writeLegKey src u false v.toBytes
  | .SC_LOCK => d.writeLock src (decide (n = 1))
  | .SC_CMD => d.scStart src
  | .ALARM_CLEAR => d.writeAlarmClear
  | .TK_PROGRAM => d.writeTk src v.toBytes
  | .OWNER_PROGRAM => d.writeOwner src (v.toBytes.getD 0 0) (v.toBytes.drop 1)
  | .OWNER_REVOKE => d.writeRevoke src n
  | .ATTEST_CMD => d.attestStart
  | .SNAP_NOW => .ok (d.trigger 3)
  | .SNAP_EDGE => d.writeSnapEdge n
  | .SNAP_RELEASE => d.writeSnapRelease
  | .TAP_CMD => d.writeTap
  | .INJ_CMD => d.writeInj
  | .RPDO_MAP => d.writeMap k n
  | .TPDO_MAP => d.writeMap k n
  | _ => if k.lockedWrite && !d.holder src then .error (.deviceState, d) else .ok (d.store k v)

/-- The wrapped keys, whose writes an alarm refuses before every other check (R447). -/
def wrappedKey : Obj → Bool
  | .HDP_KEY => true
  | .SLOT_WRAP => true
  | .LEG_TX_KEY => true
  | .LEG_RX_KEY => true
  | _ => false

/-- Does a write of this object go to the staging set? The reader's own writes of the boot go straight to the value in force (R428). -/
def Key.staged (k : Key) (src : Src) : Bool := decide (k.o.row.acc = .rws) && decide (src ≠ .boot)

/-- A write of octets to an object: access, an alarm on a wrapped key, type and length, range and form, then state, then relations;
an rws object is staged (R14, R31 to R33, R62, R64, R65, R496, R497). -/
def Dev.writeKey (d : Dev) (src : Src) (k : Key) (data : Octets) : Res := do
  d.orRefuse (k.mayWrite src)
  if wrappedKey k.o then d.alarmCheck src else .ok ()
  let v ← d.orRefuse (k.decode data)
  let v ← d.orRefuse (k.o.row.range.check v)
  d.orRefuse (k.form v)
  d.need (!decide (k.o.row.acc = .rwi) || d.ownerIdle k) .deviceState
  match k.pdo with
  | some cob => d.need (bit (d.nat cob k.u) 31) .deviceState
  | none => .ok ()
  if k.staged src then d.orRefuse (d.stageVal k (k.kept v))
  else
    d.need (decide (k.o.row.acc = .rws) || (d.lookWith k (k.kept v)).related k) .range
    d.effect src k v

/-- A write of an index and subindex (R60, R61). -/
def Dev.writeAt (d : Dev) (src : Src) (index sub : Nat) (data : Octets) : Res :=
  match lookup index sub with
  | .at k => d.writeKey src k data
  | .highest _ => .error (.readOnly, d)
  | .noSub => .error (.noSubindex, d)
  | .noObject => .error (.noObject, d)

/-- A write that is counted (R67): the code it draws, and the device after it. -/
def Dev.countWrite (d : Dev) (src : Src) (index sub : Nat) (data : Octets) : Nat × Dev :=
  counted (d.writeAt src index sub data)

/-- A write that is a command of its own: its answer goes out (R67). -/
def Dev.dictWrite (d : Dev) (src : Src) (index sub : Nat) (data : Octets) : Dev :=
  let r := d.countWrite src index sub data
  r.2.emit (.answer src index sub r.1)

/-- The octets that spell an operand for an object: its type's own length, or one octet more where the operand does not fit it. -/
def Key.spell (k : Key) (n : Nat) : Octets :=
  if n < 2 ^ k.bits then natToOctets (k.bits / 8) n else natToOctets (k.bits / 8 + 1) n

/-- A write of a number to an object, as a command of its own. -/
def Dev.writeNum (d : Dev) (src : Src) (k : Key) (n : Nat) : Dev := answerWrite src k (d.writeKey src k (k.spell n))

/-- A write of octets to an object, as a command of its own. -/
def Dev.writeBytes (d : Dev) (src : Src) (k : Key) (b : Octets) : Dev := answerWrite src k (d.writeKey src k b)

end Sys2Proof.Machine
end

