-- ==== Sys2Proof/Machine/Requests.lean ====
section
/-! DEFINITION. HDP requests (R89 to R97) as they execute: READ and WRITE, subscriptions, error records and bulk transfers. -/

namespace Sys2Proof.Machine

/-- The largest payload of an HDP datagram (R92). -/
def hdpPayload : Nat := 1404

/-- Does an index and subindex name a DOMAIN object (R92)? -/
def isDomain (index sub : Nat) : Bool :=
  match lookup index sub with
  | .at k => decide (k.o.row.ty = .domain)
  | _ => false

/-- One READ entry (R63, R92): its status, its value, and the device after it. -/
def Dev.readEntry (d : Dev) (e : RdEntry) : Nat × (Octets × Dev) :=
  let r : Except Abort (Octets × Dev) :=
    if isDomain e.index e.sub then .error .useBulk
    else if e.staged then (d.readStaged e.index e.sub).map fun b => (b, d)
    else d.readAt e.index e.sub
  match r with
  | .ok (b, d') => if 1024 < b.length then (Abort.useBulk.code, ([], d.bump .DICT_ABORTS)) else (0, (b, d'))
  | .error a => (a.code, ([], d.bump .DICT_ABORTS))

/-- One entry of a READ_RESP (R91). -/
def respEntry (e : RdEntry) (status : Nat) (b : Octets) : Octets :=
  natToOctets 2 e.index ++ [e.sub % 256, if e.staged then 1 else 0] ++ natToOctets 4 status ++ natToOctets 2 b.length ++ b

/-- Reads entries one after another while their answers fit `room` (R92): how many, their octets, and the device after. -/
def Dev.readEntries (d : Dev) : Nat → List RdEntry → Nat × (Octets × Dev)
  | _, [] => (0, ([], d))
  | room, e :: r =>
    let x := d.readEntry e
    let b := respEntry e x.1 x.2.1
    if room < b.length then (0, ([], d))
    else
      let y := x.2.2.readEntries (room - b.length) r
      (y.1 + 1, (b ++ y.2.1, y.2.2))

/-- A READ_RESP body of entries within `room` octets, and the device after it (R91, R92). -/
def Dev.readBody (d : Dev) (room : Nat) (es : List RdEntry) : Octets × Dev :=
  let r := d.readEntries (room - 2) es
  (natToOctets 2 r.1 ++ r.2.1 ++ (if r.1 = 0 then natToOctets 4 0 else []), r.2.2)

/-- A READ executes (R91, R92). -/
def Dev.runRead (d : Dev) (id req : Nat) (es : List RdEntry) : Dev :=
  let r := d.readBody (hdpPayload - 4) es
  r.2.hdpAnswer id 0x11 req r.1

/-- Writes entries in order up to the first refusal (R92): how many, and the entry and code that stopped it. -/
def Dev.writeEntries (d : Dev) (id : Nat) : List WrEntry → Nat × (Option (WrEntry × Nat) × Dev)
  | [] => (0, (none, d))
  | e :: r =>
    let x := if isDomain e.index e.sub ∨ 1024 < e.data.length then (Abort.useBulk.code, d.bump .DICT_ABORTS)
      else d.countWrite (.hdp id) e.index e.sub e.data
    if x.1 ≠ 0 then (0, (some (e, x.1), x.2))
    else
      let y := x.2.writeEntries id r
      (y.1 + 1, y.2)

/-- A WRITE executes (R91, R92). -/
def Dev.runWrite (d : Dev) (id req : Nat) (es : List WrEntry) : Dev :=
  let r := d.writeEntries id es
  r.2.2.hdpAnswer id 0x13 req (match r.2.1 with
    | none => writeResp 0 r.1 0 0
    | some (e, code) => writeResp code r.1 e.index e.sub)

/-- A SUBSCRIBE_RESP (R84). -/
def subResp (status number : Nat) : Octets := natToOctets 4 status ++ [number % 256]

/-- The code that refuses a SUBSCRIBE (R93, R95). -/
def subscribeRefusal (number period count : Nat) : Option Abort :=
  if number = 0xFF then
    if count ≠ 0 then some .subLimit else if 16 ≤ period then some .range else none
  else if 15 < number ∨ count = 0 ∨ 32 < count then some .subLimit
  else if 600 < period then some .tooHigh
  else none

/-- A SUBSCRIBE (R93, R95). -/
def Dev.hdpSubscribe (d : Dev) (h : HdpHdr) (req number period : Nat) (es : List RdEntry) : Dev :=
  d.hdpRequest h req 0x21 (subResp Abort.malformed.code number) fun id d =>
    match subscribeRefusal number period es.length, d.sessionOf id with
    | some a, _ => d.hdpAnswer id 0x21 req (subResp a.code number)
    | none, none => d
    | none, some s =>
      let s := if number = 0xFF then { s with errMask := some (period % 16) }
        else { s with subs := tset number { period := period, entries := es } s.subs }
      (d.setSession s).hdpAnswer id 0x21 req (subResp 0 number)

/-- An UNSUBSCRIBE (R84). -/
def Dev.hdpUnsubscribe (d : Dev) (h : HdpHdr) (req number : Nat) : Dev :=
  d.hdpRequest h req 0x21 (subResp Abort.malformed.code number) fun id d =>
    match d.sessionOf id with
    | none => d
    | some s =>
      let used := if number = 0xFF then s.errMask.isSome else thas number s.subs
      if used then
        let s := if number = 0xFF then { s with errMask := none } else { s with subs := tdel number s.subs }
        (d.setSession s).hdpAnswer id 0x21 req (subResp 0 number)
      else d.hdpAnswer id 0x21 req (subResp Abort.noData.code number)

/-- One subscription at an edge (R94). -/
def Dev.sampleSub (d : Dev) (id number : Nat) : Dev :=
  match d.sessionOf id with
  | none => d
  | some s =>
    match tfind number s.subs with
    | none => d
    | some x =>
      if !(x.first || decide (x.period = 0) || decide (x.next ≤ d.stride)) then d
      else
        let r := d.readBody (hdpPayload - 13) x.entries
        let d := r.2
        let send := x.first || decide (x.period ≠ 0) || decide (r.1 ≠ x.last)
        let y : Subscription := { x with
          first := false, last := r.1, next := d.stride + x.period, seq := if send then (x.seq + 1) % 2 ^ 32 else x.seq }
        let d := d.setSession { s with subs := tset number y s.subs }
        if send then d.hdpSend id 0x23 ([number] ++ natToOctets 4 x.seq ++ natToOctets 8 d.stride ++ r.1) else d

/-- Every subscription is sampled after step 4 of an edge (R94). -/
def Dev.subscriptionEdge (d : Dev) : Dev :=
  (d.hdp.sessions.map fun s => (s.id, sortAsc id (s.subs.map (·.1)))).foldl (fun d s =>
    s.2.foldl (fun d number => d.sampleSub s.1 number) d) d

/-- Error records in datagrams of up to 40 (R95). -/
def Dev.sendRecords (d : Dev) (id : Nat) : Nat → List Rec → Dev
  | 0, _ => d
  | fuel + 1, rs =>
    if rs = [] then d
    else
      let now := rs.take 40
      (d.hdpSend id 0x24 ([now.length, 0, 0, 0] ++ (now.map Rec.octets).flatten)).sendRecords id fuel (rs.drop 40)

/-- The error records logged since the last edge go to the sessions that asked for their class (R95). -/
def Dev.errorNotify (d : Dev) : Dev :=
  let fresh := d.faults.fresh
  let d := { d with faults := { d.faults with fresh := [] } }
  d.hdp.sessions.foldl (fun d s =>
    match s.errMask with
    | none => d
    | some m =>
      let rs := fresh.filter fun r => bit m r.cls.num
      d.sendRecords s.id (rs.length + 1) rs) d

/-- A BULK_RESP to a BULK_BEGIN (R84). -/
def bulkBegun (status total crc : Nat) : Octets := natToOctets 4 status ++ [0, 0] ++ natToOctets 4 total ++ natToOctets 4 crc

/-- A BULK_RESP to a BULK_END (R84). -/
def bulkEnded (status missing : Nat) : Octets := natToOctets 4 status ++ [1, 0] ++ natToOctets 4 missing

/-- A BULK_RESP to a BULK_READ (R84). -/
def bulkGot (status offset : Nat) (b : Octets) : Octets :=
  natToOctets 4 status ++ [2, 0] ++ natToOctets 4 offset ++ natToOctets 2 b.length ++ b

/-- The bytes of a bulk buffer (R96). -/
def bulkBuffer : Nat := 1048576

/-- The code that a load of `total` bytes into an object draws whatever its bytes are (R96): access, an alarm on a wrapped key, an owner
that is not idle, the lock of the service cipher, the length, and the forms that fix a length. -/
def Dev.loadRefusal (d : Dev) (src : Src) (k : Key) (total : Nat) : Option Abort :=
  match k.mayWrite src with
  | .error a => some a
  | .ok _ =>
    if wrappedKey k.o ∧ d.alarmed then some .alarm
    else if 16777216 < total then some .tooHigh
    else
      let length := match k.decode (List.replicate total 0) with
        | .error .lengthMismatch => true
        | _ => false
      let form : Bool := match k.o with
        | .OPT_IMAGE => decide (total = 45056)
        | .SCALER_SET => decide (total = 1792)
        | .LUT_PRE => decide (total = 8192)
        | .LUT_POST => decide (total = 8192)
        | .LAYOUT_IMAGE => decide (8 ≤ total)
        | _ => true
      if length then some .lengthMismatch
      else if !form then some .range
      else if (k.o.row.acc = .rwi && !d.ownerIdle k) || (k.lockedWrite && !d.holder src) then some .deviceState
      else none

/-- The copy that a bulk read takes of an object, none for a load, or the refusal (R96). -/
def Dev.bulkTarget (d : Dev) (id index sub : Nat) (load : Bool) (total : Nat) : Except Abort (Octets × Dev) :=
  if load then
    match lookup index sub with
    | .noObject => .error .noObject
    | .noSub => .error .noSubindex
    | .highest _ => .error .readOnly
    | .at k =>
      match d.loadRefusal (.hdp id) k total with
      | some a => .error a
      | none => .ok ([], d)
  else d.readAt index sub

/-- A BULK_BEGIN executes (R96): all the P4 buffers the value needs are taken, or none. DESIGN CHOICE (log entry 135): of several refusals
BULK_BUSY comes first, then those of the object, then NO_BUFFER. -/
def Dev.runBulkBegin (d : Dev) (id req index sub : Nat) (load : Bool) (total crc : Nat) : Dev :=
  match d.sessionOf id with
  | none => d
  | some s =>
    let no := fun (a : Abort) (d : Dev) => (d.bump .DICT_ABORTS).hdpAnswer id 0x34 req (bulkBegun a.code 0 0)
    if s.bulk.isSome then no .bulkBusy d
    else match d.bulkTarget id index sub load total with
      | .error a => no a d
      | .ok (copy, d') =>
        let n := if load then total else copy.length
        let count := (n + bulkBuffer - 1) / bulkBuffer
        let got := if count = 0 then ([], d') else d'.alloc .bulk 2 bulkBuffer none count
        if got.1.length < count then no .noBuffer got.2
        else
          let sum := if load then crc else crc32 copy
          let b : Bulk :=
            { index := index, sub := sub, load := load, total := n, crc := sum, req := req, copy := copy
              handles := got.1, opened := d.stride }
          (got.2.setSession { s with bulk := some b }).hdpAnswer id 0x34 req (bulkBegun 0 n sum)

/-- A BULK_DATA (R84, R97): one chunk of an open load, unanswered. Bytes beyond the load's length are dropped. -/
def Dev.hdpBulkData (d : Dev) (h : HdpHdr) (offset : Nat) (data : Octets) : Dev :=
  let r := d.hdpAccept h
  match r.1 with
  | none => r.2
  | some s =>
    match s.bulk with
    | none => r.2
    | some b =>
      if !h.parses || !h.listed || !b.load || decide (data = []) || decide (1024 < data.length) then r.2
      else r.2.setSession { s with bulk := some { b with parts := (offset, data.take (b.total - offset)) :: b.parts } }

/-- The newest byte that a load holds at an offset (R97). -/
def Bulk.byteAt (b : Bulk) (i : Nat) : Option Nat :=
  b.parts.findSome? fun x => if x.1 ≤ i then x.2[i - x.1]? else none

/-- A session's bulk transfer ends and its buffers go back (R97). -/
def Dev.endBulk (d : Dev) (s : Session) (b : Bulk) : Dev := (d.setSession { s with bulk := none }).dropAll 2 b.handles

/-- A BULK_END executes (R97): the bytes of the load are written as one write, or the read is closed. -/
def Dev.runBulkEnd (d : Dev) (id req : Nat) : Dev :=
  match d.sessionOf id with
  | none => d
  | some s =>
    match s.bulk with
    | none => d.hdpAnswer id 0x34 req (bulkEnded Abort.noData.code 0)
    | some b =>
      if !b.load then (d.endBulk s b).hdpAnswer id 0x34 req (bulkEnded 0 0)
      else
        match (List.range b.total).find? fun i => (b.byteAt i).isNone with
        | some i => d.hdpAnswer id 0x34 req (bulkEnded Abort.bulkMissing.code i)
        | none =>
          let value := (List.range b.total).map fun i => (b.byteAt i).getD 0
          let d := d.endBulk s b
          if crc32 value ≠ b.crc then d.hdpAnswer id 0x34 req (bulkEnded Abort.bulkCrc.code 0)
          else
            let r := d.countWrite (.hdp id) b.index b.sub value
            r.2.hdpAnswer id 0x34 req (bulkEnded r.1 0)

/-- A BULK_READ (R97). DESIGN CHOICE (log entry 135): a LEN above 1,024 is MALFORMED, and bytes past the end of the copy are left out. -/
def Dev.hdpBulkRead (d : Dev) (h : HdpHdr) (req offset len : Nat) : Dev :=
  d.hdpRequest { h with parses := h.parses && decide (len ≤ 1024) } req 0x34
    (bulkGot Abort.malformed.code offset []) fun id d =>
    match (d.sessionOf id).bind (·.bulk) with
    | none => d.hdpAnswer id 0x34 req (bulkGot Abort.noData.code offset [])
    | some b =>
      if b.load then d.hdpAnswer id 0x34 req (bulkGot Abort.noData.code offset [])
      else d.hdpAnswer id 0x34 req (bulkGot 0 offset ((b.copy.drop offset).take len))

/-- A bulk transfer still open 4 laps after its BULK_BEGIN ends with TIMEOUT (R97), in the form that answers its BULK_BEGIN. -/
def Dev.bulkTimeout (d : Dev) (session : Nat) : Dev :=
  match d.sessionOf session with
  | none => d
  | some s =>
    match s.bulk with
    | none => d
    | some b =>
      if d.stride < b.opened + 2400 then d else
      (d.endBulk s b).hdpSend session 0x34 (natToOctets 4 b.req ++ bulkBegun Abort.timeout.code 0 0)

end Sys2Proof.Machine
end

