-- ==== Sys2Proof/Machine/Can.lean ====
section
/-! DEFINITION. The CAN port (R71 to R81): boot-up and NMT, the communication reset, the SDO server, PDOs, and the bus errors, as they execute. The
layout of SDO frames, which R71 leaves to CiA 301, is log entry 41. -/

namespace Sys2Proof.Machine

/-- `n` octets of a number, least significant first (R4). -/
def leOctets (n v : Nat) : Octets := (natToOctets n v).reverse

/-- The communication objects that a communication reset reloads (R75). [1200] follows the node in force. -/
def commObjects : List Obj :=
  [.COB_ID_EMCY, .INHIBIT_TIME_EMCY, .PRODUCER_HEARTBEAT_TIME, .CAN_NODE_ID, .CAN_BITRATE, .EMCY_CLASS_MASK, .RPDO_COB_ID,
   .RPDO_TYPE, .RPDO_MAP, .TPDO_COB_ID, .TPDO_TYPE, .TPDO_INHIBIT, .TPDO_EVENT, .TPDO_MAP]

/-- Is there a P image of an object of unit `u` (R65)? -/
def Dev.imaged (d : Dev) (o : Obj) (u : Nat) : Bool := d.rst.pImages.any fun x => decide (x.1.o = o) && decide (x.1.u = u)

/-- The identifiers of the pre-defined connection set for node `n`, where no P image gives them (R72). -/
def Dev.cobDefaults (d : Dev) (n : Nat) : Dev :=
  let one := fun (d : Dev) (o : Obj) (u v : Nat) => if d.imaged o u then d else d.setN o u v
  let d := one d .COB_ID_EMCY 0 (0x80 + n)
  (List.range 4).foldl (fun d i =>
    one (one d .RPDO_COB_ID i (0x80000200 + 0x100 * i + n)) .TPDO_COB_ID i (0x80000180 + 0x100 * i + n)) d

/-- The communication objects but `kept` take their P images, or their defaults (R75). -/
def Dev.commLoad (d : Dev) (kept : List Obj) : Dev :=
  let mine := fun (o : Obj) => commObjects.contains o && !kept.contains o
  let d := { d with dict := d.dict.filter fun kv => !mine kv.1.o }
  let d := d.rst.pImages.foldl (fun d x => if mine x.1.o then d.put x.1.o x.1.u x.1.k x.2 else d) d
  d.cobDefaults (d.nat .CAN_NODE_ID)

/-- The node enters pre-operational from initialisation and sends its boot-up (R71, R75), as node 127 at 250 kbit/s in MINIMUM (R74). -/
def Dev.bootUp (d : Dev) : Dev :=
  let minimum := decide (d.service = .minimum)
  let node := if minimum then 127 else d.nat .CAN_NODE_ID
  let d := { d with can := { d.can with
    nmt := .preOperational, node := node, bitrate := if minimum then 1 else d.nat .CAN_BITRATE, sdo := none, tpdo := [] } }
  d.canSend (0x700 + node) [0]

/-- A communication reset (R75, R439): the chip is never reset by it. -/
def Dev.commReset (d : Dev) (kept : List Obj) : Dev := ((d.commLoad kept).resetEvent 7 6 0 8).bootUp

/-- Is an NMT command for this node? Node 0 addresses every node. -/
def Dev.nmtMine (d : Dev) (node : Nat) : Bool :=
  decide (d.can.nmt ≠ .initialising) && (decide (node = 0) || decide (node = d.can.node))

/-- Enters an NMT state; a transfer in hand ends where SDO does not run (R75). -/
def Dev.setNmt (d : Dev) (x : Nmt) : Dev :=
  { d with can := { d.can with nmt := x, sdo := if x = .stopped then none else d.can.sdo } }

/-! ### SDO -/

/-- Does a key carry a number, whose octets SDO and PDO send least significant first (R4)? -/
def Key.numeric (k : Key) : Bool :=
  match k.o.row.ty with
  | .octets _ => false
  | .upTo _ _ => false
  | .domain => false
  | _ => true

/-- The octets of a value between the CAN bus and the dictionary. -/
def canOrder (index sub : Nat) (b : Octets) : Octets :=
  match lookup index sub with
  | .at k => if k.numeric then b.reverse else b
  | _ => b

/-- A frame of the SDO server. -/
def Dev.sdoSend (d : Dev) (b : Octets) : Dev := d.canSend (0x580 + d.can.node) (b ++ List.replicate (8 - b.length) 0)

/-- Index and subindex as a frame carries them. -/
def sdoHead (index sub : Nat) : Octets := leOctets 2 index ++ [sub % 256]

/-- An SDO abort. -/
def Dev.sdoAbort (d : Dev) (index sub : Nat) (code : Nat) : Dev := d.sdoSend ([0x80] ++ sdoHead index sub ++ leOctets 4 code)

/-- An SDO abort of an access that the device refuses, which is counted (R67). -/
def Dev.sdoRefuse (d : Dev) (index sub : Nat) (a : Abort) : Dev := (d.bump .DICT_ABORTS).sdoAbort index sub a.code

/-- The open transfer ends with an abort. -/
def Dev.sdoEnd (d : Dev) (x : SdoXfer) (a : Abort) : Dev :=
  { d with can := { d.can with sdo := none } }.sdoRefuse x.index x.sub a

/-- The largest value that SDO carries (R77). -/
def sdoMost : Nat := 1048576

/-- Does SDO run in the NMT state (R75)? -/
def Dev.sdoRuns (d : Dev) : Bool := decide (d.can.nmt = .preOperational) || decide (d.can.nmt = .operational)

/-- The downloaded value is written, and the server answers (R77). -/
def Dev.runSdoWrite (d : Dev) (index sub : Nat) (data answer : Octets) : Dev :=
  let r := d.countWrite .can index sub (canOrder index sub data)
  if r.1 = 0 then r.2.sdoSend answer else r.2.sdoAbort index sub r.1

/-- An SDO request while a transfer is open (R77), or one that the server serves. -/
def Dev.sdoRequest (d : Dev) (serve : Dev → Dev) : Dev :=
  if !d.sdoRuns then d
  else match d.can.sdo with
    | some x => d.sdoEnd x .badCs
    | none => serve d

/-- Is a block size valid (R77)? -/
def blockSizeOk : SdoKind → Bool
  | .block n => decide (1 ≤ n) && decide (n ≤ 127)
  | _ => true

/-- CRC-16 of an octet, polynomial 0x1021, most significant bit first. -/
def crc16Step (crc b : Nat) : Nat :=
  (List.range 8).foldl (fun c _ => if 32768 ≤ c then (c * 2 % 65536) ^^^ 0x1021 else c * 2) (crc ^^^ (b * 256))

/-- The CRC of a block transfer. -/
def crc16 (b : Octets) : Nat := b.foldl crc16Step 0

/-- The client aborts the open transfer. -/
def Dev.sdoClientAbort (d : Dev) : Dev := { d with can := { d.can with sdo := none } }

/-- No frame of the client for 1 lap (R77). -/
def Dev.sdoTimeout (d : Dev) : Dev :=
  match d.can.sdo with
  | none => d
  | some x => if x.heard + 600 ≤ d.can.ticks then d.sdoEnd x .sdoTimeout else d

/-- The open transfer goes on, with a frame of the client just heard (R77). -/
def Dev.sdoKeep (d : Dev) (x : SdoXfer) : Dev := { d with can := { d.can with sdo := some { x with heard := d.can.ticks } } }

/-- An SDO upload request executes (R77): the value is read as one value (R62). -/
def Dev.runSdoUpload (d : Dev) (index sub : Nat) (kind : SdoKind) : Dev :=
  match d.readAt index sub with
  | .error a => d.sdoRefuse index sub a
  | .ok (b, d) =>
    let b := canOrder index sub b
    if sdoMost < b.length then d.sdoRefuse index sub .unsupported
    else
      let x : SdoXfer :=
        { index := index, sub := sub, download := false, kind := kind, size := b.length, data := b, crc := crc16 b }
      let open_ := fun (cs : Nat) => (d.sdoKeep x).sdoSend ([cs] ++ sdoHead index sub ++ leOctets 4 b.length)
      match kind with
      | .block _ => open_ 0xC6
      | _ => if b.length ≤ 4 then d.sdoSend ([0x43 + 4 * (4 - b.length)] ++ sdoHead index sub ++ b) else open_ 0x41

/-- The client's part in a block upload (R77): it starts, acknowledges `seq` segments of those sent last, or ends. -/
def Dev.sdoBlockUp (d : Dev) (x : SdoXfer) (n seq : Nat) (last : Bool) : Dev :=
  if last then { d with can := { d.can with sdo := none } }
  else if x.seq < seq then d.sdoEnd x .badSeq
  else
    let rest := x.data.drop (7 * seq)
    let count := min n ((rest.length + 6) / 7)
    let y := { x with data := rest, seq := count }
    if rest = [] ∧ (0 < seq ∨ x.size = 0) then
      let spare := (7 - x.size % 7) % 7
      (d.sdoKeep y).sdoSend ([0xC1 + 4 * spare] ++ leOctets 2 x.crc)
    else
      (List.range count).foldl (fun d i =>
        let b := (rest.drop (7 * i)).take 7
        d.sdoSend ([(i + 1) + (if rest.length ≤ 7 * (i + 1) then 128 else 0)] ++ b))
        (d.sdoKeep y)

/-! ### PDO -/

/-- Is PDO `i` of this COB-ID enabled (R72)? -/
def Dev.pdoOn (d : Dev) (cob : Obj) (i : Nat) : Bool :=
  decide (d.can.nmt = .operational) && decide (i < 4) && !bit (d.nat cob i) 31

/-- The mapping of PDO `i`. -/
def Dev.mapping (d : Dev) (map : Obj) (i : Nat) : List (Nat × (Nat × Nat)) :=
  (List.range (d.nat map i)).map fun j => mapEntry (d.nat map i (j + 1))

/-- The entries of an RPDO are written in mapping order; a refused one is counted (R81). -/
def Dev.rpdoWrite (d : Dev) : List (Nat × (Nat × Nat)) → Octets → Dev
  | [], _ => d
  | e :: r, b =>
    let n := e.2.2 / 8
    let x := d.countWrite .can e.1 e.2.1 (canOrder e.1 e.2.1 (b.take n))
    (if x.1 = 0 then x.2 else x.2.bump .RPDO_REFUSED).rpdoWrite r (b.drop n)

/-- Samples the objects that a TPDO maps (R81). -/
def Dev.tpdoTake (d : Dev) : List (Nat × (Nat × Nat)) → Octets × Dev
  | [] => ([], d)
  | e :: r =>
    let x := match d.readAt e.1 e.2.1 with
      | .ok (b, d) => (canOrder e.1 e.2.1 b, d)
      | .error _ => (List.replicate (e.2.2 / 8) 0, d)
    let y := x.2.tpdoTake r
    (x.1 ++ y.1, y.2)

/-- Sends TPDO `i` with a sampled value. -/
def Dev.tpdoSend (d : Dev) (i : Nat) (b : Octets) : Dev :=
  { d with can := { d.can with tpdo := tset i (b, d.can.ticks) d.can.tpdo } }.canSend (d.nat .TPDO_COB_ID i) b

/-- Has the inhibit time of TPDO `i` passed (R73, R81)? -/
def Dev.tpdoFree (d : Dev) (i : Nat) : Bool :=
  match tfind i d.can.tpdo with
  | none => true
  | some x => decide (d.nat .TPDO_INHIBIT i = 0) || decide (x.2 + usStrides (d.nat .TPDO_INHIBIT i) ≤ d.can.ticks)

/-- TPDO `i` is sampled; it is sent where `always`, or where its value has changed and the inhibit time has passed (R81). -/
def Dev.tpdoSample (d : Dev) (i : Nat) (always : Bool) : Dev :=
  if !d.pdoOn .TPDO_COB_ID i then d
  else
    let r := d.tpdoTake (d.mapping .TPDO_MAP i)
    let changed := match tfind i d.can.tpdo with
      | none => true
      | some x => decide (x.1 ≠ r.1)
    if always || (changed && d.tpdoFree i) then r.2.tpdoSend i r.1 else r.2

/-- The TPDOs at an edge (R81). -/
def Dev.tpdoEdge (d : Dev) : Dev := (List.range 4).foldl (fun d i => d.tpdoSample i false) d

/-- The event timer of TPDO `i` runs out (R81). -/
def Dev.tpdoEvent (d : Dev) (i : Nat) : Dev :=
  if d.pdoOn .TPDO_COB_ID i && d.flag .TPDO_EVENT i && d.tpdoFree i then d.tpdoSample i true else d

/-- NMT start (R75, R81): each enabled TPDO is sent once on entering operational. -/
def Dev.nmtStart (d : Dev) (node : Nat) : Dev :=
  if d.nmtMine node && decide (d.can.nmt ≠ .operational) then
    let d := d.setNmt .operational
    (List.range 4).foldl (fun d i => d.tpdoSample i true) { d with can := { d.can with tpdo := [] } }
  else d

/-- NMT stop and enter pre-operational (R75). -/
def Dev.nmtEnter (d : Dev) (node : Nat) (x : Nmt) : Dev := if d.nmtMine node then d.setNmt x else d

/-- NMT reset node and reset communication, which the device treats alike (R75). -/
def Dev.nmtReset (d : Dev) (node : Nat) : Dev := if d.nmtMine node then d.commReset [] else d

/-- The number of an NMT state in a heartbeat (log entry 41). -/
def Nmt.num : Nmt → Nat
  | .initialising => 0
  | .preOperational => 127
  | .operational => 5
  | .stopped => 4

/-- The heartbeat time runs out (R73, R75). -/
def Dev.heartbeat (d : Dev) : Dev :=
  if d.flag .PRODUCER_HEARTBEAT_TIME ∧ d.can.nmt ≠ .initialising then d.canSend (0x700 + d.can.node) [d.can.nmt.num] else d

/-! ### Bus errors -/

/-- CAN enters error passive (R76, R78). -/
def Dev.canPassive (d : Dev) : Dev :=
  ({ d with can := { d.can with commBit := true } }.setN .CAN_STATUS 0 1).emcy 0x8120 0 0 0

/-- CAN enters bus off (R76, R78). -/
def Dev.canBusOff (d : Dev) : Dev := { d with can := { d.can with commBit := true } }.setN .CAN_STATUS 0 2

/-- CAN has recovered from bus off (R76). -/
def Dev.canRecovered (d : Dev) : Dev :=
  if d.nat .CAN_STATUS = 2 then (d.setN .CAN_STATUS 0 0).emcy 0x8140 0 0 0 else d

/-- A received frame is lost (R76). -/
def Dev.canOverrun (d : Dev) : Dev := d.emcy 0x8110 0 0 0

/-- CAN leaves error passive (R78). -/
def Dev.canActive (d : Dev) : Dev := if d.nat .CAN_STATUS = 1 then d.setN .CAN_STATUS 0 0 else d

/-- CAN has been error active for 1 lap (R78). -/
def Dev.commClear (d : Dev) : Dev :=
  if d.nat .CAN_STATUS = 0 ∧ d.can.commBit then
    let old := d.errorRegister
    { d with can := { d.can with commBit := false } }.registerCleared old
  else d

end Sys2Proof.Machine
end

