-- ==== Sys2Proof/Machine/Media.lean ====
section
/-! DEFINITION. What a leg's media do at an edge: they follow the leg's state (R105, R107 to R109, R160, R174), its keys (R450) and its
receive slots (R141), and its video runs where it may (R211, R215, R258, R265, R308, R411). -/

namespace Sys2Proof.Machine

/-- The keys written in REKEY become held at the edge after REKEY_DONE (R450). The receive key that they replace serves the packets stamped
before this edge (R153). -/
def Dev.installKeys (d : Dev) (n : Nat) : Dev :=
  let k := d.keysOf n
  if !k.install then (if k.rxOld = none then d else d.setKeys n { k with rxOld := none })
  else d.setKeys n { k with
    tx := k.txPending.orElse fun _ => k.tx, rx := k.rxPending.orElse fun _ => k.rx, rxOld := k.rx
    suite := d.nat .LEG_SUITE n, txPending := none, rxPending := none, txNew := false, rxNew := false, install := false }

/-- LEG_SSRC_FLUSH frees the leg's receive slots (R141). -/
def Dev.flushSlots (d : Dev) (n : Nat) : Dev :=
  let x := d.rxOf n
  if !x.flush then d
  else d.setRx n { x with flush := false, slots := [] }

/-- The state that the media of leg `n` are to follow; a leg that came to REKEY from CONFIGURED has none (R108). -/
def Dev.mediaWant (d : Dev) (n : Nat) : Nat :=
  if d.legState n = .rekey ∧ d.nat .LEG_PRIOR_STATE n = 1 then 1 else d.nat .LEG_STATE n

/-- The media of leg `n` begin to drain (R109, R153): what waits in its jitter buffers is discarded. Nothing is sent where the leg came from
REKEY (R119). -/
def Dev.drainBegin (d : Dev) (n from_ : Nat) : Dev :=
  let d := d.setRx n { d.rxOf n with jbs := [] }
  if from_ = 4 then (d.discardQueues n).setTx n { (d.discardQueues n).txOf n with control := [] } else d

/-- The media of leg `n` follow its state at an edge (R105, R109, R160, R174). Those of a suspended leg stand still (R437). -/
def Dev.mediaEdge (d : Dev) (n : Nat) : Dev :=
  let l := d.lifeOf n
  let want := d.mediaWant n
  if l.suspended ∨ l.media = want then d
  else
    let d := d.setLife n { l with media := want }
    if want = 2 then (d.loopBegin n (decide (l.media < 2))).audioBegin n (decide (l.media < 2))
    else if want = 3 ∨ want = 4 ∨ want = 6 then d.discardQueues n
    else if want = 5 then d.drainBegin n l.media
    else d

/-- The encodes that a leg carries. -/
def legEncs (n : Nat) : List EncId := .composed n :: (List.range 4).map (.tile n)

/-- Decode slot `s` of leg `n` begins or stops as it may run (R215, R231, R411). At each beginning it asks for a keyframe (R225). -/
def Dev.decSwitch (d : Dev) (n s : Nat) : Dev :=
  let off := decide (d.nat .DEC_STATE n s = 0)
  match d.decOn n s, off with
  | true, true => (d.decBegin n s).decRequest n s
  | false, false => d.decStop n s
  | _, _ => d

/-- An encode that may no longer run stops, and its composer items leave (R258, R411). -/
def Dev.encSwitch (d : Dev) (e : EncId) : Dev :=
  if d.encOn e then d.encReport e
  else
    let x := d.encOf e
    let held := (List.range 4).any fun k => (d.compOf k).items.any fun i => decide (itemEnc i.id = e)
    if x.running || x.cur ≠ [] || held then (d.encStop e).dropItems e else d.encReport e

/-- The video of leg `n` begins and stops at an edge. -/
def Dev.videoEdge (d : Dev) (n : Nat) : Dev :=
  let d := (List.range 2).foldl (fun d s => d.decSwitch n s) d
  let d := (legEncs n).foldl Dev.encSwitch d
  let d := if (d.viewOf n).active && !d.spliceOn n then d.viewStop n else d
  if !d.videoRuns n && (List.range 16).any fun j => decide ((d.fwdOf n j).source ≠ 0xFFFF) then d.fwdStop n else d

/-- The strips that run. -/
def Dev.stripEncs (d : Dev) : List EncId := (d.enc.map (·.1)).filter fun e => match e with
  | .strip _ => true
  | _ => false

/-- Everything that follows the leg states at an edge. -/
def Dev.mediaEdges (d : Dev) : Dev :=
  let d := d.legs.foldl (fun d n => ((d.installKeys n).flushSlots n).mediaEdge n) d
  let d := d.legs.foldl Dev.videoEdge d
  d.stripEncs.foldl Dev.encSwitch d

end Sys2Proof.Machine
end

