-- ==== Sys2Proof/Machine/Reset.lean ====
section
/-! DEFINITION. Resets and release (R419 to R444): cold and warm reset, the fall-back, region reset, the option block and its P images,
the release of the domains, and the PLLs. -/

namespace Sys2Proof.Machine

/-- The objects whose value the booted copy gives in its own fields (R427, R495). -/
def bootedObjs : List Obj := [.RELEASE_GAP, .OPT_SEQUENCE, .OPT_DIGEST, .DRAM_RANKS, .POOL_SHARE]

/-- The device as a cold reset finds it (R419, R439): class P and the fuses stay, the flash keeps what it holds, and nothing else. -/
def Dev.coldDev (d : Dev) : Dev :=
  { out := d.out, free := d.free
    dict := d.dict.filter fun kv => decide (kv.1.o.row.cls = .P) && !bootedObjs.contains kv.1.o
    sec := { tk := d.sec.tk, ownerNext := d.sec.ownerNext, ownerRevokeNext := d.sec.ownerRevokeNext }
    rst := { halfA := d.rst.halfA, halfB := d.rst.halfB } }

/-- The nonce of a boot and LAST_RESET (R439, R441). -/
def Dev.newBoot (d : Dev) (kind source : Nat) : Dev :=
  let r := d.draw
  (r.2.setN .BOOT_NONCE 0 (r.1 % 2 ^ 32)).setN .LAST_RESET 0 (kind * 2 ^ 24 + source * 2 ^ 16)

/-- The alarm sources that stand as the always-on domain is released latch at once (R444, R457). -/
def Dev.relatch (d : Dev) (sources : Nat) : Dev :=
  (List.range 4).foldl (fun d i => if bit sources i then d.alarm i [] else d) d

/-- A cold reset released: steps 1 to 3 of the release (R422, R439, R443). -/
def Dev.coldRelease (d : Dev) (source sources : Nat) : Dev :=
  let d := d.coldDev.ownerTakeEffect.newBoot 1 source
  let p : Pins := { healthy := .low, canTxd := .idle, xspiCsn := .high, xspiOther := .driven }
  { d with rst := { d.rst with released := true, step := 3 }, pins := p }.relatch sources

/-- PORn falls (R419, R420, R443). -/
def Dev.pornAssert (d : Dev) : Dev := d.coldDev

/-- PORn rises (R422). -/
def Dev.pornRelease (d : Dev) (sources : Nat) : Dev := if d.rst.released then d else d.coldRelease 0 sources

/-- The fall-back (R423, R426, R432, R439, R443). -/
def Dev.fallback (d : Dev) (source status : Nat) : Dev :=
  let sources := d.nat .ALARM_ACTIVE
  let d := ((d.coldDev.newBoot 3 source).setN .OPT_STATUS 0 status).setService .minimum
  let p : Pins :=
    { healthy := .low, ddrResetN := .low, ddrCke := .low, canTxd := .driven, xspiCsn := .driven, xspiOther := .driven
      serdes := .idle }
  ({ d with rst := { d.rst with released := true, step := 2 }, pins := p }.relatch sources).bootUp

/-! ### The option block -/

/-- Which copy boots, with what OPT_STATUS says of copies A and B (R426): the valid one of higher SEQUENCE, A where they are equal,
and the other where its digests fail. -/
def Dev.chooseCopy (d : Dev) (a b : OptCopy) : (Nat × Nat) × Option (Nat × OptCopy) :=
  let first := fun (c : OptCopy) => d.optResult { c with digestOk := true }
  let ra := first a
  let rb := first b
  let order := if rb = 1 ∧ (ra ≠ 1 ∨ a.sequence < b.sequence) then [(1, b), (0, a)] else [(0, a), (1, b)]
  let valid := order.filter fun x => decide ((if x.1 = 0 then ra else rb) = 1)
  let tried := valid.takeWhile fun x => !x.2.digestOk
  let bad := fun (h r : Nat) => if tried.any fun x => decide (x.1 = h) then 8 else r
  ((bad 0 ra, bad 1 rb), (valid.drop tried.length).head?)

/-- The key that an entry of a P-image table may name (R428): class K, and writable. -/
def imageKey (e : PEntry) : Option Key :=
  match lookup e.index e.sub with
  | .at k => if k.o.row.cls = .K ∧ k.o.row.acc ≠ .ro then some k else none
  | _ => none

/-- One entry of a P-image table is written (R65, R428): the device, and whether it was skipped. -/
def Dev.writeImage (d : Dev) (e : PEntry) : Dev × Bool :=
  match imageKey e with
  | none => (d, true)
  | some k =>
    match d.writeKey .boot k e.data with
    | .ok d => ({ d with rst := { d.rst with pImages := tset k (d.get k.o k.u k.k) d.rst.pImages } }, false)
    | .error (_, d) => (d, true)

/-- The keys of `written` that relations over them break, with every object those relations name at its default (R428). -/
def Dev.dropBroken (d : Dev) (written : List Key) : List Key × Dev :=
  let bad := ((written.map d.look.relationsOf).flatten.eraseDups).filter fun r => !r.holds d.look
  let gone := (bad.map Relation.keys).flatten.eraseDups
  (written.filter gone.contains,
   { d with
     dict := d.dict.filter fun kv => !gone.contains kv.1
     rst := { d.rst with pImages := d.rst.pImages.filter fun kv => !gone.contains kv.1 } })

/-- `dropBroken` until no relation over the objects written fails: a default may break another. -/
def Dev.dropAllBroken (d : Dev) : Nat → List Key → List Key × Dev
  | 0, _ => ([], d)
  | fuel + 1, written =>
    let r := d.dropBroken written
    if r.1 = [] then ([], r.2)
    else
      let t := r.2.dropAllBroken fuel (written.filter fun k => !r.1.contains k)
      (r.1 ++ t.1, t.2)

/-- Counts the entries of a table that were skipped, and logs the first (R428, R442). -/
def Dev.countSkipped (d : Dev) (table : Nat) (offsets : List Nat) : Dev :=
  match minBy? id offsets with
  | none => d
  | some o =>
    (d.add .OPT_ENTRIES_SKIPPED 0 0 offsets.length).logRec
      { level := 3, cls := .degraded, unit := 0, code := 0x0C04, detail := Config.detail 0x0C04 [table, o, offsets.length] }

/-- The P images are applied (R428). -/
def Dev.applyImages (d : Dev) (es : List PEntry) : Dev :=
  let r := es.foldl (fun (a : Dev × (Nat × (List Nat × List (Key × Nat)))) e =>
    let w := a.1.writeImage e
    let at_ := a.2.1
    let skips := if w.2 then a.2.2.1 ++ [at_] else a.2.2.1
    let keys := match w.2, imageKey e with
      | false, some k => tset k at_ a.2.2.2
      | _, _ => a.2.2.2
    (w.1, (at_ + PEntry.size e, (skips, keys)))) (d, (0, ([], [])))
  let keys := r.2.2.2
  let b := r.1.dropAllBroken (keys.length + 1) (keys.map (·.1))
  b.2.countSkipped 0 (r.2.2.1 ++ b.1.map fun k => tget 0 k keys)

/-- POOL_SHARE of a copy: its shares, or the defaults where they exceed the whole (R358). -/
def Dev.setShares (d : Dev) (shares : List Nat) : Dev :=
  let fit := decide (shares.length = 6) && decide (shares.foldl (· + ·) 0 ≤ 256)
  let s := if fit then shares else [2, 24, 24, 16, 32, 158]
  (List.range 6).foldl (fun d p => d.setN .POOL_SHARE p (s.getD p 0)) d

/-- The chosen copy is applied (R427, R428, R441, R461). -/
def Dev.applyCopy (d : Dev) (half : Nat) (c : OptCopy) : Dev :=
  let gap := if 64 ≤ c.releaseGap ∧ c.releaseGap ≤ 4096 then c.releaseGap else 256
  let d := ((d.setN .OPT_COPY 0 half).setN .OPT_SEQUENCE 0 c.sequence).put .OPT_DIGEST 0 0 (.bytes c.digest)
  let d := ((d.setN .RELEASE_GAP 0 gap).setN .DRAM_RANKS 0 c.ranks).setShares c.shares
  let d := d.setN .OWNER_BOOT_SLOT 0 (if d.nat .OWNER_STATE % 16 = 0 then 0xFF else c.ownerSlot)
  let d := d.applyImages c.ptable
  { d with rst := { d.rst with optDone := true, standing := if bit c.warmup 0 then c.stable else [] } }

/-- The records of the copies that failed, and of the reset (R442). -/
def Dev.logBoot (d : Dev) (source ra rb : Nat) : Dev :=
  let bad := fun (d : Dev) (h r : Nat) =>
    if r = 1 ∨ r = 0 then d
    else d.logRec { level := 3, cls := .degraded, unit := 0, code := 0x0C03, detail := Config.detail 0x0C03 [h, r] }
  (bad (bad d 0 ra) 1 rb).logRec
    { level := 3, cls := .recovered, unit := 0, code := 0x0C01, detail := Config.detail 0x0C01 [source, rb * 256 + ra] }

/-- The reader has read both copies (R426): one boots, or the device enters the fall-back. -/
def Dev.optionBlockRead (d : Dev) (a b : OptCopy) (octal : Bool) : Dev :=
  if !d.rst.released ∨ d.rst.step < 3 ∨ d.rst.optDone ∨ d.rst.inWarm ∨ d.service = .minimum then d
  else
    let c := d.chooseCopy (d.rst.halfA.found a) (d.rst.halfB.found b)
    let ra := c.1.1
    let rb := c.1.2
    let source := d.nat .LAST_RESET / 2 ^ 16 % 256
    match c.2 with
    | none => (d.fallback 7 (rb * 256 + ra)).logBoot source ra rb
    | some (half, copy) =>
      let d := (d.setN .XSPI_MODE 0 (if octal then 1 else 0)).setN .OPT_STATUS 0 (rb * 256 + ra)
      let d := (d.logBoot source ra rb).applyCopy half copy
      ((d.cobDefaults (d.nat .CAN_NODE_ID)).bootUp).bringup 0

/-! ### Release -/

/-- Step 4 of the release (R335, R422, R443): the channels begin to train. -/
def Dev.releaseDdr (d : Dev) : Dev :=
  let d := { d with pins := { d.pins with ddrResetN := .low, ddrCke := .low, ddrOther := .driven } }
  if d.nat .DRAM_RANKS = 1 ∨ d.nat .DRAM_RANKS = 2 then (List.range 4).foldl (fun d c => d.startTraining c false) d else d

/-- The ports that are released, and the SerDes transmitters with them (R422, R443). -/
def Dev.releasePorts (d : Dev) : Dev :=
  let on := (List.range 4).filter fun p => d.flag .PORT_MODE p
  let d := (List.range 4).foldl (fun d p => d.setN .PD_STATE (44 + p) (if d.flag .PORT_MODE p then 0 else 3)) d
  { d with pins := { d.pins with tout := .idle, snapOut := .low, serdes := if on = [] then .idle else .driven } }

/-- Step 5 of the release (R57, R422, R443): the packet engine, the cipher and the ports; the time bases and the stride generator start
at 0. -/
def Dev.releasePacket (d : Dev) : Dev :=
  let d := { d with tb := [], gen := { running := true } }
  (d.setN .PD_STATE 48 0).releasePorts

/-- Region `g` is released, with the units whose clocks fail their check left fenced (R423, R424). `clockFails` numbers the units of the
region: blocks 0 to 15, pairs 16 to 19, composer 20. -/
def Dev.releaseRegion (d : Dev) (g : Nat) (clockFails : List Nat) : Dev :=
  if d.rst.fabricFailed.contains g then d
  else clockFails.eraseDups.foldl (fun d u =>
    if u < 16 then (if d.nat .BLK_STATE (16 * g + u) < 3 then d.closeBlock (16 * g + u) 3 else d)
    else if u < 20 then d.isolatePair (4 * g + (u - 16))
    else if u = 20 then d.isolateComposer g
    else d) d

/-- A release gap has passed and the next domain is released, where its PLL is stable (R422, R423). -/
def Dev.domainRelease (d : Dev) (clockFails : List Nat) : Dev :=
  let r := d.rst
  let step := fun (d : Dev) => { d with rst := { d.rst with step := d.rst.step + 1 } }
  if d.service = .minimum ∨ r.inWarm then d
  else match r.step with
    | 3 => if r.optDone && r.ddrPll then step d.releaseDdr else d
    | 4 => if r.packetPll then step d.releasePacket else d
    | 5 => if r.fabricPll.contains 0 || r.fabricFailed.contains 0 then step (d.releaseRegion 0 clockFails) else d
    | 6 => if r.fabricPll.contains 1 || r.fabricFailed.contains 1 then step (d.releaseRegion 1 clockFails) else d
    | 7 => if r.fabricPll.contains 2 || r.fabricFailed.contains 2 then step (d.releaseRegion 2 clockFails) else d
    | 8 => if r.fabricPll.contains 3 || r.fabricFailed.contains 3 then step (d.releaseRegion 3 clockFails) else d
    | _ => d

/-- A PLL reports lock (R423). -/
def Dev.pllLock (d : Dev) (p : Pll) : Dev :=
  if d.rst.step < 3 then d
  else match p with
    | .packet => { d with rst := { d.rst with packetPll := true } }
    | .ddr => { d with rst := { d.rst with ddrPll := true } }
    | .fabric g =>
      if g < 4 ∧ !d.rst.fabricPll.contains g then { d with rst := { d.rst with fabricPll := d.rst.fabricPll ++ [g] } } else d

/-- A PLL has not locked within 2 ms (R423): the fall-back, or a region left in reset with its units fenced. -/
def Dev.pllTimeout (d : Dev) (p : Pll) : Dev :=
  if d.rst.step < 3 then d
  else match p with
    | .packet => if d.rst.packetPll then d else d.fallback 8 (d.nat .OPT_STATUS)
    | .ddr => if d.rst.ddrPll then d else d.fallback 8 (d.nat .OPT_STATUS)
    | .fabric g =>
      if 4 ≤ g ∨ d.rst.fabricPll.contains g ∨ d.rst.fabricFailed.contains g then d
      else
        let d := { d with rst := { d.rst with fabricFailed := d.rst.fabricFailed ++ [g] } }.setN .RGN_STATE g 1
        let blocks := ((List.range 16).map (16 * g + ·)).filter fun b => decide (d.nat .BLK_STATE b < 3)
        let d := blocks.foldl (fun d b => d.closeBlock b 3) d
        let d := (((List.range 4).map (4 * g + ·)).foldl Dev.isolatePair d).isolateComposer g
        d.logRec { level := 3, cls := .serviceAffecting, action := .fenced, unit := 0, code := 0x0C05
                   detail := Config.detail 0x0C05 [g] }

/-! ### Region reset -/

/-- Is a key of region `g` or of one of its units? -/
def keyOfRegion (g : Nat) (k : Key) : Bool :=
  ((List.range 16).any fun b => keyOfBlock (16 * g + b) k) || ((List.range 4).any fun p => keyOfPair (4 * g + p) k) ||
    keyOfComposer g k ||
    ((decide (k.o.row.base = 0x6140) || decide (k.o.row.base = 0x6804)) && decide (k.u = g))

/-- The fenced and isolated units of a region come back (R382, R387); where that clears the last bit of the error register, EMCY 0x0000
says so (R79). -/
def Dev.unitsBack (d : Dev) (g : Nat) : Dev := (d.returnUnits g).registerCleared d.errorRegister

/-- RESET_CMD REGION `g` is performed (R421, R424, R439): its work moves as for a failed region, and every unit that passes its check
returns. -/
def Dev.regionReset (d : Dev) (g source : Nat) : Dev :=
  if d.nat .RGN_STATE g = 2 then d
  else
    let d := d.setN .RGN_STATE g 1
    let blocks := ((List.range 16).map (16 * g + ·)).filter fun b => decide (d.nat .BLK_STATE b < 3)
    let caps := blocks.map fun b => (b, d.nat .BLK_CAPACITY b)
    let quiet := d.legs.filter fun n => blocks.contains (d.nat .LEG_ADMIT_BLOCK n)
    let d : Dev := { d with faults := { d.faults with silent := d.faults.silent ++ quiet } }
    let d := blocks.foldl (fun d b => (d.failBlockItems b).rehomeBlock b) d
    let pairs := ((List.range 4).map (4 * g + ·)).filter fun p => decide (d.nat .PAIR_STATE (p / 4) (p % 4) ≠ 2)
    let d := pairs.foldl (fun d p => (d.restartPictures p).moveStreams p) d
    let d := if d.nat .COMPOSER_STATE g = 2 then d else d.shiftComposer g
    let d := (d.loseL (keyOfRegion g)).resetEvent 4 source g 4
    let d := caps.foldl (fun d x =>
      (d.setN .BLK_CAPACITY x.1 x.2).setN .ADMIT_CYCLES_CAP 0 (d.nat .ADMIT_CYCLES_CAP + x.2)) d
    let d := if d.rst.fabricFailed.contains g && !d.rst.fabricPll.contains g then d
      else ({ d with rst := { d.rst with fabricFailed := d.rst.fabricFailed.filter (· ≠ g) } }.unitsBack g).setN .RGN_STATE g 0
    let up := (((List.range 16).filter fun b => decide (d.nat .BLK_STATE (16 * g + b) < 3)).length) +
      (((List.range 4).filter fun k => decide (d.nat .PAIR_STATE g k ≠ 2)).length) +
      (if d.nat .COMPOSER_STATE g ≠ 2 then 1 else 0)
    d.logRec { level := 2, cls := .recovered, action := .unitReset, unit := g, code := 0x0C06
               detail := Config.detail 0x0C06 [g, up] }

/-! ### Warm reset -/

/-- The V and L objects that a warm reset does not return to their defaults (R438, R440): those that report pins and the CAN bus as they
are, the gates of domains until release, and the L objects that report K state. -/
def Key.heldWarm (k : Key) : Bool :=
  match k.o.row.cls with
  | .P => true
  | .K => true
  | .L => reported.contains k.o
  | .V => [Obj.ALARM_ACTIVE, Obj.CAN_STATUS, Obj.PD_STATE].contains k.o

/-- The life of a leg through a warm reset: its reservation stays, its media begin again (R160, R438). -/
def Dev.warmLife (d : Dev) (n : Nat) : LegLife :=
  let l := d.lifeOf n
  let s := d.nat .LEG_STATE n
  { l with
    media := if s = 2 ∨ s = 3 then 3 else d.mediaWant n
    suspended := false, silentFrom := 0, drainEnd := l.drainEnd.map fun _ => 0 }

/-- A leg's audio through a warm reset (R206, R438): filter, gate, AGC, limiter and conversion state start from zero with γ 0. -/
def warmAudio (a : LegAudio) : LegAudio :=
  { a with
    gate := false, gateHold := 0, gateGain := 0, gamma := 0, agcGain := 0x1000, x := [], done := false, cut := false
    srcIn := {}, srcOut := {}, inBq := List.replicate 4 {}, outBq := List.replicate 4 {}, lim := {}
    frame := [], frameStrides := 0, ready := none, fresh := none, marker := true, move := none, want := false, outDone := false, outCut := true
    inPeakAge := 0, outPeakAge := 0, events := [], openEv := [], dtmf := {} }

/-- Everything but the always-on domain, the class K state and the committed state of the flows is reset (R438). -/
def Dev.warmParts (d : Dev) : Dev :=
  let now := d.stride
  let tx := fun (n : Nat) (t : Tx) =>
    ({ twcc := t.twcc, rtcpIndex := t.rtcpIndex, audioSeq := t.audioSeq, audioTs := t.audioTs, audioSsrc := t.audioSsrc
       rtpIndex := t.rtpIndex, repair := t.repair, target := d.nat .LINE_TARGET n * 1000 } : Tx)
  let loop := fun (n : Nat) =>
    let e := d.nat .LINE_TARGET n * 1000
    ({ e := e, pending := some e } : Loop)
  let mix := fun (m : ConfMix) =>
    ({ set := m.set.map fun x => { x with since := 0 }, lead := m.lead, places := m.places, waiting := m.waiting
       homes := m.homes } : ConfMix)
  let enc := fun (e : Enc) =>
    ({ ssrc := e.ssrc, seq := e.seq, ts := (e.ts + 150 * (now - e.s0.getD now)) % 2 ^ 32, down := e.down } : Enc)
  let view := fun (v : View) =>
    ({ ssrc := v.ssrc, seq := v.seq, ts := (v.ts + 150 * (now - v.s0.getD now)) % 2 ^ 32 } : View)
  let fwd := fun (f : FwdSlot) =>
    ({ ssrc := f.ssrc, drawn := f.drawn, outTs := f.outTs, outSeq := f.outSeq, outFrame := f.outFrame } : FwdSlot)
  let chan := fun (c : Chan) =>
    ({ lanes := c.lanes, held := c.held, step := c.step, ms := c.ms, retrain := c.retrain, inited := c.inited } : Chan)
  { d with
    stage := [], resultBefore := 0, gen := {}, pulses := [], ptp := []
    caps := d.caps.map fun kv => (kv.1, { level := kv.2.level })
    hdp := { openSeq := d.hdp.openSeq }
    sec := { d.sec with
      job := none, leaseEnd := 0, attestNonce := [], attestFields := none, attestAsked := false }
    faults := { d.faults with
      fresh := [], seen := [], rails := [], stages := [], injected := [], resetAdvised := false }
    gov := {}, ports := [], pairs := [], addrBuckets := []
    life := d.life.map fun kv => (kv.1, d.warmLife kv.1)
    rx := [], loop := d.loop.map fun kv => (kv.1, loop kv.1), tx := d.tx.map fun kv => (kv.1, tx kv.1 kv.2)
    audio := d.audio.map fun kv => (kv.1, Sys2Proof.Machine.warmAudio kv.2)
    mix := d.mix.map fun kv => (kv.1, mix kv.2)
    chan := d.chan.map fun kv => (kv.1, chan kv.2)
    panic := [], panicAcc := 0
    blk := d.blk.map fun kv => (kv.1, { renameReserve := kv.2.renameReserve })
    cell := [], flows := [], arb := []
    flowHomes := d.flowHomes.map fun kv => (kv.1, { kv.2 with written := [] })
    pairx := d.pairx.map fun kv => (kv.1, { kbps := kv.2.kbps })
    dec := [], enc := d.enc.map fun kv => (kv.1, enc kv.2), comp := []
    view := d.view.map fun kv => (kv.1, view kv.2), fwd := d.fwd.map fun kv => (kv.1, fwd kv.2), fsrc := []
    waking := [], tapFrom := 0 }

/-- The outputs through a warm reset (R443). -/
def Pins.warm (p : Pins) : Pins :=
  { p with
    healthy := .low, tout := .held, snapOut := .held, ddrResetN := .high, ddrCke := .low, ddrOther := .held
    xspiCsn := .high, xspiOther := .held, serdes := .idle }

/-- A warm reset begins (R438, R439, R443). Before the first handover since a cold reset it is performed as a cold reset (R444). -/
def Dev.warmEnter (d : Dev) (source : Nat) : Dev :=
  if !d.rst.released ∨ d.service = .minimum then d
  else if !d.rst.handed then d.coldRelease source (d.nat .ALARM_ACTIVE)
  else if d.rst.inWarm then d
  else
    let d := (List.range 4).foldl Dev.selfRefresh d
    let d := ((d.pulses.map (·.1)).foldl Dev.pulseEnd d).closeSessions
    let d := if d.locked then d.lockExpire 2 else d
    let d := d.warmParts
    let d := { d with dict := d.dict.filter fun kv => kv.1.heldWarm }
    let d := { d with
      pins := d.pins.warm
      rst := { d.rst with
        inWarm := true, warmSource := source, asks := [], writing := none, handoverAt := none, resumeAt := none
        carried := [], returnDue := false } }
    d.resetEvent 2 source 0 6

/-- The time bases at release (R58): each reloaded from the value that the always-on domain carried, at its frozen rate and in whole 40 ns, for a
time that no command gives, and not VALID. In FREE mode VALID returns at the first edge after service resumes, where it stood before the reset or
was to return. -/
def Dev.reloadTbs (d : Dev) : Dev :=
  let r := d.draw
  (List.range 8).foldl (fun d n =>
    let b := d.tbOf n
    let gone := tdiv ((r.1 : Int) * (2 ^ 32 + d.int .TB_RATE_ADJ n)) (2 ^ 32)
    d.setTb n { b with
      t := ((b.t : Int) + gone * 40 * 65536).toNat % timeMod, acc := 0, valid := false, lockCount := 0, locked := false, holdover := false
      source := false, sample := none, revalidate := (b.valid || b.revalidate) && decide (d.nat .TB_MODE n = 0) }) r.2

/-- The stride generator at release (R58): STRIDE_IN_LAP reads the grid stride that holds the carried time, and the next edge is the
next grid edge. -/
def Dev.restartGen (d : Dev) : Dev :=
  let t : Int := (d.stbNs : Nat)
  let s := gridHolding t
  let next : Int := (t - t % 1000000000) + (if s + 1 = 600 then 1000000000 else (gridStart (s + 1) : Nat))
  let d := d.setN .STRIDE_IN_LAP 0 s
  { d with gen := { running := true, edge := next * 65536 } }

/-- What held channel `c` through the reset (R349, R444): self-refresh, or else it is retrained from step 1 and its buffers are lost. -/
def Dev.channelBack (d : Dev) (c : Nat) (lost : Bool) : Dev :=
  if d.chState c ≠ 5 then d
  else if !lost then d.leaveSelfRefresh c true
  else
    ((d.poolChannelLost c).startTraining c true).logRec
      { level := 3, cls := .degraded, unit := 0x2000 + c, code := 0x0C07, detail := c }

/-- The regions that a clock or its PLL failed return; one whose rails both failed does not (R386, R387). -/
def Dev.regionBack (d : Dev) (g : Nat) : Dev :=
  if bit (d.nat .FAILED_RAILS) (2 * g) && bit (d.nat .FAILED_RAILS) (2 * g + 1) then d
  else if d.rst.fabricFailed.contains g && !d.rst.fabricPll.contains g then d
  else ({ d with rst := { d.rst with fabricFailed := d.rst.fabricFailed.filter (· ≠ g) } }.setN .RGN_STATE g 0).unitsBack g

/-- What the release gives back: domains, regions, buffers, channels, and the drains that end with it (R109, R371, R424, R444). A closing
conference is CLOSED at the edge after them (R103). -/
def Dev.warmUnits (d : Dev) (notIn : List Nat) : Dev :=
  let d := (List.range 40).foldl (fun d dom => if d.nat .PD_STATE dom = 3 then d else d.wakeDomain dom) d
  let d := (List.range 4).foldl Dev.regionBack d
  let d := (List.range 4).foldl (fun d c => d.channelBack c (notIn.contains c)) d.poolSweep
  let d := (List.range 6).foldl Dev.poolTouch d
  (d.legs.filter fun n => decide (d.legState n = .draining)).foldl Dev.endDrain d


/-- The outputs that the release drives again (R443), and whether service has the channels it needs (R346). -/
def Dev.warmPins (d : Dev) : Dev :=
  let d := { d with pins := { d.pins with ddrCke := .high, ddrOther := .driven, xspiOther := .driven } }.releasePorts
  { d with rst := { d.rst with returnDue := decide (d.inService < 2) } }

/-- WRSTn has risen and the release runs from step 2 (R58, R349, R371, R422, R438, R444). -/
def Dev.warmRelease (d : Dev) (resume : Nat) (notIn : List Nat) : Dev :=
  if !d.rst.inWarm then d
  else
    let steps := min 24 (max 1 resume)
    let d := { d with rst := { d.rst with inWarm := false, resumeAt := some steps } }
    let d := (d.reloadTbs.restartGen.warmUnits notIn).warmPins
    (d.setN .WARM_RESUME 0 steps).logRec
      { level := 3, cls := .recovered, unit := 0, code := 0x0C02, detail := Config.detail 0x0C02 [d.rst.warmSource, steps] }

/-- A reset asked for by RESET_CMD is performed (R421, R444). -/
def Dev.performAsk (d : Dev) (ask : ResetAsk) (overCan : Bool) : Dev :=
  let source := if overCan then 3 else 2
  match ask with
  | .warm => d.warmEnter source
  | .cold => d.coldRelease source (d.nat .ALARM_ACTIVE)
  | .region g => d.regionReset g source

/-- The resets asked for that fall due at this edge, before its step 1 (R421). -/
def Dev.resetEdge (d : Dev) : Dev :=
  let due := d.rst.asks.filter fun a => decide (a.1 ≤ 1)
  let left := (d.rst.asks.filter fun a => decide (1 < a.1)).map fun a => (a.1 - 1, a.2)
  let d := { d with rst := { d.rst with asks := left } }
  due.foldl (fun d a => d.performAsk a.2.1 a.2.2) d

end Sys2Proof.Machine
end

