-- ==== Sys2Proof/Machine/Warmup.lean ====
section
/-! DEFINITION. Warm-up (R429, R430, R433 to R437): the standing table, the start, the handover and the return. -/

namespace Sys2Proof.Machine

/-- Writes one after another; the first refusal is the whole's. -/
def Dev.writeEach (d : Dev) : List (Key × Octets) → Except Abort Dev
  | [] => .ok d
  | (k, b) :: rest =>
    match d.writeKey .boot k b with
    | .ok d => d.writeEach rest
    | .error (a, _) => .error a

/-- Is there a block that carries warm-up (R433)? -/
def Dev.hasWarmBlock (d : Dev) : Bool := d.warmBlocks != []

/-- A conference record is applied (R429, R430). Where region 0 has no block in service it opens without a home, which the handover
gives it (R433). -/
def Dev.applyConf (d : Dev) (k mixN maxLegs : Nat) : Option Dev :=
  if 1024 ≤ k then none
  else match d.writeEach [(⟨.CONF_MIX_N, k, 0⟩, natToOctets 1 mixN), (⟨.CONF_MAX_LEGS, k, 0⟩, natToOctets 2 maxLegs)] with
    | .error _ => none
    | .ok d =>
      if !d.hasWarmBlock then
        some (((d.setN .CONF_STATE k 1).setN .CONFS_OPEN 0 (d.nat .CONFS_OPEN + 1)).setN .CONF_STANDING k 1)
      else match d.openConf k with
        | .ok d => some (d.setN .CONF_STANDING k 1)
        | .error _ => none

/-- The objects that a leg record writes, in order, before its keys (R429). -/
def standingWrites (n suite conf localAddr rxPt localPort remotePort : Nat) (remoteIp : Octets)
    (rxCodec txCodec txPt mixMode : Nat) : List (Key × Octets) :=
  [(⟨.LEG_SUITE, n, 0⟩, natToOctets 1 suite), (⟨.LEG_CONFERENCE, n, 0⟩, natToOctets 2 conf),
   (⟨.LEG_LOCAL_ADDR, n, 0⟩, natToOctets 1 localAddr), (⟨.LEG_LOCAL_PORT, n, 0⟩, natToOctets 2 localPort),
   (⟨.LEG_REMOTE_PORT, n, 0⟩, natToOctets 2 remotePort), (⟨.LEG_REMOTE_IP, n, 0⟩, remoteIp),
   (⟨.LEG_RX_CODEC, n, 0⟩, natToOctets 4 rxCodec), (⟨.LEG_TX_CODEC, n, 0⟩, natToOctets 4 txCodec),
   (⟨.LEG_TX_AUDIO_PT, n, 0⟩, natToOctets 1 txPt), (⟨.LEG_MIX_MODE, n, 0⟩, natToOctets 1 mixMode),
   (⟨.LEG_RX_PT, n, 0⟩, natToOctets 4 (2 ^ 31 + 256 + rxPt % 128))]

/-- A leg record is applied (R429): its objects, its keys and CONFIGURE. While an alarm is latched no key is loaded, and the leg is left
for REKEY (R108). -/
def Dev.applyLeg (d : Dev) (opened : List Nat) : Standing → Option (Nat × Dev)
  | .conf _ _ _ => none
  | .leg n suite conf addr rxPt lport rport ip rxc txc txPt mode txKey rxKey =>
    if 4096 ≤ n ∨ !opened.contains conf ∨ suite < 1 ∨ 3 < suite ∨ rxc % 16 = 0 ∨ 4 < rxc % 16 ∨ txc % 16 = 0 ∨ 4 < txc % 16 then none
    else
      let keys := if d.alarmed then [] else [((⟨.LEG_TX_KEY, n, 0⟩ : Key), txKey), (⟨.LEG_RX_KEY, n, 0⟩, rxKey)]
      match d.writeEach (standingWrites n suite conf addr rxPt lport rport ip rxc txc txPt mode ++ keys) with
      | .error _ => none
      | .ok e =>
        if !e.warmCodecs n then none
        else if d.alarmed then some (n, (e.setN .LEG_BUFFER_NEED n (e.bufferNeed n)).setLegState n .configured)
        else match e.configureLeg n with
          | .ok e => some (n, e)
          | .error _ => none

/-- Applies the records of the standing table in order (R429): the conferences opened, the legs configured, and the offsets skipped. -/
def Dev.applyStanding (d : Dev) : List Nat × (List Nat × (List Nat × Dev)) :=
  let r := d.rst.standing.foldl (fun (a : Nat × (List Nat × (List Nat × (List Nat × Dev)))) s =>
    let at_ := a.1
    let confs := a.2.1
    let legs := a.2.2.1
    let bad := a.2.2.2.1
    let d := a.2.2.2.2
    let next := at_ + Standing.size s
    let skip := (next, (confs, (legs, (bad ++ [at_], d))))
    match s with
    | .conf k mixN maxLegs =>
      if 64 ≤ confs.length then skip
      else match d.applyConf k mixN maxLegs with
        | some d => (next, (confs ++ [k], (legs, (bad, d))))
        | none => skip
    | s =>
      if 256 ≤ legs.length then skip
      else match d.applyLeg confs s with
        | some (n, d) => (next, (confs, (legs ++ [n], (bad, d))))
        | none => skip) (0, ([], ([], ([], d))))
  r.2

/-- A standing leg becomes ACTIVE on a warm-up block (R112, R113, R327, R433): no placement is refused. -/
def Dev.activateWarm (d : Dev) (n : Nat) : Dev :=
  let q := d.askOf n false
  let b := (d.placeBlock 0 false q.cycles).getD (d.warmBlocks.headD 0)
  (d.reserveLeg n b q []).enterActive n

/-- Warm-up begins (R433): at an edge whose number in the lap is divisible by 3, with region 0 released. -/
def Dev.warmupStart (d : Dev) : Dev :=
  if d.service ≠ .boot ∨ d.rst.handed ∨ !d.gen.running ∨ d.rst.step < 6 ∨ d.nat .STRIDE_IN_LAP % 3 ≠ 0 then d
  else
    let d := (d.setService .warmup).poolWarm true
    let r := d.applyStanding
    let d := r.2.2.2.countSkipped 1 r.2.2.1
    let legs := r.2.1
    let d := if d.alarmed then legs.foldl Dev.alarmLeg d
      else if d.hasWarmBlock then legs.foldl Dev.activateWarm d
      else { d with rst := { d.rst with carried := legs } }
    d.bringup 1

/-! ### Handover -/

/-- The handover condition (R435). -/
def Dev.handoverDue (d : Dev) : Bool :=
  ((List.range 4).all fun c => decide (2 ≤ d.chState c)) &&
    decide (2 ≤ ((List.range 4).filter fun c => decide (d.chState c ≠ 6)).length) && decide (9 ≤ d.rst.step)

/-- A conference gives its home block up. -/
def Dev.leaveHome (d : Dev) (k : Nat) : Dev :=
  let b := d.nat .CONF_HOME_BLOCK k
  if 64 ≤ b then d
  else
    let d := ((d.chargeCycles b (-(confBase : Int))).endHome (4096 + k) confBase).dropAll (4 + b / 16) (d.mixOf k).homes
    (d.setMix k { d.mixOf k with homes := [] }).setN .CONF_HOME_BLOCK k 0xFF

/-- A conference takes a home block under R102, where there is one. -/
def Dev.takeHome (d : Dev) (k : Nat) : Dev :=
  match d.chooseHomeBlock k with
  | none => d
  | some b =>
    let d := ((d.setN .CONF_HOME_BLOCK k b).chargeCycles b confBase).giveHome (4096 + k) b confBase
    if d.service = .warmup then d
    else
      let r := (d.ungate (blockDomain b)).alloc .home (4 + b / 16) 6144 (some k) 1
      r.2.setMix k { r.2.mixOf k with homes := r.1 }

/-- A leg that warm-up carries is admitted to full service under R110, and LEG_REFUSAL says how (R111, R116, R435). None is refused: where its
video finds no room, it is admitted for audio alone (DEDUCED, log entry 140). -/
def Dev.admitFull (d : Dev) (n : Nat) : Dev :=
  let r : Nat × Ask := match d.decide110 d n [5, 6, 7, 8, 9, 10, 11, 12, 13, 14] (d.flag .LEG_AUDIO_ONLY_FALLBACK n) with
    | .ok x => x
    | .error v => (v, d.askOf n false)
  let b := (d.blockFor d n r.2).getD (d.nat .CONF_HOME_BLOCK (d.nat .LEG_CONFERENCE n) % 64)
  let d := (d.reserveLeg n b r.2 []).setN .LEG_REFUSAL n r.1
  if r.1 = 0 then d else d.bump .ADMIT_REFUSALS

/-- Legs in the order of R116: ascending conference, then ascending leg. -/
def Dev.confOrder (d : Dev) (ls : List Nat) : List Nat := sortAsc (fun n => d.nat .LEG_CONFERENCE n * 4096 + n) ls

/-- The legs that a handover carries: those admitted in warm-up, or after a return the carried ones (R116, R437). -/
def Dev.handoverLegs (d : Dev) : List Nat :=
  d.confOrder (if d.rst.handed then d.rst.carried.filter d.reserved else d.legs.filter d.reserved)

/-- The handover begins at edge p (R435): the first edge divisible by 3 at which its condition has held. -/
def Dev.handoverBegin (d : Dev) : Dev :=
  if d.service ≠ .warmup ∨ !d.handoverDue ∨ d.nat .STRIDE_IN_LAP % 3 ≠ 0 ∨ d.rst.handoverAt.isSome then d
  else
    let passed := d.stride + 3
    let d := ((List.range 4).foldl Dev.initReached d).setService .full
    let legs := d.handoverLegs
    let confs := if d.rst.handed then sortAsc id (legs.map fun n => d.nat .LEG_CONFERENCE n).eraseDups else d.confs
    let d := confs.foldl Dev.leaveHome (legs.foldl Dev.releaseLeg d)
    let d := legs.foldl Dev.admitFull (confs.foldl Dev.takeHome d)
    { d.setService .warmup with rst := { d.rst with handoverAt := some passed } }

/-- A leg's audio passes from warm-up to full-service items (R436): limiter, filter and conversion states from zero, γ at 0, and its
output joined. -/
def LegAudio.handOver (a : LegAudio) : LegAudio :=
  { a with
    gamma := 0, agcGain := 0x1000, srcIn := {}, srcOut := {}, inBq := List.replicate 4 {}, outBq := List.replicate 4 {}, lim := {}
    join := true, outCut := true }

/-- A standing leg that found no block in warm-up becomes ACTIVE at the handover (R433). -/
def Dev.activateLate (d : Dev) (n : Nat) : Dev :=
  if d.legState n = .configured then (d.admitFull n).enterActive n else d

/-- Edge p + 3 (R436, R437): full service carries every leg, and suspended legs resume. -/
def Dev.handover (d : Dev) : Dev :=
  match d.rst.handoverAt with
  | none => d
  | some e =>
    if d.service ≠ .warmup ∨ d.stride < e ∨ d.nat .STRIDE_IN_LAP % 3 ≠ 0 then d
    else
      let legs := d.handoverLegs
      let late := if d.rst.handed then [] else d.rst.carried
      let d := (d.setService .full).poolWarm false
      let d := late.foldl Dev.activateLate d
      let resume := fun (l : LegLife) => { l with suspended := false }
      let d := { d with
        audio := d.audio.map fun (kv : Nat × LegAudio) => (kv.1, kv.2.handOver)
        life := d.life.map fun (kv : Nat × LegLife) => (kv.1, resume kv.2)
        rst := { d.rst with handed := true, handoverAt := none, carried := [], returnDue := false } }
      ((d.setN .LEGS_SUSPENDED 0 0).bringup 3).logRec
        { level := 3, cls := .recovered, unit := 0, code := 0x0C08
          detail := Config.detail 0x0C08 [e, legs.length + late.length] }

/-! ### Return to warm-up -/

/-- Pairs and composers abandon every context and item, and no video runs (R211, R274, R437). Warm-up is already the service. -/
def Dev.abandonVideo (d : Dev) : Dev :=
  let d := d.legs.foldl Dev.videoEdge d
  d.stripEncs.foldl Dev.encSwitch d

/-- The legs that a return to warm-up carries (R437): ACTIVE, of a standing conference, with codecs that warm-up carries; at most 256
legs and 64 conferences. -/
def Dev.carriedLegs (d : Dev) : List Nat :=
  let fit := d.confOrder (d.legs.filter fun n =>
    decide (d.legState n = .active) && d.flag .CONF_STANDING (d.nat .LEG_CONFERENCE n) && d.warmCodecs n)
  let confs := ((fit.map fun n => d.nat .LEG_CONFERENCE n).eraseDups).take 64
  (fit.filter fun n => confs.contains (d.nat .LEG_CONFERENCE n)).take 256

/-- A carried leg moves to a warm-up block for its audio alone, from zero state (R437, R438). -/
def Dev.carryLeg (d : Dev) (n : Nat) : Dev :=
  let q := d.askOf n false
  let b := (d.placeBlock 0 false q.cycles).getD (d.warmBlocks.headD 0)
  let d := d.reserveLeg n b q []
  d.setAudio n (Sys2Proof.Machine.warmAudio (d.audioOf n))

/-- A leg is suspended (R437): its media stand as those of a HELD leg. -/
def Dev.suspendLeg (d : Dev) (n : Nat) : Dev :=
  let l := d.lifeOf n
  let d := d.setLife n { l with suspended := true, media := if l.media = 2 then 3 else l.media }
  (d.discardQueues n).setN .LEGS_SUSPENDED 0 (d.nat .LEGS_SUSPENDED + 1)

/-- Full service returns to warm-up (R346, R437). -/
def Dev.warmupReturn (d : Dev) : Dev :=
  if !d.rst.returnDue ∨ d.service ≠ .full ∨ d.nat .STRIDE_IN_LAP % 3 ≠ 0 then d
  else
    let d := (d.setService .warmup).logRec
      { level := 3, cls := .serviceAffecting, unit := 0, code := 0x0906, detail := d.inService }
    let d := d.abandonVideo
    let carried := d.carriedLegs
    let others := d.legs.filter fun n => d.reserved n && !carried.contains n
    let confs := sortAsc id (carried.map fun n => d.nat .LEG_CONFERENCE n).eraseDups
    let d := (confs.foldl Dev.leaveHome (carried.foldl Dev.releaseLeg d)).poolWarm true
    let d := carried.foldl Dev.carryLeg (confs.foldl Dev.takeHome d)
    let d := others.foldl Dev.suspendLeg d
    { d with rst := { d.rst with returnDue := false, carried := carried, handoverAt := none } }

end Sys2Proof.Machine
end

