-- ==== Sys2Proof/Machine/Edge.lean ====
section
/-! DEFINITION. The stride edge (R18, R19, R25): the order of its actions, the commit (R31 to R36) with what it brings, and the counts. -/

namespace Sys2Proof.Machine

/-! ### Commit -/

/-- Was an object of unit `u` staged in a set? -/
def stagedIn (set : List (Key × Val)) (o : Obj) (u : Nat) : Bool := set.any fun kv => decide (kv.1.o = o) && decide (kv.1.u = u)

/-- The objects of a policer profile (R137). -/
def policerObjs : List Obj :=
  [.POL_MODE, .POL_CIR, .POL_CBS, .POL_EBS_PBS, .POL_PIR, .POL_YELLOW_ACTION, .POL_YELLOW_FLOOR, .POL_DSCP_YELLOW, .POL_DSCP_RED]

/-- A change of a time base's mode (R39): it goes on from the value and the rate in force; a servo starts from that rate.
A base that leaves FOLLOW keeps the VALID of the base that it followed (DESIGN CHOICE, log entry 118). -/
def Dev.tbCommit (d old : Dev) (n : Nat) : Dev :=
  let m0 := old.nat .TB_MODE n
  let m1 := d.nat .TB_MODE n
  if m0 = m1 then d
  else
    let b := d.tbOf n
    let b := if m0 = 3 then { b with t := old.now n, valid := old.tbValid n } else b
    let rate := old.rateOf n
    let b := { b with
      integ := if m1 = 1 ∨ m1 = 2 then rate else b.integ
      lockCount := 0, locked := false, holdover := false, ended := false, source := false, sample := none }
    (d.setTb n b).setI .TB_RATE_ADJ n 0 rate

/-- A commit that changes the node or the bit rate ends an SDO transfer and resets communication (R74). -/
def Dev.canCommit (d old : Dev) (set : List (Key × Val)) : Dev :=
  if d.nat .CAN_NODE_ID = old.nat .CAN_NODE_ID ∧ d.nat .CAN_BITRATE = old.nat .CAN_BITRATE then d
  else
    let d := match d.can.sdo with
      | some x => d.sdoEnd x .deviceState
      | none => d
    d.commReset ([.CAN_NODE_ID, .CAN_BITRATE] ++ if stagedIn set .EMCY_CLASS_MASK 0 then [.EMCY_CLASS_MASK] else [])

/-- A commit that changes a port's mode releases it or takes its link away (R121, R422). -/
def Dev.portCommit (d old : Dev) (p : Nat) : Dev :=
  if d.flag .PORT_MODE p = old.flag .PORT_MODE p then d
  else if d.flag .PORT_MODE p then d.wakeDomain (44 + p)
  else d.setN .PD_STATE (44 + p) 3

/-- An applied layout image is stored on two placements, and the one that it replaces is freed (R271, R364). -/
def Dev.storeImage (d : Dev) (k : Key) : Dev :=
  match k.o, d.get k.o k.u k.k with
  | .LAYOUT_IMAGE, .bytes v =>
    let d := d.dropAll 2 (tget [] (k.u, k.k) d.pool.images)
    let r := if v = [] then ([], d) else d.alloc .image 2 v.length none 1
    { r.2 with pool := { r.2.pool with images := tput [] (k.u, k.k) r.1 r.2.pool.images } }
  | _, _ => d

/-- What an applied set brings with it beside its values. `old` is the device before. -/
def Dev.committed (d old : Dev) (set : List (Key × Val)) : Dev :=
  let d := (List.range 8).foldl (fun d n => d.tbCommit old n) d
  let d := d.shiftEdge (timeDiff (d.now d.stb) (old.now old.stb))
  let d := (List.range 32).foldl (fun d i => if policerObjs.any fun o => stagedIn set o i then d.cutBuckets i (old.profile i) else d) d
  let d := (List.range 4).foldl (fun d p =>
    let d := d.portCommit old p
    if stagedIn set .PORT_SYS_POLICER p then d.setPort p { d.portOf p with bucket := {} } else d) d
  let d := if (List.range 4).any fun p => stagedIn set .PTP_ROLE p || stagedIn set .PTP_INSTANCE p then
      let d := (List.range 4).foldl (fun d p => if d.flag .PTP_ROLE p then d else d.ptpDisable p) d
      ((List.range 8).filter fun n => decide (d.nat .TB_MODE n = 1)).foldl Dev.bmca d
    else d
  let d := set.foldl (fun d kv => d.storeImage kv.1) d
  let d := if d.flag .HDP_ENABLE then d else d.closeSessions
  let d := if d.flag .GOV_TRIM then d else (List.range 36).foldl Dev.ungate d
  d.canCommit old set

/-- The first object of a staged set that a cross-object rule refuses (R33). -/
def Dev.stageFault (d : Dev) : Option Key := (d.stage.find? fun kv => !d.lookStaged.related kv.1).map (·.1)

/-- The commit of an edge (R31 to R36): all of the staged set or none of it. -/
def Dev.commitEdge (d : Dev) : Dev :=
  let d := { d with polOld := [] }
  if !d.flag .STRIDE_COMMIT then d
  else
    let d := (d.setN .STRIDE_COMMIT 0 0).setN .COMMIT_STRIDE 0 d.stride
    if d.stage = [] then d.setN .COMMIT_STATUS 0 2
    else
      let set := d.stage
      match d.stageFault with
      | some k => { d with stage := [] }.setN .COMMIT_STATUS 0 (k.index * 65536 + k.sub * 256 + 3)
      | none =>
        let off := (List.range 4).filter fun p =>
          set.any fun kv => decide (kv.1.o = .PORT_MODE) && decide (kv.1.u = p) && decide (kv.2 = .num 0)
        let d := off.foldl (fun d p => d.portLink p 0 0 0) d
        let old := d
        let d := set.foldl (fun d kv => d.store kv.1 kv.2) { d with stage := [] }
        (d.committed old set).setN .COMMIT_STATUS 0 1

/-! ### The edge -/

/-- The grid edge that the edge in hand is paired with, and its place in the lap (R19), in whole ns: the fraction of the edge is
dropped (DESIGN CHOICE, log entry 117). -/
def Dev.pairing (d : Dev) : Int × Nat := nearestGrid (d.gen.edge / 65536)

/-- Step 1 (R24 to R26, R324): what was dispatched and has not ended is cut. In warm-up that is so at the end of a period, or at a jump of
the stride number, after which no audio runs until a period begins. -/
def Dev.guardEdge (d : Dev) (sil : Nat) : Dev :=
  let warm := decide (d.service = .warmup)
  let jump := decide (sil ≠ (d.nat .STRIDE_IN_LAP + 1) % 600)
  let whole := !warm || decide (sil % 3 = 0) || jump
  let d := ((if whole then d.audioGuard else d).cutItems whole).2
  if warm && jump && decide (sil % 3 ≠ 0) then (d.legs.filter d.mediaActive).foldl (Dev.concealRest · sil (3 - sil % 3) ·) d else d

/-- Step 2 (R25, R27): the video items whose deadline is this edge. -/
def Dev.deadlineEdge (d : Dev) : Dev :=
  let e := d.stride + 1
  let d := (d.dec.map (·.1)).foldl (fun d k => d.decDeadline k.1 k.2 e) d
  (d.enc.map (·.1)).foldl (fun d k => d.encDeadline k e) d

/-- Step 3 (R18, R19): the counters, the offset still to be closed, and the length of the stride that begins. After a step of the
time base the offset shown follows at the next edge (DESIGN CHOICE, log entry 117). -/
def Dev.countEdge (d : Dev) : Dev :=
  let g := d.pairing
  let t := d.gen.edge / 65536
  let offset := t - (g.1 * 1000000000 + (gridStart g.2 : Nat))
  let d := ((d.bump .STRIDE_COUNT).setN .STRIDE_IN_LAP 0 g.2).setI .STRIDE_OFFSET 0 0 offset
  let d := if g.2 = 0 then d.bump .LAP_COUNT else d
  { d with gen := { d.gen with
    edge := d.gen.edge + strideLength (gridLen g.2) offset * 65536, cycle := 0, start := d.gen.edge } }

/-- Service resumes after a warm reset, and at the first edge after that the free time bases are VALID again (R58, R438). -/
def Dev.resumeEdge (d : Dev) : Dev :=
  match d.rst.resumeAt with
  | none =>
    (List.range 8).foldl (fun d n =>
      let b := d.tbOf n
      if b.revalidate then d.setTb n { b with valid := decide (d.nat .TB_MODE n = 0) || b.valid, revalidate := false } else d) d
  | some r => if d.stride < r then d else { d with rst := { d.rst with resumeAt := none } }.setService .full

/-- What the commit governs and step 4 leaves in force: nominations, leg states, samples for subscribers, slots (R81, R94, R136, R163,
R263, R295). -/
def Dev.takeEdge (d : Dev) : Dev :=
  let d := d.adoptNominations
  let d := if d.service = .boot then d else d.mediaEdges
  let d := (d.legs.foldl Dev.tmmbnEdge d).subscriptionEdge.tpdoEdge
  d.legs.foldl (fun d n => (d.resolveView n).resolveFwd n) d

/-- Step 6: targets and credits, the ports, power, and what follows the rates (R29, R124, R158, R279, R283, R293, R297). -/
def Dev.rateEdges (d : Dev) (e : EdgeInput) (lap : Bool) : Dev :=
  let d := (d.legs.foldl Dev.creditEdge d).pairEdge.powerEdge e lap
  let d := (d.fsrc.map (·.1)).foldl Dev.rateEdge d
  d.legs.foldl (fun d n => ((d.chooseFwd n).topEdge n).suspectEdge n) d

/-- Units and capacities (R118, R326, R382 to R385). -/
def Dev.unitEdges (d : Dev) : Dev :=
  let d := d.rehomeEdge
  ((d.blk.filter fun kv => kv.2.renameReserve).map (·.1)).foldl Dev.nameReserve d |>.stepDowns

/-- The loop items of an edge (R158): one for every leg whose media are ACTIVE, in a block that is awake. -/
def Dev.loopDispatch (d : Dev) : Dev :=
  (d.legs.filter fun n => d.mediaActive n && decide (d.nat .BLK_STATE (d.nat .LEG_ADMIT_BLOCK n) = 0)).foldl
    (fun d n => d.addItem .loop n) d

/-- Step 8 (R25): dispatch; in warm-up audio begins at each period (R24). -/
def Dev.dispatchEdge (d : Dev) (kf : List (Nat × Nat)) : Dev :=
  let audio := decide (d.service = .full) || (decide (d.service = .warmup) && decide (d.nat .STRIDE_IN_LAP % 3 = 0))
  let d := (if audio then d.audioDispatch else d).loopDispatch
  let d := d.compHandover.entryEdge.compEdge
  let d := d.legs.foldl (fun d n => (d.decEdge n 0).decEdge n 1) d
  d.legs.foldl (fun d n => (d.nackEdge n d.stride).reanchor n) (d.kfEdge kf)

/-- The counts of a lap end at a lap edge (R339, R343, R365, R386, R388, R395). -/
def Dev.lapEdge (d : Dev) : Dev :=
  let d := { d with faults := { d.faults with seen := [], rails := [], stages := [] } }
  d.chanLapEdge.poolLapEdge

/-- The records, HEALTHY, DOZE and attestation at an edge (R95, R390, R404, R463); the entries of a new stride (R90). -/
def Dev.closeEdge (d : Dev) : Dev :=
  let d := d.dozeEdge.idleEdge.attestLatch.settleRecs.healthEdge.errorNotify.portsClear
  { d with hdp := { d.hdp with left := 128 } }

/-- A stride edge with its actions in the order of R25. -/
def Dev.fullEdge (d : Dev) (e : EdgeInput) : Dev :=
  let d := d.meetEdge
  let kf := d.kfOpen
  let sil := d.pairing.2
  let lap := decide (sil = 0)
  let d := (d.guardEdge sil).deadlineEdge
  let d := ((d.unitsReturn.cellEdge lap).countEdge).snapEdge.resumeEdge
  let d := if lap then d.lapEdge else d
  let d := d.commitEdge.takeEdge.checkpoint
  let d := (d.rateEdges e lap).unitEdges
  let d := d.rampEdge (decide (d.service ≠ .warmup) || decide (sil % 3 = 0))
  (d.dispatchEdge kf).closeEdge.bufferSweep

/-- STRIDE_EDGE (R25). The CAN times count it (R73). While the stride generator stands still it stands for a period of XREF, in which
only the resets asked for are counted (R73, R421). -/
def Dev.strideEdge (d : Dev) (e : EdgeInput) : Dev :=
  let d := { d with can := { d.can with ticks := d.can.ticks + 1 } }
  let d := if d.gen.running then d.runCycles (d.cyclesTo d.gen.edge) else d
  let ran := d.gen.running
  let epoch := d.nat .BOOT_NONCE
  let d := d.resetEdge
  if ran && d.gen.running && decide (d.nat .BOOT_NONCE = epoch) then d.fullEdge e else d

end Sys2Proof.Machine
end

