-- ==== Sys2Proof/Machine/State.lean ====
section
/-! DEFINITION. The state of the block: the device, its DRAM, and the queue of commands that wait. -/

namespace Sys2Proof.Machine

/-- Everything the spec gives the block, and its queue. -/
structure State where
  dev : Dev := {}
  mem : List Host.Cell := []
  pending : List Instr := []
deriving DecidableEq, Repr

/-- Reasons the block stops. Each is safe: the model stops where nothing is said of what the device does. -/
inductive Fault where
  /-- Raised by a DRAM access outside the channel's populated memory or outside a live buffer: the spec gives no such
  address (R336, R361). Safe. -/
  | badAddress (addr : Nat)
deriving DecidableEq, Repr

/-- Reasons the model refuses a command. -/
inductive Refusal where
  /-- Raised for a command of the table that has no meaning yet. Safe. -/
  | notModelled (mnemonic : String)
  /-- Raised by a command whose operand names a unit that the block does not have (R9). Safe. -/
  | noSuchUnit (n : Nat)
deriving DecidableEq, Repr

/-- The block right after cold reset, PORn held low: every object at its default, no memory listed, no command
waiting. -/
def State.reset : State := {}

end Sys2Proof.Machine
end

