-- ==== Sys2Proof/Machine/Turn.lean ====
section
/-! DEFINITION. The order in which the dictionary executes what both interfaces ask (R15, R90, R91, R100): acceptance, the queue of requests
that wait, and the requests of HDP and CAN as they arrive. -/

namespace Sys2Proof.Machine

/-- The entries of a request. -/
def ReqBody.entries : ReqBody → Nat
  | .read es => es.length
  | .write es => es.length
  | .rpdo es _ => es.length
  | _ => 1

/-- A request executes. -/
def Dev.runRequest (d : Dev) (q : HdpReq) : Dev :=
  let d := { d with hdp := { d.hdp with left := d.hdp.left - q.body.entries } }
  match q.body with
  | .read es => d.runRead q.session q.req es
  | .write es => d.runWrite q.session q.req es
  | .bulkBegin index sub load total crc => d.runBulkBegin q.session q.req index sub load total crc
  | .bulkEnd => d.runBulkEnd q.session q.req
  | .sdoDownload index sub data answer => d.runSdoWrite index sub data answer
  | .sdoUpload index sub kind => d.runSdoUpload index sub kind
  | .rpdo es data => d.rpdoWrite es data
  | .access src index sub data => d.dictWrite src index sub data

/-- A request is accepted (R90, R91): executed now where its entries fit before the next edge and none waits, held, or an HDP request
discarded with the queue full. With the stride generator stopped there is no edge to wait for (R432). -/
def Dev.acceptRequest (d : Dev) (q : HdpReq) : Dev :=
  if !d.gen.running || (decide (d.hdp.queue = []) && decide (q.body.entries ≤ d.hdp.left)) then d.runRequest q
  else if !q.body.ofHdp || decide ((d.hdp.queue.filter (·.body.ofHdp)).length < 64) then
    { d with hdp := { d.hdp with queue := d.hdp.queue ++ [q] } }
  else d.bump .DICT_QUEUE_DROPS

/-- A write that is a command of its own, in its turn (R15, R90; log entry 58). -/
def Dev.writeInTurn (d : Dev) (src : Src) (index sub : Nat) (data : Octets) : Dev :=
  d.acceptRequest { accepted := d.stride, body := .access src index sub data }

/-- A READ (R83, R91). -/
def Dev.hdpRead (d : Dev) (h : HdpHdr) (req : Nat) (es : List RdEntry) : Dev :=
  d.hdpRequest { h with parses := h.parses && decide (es.length ≤ 64) } req 0x11 (readRefusal .malformed) fun id d =>
    d.acceptRequest { session := id, req := req, accepted := d.stride, body := .read es }

/-- A WRITE (R83, R91). -/
def Dev.hdpWrite (d : Dev) (h : HdpHdr) (req : Nat) (es : List WrEntry) : Dev :=
  d.hdpRequest { h with parses := h.parses && decide (es.length ≤ 64) } req 0x13
    (writeResp Abort.malformed.code 0 0 0) fun id d =>
    d.acceptRequest { session := id, req := req, accepted := d.stride, body := .write es }

/-- A BULK_BEGIN (R96). -/
def Dev.hdpBulkBegin (d : Dev) (h : HdpHdr) (req index sub : Nat) (load : Bool) (total crc : Nat) : Dev :=
  d.hdpRequest h req 0x34 (bulkBegun Abort.malformed.code 0 0) fun id d =>
    d.acceptRequest { session := id, req := req, accepted := d.stride, body := .bulkBegin index sub load total crc }

/-- A BULK_END (R97): its write is accepted with it (R100). -/
def Dev.hdpBulkEnd (d : Dev) (h : HdpHdr) (req : Nat) : Dev :=
  d.hdpRequest h req 0x34 (bulkEnded Abort.malformed.code 0) fun id d =>
    d.acceptRequest { session := id, req := req, accepted := d.stride, body := .bulkEnd }

/-- The request at the front of the queue executes, where its entries fit (R90, R91). -/
def Dev.executeRequest (d : Dev) : Dev :=
  match d.hdp.queue with
  | [] => d
  | q :: r => if q.body.entries ≤ d.hdp.left then { d with hdp := { d.hdp with queue := r } }.runRequest q else d

/-- An HDP request held for 4 laps ends with TIMEOUT and without effect (R90, R91). -/
def Dev.requestTimeout (d : Dev) (session req : Nat) : Dev :=
  let mine := fun (q : HdpReq) => q.body.ofHdp && decide (q.session = session) && decide (q.req = req)
  match d.hdp.queue.find? mine with
  | none => d
  | some q =>
    if d.stride < q.accepted + 2400 then d else
    let d := { d with hdp := { d.hdp with queue := d.hdp.queue.filter fun x => !mine x } }.bump .DICT_ABORTS
    match q.body with
    | .read _ => d.hdpAnswer session 0x11 req (readRefusal .timeout)
    | .write _ => d.hdpAnswer session 0x13 req (writeResp Abort.timeout.code 0 0 0)
    | .bulkBegin .. => d.hdpAnswer session 0x34 req (bulkBegun Abort.timeout.code 0 0)
    | .bulkEnd => d.hdpAnswer session 0x34 req (bulkEnded Abort.timeout.code 0)
    | _ => d

/-- The downloaded value is accepted (R77, R100). -/
def Dev.sdoWrite (d : Dev) (index sub : Nat) (data answer : Octets) : Dev :=
  d.acceptRequest { accepted := d.stride, body := .sdoDownload index sub data answer }

/-- An SDO download request (R77). -/
def Dev.sdoDownload (d : Dev) (index sub : Nat) (kind : SdoKind) (size : Nat) (data : Octets) : Dev :=
  d.sdoRequest fun d =>
    let open_ := fun (answer : Octets) => (d.sdoKeep { index := index, sub := sub, kind := kind, size := size }).sdoSend answer
    match kind with
    | .expedited => d.sdoWrite index sub (data.take 4) ([0x60] ++ sdoHead index sub)
    | .segmented =>
      if sdoMost < size then d.sdoRefuse index sub .unsupported else open_ ([0x60] ++ sdoHead index sub)
    | .block n =>
      if sdoMost < size then d.sdoRefuse index sub .unsupported
      else if !blockSizeOk kind then d.sdoRefuse index sub .badBlockSize
      else open_ ([0xA4] ++ sdoHead index sub ++ [n])

/-- An SDO upload request (R77). -/
def Dev.sdoUpload (d : Dev) (index sub : Nat) (kind : SdoKind) : Dev :=
  d.sdoRequest fun d =>
    if !blockSizeOk kind then d.sdoRefuse index sub .badBlockSize
    else d.acceptRequest { accepted := d.stride, body := .sdoUpload index sub kind }

/-- The downloaded value is whole (R77): its length must be the one indicated, where one was. -/
def Dev.sdoApply (d : Dev) (x : SdoXfer) (data answer : Octets) : Dev :=
  let d := { d with can := { d.can with sdo := none } }
  if x.size ≠ 0 ∧ x.size ≠ data.length then d.sdoRefuse x.index x.sub .lengthMismatch
  else d.sdoWrite x.index x.sub data answer

/-- A segment of a segmented download, or the request for one of an upload (R77). -/
def Dev.sdoSegmented (d : Dev) (x : SdoXfer) (toggle : Bool) (data : Octets) (last : Bool) : Dev :=
  let t := if toggle then 16 else 0
  if toggle ≠ x.toggle then d.sdoEnd x .toggle
  else if x.download then
    let all := x.data ++ data.take 7
    if sdoMost < all.length then d.sdoEnd x .unsupported
    else if last then d.sdoApply x all [0x20 + t]
    else (d.sdoKeep { x with data := all, toggle := !toggle }).sdoSend [0x20 + t]
  else
    let now := x.data.take 7
    let rest := x.data.drop 7
    let d := if rest = [] then { d with can := { d.can with sdo := none } } else d.sdoKeep { x with data := rest, toggle := !toggle }
    d.sdoSend
      ([t + 2 * (7 - now.length) + (if rest = [] then 1 else 0)] ++ now)

/-- A sub-frame of a block download (R77). -/
def Dev.sdoBlockDown (d : Dev) (x : SdoXfer) (n seq : Nat) (data : Octets) (last crcOk : Bool) : Dev :=
  if seq ≠ x.seq + 1 ∨ n < seq then d.sdoEnd x .badSeq
  else
    let all := x.data ++ data.take 7
    if sdoMost < all.length then d.sdoEnd x .unsupported
    else if last then
      let d := d.sdoSend [0xA2, seq, n]
      if crcOk then d.sdoApply x all [0xA1] else d.sdoEnd x .crc
    else
      let done := decide (seq = n)
      let d := d.sdoKeep { x with data := all, seq := if done then 0 else seq }
      if done then d.sdoSend [0xA2, seq, n] else d

/-- A frame of the client that continues the open transfer (R77). With none open there is nothing to continue. -/
def Dev.sdoSegment (d : Dev) (toggle : Bool) (seq : Nat) (data : Octets) (last crcOk : Bool) : Dev :=
  if !d.sdoRuns then d
  else match d.can.sdo with
    | none => d.sdoAbort 0 0 Abort.badCs.code
    | some x =>
      match x.kind with
      | .block n => if x.download then d.sdoBlockDown x n seq data last crcOk else d.sdoBlockUp x n seq last
      | _ => d.sdoSegmented x toggle data last

/-- An RPDO arrives (R81). -/
def Dev.rpdo (d : Dev) (i : Nat) (data : Octets) : Dev :=
  if !d.pdoOn .RPDO_COB_ID i then d
  else
    let m := d.mapping .RPDO_MAP i
    if data.length < m.foldl (fun a e => a + e.2.2 / 8) 0 then d.emcy 0x8210 0 0 0
    else d.acceptRequest { accepted := d.stride, body := .rpdo m data }

end Sys2Proof.Machine
end

