-- ==== Sys2Proof/Machine/Apply.lean ====
section
/-! DEFINITION. How a command's effect on the device becomes the answer of `exec`, and which parts of the device run when it
comes. -/

namespace Sys2Proof.Machine

/-- What closes every command: its records enter the log (R395), and the photo finish that it triggered latches (R466). -/
def Dev.settle (d : Dev) : Dev := d.settleRecs.snapLatch

/-- A command that acts on the device alone. -/
def onDev (s : State) (f : Dev → Dev) : Host.Outcome State Fault Refusal := .next { s with dev := (f s.dev).settle }

/-- The same for a command that names unit `n` of `count` units. -/
def onUnit (s : State) (n count : Nat) (f : Dev → Dev) : Host.Outcome State Fault Refusal :=
  if n < count then onDev s f else .refused (.noSuchUnit n)

/-- Acts while the always-on domain runs: from PORn's release (R422). Before it nothing in the device answers. -/
def Dev.awake (d : Dev) (f : Dev → Dev) : Dev := if d.rst.released then f d else d

/-- Acts while the packet engine, the time bases and the stride generator run (R57, R422, R432, R438). -/
def Dev.engine (d : Dev) (f : Dev → Dev) : Dev := if d.gen.running then f d else d

/-- Is region `g` out of reset (R422, steps 6 to 9)? -/
def Dev.regionRuns (d : Dev) (g : Nat) : Bool :=
  d.gen.running && decide (6 + g ≤ d.rst.step) && decide (d.nat .RGN_STATE g = 0)

/-- Acts while region `g` is out of reset. -/
def Dev.inRegion (d : Dev) (g : Nat) (f : Dev → Dev) : Dev := if d.regionRuns g then f d else d

/-- Does the CAN node take part in the bus (R74, R75)? It does from its boot-up. -/
def Dev.nodeRuns (d : Dev) : Bool := d.rst.released && decide (d.can.nmt ≠ .initialising)

/-- Acts while the CAN node takes part in the bus. -/
def Dev.node (d : Dev) (f : Dev → Dev) : Dev := if d.nodeRuns then f d else d

/-- Can an access from this sender arrive (R14, R70, R75, R88, R428)? Over CAN it needs an NMT state with SDO, over HDP an open
session of a running packet engine, and the reader writes only before step 4 of the release. -/
def Dev.reaches (d : Dev) : Src → Bool
  | .can => d.rst.released && d.sdoRuns
  | .hdp id => d.gen.running && (d.sessionOf id).isSome
  | .boot => d.rst.released && decide (d.rst.step = 3) && !d.rst.optDone

/-- Acts where an access from `src` arrives. -/
def Dev.access (d : Dev) (src : Src) (f : Dev → Dev) : Dev := if d.reaches src then f d else d

/-- A command that is a write of a number to object `o` of unit `u`. -/
def onWrite (s : State) (src : Src) (o : Obj) (u count n : Nat) : Host.Outcome State Fault Refusal :=
  onUnit s u count fun d => d.access src fun d => d.writeNum src { o := o, u := u } n

/-- A command that is a write of octets to object `o` of unit `u`. -/
def onWriteBytes (s : State) (src : Src) (o : Obj) (u count : Nat) (b : Octets) : Host.Outcome State Fault Refusal :=
  onUnit s u count fun d => d.access src fun d => d.writeBytes src { o := o, u := u } b

end Sys2Proof.Machine
end

