-- ==== Sys2Proof/Machine/ExecAudio.lean ====
section
/-! DEFINITION. The meanings of the commands of the audio path (chapter 8) and of the audio tap. -/

namespace Sys2Proof.Machine

/-- AUDIO_INPUT_ITEM (R176). -/
def execAudioInputItem (leg : Nat) (unread : List Nat) (s : State) : Host.Outcome State Fault Refusal :=
  onUnit s leg 4096 fun d => d.engine fun d => (d.audioInput leg unread).bufferSweep

/-- MIX_ITEM (R196 to R198). -/
def execMixItem (conf : Nat) (s : State) : Host.Outcome State Fault Refusal :=
  onUnit s conf 1024 fun d => d.engine fun d => d.mixRun conf

/-- AUDIO_OUTPUT_ITEM (R176, R198 to R200). -/
def execAudioOutputItem (leg : Nat) (s : State) : Host.Outcome State Fault Refusal :=
  onUnit s leg 4096 fun d => d.engine fun d => d.audioOutput leg

/-- AUDIO_ENCODE_ITEM (R201). -/
def execAudioEncodeItem (leg ts : Nat) (s : State) : Host.Outcome State Fault Refusal :=
  onUnit s leg 4096 fun d => d.engine fun d => (d.audioEncode leg ts).bufferSweep

/-- DTMF_EVENT_TIMEOUT (R194). -/
def execDtmfEventTimeout (leg : Nat) (s : State) : Host.Outcome State Fault Refusal :=
  onUnit s leg 4096 fun d => d.engine fun d => d.eventTimeout leg

/-- TAP_CMD (R474): a write of 1. -/
def execTapCmd (src : Src) (s : State) : Host.Outcome State Fault Refusal := onWrite s src .TAP_CMD 0 1 1

/-- TAP_COMPLETE (R474). -/
def execTapComplete (s : State) : Host.Outcome State Fault Refusal := onDev s fun d => d.engine Dev.tapDone

end Sys2Proof.Machine
end

