-- ==== Sys2Proof/Machine/ExecCan.lean ====
section
/-! DEFINITION. The meanings of the CAN commands (chapter 4). -/

namespace Sys2Proof.Machine

/-- NMT_START (R75, R81). -/
def execNmtStart (node : Nat) (s : State) : Host.Outcome State Fault Refusal := onDev s fun d => d.node fun d => d.nmtStart node

/-- NMT_STOP (R75). -/
def execNmtStop (node : Nat) (s : State) : Host.Outcome State Fault Refusal :=
  onDev s fun d => d.node fun d => d.nmtEnter node .stopped

/-- NMT_ENTER_PRE_OPERATIONAL (R75). -/
def execNmtEnterPreOperational (node : Nat) (s : State) : Host.Outcome State Fault Refusal :=
  onDev s fun d => d.node fun d => d.nmtEnter node .preOperational

/-- NMT_RESET_NODE (R75). -/
def execNmtResetNode (node : Nat) (s : State) : Host.Outcome State Fault Refusal := onDev s fun d => d.node fun d => d.nmtReset node

/-- NMT_RESET_COMMUNICATION (R75). -/
def execNmtResetCommunication (node : Nat) (s : State) : Host.Outcome State Fault Refusal :=
  onDev s fun d => d.node fun d => d.nmtReset node

/-- SDO_DOWNLOAD_INITIATE (R77). -/
def execSdoDownloadInitiate (index sub : Nat) (kind : SdoKind) (size : Nat) (data : Octets) (s : State) :
    Host.Outcome State Fault Refusal :=
  onDev s fun d => d.node fun d => d.sdoDownload index sub kind size data

/-- SDO_UPLOAD_INITIATE (R77). -/
def execSdoUploadInitiate (index sub : Nat) (kind : SdoKind) (s : State) : Host.Outcome State Fault Refusal :=
  onDev s fun d => d.node fun d => d.sdoUpload index sub kind

/-- SDO_SEGMENT (R77). -/
def execSdoSegment (toggle : Bool) (seq : Nat) (data : Octets) (last crcOk : Bool) (s : State) : Host.Outcome State Fault Refusal :=
  onDev s fun d => d.node fun d => d.sdoSegment toggle seq data last crcOk

/-- SDO_CLIENT_ABORT (R77). -/
def execSdoClientAbort (s : State) : Host.Outcome State Fault Refusal := onDev s fun d => d.node Dev.sdoClientAbort

/-- SDO_TIMEOUT (R77). -/
def execSdoTimeout (s : State) : Host.Outcome State Fault Refusal := onDev s fun d => d.node Dev.sdoTimeout

/-- RPDO_RECEIVE (R81). -/
def execRpdoReceive (i : Nat) (data : Octets) (s : State) : Host.Outcome State Fault Refusal :=
  onUnit s i 4 fun d => d.node fun d => d.rpdo i data

/-- TPDO_EVENT_TIMER (R81). -/
def execTpdoEventTimer (i : Nat) (s : State) : Host.Outcome State Fault Refusal :=
  onUnit s i 4 fun d => d.node fun d => d.tpdoEvent i

/-- HEARTBEAT_TIMER (R73, R75). -/
def execHeartbeatTimer (s : State) : Host.Outcome State Fault Refusal := onDev s fun d => d.node Dev.heartbeat

/-- ERROR_COUNT_CLEAR (R72): a write of 0 to [1003.00]. -/
def execErrorCountClear (src : Src) (s : State) : Host.Outcome State Fault Refusal := onWrite s src .ERROR_COUNT 0 1 0

/-- CAN_ERROR_PASSIVE (R76). -/
def execCanErrorPassive (s : State) : Host.Outcome State Fault Refusal := onDev s fun d => d.node Dev.canPassive

/-- CAN_BUS_OFF (R76). -/
def execCanBusOff (s : State) : Host.Outcome State Fault Refusal := onDev s fun d => d.node Dev.canBusOff

/-- CAN_BUS_OFF_RECOVERED (R76). -/
def execCanBusOffRecovered (s : State) : Host.Outcome State Fault Refusal := onDev s fun d => d.node Dev.canRecovered

/-- CAN_OVERRUN (R76). -/
def execCanOverrun (s : State) : Host.Outcome State Fault Refusal := onDev s fun d => d.node Dev.canOverrun

/-- COMMUNICATION_BIT_CLEAR (R78). -/
def execCommunicationBitClear (s : State) : Host.Outcome State Fault Refusal := onDev s fun d => d.node Dev.commClear

/-- CAN_ERROR_ACTIVE (R78). -/
def execCanErrorActive (s : State) : Host.Outcome State Fault Refusal := onDev s fun d => d.node Dev.canActive

end Sys2Proof.Machine
end

