-- ==== Sys2Proof/Machine/ExecDram.lean ====
section
/-! DEFINITION. The meanings of the commands of the DRAM channels (chapter 14). These, and no others, touch the bytes of DRAM. -/

namespace Sys2Proof.Machine

/-- A command that acts on the device and on DRAM. -/
def onDram (s : State) (f : Dev → List Host.Cell → Dev × List Host.Cell) : Host.Outcome State Fault Refusal :=
  let r := f s.dev s.mem
  .next { s with dev := r.1.settle, mem := r.2 }

/-- A command of channel `c` on the device alone. -/
def onChannel (s : State) (c : Nat) (f : Dev → Dev) : Host.Outcome State Fault Refusal := onUnit s c 4 fun d => d.awake f

/-- A read of a line of a buffer (R337, R342, R344): what the reader gets, no octets where it fails. -/
def Dev.readOut (d : Dev) (m : List Host.Cell) (handle offset : Nat) (err retryErr mirrorErr : List (List Nat)) :
    Dev × List Host.Cell :=
  let p := handlePool handle
  let i := handleIndex handle
  let r := d.readLine m p i offset err retryErr mirrorErr
  (r.2.1.emit (.burst (listOf p (d.descOf p i).primary) (offset / 64 * 64) (r.1.getD [])), r.2.2)

/-- DRAM_TRAINING_STEP (R347, R348). -/
def execDramTrainingStep (c : Nat) (passed : Bool) (ms : Nat) (s : State) : Host.Outcome State Fault Refusal :=
  if c < 4 then onDram s fun d m => d.training m c passed ms else .refused (.noSuchUnit c)

/-- DRAM_INIT_COMPLETE (R348, R355). -/
def execDramInitComplete (c : Nat) (s : State) : Host.Outcome State Fault Refusal := onChannel s c fun d => d.initDone c

/-- DRAM_READ (R337, R338, R342). A read outside the live buffer that the handle names is an access to no DRAM. -/
def execDramRead (handle offset : Nat) (err retryErr mirrorErr : List (List Nat)) (s : State) :
    Host.Outcome State Fault Refusal :=
  if s.dev.inBuffer handle (offset / 64 * 64) 64 then onDram s fun d m => d.readOut m handle offset err retryErr mirrorErr
  else .fault (.badAddress offset)

/-- DRAM_WRITE (R342). A write outside the live buffer that the handle names is an access to no DRAM. -/
def execDramWrite (handle offset : Nat) (data : Octets) (s : State) : Host.Outcome State Fault Refusal :=
  if s.dev.inBuffer handle offset data.length then onDram s fun d m => d.writeLine m handle offset data
  else .fault (.badAddress offset)

/-- SCRUB_READ (R340). A channel that serves nothing is not scrubbed; an address beyond its ranks is no address of it. -/
def execScrubRead (c addr : Nat) (err retryErr mirrorErr : List (List Nat)) (s : State) : Host.Outcome State Fault Refusal :=
  if c < 4 then
    if addr < s.dev.ranks * 2 ^ 34 then
      onDram s fun d m => if d.chServes c then d.scrub m c addr err retryErr mirrorErr else (d, m)
    else .fault (.badAddress addr)
  else .refused (.noSuchUnit c)

/-- CA_PARITY_ALERT (R343). -/
def execCaParityAlert (c : Nat) (s : State) : Host.Outcome State Fault Refusal := onChannel s c fun d => d.caParity c

/-- REFRESH_DUE (R350, R351). -/
def execRefreshDue (c : Nat) (lane : Int) (s : State) : Host.Outcome State Fault Refusal := onChannel s c fun d => d.refresh c lane

/-- NEIGHBOUR_REFRESH (R354). -/
def execNeighbourRefresh (c rank bank row : Nat) (s : State) : Host.Outcome State Fault Refusal :=
  onChannel s c fun d => d.refreshNeighbours c rank bank row

/-- PAGE_IDLE_TIMEOUT (R352). -/
def execPageIdleTimeout (c rank bank : Nat) (s : State) : Host.Outcome State Fault Refusal :=
  onChannel s c fun d => d.closePage c rank bank

/-- PORT_PANIC (R353). -/
def execPortPanic (p : RtPort) (level : Nat) (s : State) : Host.Outcome State Fault Refusal :=
  onDev s fun d => d.engine fun d => d.portPanic p level

/-- REMIRROR_COPY (R345). -/
def execRemirrorCopy (handle : Nat) (s : State) : Host.Outcome State Fault Refusal := onDram s fun d m => d.remirror m handle

/-- CH_RETRAIN (R355): CH_CMD 1. -/
def execChRetrain (src : Src) (c : Nat) (s : State) : Host.Outcome State Fault Refusal := onWrite s src .CH_CMD c 4 1

/-- CH_FAIL (R355): CH_CMD 2. -/
def execChFail (src : Src) (c : Nat) (s : State) : Host.Outcome State Fault Refusal := onWrite s src .CH_CMD c 4 2

/-- MARGIN_CMD (R356). -/
def execMarginCmd (src : Src) (c value : Nat) (s : State) : Host.Outcome State Fault Refusal := onWrite s src .MARGIN_CMD c 4 value

/-- MARGIN_SCAN_COMPLETE (R356). -/
def execMarginScanComplete (c : Nat) (values : List Nat) (s : State) : Host.Outcome State Fault Refusal :=
  onChannel s c fun d => d.marginDone c values

end Sys2Proof.Machine
end

