-- ==== Sys2Proof/Machine/ExecFaults.lean ====
section
/-! DEFINITION. The meanings of the commands of the fault handlers and the error log (chapter 16). -/

namespace Sys2Proof.Machine

/-- CELL_FAULT (R375, R378 to R381). -/
def execCellFault (cell : Nat) (det : CellDetector) (cycle : Nat) (s : State) : Host.Outcome State Fault Refusal :=
  onUnit s cell 1024 fun d => d.inRegion (cell / 256) fun d => d.cellFault cell det cycle

/-- BLOCK_FAULT (R382). -/
def execBlockFault (block : Nat) (cause : BlockCause) (s : State) : Host.Outcome State Fault Refusal :=
  onUnit s block 64 fun d => d.inRegion (block / 16) fun d => d.blockFault block cause

/-- BLOCK_REJOIN (R382). -/
def execBlockRejoin (block : Nat) (s : State) : Host.Outcome State Fault Refusal :=
  onUnit s block 64 fun d => d.inRegion (block / 16) fun d => d.rejoin block

/-- PAIR_FAULT (R375, R384). -/
def execPairFault (pair engine : Nat) (corrected : Bool) (s : State) : Host.Outcome State Fault Refusal :=
  onUnit s pair 16 fun d => d.inRegion (pair / 4) fun d => d.pairFault pair engine corrected

/-- COMPOSER_FAULT (R375, R385). -/
def execComposerFault (composer : Nat) (corrected : Bool) (s : State) : Host.Outcome State Fault Refusal :=
  onUnit s composer 4 fun d => d.inRegion composer fun d => d.composerFault composer corrected

/-- FABRIC_RAIL_ERROR (R386). -/
def execFabricRailError (g : Nat) (line : RailLine) (s : State) : Host.Outcome State Fault Refusal :=
  onUnit s g 4 fun d => d.inRegion g fun d => d.railError g line

/-- REGION_FAIL (R387). -/
def execRegionFail (g : Nat) (clock : Bool) (s : State) : Host.Outcome State Fault Refusal :=
  onUnit s g 4 fun d => d.inRegion g fun d => d.regionFail g clock

/-- CHIP_UNIT_ERROR (R388). -/
def execChipUnitError (e : ChipError) (s : State) : Host.Outcome State Fault Refusal := onDev s fun d => d.engine fun d => d.chipError e

/-- LOG_CLEAR (R395): a write of 1. -/
def execLogClear (src : Src) (s : State) : Host.Outcome State Fault Refusal := onWrite s src .LOG_CLEAR 0 1 1

end Sys2Proof.Machine
end

