-- ==== Sys2Proof/Machine/ExecHdp.lean ====
section
/-! DEFINITION. The meanings of the HDP commands (chapter 4). They are served while the packet engine runs (R82, R432), where the
management settings name the port, the VLAN and the address (R88). -/

namespace Sys2Proof.Machine

/-- HDP_OPEN (R85, R86). -/
def execHdpOpen (h : HdpHdr) (req : Nat) (nonce : Octets) (timeout : Nat) (s : State) : Host.Outcome State Fault Refusal :=
  onDev s fun d => d.engine fun d => d.atMgmt h fun d => d.hdpOpen h req nonce timeout

/-- HDP_CLOSE (R83, R88). -/
def execHdpClose (h : HdpHdr) (_req : Nat) (s : State) : Host.Outcome State Fault Refusal :=
  onDev s fun d => d.engine fun d => d.atMgmt h fun d => d.hdpClose h

/-- HDP_KEEPALIVE (R83). -/
def execHdpKeepalive (h : HdpHdr) (req : Nat) (s : State) : Host.Outcome State Fault Refusal :=
  onDev s fun d => d.engine fun d => d.atMgmt h fun d => d.hdpKeepalive h req

/-- HDP_READ (R91, R92). -/
def execHdpRead (h : HdpHdr) (req : Nat) (entries : List RdEntry) (s : State) : Host.Outcome State Fault Refusal :=
  onDev s fun d => d.engine fun d => d.atMgmt h fun d => d.hdpRead h req entries

/-- HDP_WRITE (R91, R92). -/
def execHdpWrite (h : HdpHdr) (req : Nat) (entries : List WrEntry) (s : State) : Host.Outcome State Fault Refusal :=
  onDev s fun d => d.engine fun d => d.atMgmt h fun d => d.hdpWrite h req entries

/-- HDP_SUBSCRIBE (R93, R95). -/
def execHdpSubscribe (h : HdpHdr) (req number period : Nat) (entries : List RdEntry) (s : State) :
    Host.Outcome State Fault Refusal :=
  onDev s fun d => d.engine fun d => d.atMgmt h fun d => d.hdpSubscribe h req number period entries

/-- HDP_UNSUBSCRIBE (R84). -/
def execHdpUnsubscribe (h : HdpHdr) (req number : Nat) (s : State) : Host.Outcome State Fault Refusal :=
  onDev s fun d => d.engine fun d => d.atMgmt h fun d => d.hdpUnsubscribe h req number

/-- HDP_BULK_BEGIN (R96). -/
def execHdpBulkBegin (h : HdpHdr) (req index sub : Nat) (load : Bool) (total crc : Nat) (s : State) :
    Host.Outcome State Fault Refusal :=
  onDev s fun d => d.engine fun d => d.atMgmt h fun d => d.hdpBulkBegin h req index sub load total crc

/-- HDP_BULK_DATA (R84, R97). -/
def execHdpBulkData (h : HdpHdr) (_req offset : Nat) (data : Octets) (s : State) : Host.Outcome State Fault Refusal :=
  onDev s fun d => d.engine fun d => d.atMgmt h fun d => d.hdpBulkData h offset data

/-- HDP_BULK_END (R97). -/
def execHdpBulkEnd (h : HdpHdr) (req : Nat) (s : State) : Host.Outcome State Fault Refusal :=
  onDev s fun d => d.engine fun d => d.atMgmt h fun d => d.hdpBulkEnd h req

/-- HDP_BULK_READ (R97). -/
def execHdpBulkRead (h : HdpHdr) (req offset len : Nat) (s : State) : Host.Outcome State Fault Refusal :=
  onDev s fun d => d.engine fun d => d.atMgmt h fun d => d.hdpBulkRead h req offset len

/-- HDP_PUNT_CLAIM (R98). -/
def execHdpPuntClaim (h : HdpHdr) (req : Nat) (s : State) : Host.Outcome State Fault Refusal :=
  onDev s fun d => d.engine fun d => d.atMgmt h fun d => d.hdpPuntClaim h req

/-- HDP_PUNT_TX (R99). -/
def execHdpPuntTx (h : HdpHdr) (req leg : Nat) (data : Octets) (s : State) : Host.Outcome State Fault Refusal :=
  onDev s fun d => d.engine fun d => d.atMgmt h fun d => d.hdpPuntTx h req leg data

/-- HDP_SESSION_TIMEOUT (R88). -/
def execHdpSessionTimeout (session : Nat) (s : State) : Host.Outcome State Fault Refusal :=
  onDev s fun d => d.engine fun d => d.idleClose session

/-- HDP_REQUEST_EXECUTE (R90, R91). -/
def execHdpRequestExecute (s : State) : Host.Outcome State Fault Refusal := onDev s fun d => d.engine Dev.executeRequest

/-- HDP_REQUEST_TIMEOUT (R90, R91). -/
def execHdpRequestTimeout (session req : Nat) (s : State) : Host.Outcome State Fault Refusal :=
  onDev s fun d => d.engine fun d => d.requestTimeout session req

/-- BULK_TRANSFER_TIMEOUT (R97). -/
def execBulkTransferTimeout (session : Nat) (s : State) : Host.Outcome State Fault Refusal :=
  onDev s fun d => d.engine fun d => d.bulkTimeout session

end Sys2Proof.Machine
end

