-- ==== Sys2Proof/Machine/ExecLegs.lean ====
section
/-! DEFINITION. The meanings of the commands of the legs and conferences (chapter 5). -/

namespace Sys2Proof.Machine

/-- CONF_OPEN (R102): CONF_CMD 1. -/
def execConfOpen (src : Src) (k : Nat) (s : State) : Host.Outcome State Fault Refusal := onWrite s src .CONF_CMD k 1024 1

/-- CONF_CLOSE (R103): CONF_CMD 2. -/
def execConfClose (src : Src) (k : Nat) (s : State) : Host.Outcome State Fault Refusal := onWrite s src .CONF_CMD k 1024 2

/-- CONF_CLOSE_COMPLETE (R103). -/
def execConfCloseComplete (k : Nat) (s : State) : Host.Outcome State Fault Refusal :=
  onUnit s k 1024 fun d => d.engine fun d => d.closeDone k

/-- CONFIGURE (R105, R106): LEG_CMD 1. -/
def execConfigure (src : Src) (n : Nat) (s : State) : Host.Outcome State Fault Refusal := onWrite s src .LEG_CMD n 4096 1

/-- UNCONFIGURE (R105): LEG_CMD 2. -/
def execUnconfigure (src : Src) (n : Nat) (s : State) : Host.Outcome State Fault Refusal := onWrite s src .LEG_CMD n 4096 2

/-- ACTIVATE (R105, R110): LEG_CMD 3. -/
def execActivate (src : Src) (n : Nat) (s : State) : Host.Outcome State Fault Refusal := onWrite s src .LEG_CMD n 4096 3

/-- HOLD (R105, R107): LEG_CMD 4. -/
def execHold (src : Src) (n : Nat) (s : State) : Host.Outcome State Fault Refusal := onWrite s src .LEG_CMD n 4096 4

/-- RESUME (R105, R107): LEG_CMD 5. -/
def execResume (src : Src) (n : Nat) (s : State) : Host.Outcome State Fault Refusal := onWrite s src .LEG_CMD n 4096 5

/-- REKEY (R105, R108): LEG_CMD 6. -/
def execRekey (src : Src) (n : Nat) (s : State) : Host.Outcome State Fault Refusal := onWrite s src .LEG_CMD n 4096 6

/-- REKEY_DONE (R105, R108): LEG_CMD 7. -/
def execRekeyDone (src : Src) (n : Nat) (s : State) : Host.Outcome State Fault Refusal := onWrite s src .LEG_CMD n 4096 7

/-- DELETE (R105, R109): LEG_CMD 8. -/
def execDelete (src : Src) (n : Nat) (s : State) : Host.Outcome State Fault Refusal := onWrite s src .LEG_CMD n 4096 8

/-- READMIT_VIDEO (R105, R111): LEG_CMD 9. -/
def execReadmitVideo (src : Src) (n : Nat) (s : State) : Host.Outcome State Fault Refusal := onWrite s src .LEG_CMD n 4096 9

/-- DRAIN_END (R109). -/
def execDrainEnd (n : Nat) (s : State) : Host.Outcome State Fault Refusal :=
  onUnit s n 4096 fun d => d.engine fun d => (d.drainEnds n).bufferSweep

/-- LEG_RX_TIMEOUT (R109). -/
def execLegRxTimeout (n : Nat) (s : State) : Host.Outcome State Fault Refusal :=
  onUnit s n 4096 fun d => d.engine fun d => d.rxTimeout n

/-- LEG_SSRC_FLUSH (R141): a write of 1, served at the next edge. -/
def execLegSsrcFlush (src : Src) (n : Nat) (s : State) : Host.Outcome State Fault Refusal := onWrite s src .LEG_SSRC_FLUSH n 4096 1

/-- LEG_EVENT_READ (R195). -/
def execLegEventRead (src : Src) (leg : Nat) (s : State) : Host.Outcome State Fault Refusal :=
  onUnit s leg 4096 fun d => d.access src fun d => d.answerRead src { o := .LEG_EVENT, u := leg }

/-- LEG_LOW_PRIORITY_WRITE (R323). -/
def execLegLowPriorityWrite (src : Src) (leg : Nat) (low : Bool) (s : State) : Host.Outcome State Fault Refusal :=
  onWrite s src .LEG_LOW_PRIORITY leg 4096 (if low then 1 else 0)

end Sys2Proof.Machine
end

