-- ==== Sys2Proof/Machine/ExecNet.lean ====
section
/-! DEFINITION. The meanings of the commands of the packet path and of line adaptation (chapters 6 and 7). -/

namespace Sys2Proof.Machine

/-- FRAME_RECEIVE (R120). -/
def execFrameReceive (port : Nat) (f : Frame) (s : State) : Host.Outcome State Fault Refusal :=
  onUnit s port 4 fun d => d.engine fun d => d.frameRx port f

/-- VIDEO_HOLD_EXPIRY (R147). -/
def execVideoHoldExpiry (leg ssrc ts : Nat) (s : State) : Host.Outcome State Fault Refusal :=
  onUnit s leg 4096 fun d => d.engine fun d => (d.holdExpiry leg ssrc ts).bufferSweep

/-- PORT_LINK_CHANGE (R121, R124). -/
def execPortLinkChange (port link fecUncorrected fecCorrected : Nat) (s : State) : Host.Outcome State Fault Refusal :=
  onUnit s port 4 fun d => d.engine fun d => d.portLink port link fecUncorrected fecCorrected

/-- PAIR_REVERT (R125). -/
def execPairRevert (q : Nat) (s : State) : Host.Outcome State Fault Refusal :=
  onUnit s q 2 fun d => d.engine fun d => d.pairRevert q

/-- PAIR_FORCE (R125). -/
def execPairForce (src : Src) (q port : Nat) (s : State) : Host.Outcome State Fault Refusal := onWrite s src .PAIR_FORCE q 2 port

/-- SREFCLK_LOSS (R485). -/
def execSrefclkLoss (r : Nat) (s : State) : Host.Outcome State Fault Refusal :=
  onUnit s r 2 fun d => d.engine fun d => d.srefLoss r

/-- PORT_FRAME_SELECT (R166). The HDP system queue that a frame may leave room in takes what waits in the punt hold (R98). -/
def execPortFrameSelect (turn : PortTurn) (s : State) : Host.Outcome State Fault Refusal :=
  onUnit s turn.port 4 fun d => d.engine fun d => ((d.selectFrame turn).puntDrain 257).bufferSweep

/-- RTCP_REPORT_DUE (R163). -/
def execRtcpReportDue (leg : Nat) (kind : ReportKind) (s : State) : Host.Outcome State Fault Refusal :=
  onUnit s leg 4096 fun d => d.engine fun d => d.reportDue leg kind

/-- FEC_K_EVALUATE (R162). -/
def execFecKEvaluate (leg : Nat) (s : State) : Host.Outcome State Fault Refusal :=
  onUnit s leg 4096 fun d => d.engine fun d => d.fecEvaluate leg

/-- LINE_LOOP_ITEM (R158, R159). -/
def execLineLoopItem (leg : Nat) (s : State) : Host.Outcome State Fault Refusal :=
  onUnit s leg 4096 fun d => d.engine fun d => d.lineLoop leg

/-- FEEDBACK_BUILD_ITEM (R163, R325). -/
def execFeedbackBuildItem (leg : Nat) (s : State) : Host.Outcome State Fault Refusal :=
  onUnit s leg 4096 fun d => d.engine fun d => (d.feedbackBuilt leg).bufferSweep

end Sys2Proof.Machine
end

