-- ==== Sys2Proof/Machine/ExecPools.lean ====
section
/-! DEFINITION. The meanings of the commands of the pool manager (chapter 15). -/

namespace Sys2Proof.Machine

/-- An allocation (R364, R365) with what it returns: the handles, or the null handle. `link` is what the link of the buffer at the head of
the list that it draws from first reads as; none is the link as written. Where it fails its check, the allocation is served from another
list, and that list is rebuilt (R363). -/
def Dev.allocate (d : Dev) (domain : Nat) (use : PoolUse) (size : Nat) (conf : Option Nat) (count : Nat) (link : Option Octets) : Dev :=
  let p := firstPool use size
  let broken := match link, d.fullest p none with
    | some b, some c => if linkHolds (d.headHandle p c) b then none else some c
    | _, _ => none
  let r := d.alloc use domain size conf count broken
  let d := match broken with
    | some c => r.2.rebuildList p c
    | none => r.2
  d.emit (.handles domain (if r.1 = [] then [nullHandle] else r.1))

/-- BUFFER_ALLOCATE (R364 to R366). -/
def execBufferAllocate (domain : Nat) (use : PoolUse) (size : Nat) (conf : Option Nat) (count : Nat) (link : Option Octets) (s : State) :
    Host.Outcome State Fault Refusal :=
  onUnit s domain 16 fun d => d.engine fun d => d.allocate domain use size conf count link

/-- REFERENCE_ADD (R367, R368). -/
def execReferenceAdd (domain handle n : Nat) (s : State) : Host.Outcome State Fault Refusal :=
  onUnit s domain 16 fun d => d.engine fun d => d.refAdd domain handle n

/-- REFERENCE_DROP (R367, R368). -/
def execReferenceDrop (domain handle : Nat) (s : State) : Host.Outcome State Fault Refusal :=
  onUnit s domain 16 fun d => d.engine fun d => d.refDrop domain handle

/-- POOL_LOW_WATER_READ (R372): a read of POOL_LOW_WATER, or of POOL_PEAK_REFS where `peak`. -/
def execPoolLowWaterRead (src : Src) (pool : Nat) (peak : Bool) (s : State) : Host.Outcome State Fault Refusal :=
  onUnit s pool 6 fun d => d.access src fun d =>
    d.answerRead src { o := if peak then .POOL_PEAK_REFS else .POOL_LOW_WATER, u := pool }

end Sys2Proof.Machine
end

