-- ==== Sys2Proof/Machine/ExecPower.lean ====
section
/-! DEFINITION. The meanings of the commands of power and the voltage regulator (chapters 17 and 21). -/

namespace Sys2Proof.Machine

/-- GOV_DOZE (R404): GOV_CMD 1. -/
def execGovDoze (src : Src) (s : State) : Host.Outcome State Fault Refusal := onWrite s src .GOV_CMD 0 1 1

/-- GOV_WAKE (R404): GOV_CMD 2. -/
def execGovWake (src : Src) (s : State) : Host.Outcome State Fault Refusal := onWrite s src .GOV_CMD 0 1 2

/-- DOZE_WAKE_COMPLETE (R404). -/
def execDozeWakeComplete (fails : List Nat) (s : State) : Host.Outcome State Fault Refusal :=
  onDev s fun d => d.engine fun d => d.dozeWake fails

/-- DOMAIN_WAKE_COMPLETE (R403). -/
def execDomainWakeComplete (dom : Nat) (s : State) : Host.Outcome State Fault Refusal :=
  onUnit s dom 50 fun d => d.engine fun d => d.wakeDone dom

/-- DOMAIN_WAKE_TIMEOUT (R403). -/
def execDomainWakeTimeout (dom : Nat) (s : State) : Host.Outcome State Fault Refusal :=
  onUnit s dom 50 fun d => d.engine fun d => d.wakeFailed dom

/-- DOMAIN_IDLE_GATE (R398, R402). -/
def execDomainIdleGate (dom : Nat) (s : State) : Host.Outcome State Fault Refusal :=
  onUnit s dom 50 fun d => d.engine fun d => d.idleGate dom

/-- AVS_TRANSACTION_END (R482, R483). -/
def execAvsTransactionEnd (ok : Bool) (readback : Option Nat) (status : Nat) (s : State) : Host.Outcome State Fault Refusal :=
  onDev s fun d => d.awake fun d => d.avsDone ok readback status

end Sys2Proof.Machine
end

