-- ==== Sys2Proof/Machine/ExecReset.lean ====
section
/-! DEFINITION. The meanings of the commands of reset, release, the option block and warm-up (chapter 18). -/

namespace Sys2Proof.Machine

/-- PORN_ASSERT (R419, R420, R443). -/
def execPornAssert (s : State) : Host.Outcome State Fault Refusal := onDev s Dev.pornAssert

/-- PORN_RELEASE (R422): `sources` are the alarm sources that stand. -/
def execPornRelease (sources : Nat) (s : State) : Host.Outcome State Fault Refusal := onDev s fun d => d.pornRelease sources

/-- DOMAIN_RELEASE (R422, R423). -/
def execDomainRelease (clockFails : List Nat) (s : State) : Host.Outcome State Fault Refusal :=
  onDev s fun d => d.awake fun d => d.domainRelease clockFails

/-- PLL_LOCK (R423). -/
def execPllLock (p : Pll) (s : State) : Host.Outcome State Fault Refusal := onDev s fun d => d.awake fun d => d.pllLock p

/-- PLL_LOCK_TIMEOUT (R423). -/
def execPllLockTimeout (p : Pll) (s : State) : Host.Outcome State Fault Refusal := onDev s fun d => d.awake fun d => d.pllTimeout p

/-- OPTION_BLOCK_READ (R426 to R429). -/
def execOptionBlockRead (a b : OptCopy) (octal : Bool) (s : State) : Host.Outcome State Fault Refusal :=
  onDev s fun d => d.awake fun d => d.optionBlockRead a b octal

/-- WARMUP_START (R429, R433). -/
def execWarmupStart (s : State) : Host.Outcome State Fault Refusal := onDev s fun d => d.engine Dev.warmupStart

/-- HANDOVER_BEGIN (R435). -/
def execHandoverBegin (s : State) : Host.Outcome State Fault Refusal := onDev s fun d => d.engine Dev.handoverBegin

/-- HANDOVER (R436). -/
def execHandover (s : State) : Host.Outcome State Fault Refusal := onDev s fun d => d.engine Dev.handover

/-- WARMUP_RETURN (R346, R437). -/
def execWarmupReturn (s : State) : Host.Outcome State Fault Refusal := onDev s fun d => d.engine Dev.warmupReturn

/-- WRSTN_ASSERT (R438, R439, R443, R444). -/
def execWrstnAssert (s : State) : Host.Outcome State Fault Refusal := onDev s fun d => d.awake fun d => d.warmEnter 1

/-- WARM_RESET_RELEASE (R58, R349, R371, R422, R438). -/
def execWarmResetRelease (resumeStrides : Nat) (notInSelfRefresh : List Nat) (s : State) : Host.Outcome State Fault Refusal :=
  onDev s fun d => d.awake fun d => d.warmRelease resumeStrides notInSelfRefresh

/-- TRSTN_ASSERT (R419): the TAP controller alone. -/
def execTrstnAssert (s : State) : Host.Outcome State Fault Refusal := onDev s fun d => { d with rst := { d.rst with tapReset := true } }

/-- RESET_CMD_WARM (R421): RESET_CMD 1. -/
def execResetCmdWarm (src : Src) (s : State) : Host.Outcome State Fault Refusal := onWrite s src .RESET_CMD 0 1 1

/-- RESET_CMD_COLD (R421): RESET_CMD 2. -/
def execResetCmdCold (src : Src) (s : State) : Host.Outcome State Fault Refusal := onWrite s src .RESET_CMD 0 1 2

/-- RESET_CMD_REGION (R421): RESET_CMD 0x10 + g. -/
def execResetCmdRegion (src : Src) (g : Nat) (s : State) : Host.Outcome State Fault Refusal := onWrite s src .RESET_CMD 0 1 (0x10 + g)

/-- OPT_IMAGE (R431): a write of a whole new half, as its octets spell it. -/
def execOptImage (src : Src) (img : OptCopy) (s : State) : Host.Outcome State Fault Refusal :=
  onDev s fun d => d.access src fun d =>
    let k : Key := { o := .OPT_IMAGE }
    answerWrite src k (d.orRefuse (k.mayWrite src) >>= fun _ => d.writeOption img)

/-- OPT_ERASE_COMPLETE (R431). -/
def execOptEraseComplete (s : State) : Host.Outcome State Fault Refusal := onDev s fun d => d.awake Dev.optErased

/-- OPT_IMAGE_WRITE_COMPLETE (R431). -/
def execOptImageWriteComplete (ok : Bool) (s : State) : Host.Outcome State Fault Refusal :=
  onDev s fun d => d.awake fun d => d.optWritten ok

/-- REVERTED_MASK_WRITE (R441). -/
def execRevertedMaskWrite (src : Src) (value : Nat) (s : State) : Host.Outcome State Fault Refusal :=
  onWrite s src .REVERTED_MASK 0 1 value

end Sys2Proof.Machine
end

