-- ==== Sys2Proof/Machine/ExecSched.lean ====
section
/-! DEFINITION. The meanings of the commands of the scheduler, the cells and the arbiters (chapter 13). -/

namespace Sys2Proof.Machine

/-- The units that an arbiter stands for: the block, the region or the channel. -/
def arbUnit : Arb → Nat × Nat
  | .block b => (b, 64)
  | .region g => (g, 4)
  | .chip c => (c, 4)

/-- The region that an arbiter stands in, where it stands in one (R329). -/
def Dev.arbRuns (d : Dev) : Arb → Bool
  | .block b => d.regionRuns (b / 16)
  | .region g => d.regionRuns g
  | .chip c => d.gen.running && d.chServes c

/-- ITEM_PLACEMENT (R321). -/
def execItemPlacement (block : Nat) (s : State) : Host.Outcome State Fault Refusal :=
  onUnit s block 64 fun d => d.inRegion (block / 16) fun d => d.placement block

/-- ITEM_START (R322). -/
def execItemStart (cell : Nat) (s : State) : Host.Outcome State Fault Refusal :=
  onUnit s cell 1024 fun d => d.inRegion (cell / 256) fun d => d.startItem cell

/-- CHECK_ITEM (R317, R376). -/
def execCheckItem (cell item word : Nat) (ok : Bool) (s : State) : Host.Outcome State Fault Refusal :=
  onUnit s cell 1024 fun d => d.inRegion (cell / 256) fun d => d.checkDone cell item word ok

/-- CELL_CLOCK_STOP (R328). -/
def execCellClockStop (cell : Nat) (s : State) : Host.Outcome State Fault Refusal :=
  onUnit s cell 1024 fun d => d.inRegion (cell / 256) fun d => d.stopClock cell

/-- ARBITER_GRANT (R329, R330). -/
def execArbiterGrant (a : Arb) (waiting panic : List Nat) (s : State) : Host.Outcome State Fault Refusal :=
  onUnit s (arbUnit a).1 (arbUnit a).2 fun d => if d.arbRuns a then d.grant a waiting panic else d

/-- DEBUG_SWEEP (R330). -/
def execDebugSweep (a : Arb) (s : State) : Host.Outcome State Fault Refusal :=
  onUnit s (arbUnit a).1 (arbUnit a).2 fun d => if d.arbRuns a then d.sweepArb a else d

end Sys2Proof.Machine
end

