-- ==== Sys2Proof/Machine/ExecSec.lean ====
section
/-! DEFINITION. The meanings of the commands of keys, the service cipher, alarms, attestation and owner slots (chapter 19). -/

namespace Sys2Proof.Machine

/-- TK_PROGRAM (R446). -/
def execTkProgram (src : Src) (key : Octets) (s : State) : Host.Outcome State Fault Refusal := onWriteBytes s src .TK_PROGRAM 0 1 key

/-- SLOT_WRAP (R447, R448): slots 1 to 7. -/
def execSlotWrap (src : Src) (slot : Nat) (wrap : Octets) (s : State) : Host.Outcome State Fault Refusal :=
  if slot = 0 then .refused (.noSuchUnit 0) else onWriteBytes s src .SLOT_WRAP slot 8 wrap

/-- HDP_KEY (R85, R447): slots 0 to 3, at subindexes 1 to 4. -/
def execHdpKey (src : Src) (slot : Nat) (wrap : Octets) (s : State) : Host.Outcome State Fault Refusal :=
  onUnit s slot 4 fun d => d.access src fun d => d.writeBytes src { o := .HDP_KEY, k := slot } wrap

/-- LEG_TX_KEY (R447, R450). -/
def execLegTxKey (src : Src) (leg : Nat) (wrap : Octets) (s : State) : Host.Outcome State Fault Refusal :=
  onWriteBytes s src .LEG_TX_KEY leg 4096 wrap

/-- LEG_RX_KEY (R447, R450). -/
def execLegRxKey (src : Src) (leg : Nat) (wrap : Octets) (s : State) : Host.Outcome State Fault Refusal :=
  onWriteBytes s src .LEG_RX_KEY leg 4096 wrap

/-- LEG_SUITE_WRITE (R449). -/
def execLegSuiteWrite (src : Src) (leg suite : Nat) (s : State) : Host.Outcome State Fault Refusal :=
  onWrite s src .LEG_SUITE leg 4096 suite

/-- SC_LOCK_TAKE (R451): a write of 1. -/
def execScLockTake (src : Src) (s : State) : Host.Outcome State Fault Refusal := onWrite s src .SC_LOCK 0 1 1

/-- SC_LOCK_RELEASE (R451): a write of 0. -/
def execScLockRelease (src : Src) (s : State) : Host.Outcome State Fault Refusal := onWrite s src .SC_LOCK 0 1 0

/-- SC_LEASE_EXPIRY (R451). -/
def execScLeaseExpiry (s : State) : Host.Outcome State Fault Refusal := onDev s fun d => d.engine fun d => d.lockExpire 1

/-- A write of 1 to SC_CMD while SC_MODE names `mode` (R452, R453). Under another mode the command is not this one, and nothing comes. -/
def onScMode (s : State) (src : Src) (mode : Nat) : Host.Outcome State Fault Refusal :=
  onDev s fun d => d.access src fun d => if d.nat .SC_MODE = mode then d.writeNum src { o := .SC_CMD } 1 else d

/-- AES_CBC_ENCRYPT (R452): SC_CMD in mode 1. -/
def execAesCbcEncrypt (src : Src) (s : State) : Host.Outcome State Fault Refusal := onScMode s src 1

/-- AES_CBC_DECRYPT (R452): SC_CMD in mode 2. -/
def execAesCbcDecrypt (src : Src) (s : State) : Host.Outcome State Fault Refusal := onScMode s src 2

/-- AES_CTR (R452): SC_CMD in mode 3. -/
def execAesCtr (src : Src) (s : State) : Host.Outcome State Fault Refusal := onScMode s src 3

/-- AES_GCM_ENCRYPT (R452): SC_CMD in mode 4. -/
def execAesGcmEncrypt (src : Src) (s : State) : Host.Outcome State Fault Refusal := onScMode s src 4

/-- AES_GCM_DECRYPT (R452): SC_CMD in mode 5. -/
def execAesGcmDecrypt (src : Src) (s : State) : Host.Outcome State Fault Refusal := onScMode s src 5

/-- RFC_5649_WRAP (R452): SC_CMD in mode 6. -/
def execRfc5649Wrap (src : Src) (s : State) : Host.Outcome State Fault Refusal := onScMode s src 6

/-- RFC_5649_UNWRAP (R452): SC_CMD in mode 7. -/
def execRfc5649Unwrap (src : Src) (s : State) : Host.Outcome State Fault Refusal := onScMode s src 7

/-- SC_JOB_COMPLETE (R453). -/
def execScJobComplete (s : State) : Host.Outcome State Fault Refusal := onDev s fun d => d.engine Dev.scComplete

/-- SUPPLY_ALARM (R454, R455). -/
def execSupplyAlarm (supply mv : Nat) (s : State) : Host.Outcome State Fault Refusal :=
  onUnit s supply 8 fun d => d.awake fun d => d.supplyAlarm supply mv

/-- CLOCK_ALARM (R454, R455). -/
def execClockAlarm (clock : Nat) (s : State) : Host.Outcome State Fault Refusal := onDev s fun d => d.awake fun d => d.alarm 1 [clock]

/-- TEMPERATURE_ALARM (R414, R454, R455). -/
def execTemperatureAlarm (sensor : Nat) (celsius : Int) (s : State) : Host.Outcome State Fault Refusal :=
  onUnit s sensor 16 fun d => d.awake fun d => d.temperatureAlarm sensor celsius

/-- TAMPER_ALARM (R454, R455). -/
def execTamperAlarm (s : State) : Host.Outcome State Fault Refusal := onDev s fun d => d.awake fun d => d.alarm 3 []

/-- KEY_ERASE_VERIFY (R455, R456). -/
def execKeyEraseVerify (zero : Bool) (s : State) : Host.Outcome State Fault Refusal :=
  onDev s fun d => d.awake fun d => d.eraseVerified zero

/-- ALARM_SOURCE_CLEAR (R457). -/
def execAlarmSourceClear (source : Nat) (s : State) : Host.Outcome State Fault Refusal :=
  onUnit s source 4 fun d => d.awake fun d => d.alarmGone source

/-- ALARM_CLEAR (R457): a write of 1. -/
def execAlarmClear (src : Src) (s : State) : Host.Outcome State Fault Refusal := onWrite s src .ALARM_CLEAR 0 1 1

/-- ATTEST_CMD (R462): a write of 1. -/
def execAttestCmd (src : Src) (s : State) : Host.Outcome State Fault Refusal := onWrite s src .ATTEST_CMD 0 1 1

/-- ATTEST_REPORT_READY (R463). -/
def execAttestReportReady (s : State) : Host.Outcome State Fault Refusal := onDev s fun d => d.awake Dev.attestReady

/-- OWNER_PROGRAM (R461): a slot octet and a digest. -/
def execOwnerProgram (src : Src) (slot : Nat) (digest : Octets) (s : State) : Host.Outcome State Fault Refusal :=
  onUnit s slot 256 fun d => d.access src fun d => d.writeBytes src { o := .OWNER_PROGRAM } (slot :: digest)

/-- OWNER_REVOKE (R461). -/
def execOwnerRevoke (src : Src) (slot : Nat) (s : State) : Host.Outcome State Fault Refusal := onWrite s src .OWNER_REVOKE 0 1 slot

end Sys2Proof.Machine
end

