-- ==== Sys2Proof/Machine/ExecSnap.lean ====
section
/-! DEFINITION. The meanings of the commands of the photo finish and of fault injection (chapter 20). -/

namespace Sys2Proof.Machine

/-- SNAP_NOW (R466): a write of 1. -/
def execSnapNow (src : Src) (s : State) : Host.Outcome State Fault Refusal := onWrite s src .SNAP_NOW 0 1 1

/-- SNAP_IN_EDGE (R466). -/
def execSnapInEdge (s : State) : Host.Outcome State Fault Refusal := onDev s fun d => d.engine Dev.snapIn

/-- SNAP_OUT_END (R469). -/
def execSnapOutEnd (s : State) : Host.Outcome State Fault Refusal := onDev s fun d => d.engine Dev.snapOutEnd

/-- SNAP_EDGE_WRITE (R468). -/
def execSnapEdgeWrite (src : Src) (edge : Nat) (s : State) : Host.Outcome State Fault Refusal := onWrite s src .SNAP_EDGE 0 1 edge

/-- SNAP_RELEASE (R470): a write of 1. -/
def execSnapRelease (src : Src) (s : State) : Host.Outcome State Fault Refusal := onWrite s src .SNAP_RELEASE 0 1 1

/-- INJ_CMD (R475): a write of 1. -/
def execInjCmd (src : Src) (s : State) : Host.Outcome State Fault Refusal := onWrite s src .INJ_CMD 0 1 1

end Sys2Proof.Machine
end

