-- ==== Sys2Proof/Machine/ExecStride.lean ====
section
/-! DEFINITION. The meanings of the stride's, the commit's and the dictionary's own commands (chapters 2 and 4). -/

namespace Sys2Proof.Machine

/-- STRIDE_EDGE (R25): the actions of a stride edge. -/
def execStrideEdge (e : EdgeInput) (s : State) : Host.Outcome State Fault Refusal := onDev s fun d => d.awake fun d => d.strideEdge e

/-- STRIDE_COMMIT (R31): a write of 1 to [2000.10]. -/
def execStrideCommit (src : Src) (s : State) : Host.Outcome State Fault Refusal := onWrite s src .STRIDE_COMMIT 0 1 1

/-- COMMIT_WITHDRAW (R34): a write of 0 to [2000.10]. -/
def execCommitWithdraw (src : Src) (s : State) : Host.Outcome State Fault Refusal := onWrite s src .STRIDE_COMMIT 0 1 0

/-- STAGE_DISCARD (R68): a write of 1. -/
def execStageDiscard (src : Src) (s : State) : Host.Outcome State Fault Refusal := 
  onDev s fun d => d.access src fun d => d.writeInTurn src 0x2000 0x14 [1]

/-- DICT_WRITE (R62): a write of an index and subindex. -/
def execDictWrite (src : Src) (index sub : Nat) (data : Octets) (s : State) : Host.Outcome State Fault Refusal :=
  onDev s fun d => d.access src fun d => d.writeInTurn src index sub data

end Sys2Proof.Machine
end

