-- ==== Sys2Proof/Machine/ExecTime.lean ====
section
/-! DEFINITION. The meanings of the commands of the time bases, PTP, the pulse outputs and the capture inputs (chapter 3). -/

namespace Sys2Proof.Machine

/-- TB_TIME_WRITE (R46). -/
def execTbTimeWrite (src : Src) (n time : Nat) (s : State) : Host.Outcome State Fault Refusal := onWrite s src .TB_TIME n 8 time

/-- SERVO_SAMPLE (R43): an offset sample of time base `n`. -/
def execServoSample (n : Nat) (o : Int) (t : Nat) (s : State) : Host.Outcome State Fault Refusal :=
  onUnit s n 8 fun d => d.engine fun d => d.servo n o t

/-- HOLDOVER_ENTER (R44). -/
def execHoldoverEnter (n : Nat) (s : State) : Host.Outcome State Fault Refusal :=
  onUnit s n 8 fun d => d.engine fun d => d.holdoverEnter n

/-- HOLDOVER_EXPIRY (R44). -/
def execHoldoverExpiry (n : Nat) (s : State) : Host.Outcome State Fault Refusal :=
  onUnit s n 8 fun d => d.engine fun d => d.holdoverExpiry n

/-- PTP_MESSAGE_RX (R47): a PTP message at a port. -/
def execPtpMessageRx (port : Nat) (m : PtpRx) (s : State) : Host.Outcome State Fault Refusal :=
  onUnit s port 4 fun d => d.engine fun d => d.ptpRx port m.msg m.pcs

/-- PTP_MESSAGE_DUE (R47). -/
def execPtpMessageDue (port : Nat) (due : PtpDue) (s : State) : Host.Outcome State Fault Refusal :=
  onUnit s port 4 fun d => d.engine fun d => d.ptpDue port due

/-- PTP_ANNOUNCE_TIMEOUT (R47, R49). -/
def execPtpAnnounceTimeout (port : Nat) (s : State) : Host.Outcome State Fault Refusal :=
  onUnit s port 4 fun d => d.engine fun d => d.ptpTimeout port

/-- PULSE_TARGET_REACHED (R53). -/
def execPulseTargetReached (k : Nat) (s : State) : Host.Outcome State Fault Refusal :=
  onUnit s k 4 fun d => d.engine fun d => d.pulseTarget k

/-- PULSE_WIDTH_END (R53). -/
def execPulseWidthEnd (k : Nat) (s : State) : Host.Outcome State Fault Refusal :=
  onUnit s k 4 fun d => d.engine fun d => d.pulseEnd k

/-- PULSE_TARGET_WRITE (R52). -/
def execPulseTargetWrite (src : Src) (k time : Nat) (s : State) : Host.Outcome State Fault Refusal := onWrite s src .PULSE_TARGET k 4 time

/-- PULSE_MODE_WRITE (R52, R54). -/
def execPulseModeWrite (src : Src) (k mode : Nat) (s : State) : Host.Outcome State Fault Refusal := onWrite s src .PULSE_MODE k 4 mode

/-- CAPTURE_EDGE (R55, R56). -/
def execCaptureEdge (j : Nat) (rising : Bool) (s : State) : Host.Outcome State Fault Refusal :=
  onUnit s j 2 fun d => d.engine fun d => d.captureEdge j rising

/-- CAPTURE_TIME_READ (R56). -/
def execCaptureTimeRead (src : Src) (j : Nat) (s : State) : Host.Outcome State Fault Refusal :=
  onUnit s j 2 fun d => d.access src fun d => d.answerRead src { o := .CAPTURE_TIME, u := j }

end Sys2Proof.Machine
end

