-- ==== Sys2Proof/Machine/ExecVideo.lean ====
section
/-! DEFINITION. The meanings of the commands of the coding pairs, the composers, the splicer and the keyframe requests
(chapters 9 to 12). -/

namespace Sys2Proof.Machine

/-- The number of an encode's or a composer item's leg or layout, and how many there are. -/
def encUnit : EncId → Nat × Nat
  | .composed n => (n, 4096)
  | .tile n _ => (n, 4096)
  | .strip l => (l, 1024)

/-- A composer item completes (R260); three privacy blanks in consecutive periods retire the composer (R288). -/
def Dev.composerDone (d : Dev) (m : List Host.Cell) (k : Nat) (regions : List IndRegion) (late : List Nat) : Dev × List Host.Cell :=
  let r := d.compComplete m k regions late
  if r.2 then (r.1.1.retireComposer k, r.1.2) else r.1

/-- A command of one of `count` units that acts on the device and on DRAM while `on` holds. -/
def onBoth (s : State) (n count : Nat) (on : Dev → Bool) (f : Dev → List Host.Cell → Dev × List Host.Cell) :
    Host.Outcome State Fault Refusal :=
  if n < count then onDram s fun d m => if on d then ((f d m).1.bufferSweep, (f d m).2) else (d, m) else .refused (.noSuchUnit n)

/-- KEYFRAME_REQUEST_REPEAT (R225, R306). -/
def execKeyframeRequestRepeat (leg stream : Nat) (s : State) : Host.Outcome State Fault Refusal :=
  onUnit s leg 4096 fun d => d.engine fun d => d.kfRepeat leg stream

/-- DECODE_PICTURE_COMPLETE (R213 to R228). -/
def execDecodePictureComplete (leg slot : Nat) (trace : List CoupleStep) (s : State) : Host.Outcome State Fault Refusal :=
  onBoth s leg 4096 (fun d => d.gen.running) fun d m => d.decComplete m leg slot trace

/-- ENCODE_ROW_COMPLETE (R241, R242, R250, R254). -/
def execEncodeRowComplete (e : EncId) (bits header : Nat) (finds : RowFinds) (s : State) : Host.Outcome State Fault Refusal :=
  onUnit s (encUnit e).1 (encUnit e).2 fun d => d.engine fun d => d.rowComplete e bits header finds

/-- ENCODE_PICTURE_COMPLETE (R237, R239). -/
def execEncodePictureComplete (e : EncId) (bits entryBits : Nat) (s : State) : Host.Outcome State Fault Refusal :=
  onUnit s (encUnit e).1 (encUnit e).2 fun d => d.engine fun d => (d.encComplete e bits entryBits).bufferSweep

/-- COMPOSER_ITEM_START (R260, R273). -/
def execComposerItemStart (composer : Nat) (s : State) : Host.Outcome State Fault Refusal :=
  onUnit s composer 4 fun d => d.inRegion composer fun d => (d.compStart composer).bufferSweep

/-- COMPOSER_ITEM_COMPLETE (R260, R287, R288). -/
def execComposerItemComplete (composer : Nat) (regions : List IndRegion) (late : List Nat) (s : State) : Host.Outcome State Fault Refusal :=
  onBoth s composer 4 (fun d => d.regionRuns composer) fun d m => d.composerDone m composer regions late

/-- SPLICE_ASSEMBLE (R276 to R282). -/
def execSpliceAssemble (leg period : Nat) (s : State) : Host.Outcome State Fault Refusal :=
  onUnit s leg 4096 fun d => d.engine fun d => (d.assemble leg period).bufferSweep

end Sys2Proof.Machine
end

