-- ==== Sys2Proof/Machine/Dispatch.lean ====
section
/-! DEFINITION. Every command to its meaning, one arm a constructor. -/

namespace Sys2Proof.Machine

/-- The effect of a command on everything but the queue. -/
def exec (i : Instr) (s : State) : Host.Outcome State Fault Refusal :=
  match i with
  | .strideEdge e => Sys2Proof.Machine.execStrideEdge e s
  | .keyframeRequestRepeat leg stream => Sys2Proof.Machine.execKeyframeRequestRepeat leg stream s
  | .avsTransactionEnd ok readback status => Sys2Proof.Machine.execAvsTransactionEnd ok readback status s
  | .strideCommit src => Sys2Proof.Machine.execStrideCommit src s
  | .commitWithdraw src => Sys2Proof.Machine.execCommitWithdraw src s
  | .stageDiscard src => Sys2Proof.Machine.execStageDiscard src s
  | .dictWrite src index sub data => Sys2Proof.Machine.execDictWrite src index sub data s
  | .tbTimeWrite src n time => Sys2Proof.Machine.execTbTimeWrite src n time s
  | .servoSample n o t => Sys2Proof.Machine.execServoSample n o t s
  | .holdoverEnter n => Sys2Proof.Machine.execHoldoverEnter n s
  | .holdoverExpiry n => Sys2Proof.Machine.execHoldoverExpiry n s
  | .ptpMessageRx port m => Sys2Proof.Machine.execPtpMessageRx port m s
  | .ptpMessageDue port due => Sys2Proof.Machine.execPtpMessageDue port due s
  | .ptpAnnounceTimeout port => Sys2Proof.Machine.execPtpAnnounceTimeout port s
  | .pulseTargetReached k => Sys2Proof.Machine.execPulseTargetReached k s
  | .pulseWidthEnd k => Sys2Proof.Machine.execPulseWidthEnd k s
  | .pulseTargetWrite src k time => Sys2Proof.Machine.execPulseTargetWrite src k time s
  | .pulseModeWrite src k mode => Sys2Proof.Machine.execPulseModeWrite src k mode s
  | .captureEdge j rising => Sys2Proof.Machine.execCaptureEdge j rising s
  | .captureTimeRead src j => Sys2Proof.Machine.execCaptureTimeRead src j s
  | .hdpOpen h req nonce timeout => Sys2Proof.Machine.execHdpOpen h req nonce timeout s
  | .hdpClose h req => Sys2Proof.Machine.execHdpClose h req s
  | .hdpKeepalive h req => Sys2Proof.Machine.execHdpKeepalive h req s
  | .hdpRead h req entries => Sys2Proof.Machine.execHdpRead h req entries s
  | .hdpWrite h req entries => Sys2Proof.Machine.execHdpWrite h req entries s
  | .hdpSubscribe h req number period entries => Sys2Proof.Machine.execHdpSubscribe h req number period entries s
  | .hdpUnsubscribe h req number => Sys2Proof.Machine.execHdpUnsubscribe h req number s
  | .hdpBulkBegin h req index sub load total crc => Sys2Proof.Machine.execHdpBulkBegin h req index sub load total crc s
  | .hdpBulkData h req offset data => Sys2Proof.Machine.execHdpBulkData h req offset data s
  | .hdpBulkEnd h req => Sys2Proof.Machine.execHdpBulkEnd h req s
  | .hdpBulkRead h req offset len => Sys2Proof.Machine.execHdpBulkRead h req offset len s
  | .hdpPuntClaim h req => Sys2Proof.Machine.execHdpPuntClaim h req s
  | .hdpPuntTx h req leg data => Sys2Proof.Machine.execHdpPuntTx h req leg data s
  | .hdpSessionTimeout session => Sys2Proof.Machine.execHdpSessionTimeout session s
  | .hdpRequestExecute => Sys2Proof.Machine.execHdpRequestExecute s
  | .hdpRequestTimeout session req => Sys2Proof.Machine.execHdpRequestTimeout session req s
  | .bulkTransferTimeout session => Sys2Proof.Machine.execBulkTransferTimeout session s
  | .nmtStart node => Sys2Proof.Machine.execNmtStart node s
  | .nmtStop node => Sys2Proof.Machine.execNmtStop node s
  | .nmtEnterPreOperational node => Sys2Proof.Machine.execNmtEnterPreOperational node s
  | .nmtResetNode node => Sys2Proof.Machine.execNmtResetNode node s
  | .nmtResetCommunication node => Sys2Proof.Machine.execNmtResetCommunication node s
  | .sdoDownloadInitiate index sub kind size data => Sys2Proof.Machine.execSdoDownloadInitiate index sub kind size data s
  | .sdoUploadInitiate index sub kind => Sys2Proof.Machine.execSdoUploadInitiate index sub kind s
  | .sdoSegment toggle seq data last crcOk => Sys2Proof.Machine.execSdoSegment toggle seq data last crcOk s
  | .sdoClientAbort => Sys2Proof.Machine.execSdoClientAbort s
  | .sdoTimeout => Sys2Proof.Machine.execSdoTimeout s
  | .rpdoReceive place data => Sys2Proof.Machine.execRpdoReceive place data s
  | .tpdoEventTimer place => Sys2Proof.Machine.execTpdoEventTimer place s
  | .heartbeatTimer => Sys2Proof.Machine.execHeartbeatTimer s
  | .errorCountClear src => Sys2Proof.Machine.execErrorCountClear src s
  | .canErrorPassive => Sys2Proof.Machine.execCanErrorPassive s
  | .canBusOff => Sys2Proof.Machine.execCanBusOff s
  | .canBusOffRecovered => Sys2Proof.Machine.execCanBusOffRecovered s
  | .canOverrun => Sys2Proof.Machine.execCanOverrun s
  | .communicationBitClear => Sys2Proof.Machine.execCommunicationBitClear s
  | .confOpen src k => Sys2Proof.Machine.execConfOpen src k s
  | .confClose src k => Sys2Proof.Machine.execConfClose src k s
  | .confCloseComplete k => Sys2Proof.Machine.execConfCloseComplete k s
  | .configure src n => Sys2Proof.Machine.execConfigure src n s
  | .unconfigure src n => Sys2Proof.Machine.execUnconfigure src n s
  | .activate src n => Sys2Proof.Machine.execActivate src n s
  | .hold src n => Sys2Proof.Machine.execHold src n s
  | .resume src n => Sys2Proof.Machine.execResume src n s
  | .rekey src n => Sys2Proof.Machine.execRekey src n s
  | .rekeyDone src n => Sys2Proof.Machine.execRekeyDone src n s
  | .delete src n => Sys2Proof.Machine.execDelete src n s
  | .readmitVideo src n => Sys2Proof.Machine.execReadmitVideo src n s
  | .drainEnd n => Sys2Proof.Machine.execDrainEnd n s
  | .legRxTimeout n => Sys2Proof.Machine.execLegRxTimeout n s
  | .frameReceive port f => Sys2Proof.Machine.execFrameReceive port f s
  | .videoHoldExpiry leg ssrc ts => Sys2Proof.Machine.execVideoHoldExpiry leg ssrc ts s
  | .portLinkChange port link fecUncorrected fecCorrected => Sys2Proof.Machine.execPortLinkChange port link fecUncorrected fecCorrected s
  | .pairRevert q => Sys2Proof.Machine.execPairRevert q s
  | .pairForce src q port => Sys2Proof.Machine.execPairForce src q port s
  | .legSsrcFlush src n => Sys2Proof.Machine.execLegSsrcFlush src n s
  | .srefclkLoss r => Sys2Proof.Machine.execSrefclkLoss r s
  | .portFrameSelect turn => Sys2Proof.Machine.execPortFrameSelect turn s
  | .rtcpReportDue leg kind => Sys2Proof.Machine.execRtcpReportDue leg kind s
  | .fecKEvaluate leg => Sys2Proof.Machine.execFecKEvaluate leg s
  | .itemPlacement block => Sys2Proof.Machine.execItemPlacement block s
  | .itemStart cell => Sys2Proof.Machine.execItemStart cell s
  | .audioInputItem leg unread => Sys2Proof.Machine.execAudioInputItem leg unread s
  | .mixItem conf => Sys2Proof.Machine.execMixItem conf s
  | .audioOutputItem leg => Sys2Proof.Machine.execAudioOutputItem leg s
  | .audioEncodeItem leg ts => Sys2Proof.Machine.execAudioEncodeItem leg ts s
  | .lineLoopItem leg => Sys2Proof.Machine.execLineLoopItem leg s
  | .feedbackBuildItem leg => Sys2Proof.Machine.execFeedbackBuildItem leg s
  | .checkItem cell item word ok => Sys2Proof.Machine.execCheckItem cell item word ok s
  | .dtmfEventTimeout leg => Sys2Proof.Machine.execDtmfEventTimeout leg s
  | .legEventRead src leg => Sys2Proof.Machine.execLegEventRead src leg s
  | .legLowPriorityWrite src leg low => Sys2Proof.Machine.execLegLowPriorityWrite src leg low s
  | .cellClockStop cell => Sys2Proof.Machine.execCellClockStop cell s
  | .arbiterGrant a waiting panic => Sys2Proof.Machine.execArbiterGrant a waiting panic s
  | .debugSweep a => Sys2Proof.Machine.execDebugSweep a s
  | .decodePictureComplete leg slot trace => Sys2Proof.Machine.execDecodePictureComplete leg slot trace s
  | .encodeRowComplete e bits header finds => Sys2Proof.Machine.execEncodeRowComplete e bits header finds s
  | .encodePictureComplete e bits entryBits => Sys2Proof.Machine.execEncodePictureComplete e bits entryBits s
  | .composerItemStart composer => Sys2Proof.Machine.execComposerItemStart composer s
  | .composerItemComplete composer regions late => Sys2Proof.Machine.execComposerItemComplete composer regions late s
  | .spliceAssemble leg period => Sys2Proof.Machine.execSpliceAssemble leg period s
  | .dramTrainingStep c passed ms => Sys2Proof.Machine.execDramTrainingStep c passed ms s
  | .dramInitComplete c => Sys2Proof.Machine.execDramInitComplete c s
  | .dramRead handle offset err retryErr mirrorErr => Sys2Proof.Machine.execDramRead handle offset err retryErr mirrorErr s
  | .dramWrite handle offset data => Sys2Proof.Machine.execDramWrite handle offset data s
  | .scrubRead c addr err retryErr mirrorErr => Sys2Proof.Machine.execScrubRead c addr err retryErr mirrorErr s
  | .caParityAlert c => Sys2Proof.Machine.execCaParityAlert c s
  | .refreshDue c lane => Sys2Proof.Machine.execRefreshDue c lane s
  | .neighbourRefresh c rank bank row => Sys2Proof.Machine.execNeighbourRefresh c rank bank row s
  | .pageIdleTimeout c rank bank => Sys2Proof.Machine.execPageIdleTimeout c rank bank s
  | .portPanic p level => Sys2Proof.Machine.execPortPanic p level s
  | .remirrorCopy handle => Sys2Proof.Machine.execRemirrorCopy handle s
  | .chRetrain src c => Sys2Proof.Machine.execChRetrain src c s
  | .chFail src c => Sys2Proof.Machine.execChFail src c s
  | .marginCmd src c value => Sys2Proof.Machine.execMarginCmd src c value s
  | .marginScanComplete c values => Sys2Proof.Machine.execMarginScanComplete c values s
  | .bufferAllocate domain use size conf count link => Sys2Proof.Machine.execBufferAllocate domain use size conf count link s
  | .referenceAdd domain handle n => Sys2Proof.Machine.execReferenceAdd domain handle n s
  | .referenceDrop domain handle => Sys2Proof.Machine.execReferenceDrop domain handle s
  | .poolLowWaterRead src pool peak => Sys2Proof.Machine.execPoolLowWaterRead src pool peak s
  | .cellFault cell det cycle => Sys2Proof.Machine.execCellFault cell det cycle s
  | .blockFault block cause => Sys2Proof.Machine.execBlockFault block cause s
  | .blockRejoin block => Sys2Proof.Machine.execBlockRejoin block s
  | .pairFault pair engine corrected => Sys2Proof.Machine.execPairFault pair engine corrected s
  | .composerFault composer corrected => Sys2Proof.Machine.execComposerFault composer corrected s
  | .fabricRailError g line => Sys2Proof.Machine.execFabricRailError g line s
  | .regionFail g clock => Sys2Proof.Machine.execRegionFail g clock s
  | .chipUnitError e => Sys2Proof.Machine.execChipUnitError e s
  | .logClear src => Sys2Proof.Machine.execLogClear src s
  | .govDoze src => Sys2Proof.Machine.execGovDoze src s
  | .govWake src => Sys2Proof.Machine.execGovWake src s
  | .dozeWakeComplete fails => Sys2Proof.Machine.execDozeWakeComplete fails s
  | .domainWakeComplete dom => Sys2Proof.Machine.execDomainWakeComplete dom s
  | .domainWakeTimeout dom => Sys2Proof.Machine.execDomainWakeTimeout dom s
  | .domainIdleGate dom => Sys2Proof.Machine.execDomainIdleGate dom s
  | .pornAssert => Sys2Proof.Machine.execPornAssert s
  | .pornRelease sources => Sys2Proof.Machine.execPornRelease sources s
  | .domainRelease clockFails => Sys2Proof.Machine.execDomainRelease clockFails s
  | .pllLock p => Sys2Proof.Machine.execPllLock p s
  | .pllLockTimeout p => Sys2Proof.Machine.execPllLockTimeout p s
  | .optionBlockRead a b octal => Sys2Proof.Machine.execOptionBlockRead a b octal s
  | .warmupStart => Sys2Proof.Machine.execWarmupStart s
  | .handoverBegin => Sys2Proof.Machine.execHandoverBegin s
  | .handover => Sys2Proof.Machine.execHandover s
  | .warmupReturn => Sys2Proof.Machine.execWarmupReturn s
  | .wrstnAssert => Sys2Proof.Machine.execWrstnAssert s
  | .warmResetRelease resumeStrides notInSelfRefresh => Sys2Proof.Machine.execWarmResetRelease resumeStrides notInSelfRefresh s
  | .trstnAssert => Sys2Proof.Machine.execTrstnAssert s
  | .resetCmdWarm src => Sys2Proof.Machine.execResetCmdWarm src s
  | .resetCmdCold src => Sys2Proof.Machine.execResetCmdCold src s
  | .resetCmdRegion src g => Sys2Proof.Machine.execResetCmdRegion src g s
  | .optImage src img => Sys2Proof.Machine.execOptImage src img s
  | .optImageWriteComplete ok => Sys2Proof.Machine.execOptImageWriteComplete ok s
  | .revertedMaskWrite src value => Sys2Proof.Machine.execRevertedMaskWrite src value s
  | .tkProgram src key => Sys2Proof.Machine.execTkProgram src key s
  | .slotWrap src slot wrap => Sys2Proof.Machine.execSlotWrap src slot wrap s
  | .hdpKey src slot wrap => Sys2Proof.Machine.execHdpKey src slot wrap s
  | .legTxKey src leg wrap => Sys2Proof.Machine.execLegTxKey src leg wrap s
  | .legRxKey src leg wrap => Sys2Proof.Machine.execLegRxKey src leg wrap s
  | .legSuiteWrite src leg suite => Sys2Proof.Machine.execLegSuiteWrite src leg suite s
  | .scLockTake src => Sys2Proof.Machine.execScLockTake src s
  | .scLockRelease src => Sys2Proof.Machine.execScLockRelease src s
  | .scLeaseExpiry => Sys2Proof.Machine.execScLeaseExpiry s
  | .aesCbcEncrypt src => Sys2Proof.Machine.execAesCbcEncrypt src s
  | .aesCbcDecrypt src => Sys2Proof.Machine.execAesCbcDecrypt src s
  | .aesCtr src => Sys2Proof.Machine.execAesCtr src s
  | .aesGcmEncrypt src => Sys2Proof.Machine.execAesGcmEncrypt src s
  | .aesGcmDecrypt src => Sys2Proof.Machine.execAesGcmDecrypt src s
  | .rfc5649Wrap src => Sys2Proof.Machine.execRfc5649Wrap src s
  | .rfc5649Unwrap src => Sys2Proof.Machine.execRfc5649Unwrap src s
  | .scJobComplete => Sys2Proof.Machine.execScJobComplete s
  | .supplyAlarm supply mv => Sys2Proof.Machine.execSupplyAlarm supply mv s
  | .clockAlarm clock => Sys2Proof.Machine.execClockAlarm clock s
  | .temperatureAlarm sensor celsius => Sys2Proof.Machine.execTemperatureAlarm sensor celsius s
  | .tamperAlarm => Sys2Proof.Machine.execTamperAlarm s
  | .keyEraseVerify zero => Sys2Proof.Machine.execKeyEraseVerify zero s
  | .alarmClear src => Sys2Proof.Machine.execAlarmClear src s
  | .attestCmd src => Sys2Proof.Machine.execAttestCmd src s
  | .attestReportReady => Sys2Proof.Machine.execAttestReportReady s
  | .ownerProgram src slot digest => Sys2Proof.Machine.execOwnerProgram src slot digest s
  | .ownerRevoke src slot => Sys2Proof.Machine.execOwnerRevoke src slot s
  | .snapNow src => Sys2Proof.Machine.execSnapNow src s
  | .snapInEdge => Sys2Proof.Machine.execSnapInEdge s
  | .snapOutEnd => Sys2Proof.Machine.execSnapOutEnd s
  | .snapEdgeWrite src edge => Sys2Proof.Machine.execSnapEdgeWrite src edge s
  | .snapRelease src => Sys2Proof.Machine.execSnapRelease src s
  | .tapCmd src => Sys2Proof.Machine.execTapCmd src s
  | .tapComplete => Sys2Proof.Machine.execTapComplete s
  | .injCmd src => Sys2Proof.Machine.execInjCmd src s
  | .canErrorActive => Sys2Proof.Machine.execCanErrorActive s
  | .alarmSourceClear source => Sys2Proof.Machine.execAlarmSourceClear source s
  | .optEraseComplete => Sys2Proof.Machine.execOptEraseComplete s

end Sys2Proof.Machine
end

