-- ==== Sys2Proof/WellFormed.lean ====
section
/-! DEFINITION. When a command names units that the block has and carries octets: what the sender's side of the interface can form
at all. No row of spec/opcode_table.json gives bits, so these are the bounds of the operands themselves. -/

namespace Sys2Proof

/-- The number of units an operand ranges over (R9, Scope). -/
def legUnits : Nat := 4096
/-- Conferences, and layouts with them (R9). -/
def confUnits : Nat := 1024

/-- An octet string carries octets. -/
def WrEntry.wf (e : WrEntry) : Bool := decide (e.index < 65536) && decide (e.sub < 256) && e.data.ok

/-- An entry of a READ names an index and a subindex of the dictionary's width (R60). -/
def RdEntry.wf (e : RdEntry) : Bool := decide (e.index < 65536) && decide (e.sub < 256)

/-- An arbiter of R329: 64 blocks, 4 regions, 4 channels. -/
def Arb.wf : Arb → Bool
  | .block b => decide (b < 64)
  | .region g => decide (g < 4)
  | .chip c => decide (c < 4)

/-- An encode of a leg or of a layout. -/
def EncId.wf : EncId → Bool
  | .composed n => decide (n < legUnits)
  | .tile n _ => decide (n < legUnits)
  | .strip l => decide (l < confUnits)

/-- The command is one that its row's operands admit. -/
def Instr.wf : Instr → Bool
  | .keyframeRequestRepeat leg _ => decide (leg < legUnits)
  | .dictWrite _ index sub data => decide (index < 65536) && decide (sub < 256) && data.ok
  | .tbTimeWrite _ n _ => decide (n < 8)
  | .servoSample n _ _ => decide (n < 8)
  | .holdoverEnter n => decide (n < 8)
  | .holdoverExpiry n => decide (n < 8)
  | .ptpMessageRx port _ => decide (port < 4)
  | .ptpMessageDue port _ => decide (port < 4)
  | .ptpAnnounceTimeout port => decide (port < 4)
  | .pulseTargetReached k => decide (k < 4)
  | .pulseWidthEnd k => decide (k < 4)
  | .pulseTargetWrite _ k _ => decide (k < 4)
  | .pulseModeWrite _ k _ => decide (k < 4)
  | .captureEdge j _ => decide (j < 2)
  | .captureTimeRead _ j => decide (j < 2)
  | .hdpOpen _ _ nonce _ => nonce.ok
  | .hdpRead _ _ entries => entries.all RdEntry.wf
  | .hdpWrite _ _ entries => entries.all WrEntry.wf
  | .hdpSubscribe _ _ _ _ entries => entries.all RdEntry.wf
  | .hdpBulkData _ _ _ data => data.ok
  | .hdpPuntTx _ _ _ data => data.ok
  | .sdoDownloadInitiate _ _ _ _ data => data.ok
  | .sdoSegment _ _ data _ _ => data.ok
  | .rpdoReceive i data => decide (i < 4) && data.ok
  | .tpdoEventTimer i => decide (i < 4)
  | .confOpen _ k => decide (k < confUnits)
  | .confClose _ k => decide (k < confUnits)
  | .confCloseComplete k => decide (k < confUnits)
  | .configure _ n => decide (n < legUnits)
  | .unconfigure _ n => decide (n < legUnits)
  | .activate _ n => decide (n < legUnits)
  | .hold _ n => decide (n < legUnits)
  | .resume _ n => decide (n < legUnits)
  | .rekey _ n => decide (n < legUnits)
  | .rekeyDone _ n => decide (n < legUnits)
  | .delete _ n => decide (n < legUnits)
  | .readmitVideo _ n => decide (n < legUnits)
  | .drainEnd n => decide (n < legUnits)
  | .legRxTimeout n => decide (n < legUnits)
  | .frameReceive port _ => decide (port < 4)
  | .videoHoldExpiry leg _ _ => decide (leg < legUnits)
  | .portLinkChange port _ _ _ => decide (port < 4)
  | .pairRevert q => decide (q < 2)
  | .pairForce _ q _ => decide (q < 2)
  | .legSsrcFlush _ n => decide (n < legUnits)
  | .srefclkLoss r => decide (r < 2)
  | .portFrameSelect turn => decide (turn.port < 4)
  | .rtcpReportDue leg _ => decide (leg < legUnits)
  | .fecKEvaluate leg => decide (leg < legUnits)
  | .itemPlacement block => decide (block < 64)
  | .itemStart cell => decide (cell < 1024)
  | .audioInputItem leg _ => decide (leg < legUnits)
  | .mixItem conf => decide (conf < confUnits)
  | .audioOutputItem leg => decide (leg < legUnits)
  | .audioEncodeItem leg _ => decide (leg < legUnits)
  | .lineLoopItem leg => decide (leg < legUnits)
  | .feedbackBuildItem leg => decide (leg < legUnits)
  | .checkItem cell _ _ _ => decide (cell < 1024)
  | .dtmfEventTimeout leg => decide (leg < legUnits)
  | .legEventRead _ leg => decide (leg < legUnits)
  | .legLowPriorityWrite _ leg _ => decide (leg < legUnits)
  | .cellClockStop cell => decide (cell < 1024)
  | .arbiterGrant a _ _ => a.wf
  | .debugSweep a => a.wf
  | .decodePictureComplete leg _ _ => decide (leg < legUnits)
  | .encodeRowComplete e _ _ _ => e.wf
  | .encodePictureComplete e _ _ => e.wf
  | .composerItemStart k => decide (k < 4)
  | .composerItemComplete k _ _ => decide (k < 4)
  | .spliceAssemble leg _ => decide (leg < legUnits)
  | .dramTrainingStep c _ _ => decide (c < 4)
  | .dramInitComplete c => decide (c < 4)
  | .dramWrite _ _ data => data.ok
  | .scrubRead c _ _ _ _ => decide (c < 4)
  | .caParityAlert c => decide (c < 4)
  | .refreshDue c _ => decide (c < 4)
  | .neighbourRefresh c _ _ _ => decide (c < 4)
  | .pageIdleTimeout c _ _ => decide (c < 4)
  | .chRetrain _ c => decide (c < 4)
  | .chFail _ c => decide (c < 4)
  | .marginCmd _ c _ => decide (c < 4)
  | .marginScanComplete c _ => decide (c < 4)
  | .bufferAllocate domain _ _ _ _ _ => decide (domain < 16)
  | .referenceAdd domain _ _ => decide (domain < 16)
  | .referenceDrop domain _ => decide (domain < 16)
  | .poolLowWaterRead _ pool _ => decide (pool < 6)
  | .cellFault cell _ _ => decide (cell < 1024)
  | .blockFault block _ => decide (block < 64)
  | .blockRejoin block => decide (block < 64)
  | .pairFault pair _ _ => decide (pair < 16)
  | .composerFault composer _ => decide (composer < 4)
  | .fabricRailError g _ => decide (g < 4)
  | .regionFail g _ => decide (g < 4)
  | .domainWakeComplete dom => decide (dom < 50)
  | .domainWakeTimeout dom => decide (dom < 50)
  | .domainIdleGate dom => decide (dom < 50)
  | .tkProgram _ key => key.ok
  | .slotWrap _ slot wrap => decide (0 < slot) && decide (slot < 8) && wrap.ok
  | .hdpKey _ slot wrap => decide (slot < 4) && wrap.ok
  | .legTxKey _ leg wrap => decide (leg < legUnits) && wrap.ok
  | .legRxKey _ leg wrap => decide (leg < legUnits) && wrap.ok
  | .legSuiteWrite _ leg _ => decide (leg < legUnits)
  | .supplyAlarm supply _ => decide (supply < 8)
  | .temperatureAlarm sensor _ => decide (sensor < 16)
  | .alarmSourceClear source => decide (source < 4)
  | .ownerProgram _ slot digest => decide (slot < 256) && digest.ok
  | .strideEdge _ => true
  | .avsTransactionEnd _ _ _ => true
  | .strideCommit _ => true
  | .commitWithdraw _ => true
  | .stageDiscard _ => true
  | .hdpClose _ _ => true
  | .hdpKeepalive _ _ => true
  | .hdpUnsubscribe _ _ _ => true
  | .hdpBulkBegin _ _ _ _ _ _ _ => true
  | .hdpBulkEnd _ _ => true
  | .hdpBulkRead _ _ _ _ => true
  | .hdpPuntClaim _ _ => true
  | .hdpSessionTimeout _ => true
  | .hdpRequestExecute => true
  | .hdpRequestTimeout _ _ => true
  | .bulkTransferTimeout _ => true
  | .nmtStart _ => true
  | .nmtStop _ => true
  | .nmtEnterPreOperational _ => true
  | .nmtResetNode _ => true
  | .nmtResetCommunication _ => true
  | .sdoUploadInitiate _ _ _ => true
  | .sdoClientAbort => true
  | .sdoTimeout => true
  | .heartbeatTimer => true
  | .errorCountClear _ => true
  | .canErrorPassive => true
  | .canBusOff => true
  | .canBusOffRecovered => true
  | .canOverrun => true
  | .communicationBitClear => true
  | .dramRead _ _ _ _ _ => true
  | .portPanic _ _ => true
  | .remirrorCopy _ => true
  | .chipUnitError e => match e with
    | .region g _ _ => decide (g < 4)
    | _ => true
  | .logClear _ => true
  | .govDoze _ => true
  | .govWake _ => true
  | .dozeWakeComplete _ => true
  | .pornAssert => true
  | .pornRelease _ => true
  | .domainRelease _ => true
  | .pllLock _ => true
  | .pllLockTimeout _ => true
  | .optionBlockRead _ _ _ => true
  | .warmupStart => true
  | .handoverBegin => true
  | .handover => true
  | .warmupReturn => true
  | .wrstnAssert => true
  | .warmResetRelease _ _ => true
  | .trstnAssert => true
  | .resetCmdWarm _ => true
  | .resetCmdCold _ => true
  | .resetCmdRegion _ _ => true
  | .optImage _ _ => true
  | .optImageWriteComplete _ => true
  | .revertedMaskWrite _ _ => true
  | .scLockTake _ => true
  | .scLockRelease _ => true
  | .scLeaseExpiry => true
  | .aesCbcEncrypt _ => true
  | .aesCbcDecrypt _ => true
  | .aesCtr _ => true
  | .aesGcmEncrypt _ => true
  | .aesGcmDecrypt _ => true
  | .rfc5649Wrap _ => true
  | .rfc5649Unwrap _ => true
  | .scJobComplete => true
  | .clockAlarm _ => true
  | .tamperAlarm => true
  | .keyEraseVerify _ => true
  | .alarmClear _ => true
  | .attestCmd _ => true
  | .attestReportReady => true
  | .ownerRevoke _ _ => true
  | .snapNow _ => true
  | .snapInEdge => true
  | .snapOutEnd => true
  | .snapEdgeWrite _ _ => true
  | .snapRelease _ => true
  | .tapCmd _ => true
  | .tapComplete => true
  | .injCmd _ => true
  | .canErrorActive => true
  | .optEraseComplete => true

end Sys2Proof
end

