-- ==== Sys2Proof/Safety.lean ====
section
/-! DEFINITION. What a safe state and a safe run are, in the terms that claims use. -/

namespace Sys2Proof.Machine

/-- The DRAM's bytes are in their canonical form. -/
abbrev State.memOk (s : State) : Prop := Memory.wf s.mem = true

/-- No record and no photo-finish cause of a command is left to be entered: what every command leaves (R395, R466). -/
def Dev.quiet (d : Dev) : Prop := d.faults.cycle = [] ∧ d.trig = []

/-- The next state of an outcome that has one. -/
def nextOf (o : Host.Outcome State Fault Refusal) : Option State :=
  match o with
  | .next s => some s
  | _ => none

/-- The command runs: it neither faults nor is refused. -/
def runs (c : Instr) (s : State) : Prop := (nextOf (exec c s)).isSome = true

/-- The command answers a next state, of which `P` holds. -/
def completes (c : Instr) (s : State) (P : State → Prop) : Prop := ∃ t, exec c s = .next t ∧ P t

/-- The sender's accesses arrive, and its interface may write object `k` (R14): CAN may write few of them. -/
def Dev.hears (d : Dev) (src : Src) (k : Key) : Prop := d.reaches src = true ∧ (src = .can → canWritable k.index k.sub = true)

/-- `e` has sent, beyond what `d` had, the answer 0 to a write of object `k`: it was accepted (R67). -/
def Dev.acceptedBy (e d : Dev) (src : Src) (k : Key) : Prop := e.out = d.out ++ [.answer src k.index k.sub 0]

/-- `e` has sent, beyond what `d` had, a refusal of a write of object `k` (R67, R69). -/
def Dev.refusedBy (e d : Dev) (src : Src) (k : Key) (a : Abort) : Prop := e.out = d.out ++ [.answer src k.index k.sub a.code]

/-- `e` differs from `d` in its dictionary and its outbox alone. -/
def onlyDict (d e : Dev) : Prop := ∃ dict out, e = { d with dict := dict, out := out }

/-- Every object outside `os` holds in `e` what it held in `d`, at every unit and place. -/
def keepsBut (d e : Dev) (os : List Obj) : Prop := ∀ o u k, o ∉ os → e.get o u k = d.get o u k

/-- Object `o` of every unit but `n` holds in `e` what it held in `d`. -/
def keepsOther (d e : Dev) (o : Obj) (n : Nat) : Prop := ∀ u k, u ≠ n → e.get o u k = d.get o u k

/-- The device after a request of one entry was taken from those of its stride (R90). -/
def Dev.spent (d : Dev) : Dev := { d with hdp := { d.hdp with left := d.hdp.left - 1 } }

/-- A request of one entry executes as it arrives (R90): none waits before it and the stride has an entry left, or no edge comes. -/
def Dev.inTurn (d : Dev) : Prop := d.gen.running = false ∨ d.hdp.queue = [] ∧ 1 ≤ d.hdp.left

/-- The objects that show the buffers in use: what a command changes of the pools when buffers are kept or freed (R364, R367, R372). -/
def poolObjs : List Obj :=
  [.POOL_PEAK_REFS, .POOL_FREE, .POOL_LOW_WATER, .POOL_LOST, .POOL_BUFFERS, .POOL_FALLBACKS, .POOL_EXHAUSTED, .DOM_USE, .DOM_QUOTA_FAILS,
   .CONF_BUFFER_USE, .DRAM_REMIRROR_LEFT]

/-- DRAM and the queue are as they were. -/
def keepsRest (s t : State) : Prop := t.mem = s.mem ∧ t.pending = s.pending

/-- Session `x` takes the datagram as a new request of identifier `req`: it is at a management address, formed, of a listed type, of the
session, authentic and no replay, it parses, and the identifier is neither kept nor still executing (R82, R83, R87 to R89). -/
def Dev.takesRequest (d : Dev) (h : HdpHdr) (req : Nat) (x : Session) : Prop :=
  d.isMgmt h.port h.vlan h.dst = true ∧ hdpFormed h false = true ∧ h.parses = true ∧ h.short = false ∧ h.listed = true ∧ d.sessionOf h.session = some x ∧ h.sealKey = x.key ∧ h.seq < 2 ^ 63 ∧
    x.high < h.seq + 64 ∧ h.seq ∉ x.seen ∧ (∀ k ∈ x.kept, k.1 ≠ req) ∧ d.executing h.session req = false

/-- Session `id` keeps, as its newest, an answer of a type to request `req`, made in the stride of `d` (R89). -/
def Dev.answered (e d : Dev) (id req type : Nat) (body : Octets) : Prop :=
  ∃ y, e.sessionOf id = some y ∧ y.kept.getLast? = some (req, (type, (d.stride, natToOctets 4 req ++ body)))

end Sys2Proof.Machine
end

