-- ==== Sys2Proof/Certificates/Slice0/Obligations.lean ====
section
/-! DEFINITION. What is to be proved of the model. A statement about a write names its sender by `hears` (one whose
accesses arrive, and whose interface may write the object) and begins in a device that has no record in hand (`quiet`), as every command leaves it. -/

open Sys2Proof Sys2Proof.Machine

/-! ### Every command -/

/-- A step takes the command at the front of the queue and runs it on the block with the queue's rest. -/
def Sys2Proof.Claim.StepRunsTheFrontCommand : Prop :=
  ∀ (s : State) (c : Instr) (rest : List Instr), s.pending = c :: rest → step s = exec c { s with pending := rest }

/-- The model's choice (log entry 11), no rule of the spec: with no command waiting, a step is `runCycles 1`, one cycle on
the time bases, the stride generator, the running pulse widths and the count of panic cycles. -/
def Sys2Proof.Claim.IdleStepCountsOneCycle : Prop :=
  ∀ (s : State), s.pending = [] → step s = .next { s with dev := s.dev.runCycles 1 }

/-- What a step does, with a command waiting and with none. -/
def Obligations.StepsTakeTheQueueInOrder : Prop := Sys2Proof.Claim.StepRunsTheFrontCommand ∧ Sys2Proof.Claim.IdleStepCountsOneCycle

/-- The block right after cold reset, PORn held low (R421, R422): the always-on domain and the stride generator stand still, no leg, session, buffer or key exists,
the service is the boot's, DRAM lists nothing, and no command waits. Every object reads its default (R61). -/
def Obligations.ResetLeavesNothingRunning : Prop :=
  State.reset.memOk ∧ State.reset.mem = [] ∧ State.reset.pending = [] ∧ State.reset.dev.quiet ∧
    State.reset.dev.rst.released = false ∧ State.reset.dev.gen.running = false ∧ State.reset.dev.service = .boot ∧
    State.reset.dev.hdp.sessions = [] ∧ State.reset.dev.out = [] ∧ (∀ n, State.reset.dev.legState n = .idle) ∧
    ∀ o u k, State.reset.dev.get o u k = dfltOf o u k

/-- DRAM keeps its canonical form over every step, an idle one too: strictly rising addresses, and no listed byte that an unlisted address
reads as. -/
def Obligations.MemoryStaysCanonical : Prop :=
  ∀ (s t : State), s.memOk → step s = .next t → t.memOk

/-- What every command leaves alone: the queue, and DRAM but for the seven commands that move its bytes: the channels' own (R337, R340,
R342, R345, R348), and the pictures that a decode and a composer complete (R213, R226, R260). -/
def Sys2Proof.Claim.OnlyDramCommandsTouchMemory : Prop :=
  ∀ (c : Instr) (s t : State), exec c s = .next t → t.pending = s.pending ∧
    match c with
    | .dramTrainingStep .. | .dramRead .. | .dramWrite .. | .scrubRead .. | .remirrorCopy .. | .decodePictureComplete ..
    | .composerItemComplete .. => True
    | _ => t.mem = s.mem

/-- R395, R466: every command leaves no record of its cycle unlogged and no photo-finish cause unlatched. -/
def Sys2Proof.Claim.EveryCommandClosesItsRecords : Prop :=
  ∀ (c : Instr) (s t : State), exec c s = .next t → t.dev.quiet

/-- What every command leaves alone, and what it leaves finished. -/
def Obligations.CommandsKeepTheirPlace : Prop := Sys2Proof.Claim.OnlyDramCommandsTouchMemory ∧ Sys2Proof.Claim.EveryCommandClosesItsRecords

/-- A command whose operands name units that the block has runs: only a DRAM access at an address that no buffer or rank holds stops. -/
def Obligations.WellFormedCommandsRun : Prop :=
  ∀ (c : Instr) (s : State), c.wf = true →
    match c with
    | .dramRead handle offset _ _ _ => s.dev.inBuffer handle (offset / 64 * 64) 64 = true → runs c s
    | .dramWrite handle offset data => s.dev.inBuffer handle offset data.length = true → runs c s
    | .scrubRead _ addr _ _ _ => addr < s.dev.ranks * 2 ^ 34 → runs c s
    | _ => runs c s

/-- R422: while PORn is low nothing in the block answers. No command but the pins' (PORn, TRSTn) and those of DRAM's own bytes changes the
device; from PORn's release the rest do. -/
def Obligations.NothingAnswersBeforeRelease : Prop :=
  ∀ (c : Instr) (s t : State), s.dev.rst.released = false → s.dev.gen.running = false → s.dev.quiet → exec c s = .next t →
    match c with
    | .pornAssert | .pornRelease .. | .trstnAssert | .dramTrainingStep .. | .dramRead .. | .dramWrite .. | .scrubRead ..
    | .remirrorCopy .. => True
    | _ => t.dev = s.dev

/-! ### The stride, the commit and the dictionary's writes (chapters 2 and 4) -/

/-- R18, R25, R90: while the stride generator runs and no reset is asked for, an edge runs the actions of R25 on the device at the edge's
moment, and the 128 entries of HDP's new stride are there. While it stands still, the edge counts for CAN's times alone (R73). -/
def Obligations.StrideEdgeRunsItsActions : Prop :=
  ∀ (s : State) (e : EdgeInput), s.dev.quiet → s.dev.rst.released = true → s.dev.rst.asks = [] →
    let d : Dev := { s.dev with can := { s.dev.can with ticks := s.dev.can.ticks + 1 } }
    completes (.strideEdge e) s fun t => keepsRest s t ∧
      if s.dev.gen.running then t.dev = ((d.runCycles (d.cyclesTo d.gen.edge)).fullEdge e).settle ∧ t.dev.hdp.left = 128
      else t.dev = d

/-- R18, R19: each edge is paired with the nearest edge of a grid whose stride `n` begins floor(n × 5,000,000 / 3) ns into its lap. The
counters follow, the offset shown is the distance to it and at most half a stride, and the stride that begins is between 1,666,000 and
1,667,334 ns long. -/
def Obligations.EdgesFollowTheGrid : Prop :=
  ∀ (d : Dev),
    let e := d.countEdge
    let n := e.nat .STRIDE_IN_LAP
    n < 600 ∧ e.nat .STRIDE_COUNT = (d.nat .STRIDE_COUNT + 1) % 2 ^ 64 ∧
      e.nat .LAP_COUNT = (if n = 0 then (d.nat .LAP_COUNT + 1) % 2 ^ 32 else d.nat .LAP_COUNT) ∧
      (∃ lap : Int, d.gen.edge / 65536 = lap * 1000000000 + ((n * 5000000 / 3 : Nat) : Int) + e.int .STRIDE_OFFSET) ∧
      2 * (e.int .STRIDE_OFFSET).natAbs ≤ 1666667 ∧
      d.gen.edge + 1666000 * 65536 ≤ e.gen.edge ∧ e.gen.edge ≤ d.gen.edge + 1667334 * 65536 ∧
      keepsBut d e [.STRIDE_COUNT, .STRIDE_IN_LAP, .STRIDE_OFFSET, .LAP_COUNT]

/-- R31, R33, R36: at an edge with no commit pending nothing is committed; with one and nothing staged the result is EMPTY; where a
cross-object rule refuses an object of the set, the set is discarded whole, the result names that object and no other object changes; else
the result is APPLIED. -/
def Obligations.CommitTakesAllOrNothing : Prop :=
  ∀ (d : Dev),
    let e := d.commitEdge
    let due := ({ d with polOld := [] }.setN .STRIDE_COMMIT 0 0).setN .COMMIT_STRIDE 0 d.stride
    let closed := e.nat .STRIDE_COMMIT = 0 ∧ e.nat .COMMIT_STRIDE = d.stride ∧
      keepsBut d e [.STRIDE_COMMIT, .COMMIT_STRIDE, .COMMIT_STATUS]
    (d.nat .STRIDE_COMMIT = 0 → e = { d with polOld := [] }) ∧
    (d.nat .STRIDE_COMMIT ≠ 0 → d.stage = [] → closed ∧ e.nat .COMMIT_STATUS = 2) ∧
    (d.nat .STRIDE_COMMIT ≠ 0 → ∀ k, due.stageFault = some k → closed ∧ e.stage = [] ∧
      e.nat .COMMIT_STATUS = k.index * 65536 + k.sub * 256 + 3) ∧
    (d.nat .STRIDE_COMMIT ≠ 0 → d.stage ≠ [] → due.stageFault = none → e.nat .COMMIT_STATUS = 1)

/-- R31, R34 to R36: a write of 1 to STRIDE_COMMIT requests the commit and shows PENDING alone, one more changes nothing, and a write of 0
while it is pending takes the request back and restores COMMIT_STATUS, with the staged set kept. -/
def Obligations.CommitIsRequestedAndWithdrawn : Prop :=
  ∀ (s : State) (src : Src), s.dev.quiet → s.dev.hears src { o := .STRIDE_COMMIT } →
    let d := s.dev
    let status := d.nat .COMMIT_STATUS
    let taken := fun (t : State) => t.dev.acceptedBy d src { o := .STRIDE_COMMIT } ∧ t.dev.stage = d.stage ∧ keepsRest s t
    (d.nat .STRIDE_COMMIT = 0 →
      (completes (.strideCommit src) s fun t => taken t ∧ t.dev.nat .STRIDE_COMMIT = 1 ∧
        t.dev.nat .COMMIT_STATUS = 4 ∧ t.dev.resultBefore = status ∧
        keepsBut d t.dev [.STRIDE_COMMIT, .COMMIT_STATUS, .DICT_WRITES]) ∧
      (completes (.commitWithdraw src) s fun t => taken t ∧ keepsBut d t.dev [.DICT_WRITES])) ∧
    (d.nat .STRIDE_COMMIT = 1 →
      (completes (.strideCommit src) s fun t => taken t ∧ keepsBut d t.dev [.DICT_WRITES]) ∧
      (completes (.commitWithdraw src) s fun t => taken t ∧ t.dev.nat .STRIDE_COMMIT = 0 ∧
        t.dev.nat .COMMIT_STATUS = d.resultBefore ∧
        keepsBut d t.dev [.STRIDE_COMMIT, .COMMIT_STATUS, .DICT_WRITES]))

/-- R68: a write of 1 to [2000.14] empties the staging set, is refused with DEVICE_STATE while a commit is pending, and any other value is
refused with RANGE; the counters [2000.20..22] wrap. It executes as it arrives where its turn has come (R90). -/
def Obligations.StageDiscardObeysItsRule : Prop :=
  (∀ (s : State) (src : Src) (v : Nat), s.dev.quiet → s.dev.hears src { o := .STAGE_DISCARD } → s.dev.inTurn → v < 256 →
    let refused := fun (a : Abort) (t : State) => t.dev.refusedBy s.dev src { o := .STAGE_DISCARD } a ∧
      t.dev.nat .DICT_ABORTS = (s.dev.nat .DICT_ABORTS + 1) % 2 ^ 32 ∧ keepsBut s.dev t.dev [.DICT_ABORTS] ∧ onlyDict s.dev.spent t.dev ∧
      keepsRest s t
    let rule := fun (t : State) =>
      if v ≠ 1 then refused .range t
      else if s.dev.nat .STRIDE_COMMIT = 1 then refused .deviceState t
      else s.dev.nat .STRIDE_COMMIT = 0 → t.dev.stage = [] ∧ t.dev.acceptedBy s.dev src { o := .STAGE_DISCARD } ∧
        t.dev.nat .DICT_WRITES = (s.dev.nat .DICT_WRITES + 1) % 2 ^ 32 ∧ keepsBut s.dev t.dev [.DICT_WRITES] ∧ keepsRest s t
    completes (.dictWrite src 0x2000 0x14 [v]) s rule ∧ (v = 1 → completes (.stageDiscard src) s rule)) ∧
  ∀ (d : Dev), (d.bump .DICT_QUEUE_DROPS).nat .DICT_QUEUE_DROPS = (d.nat .DICT_QUEUE_DROPS + 1) % 2 ^ 32

/-- R32, R33, R62, R63, R66, R496: a session's write of [2000.04], an rws object, of its one octet and within its range 0 to 7, is staged
where the set has room: the active value stays what reads return, and the staged one is what a STAGED read returns. A value above the
range, another length, or a full set is refused with the code of each. Its turn has come (R90). -/
def Sys2Proof.Claim.DictWritesAreStaged : Prop :=
  ∀ (s : State) (id : Nat) (data : Octets), s.dev.quiet → s.dev.reaches (.hdp id) = true → s.dev.inTurn → data.ok = true →
    let d := s.dev
    let k : Key := { o := .STRIDE_TIMEBASE }
    completes (.dictWrite (.hdp id) 0x2000 4 data) s fun t => keepsRest s t ∧
      match data with
      | [v] =>
        if 7 < v then t.dev.refusedBy d (.hdp id) k .tooHigh ∧ onlyDict d.spent t.dev ∧ keepsBut d t.dev [.DICT_ABORTS]
        else if thas k d.stage ∨ d.stage.length < 8192 then
          t.dev.acceptedBy d (.hdp id) k ∧ tfind k t.dev.stage = some (.num v) ∧ (∀ k', k' ≠ k → tfind k' t.dev.stage = tfind k' d.stage) ∧
            keepsBut d t.dev [.DICT_WRITES] ∧ t.dev.readStaged 0x2000 4 = .ok [v] ∧
            (t.dev.readAt 0x2000 4).map (·.1) = (d.readAt 0x2000 4).map (·.1)
        else t.dev.refusedBy d (.hdp id) k .deviceState ∧ onlyDict d.spent t.dev ∧ keepsBut d t.dev [.DICT_ABORTS]
      | _ => t.dev.refusedBy d (.hdp id) k .lengthMismatch ∧ onlyDict d.spent t.dev ∧ keepsBut d t.dev [.DICT_ABORTS]

/-- R15, R90, R100: a write whose turn has not come waits behind those accepted before it, and changes nothing yet. -/
def Sys2Proof.Claim.WritesWaitTheirTurn : Prop :=
  ∀ (s : State) (src : Src) (index sub : Nat) (data : Octets), s.dev.quiet → s.dev.reaches src = true → ¬s.dev.inTurn →
    completes (.dictWrite src index sub data) s fun t => keepsRest s t ∧
      t.dev = { s.dev with hdp := { s.dev.hdp with
        queue := s.dev.hdp.queue ++ [{ accepted := s.dev.stride, body := .access src index sub data }] } }

/-- Writes of the dictionary: staged, refused, or waiting for their turn. -/
def Obligations.DictWritesAreStaged : Prop := Sys2Proof.Claim.DictWritesAreStaged ∧ Sys2Proof.Claim.WritesWaitTheirTurn

/-! ### Legs and conferences (chapter 5) -/

/-- R105: UNCONFIGURE, HOLD, REKEY and DELETE move a leg from the states of their rows to the state that the rule names, at once and with
LEG_STATE_STRIDE; REKEY keeps the state it left in LEG_PRIOR_STATE, and DELETE sets the end of its drain (R109). Nothing else changes but
the counts of the leg's conference and of the writes. -/
def Sys2Proof.Claim.LegCommandsMoveTheirLeg : Prop :=
  ∀ (s : State) (src : Src) (n : Nat), n < 4096 → s.dev.quiet → s.dev.hears src { o := .LEG_CMD, u := n } →
    let d := s.dev
    let moved := fun (v : Nat) (t : State) =>
      t.dev.nat .LEG_STATE n = v ∧ t.dev.nat .LEG_STATE_STRIDE n = d.stride ∧
        t.dev.acceptedBy d src { o := .LEG_CMD, u := n } ∧ keepsRest s t ∧
        keepsOther d t.dev .LEG_STATE n ∧ keepsOther d t.dev .LEG_STATE_STRIDE n ∧
        keepsBut d t.dev [.LEG_STATE, .LEG_STATE_STRIDE, .LEG_PRIOR_STATE, .CONF_LEG_COUNT, .CONF_PIXEL_USE, .DICT_WRITES]
    (d.legState n = .configured → completes (.unconfigure src n) s fun t =>
      moved 0 t ∧ onlyDict d t.dev ∧ t.dev.nat .LEG_PRIOR_STATE n = d.nat .LEG_PRIOR_STATE n) ∧
    (d.legState n = .active → completes (.hold src n) s fun t =>
      moved 3 t ∧ onlyDict d t.dev ∧ t.dev.nat .LEG_PRIOR_STATE n = d.nat .LEG_PRIOR_STATE n) ∧
    (d.legState n = .active ∨ d.legState n = .held → completes (.rekey src n) s fun t =>
      moved 4 t ∧ t.dev.nat .LEG_PRIOR_STATE n = d.nat .LEG_STATE n) ∧
    (d.legState n = .active ∨ d.legState n = .held ∨ d.legState n = .rekey ∨ d.legState n = .failed →
      completes (.delete src n) s fun t =>
        moved 5 t ∧ (t.dev.lifeOf n).drainEnd =
          some (d.stride + (if (d.lifeOf n).suspended then 1 else d.nat .LEG_DRAIN_STRIDES n)))

/-- R105: each command of LEG_CMD, in any state of the leg that its row does not name, is refused with DEVICE_STATE, and changes nothing
but DICT_ABORTS. -/
def Sys2Proof.Claim.LegCommandsKeepTheirStates : Prop :=
  ∀ (s : State) (src : Src) (n : Nat), n < 4096 → s.dev.quiet → s.dev.hears src { o := .LEG_CMD, u := n } →
    ∀ row ∈ [(Instr.configure src n, [LegState.idle]), (.unconfigure src n, [.configured]), (.activate src n, [.configured]),
      (.hold src n, [.active]), (.resume src n, [.held]), (.rekey src n, [.active, .held]), (.rekeyDone src n, [.rekey]),
      (.delete src n, [.active, .held, .rekey, .failed]), (.readmitVideo src n, [.active])],
      s.dev.legState n ∉ row.2 → completes row.1 s fun t =>
        t.dev.refusedBy s.dev src { o := .LEG_CMD, u := n } .deviceState ∧
        keepsBut s.dev t.dev [.DICT_ABORTS] ∧ onlyDict s.dev t.dev ∧ keepsRest s t

/-- LEG_CMD in each state of a leg. -/
def Obligations.LegCommandsFollowTheirTable : Prop := Sys2Proof.Claim.LegCommandsMoveTheirLeg ∧ Sys2Proof.Claim.LegCommandsKeepTheirStates

/-- R105, R106: CONFIGURE of an IDLE leg whose objects are complete makes it CONFIGURED with its buffer need; where they are not, the leg
stays IDLE, LEG_REFUSAL reads 1 (INCOMPLETE) and the command is refused. -/
def Sys2Proof.Claim.ConfigureAsksForACompleteLeg : Prop :=
  ∀ (s : State) (src : Src) (n : Nat), n < 4096 → s.dev.quiet → s.dev.hears src { o := .LEG_CMD, u := n } → s.dev.legState n = .idle →
    completes (.configure src n) s fun t =>
      if s.dev.complete n then
        t.dev.nat .LEG_STATE n = 1 ∧ t.dev.nat .LEG_BUFFER_NEED n = s.dev.bufferNeed n ∧
          t.dev.acceptedBy s.dev src { o := .LEG_CMD, u := n } ∧ onlyDict s.dev t.dev ∧ keepsRest s t ∧
          keepsBut s.dev t.dev
            [.LEG_STATE, .LEG_STATE_STRIDE, .LEG_BUFFER_NEED, .CONF_LEG_COUNT, .CONF_PIXEL_USE, .DICT_WRITES]
      else
        t.dev.nat .LEG_REFUSAL n = 1 ∧ t.dev.refusedBy s.dev src { o := .LEG_CMD, u := n } .deviceState ∧
          onlyDict s.dev t.dev ∧ keepsRest s t ∧ keepsBut s.dev t.dev [.LEG_REFUSAL, .ADMIT_REFUSALS, .DICT_ABORTS]

/-- R105, R110, R111: ACTIVATE, RESUME and READMIT_VIDEO run the checks of their rows in order. Where all pass, or
LEG_AUDIO_ONLY_FALLBACK relaxes the video's, the leg is ACTIVE and LEG_REFUSAL reads what the checks gave; where one refuses, the leg keeps
its state and LEG_REFUSAL names the check. -/
def Obligations.AdmissionFollowsItsChecks : Prop :=
  ∀ (s : State) (src : Src) (n : Nat), n < 4096 → s.dev.quiet → s.dev.hears src { o := .LEG_CMD, u := n } →
    let d := s.dev
    let given := fun (v : Nat) (t : State) =>
      t.dev.nat .LEG_STATE n = 2 ∧ t.dev.nat .LEG_REFUSAL n = v ∧ keepsRest s t
    let refused := fun (v : Nat) (t : State) =>
      t.dev.nat .LEG_REFUSAL n = v ∧ t.dev.refusedBy d src { o := .LEG_CMD, u := n } .deviceState ∧
        keepsBut d t.dev [.LEG_REFUSAL, .ADMIT_REFUSALS, .DICT_ABORTS] ∧ onlyDict d t.dev ∧ keepsRest s t
    let fallback := d.flag .LEG_AUDIO_ONLY_FALLBACK n
    (d.legState n = .configured → d.service ≠ .doze → completes (.activate src n) s fun t =>
      match d.decide110 d n [2, 3, 4, 5, 6, 7, 8, 9, 10, 11, 12, 13, 14] fallback with
      | .ok (v, _) => given v t
      | .error v => refused v t) ∧
    (d.legState n = .held → d.returned = false → completes (.resume src n) s fun t =>
      let homes := (d.lifeOf n).homes
      let base := (d.setLife n { d.lifeOf n with homes := [] }).releaseLeg n
      let base := (base.setLife n { base.lifeOf n with homes := homes }).setN .LEG_BUFFER_NEED n (d.bufferNeed n)
      match d.decide110 base n [2, 3, 5, 6, 7, 8, 9, 10, 11, 12, 13, 14] fallback with
      | .ok (v, _) => given v t
      | .error v => refused v t) ∧
    (d.legState n = .active → d.returned = false → completes (.readmitVideo src n) s fun t =>
      match d.decide110 (d.releaseVideo n) n [6, 9, 10, 11, 13, 14] false with
      | .ok (_, q) => t.dev.nat .LEG_REFUSAL n = 0 ∧ t.dev.nat .LEG_ADMIT_PIXELS n = q.px ∧ keepsRest s t
      | .error v => refused v t)

/-- R105, R108, R450: REKEY_DONE of a leg whose keys of both directions were written anew, with no alarm latched, returns it to the state
it left and installs the keys at the next edge; else it stays in REKEY and LEG_REFUSAL reads 15. -/
def Sys2Proof.Claim.RekeyDoneReturnsTheLeg : Prop :=
  ∀ (s : State) (src : Src) (n : Nat), n < 4096 → s.dev.quiet → s.dev.hears src { o := .LEG_CMD, u := n } → s.dev.legState n = .rekey →
    completes (.rekeyDone src n) s fun t =>
      if (s.dev.keysOf n).txNew && (s.dev.keysOf n).rxNew && !s.dev.alarmed then
        (t.dev.nat .LEG_STATE n = if s.dev.nat .LEG_PRIOR_STATE n = 1 then 1 else if s.dev.nat .LEG_PRIOR_STATE n = 3 then 3 else 2) ∧
          t.dev.keysOf n = { s.dev.keysOf n with install := true } ∧ t.dev.acceptedBy s.dev src { o := .LEG_CMD, u := n } ∧
          keepsRest s t ∧ keepsBut s.dev t.dev [.LEG_STATE, .LEG_STATE_STRIDE, .CONF_LEG_COUNT, .CONF_PIXEL_USE, .DICT_WRITES]
      else
        t.dev.nat .LEG_REFUSAL n = 15 ∧ t.dev.refusedBy s.dev src { o := .LEG_CMD, u := n } .deviceState ∧
          onlyDict s.dev t.dev ∧ keepsRest s t ∧ keepsBut s.dev t.dev [.LEG_REFUSAL, .DICT_ABORTS]

/-- CONFIGURE and REKEY_DONE, and what each needs of the leg. -/
def Obligations.ConfigureAndRekeyAskForTheirKeys : Prop :=
  Sys2Proof.Claim.ConfigureAsksForACompleteLeg ∧ Sys2Proof.Claim.RekeyDoneReturnsTheLeg

/-- R109: the drain of a DRAINING leg ends in IDLE with its keys erased, its media state given up and no reservation left in its life; an
ACTIVE leg that has heard nothing authenticated for LEG_RX_TIMEOUT laps goes FAILED. Before that, and with the timeout 0, it stays. -/
def Obligations.LegsEndByThemselves : Prop :=
  ∀ (s : State) (n : Nat), n < 4096 → s.dev.quiet → s.dev.gen.running = true →
    (s.dev.legState n = .draining → completes (.drainEnd n) s fun t =>
      t.dev.nat .LEG_STATE n = 0 ∧ t.dev.nat .LEG_STATE_STRIDE n = s.dev.stride ∧ t.dev.lifeOf n = {} ∧ t.dev.keysOf n = {} ∧
        t.dev.rxOf n = {} ∧ t.dev.txOf n = {} ∧ t.dev.audioOf n = {} ∧ keepsRest s t) ∧
    (s.dev.legState n = .active → s.dev.nat .LEG_RX_TIMEOUT n ≠ 0 →
      completes (.legRxTimeout n) s fun t => keepsRest s t ∧
        t.dev.nat .LEG_STATE n =
          if (s.dev.lifeOf n).silentFrom + 600 * s.dev.nat .LEG_RX_TIMEOUT n ≤ s.dev.stride then 6 else 2)

/-- R102, R103: OPEN of a CLOSED conference for which a home block has room opens it there; CLOSE of an OPEN one makes it CLOSING and
drains its members; and the last drain over, it is CLOSED with no home block and its use given back. -/
def Sys2Proof.Claim.ConferencesOpenAndClose : Prop :=
  ∀ (s : State) (src : Src) (k : Nat), k < 1024 → s.dev.quiet →
    (s.dev.hears src { o := .CONF_CMD, u := k } → s.dev.nat .CONF_STATE k = 0 → ∀ b, s.dev.chooseHomeBlock k = some b → completes (.confOpen src k) s fun t =>
      t.dev.nat .CONF_STATE k = 1 ∧ t.dev.nat .CONF_HOME_BLOCK k = b ∧ t.dev.acceptedBy s.dev src { o := .CONF_CMD, u := k } ∧
        keepsRest s t) ∧
    (s.dev.hears src { o := .CONF_CMD, u := k } → s.dev.nat .CONF_STATE k = 1 → completes (.confClose src k) s fun t =>
      t.dev.nat .CONF_STATE k = 2 ∧ t.dev.acceptedBy s.dev src { o := .CONF_CMD, u := k } ∧ keepsRest s t ∧
        (∀ n ∈ (s.dev.setN .CONF_STATE k 2).confMembers k, t.dev.nat .LEG_STATE n = 5)) ∧
    (s.dev.gen.running = true → s.dev.nat .CONF_STATE k = 2 → s.dev.confMembers k = [] → completes (.confCloseComplete k) s fun t =>
      t.dev.nat .CONF_STATE k = 0 ∧ t.dev.nat .CONF_HOME_BLOCK k = 0xFF ∧ t.dev.nat .CONFS_OPEN = s.dev.nat .CONFS_OPEN - 1 ∧
        keepsRest s t)

/-- R141, R323: LEG_SSRC_FLUSH asks for the flush at the next edge, and LEG_LOW_PRIORITY is in force at once. -/
def Sys2Proof.Claim.LegWritesTakeEffect : Prop :=
  ∀ (s : State) (src : Src) (n : Nat), n < 4096 → s.dev.quiet →
    (s.dev.hears src { o := .LEG_SSRC_FLUSH, u := n } → completes (.legSsrcFlush src n) s fun t =>
      t.dev.rxOf n = { s.dev.rxOf n with flush := true } ∧ t.dev.acceptedBy s.dev src { o := .LEG_SSRC_FLUSH, u := n } ∧
        keepsRest s t ∧ keepsBut s.dev t.dev [.DICT_WRITES]) ∧
    (∀ low, s.dev.hears src { o := .LEG_LOW_PRIORITY, u := n } → completes (.legLowPriorityWrite src n low) s fun t =>
      t.dev.nat .LEG_LOW_PRIORITY n = (if low then 1 else 0) ∧
        t.dev.acceptedBy s.dev src { o := .LEG_LOW_PRIORITY, u := n } ∧ keepsRest s t)

/-- The commands of a conference, and the leg's own writes. -/
def Obligations.ConferencesAndLegWrites : Prop := Sys2Proof.Claim.ConferencesOpenAndClose ∧ Sys2Proof.Claim.LegWritesTakeEffect

/-! ### Time bases, PTP, pulses and captures (chapter 3) -/

/-- R46: a write of TB_TIME to a FREE time base sets its time, makes it VALID and counts a step; in any other mode it is refused with
DEVICE_STATE and changes nothing. -/
def Sys2Proof.Claim.TimeIsWrittenInFreeMode : Prop :=
  ∀ (s : State) (src : Src) (n time : Nat), n < 8 → time < 2 ^ 80 → s.dev.quiet → s.dev.hears src { o := .TB_TIME, u := n } →
    completes (.tbTimeWrite src n time) s fun t =>
      if s.dev.nat .TB_MODE n = 0 then
        t.dev.tbOf n = { s.dev.tbOf n with t := time, valid := true, written := true } ∧
          t.dev.nat .TB_STEPS n = (s.dev.nat .TB_STEPS n + 1) % 2 ^ 32 ∧ (∀ m, m ≠ n → t.dev.tbOf m = s.dev.tbOf m) ∧
          t.dev.acceptedBy s.dev src { o := .TB_TIME, u := n } ∧ keepsBut s.dev t.dev [.TB_STEPS, .DICT_WRITES] ∧ keepsRest s t
      else
        t.dev.refusedBy s.dev src { o := .TB_TIME, u := n } .deviceState ∧ keepsBut s.dev t.dev [.DICT_ABORTS] ∧
          onlyDict s.dev t.dev ∧ keepsRest s t

/-- R43: an offset sample beyond the step threshold steps a disciplined time base by it, clears VALID and the integrator and counts; a
smaller one moves the integrator and the rate by its frequency error, and sixteen within the lock threshold in a row make it VALID. -/
def Sys2Proof.Claim.ServoStepsOrSteers : Prop :=
  ∀ (s : State) (n : Nat) (o : Int) (dt : Nat), n < 8 → s.dev.quiet → s.dev.gen.running = true →
    s.dev.nat .TB_MODE n = 1 ∨ s.dev.nat .TB_MODE n = 2 →
    completes (.servoSample n o dt) s fun t =>
      let d := s.dev
      let b := d.tbOf n
      let f := tdiv (o * 65536) dt
      let i := clamp (-rateLimit) rateLimit (b.integ + asr f (d.nat .TB_SERVO_KI n))
      let inLock := decide (o.natAbs ≤ d.nat .TB_LOCK_THRESHOLD n * 65536)
      keepsRest s t ∧ keepsBut d t.dev [.TB_STEPS, .TB_RATE_ADJ] ∧ (∀ m, m ≠ n → t.dev.tbOf m = d.tbOf m) ∧
      if d.nat .TB_STEP_THRESHOLD n * 65536 < o.natAbs then
        (t.dev.tbOf n).t = (((b.t : Int) + o) % (2 : Int) ^ 80).toNat ∧ (t.dev.tbOf n).valid = false ∧
          (t.dev.tbOf n).integ = 0 ∧ t.dev.nat .TB_STEPS n = (d.nat .TB_STEPS n + 1) % 2 ^ 32
      else
        (t.dev.tbOf n).t = b.t ∧ (t.dev.tbOf n).integ = i ∧
          t.dev.int .TB_RATE_ADJ n = clamp (-rateLimit) rateLimit (i + asr f (d.nat .TB_SERVO_KP n)) ∧
          (t.dev.tbOf n).lockCount = (if inLock then min (b.lockCount + 1) 16 else 0) ∧
          (t.dev.tbOf n).valid = (b.valid || (inLock && decide (16 ≤ b.lockCount + 1)))

/-- R44: a disciplined time base that loses its source goes on at the rate of its integrator, in HOLDOVER; when TB_HOLDOVER_LAPS, other
than 0, have run out it is no longer VALID nor LOCKED (R45), and that once. -/
def Sys2Proof.Claim.HoldoverFreezesTheRate : Prop :=
  ∀ (s : State) (n : Nat), n < 8 → s.dev.quiet → s.dev.gen.running = true →
    (s.dev.nat .TB_MODE n = 1 ∨ s.dev.nat .TB_MODE n = 2 → (s.dev.tbOf n).holdover = false →
      completes (.holdoverEnter n) s fun t =>
        (t.dev.tbOf n) = { s.dev.tbOf n with holdover := true, source := false } ∧
          t.dev.int .TB_RATE_ADJ n = (s.dev.tbOf n).integ ∧ keepsBut s.dev t.dev [.TB_RATE_ADJ] ∧
          (∀ m, m ≠ n → t.dev.tbOf m = s.dev.tbOf m) ∧ t.dev.out = s.dev.out ∧ keepsRest s t) ∧
    ((s.dev.tbOf n).holdover = true → (s.dev.tbOf n).ended = false →
      completes (.holdoverExpiry n) s fun t => keepsRest s t ∧
        t.dev.tbOf n = if s.dev.nat .TB_HOLDOVER_LAPS n = 0 then s.dev.tbOf n
          else { s.dev.tbOf n with valid := false, locked := false, ended := true })

/-- The time bases: written, steered by their servo, and in holdover. -/
def Obligations.TimeBasesAreDisciplined : Prop :=
  Sys2Proof.Claim.TimeIsWrittenInFreeMode ∧ Sys2Proof.Claim.ServoStepsOrSteers ∧ Sys2Proof.Claim.HoldoverFreezesTheRate

/-- R43, R47, R48, R50: a SLAVE port takes a one-step Sync of its master as an offset sample of its instance in PTP mode, and keeps the
stamp of a two-step one for its Follow_Up; a MASTER answers a Delay_Req with its receive stamp through the system queue of general messages,
and sends its Sync, or its Announce with the instance's data set, when they fall due; a slave sends its Delay_Req. Every message carries the
port's own identity and the instance's domain. -/
def Sys2Proof.Claim.PtpPortsExchangeMessages : Prop :=
  ∀ (s : State) (p : Nat), p < 4 → s.dev.quiet → s.dev.gen.running = true → s.dev.nat .PTP_ROLE p ≠ 0 →
    let d := s.dev
    let n := d.nat .PTP_INSTANCE p
    let queued := fun (t : State) (q : Nat) => tget [] q (t.dev.portOf p).sys
    let old := fun (q : Nat) => tget [] q (d.portOf p).sys
    let tx := d.nat .PTP_TRANSPORT p
    let seq := ((d.ptpOf p).txSeq + 1) % 65536
    let hdr : PtpHdr := { domain := d.nat .PTP_DOMAIN n, src := d.ptpSelf p, seq := seq }
    (∀ h origin pcs, d.ptpMine p h = true → d.ptpParent p h.src = true →
      let rx := d.rxStamp p n pcs
      (d.nat .TB_MODE n = 1 → completes (.ptpMessageRx p ⟨.sync h false origin, pcs⟩) s fun t =>
        let t1 := corrected origin h.correction
        (t.dev.tbOf n).sample = some (timeDiff t1 rx + d.int .PTP_PATH_DELAY p, logInterval (d.int .PTP_LOG_SYNC p)) ∧
          (t.dev.tbOf n).source = true ∧ (t.dev.ptpOf p).t1 = some t1 ∧ (t.dev.ptpOf p).lastSync = some rx ∧
          keepsBut d t.dev [.TB_STEPS, .TB_RATE_ADJ] ∧ t.dev.out = d.out ∧ keepsRest s t) ∧
      (completes (.ptpMessageRx p ⟨.sync h true origin, pcs⟩) s fun t =>
        t.dev = d.setPtp p { d.ptpOf p with syncSeq := h.seq, syncRx := some rx, syncCorr := h.correction } ∧ keepsRest s t)) ∧
    (∀ h pcs, d.ptpMine p h = true → d.nat .PTP_PORT_STATE p = 6 → d.nat .PTP_DELAY_MECH p = 0 → (old 1).length < 64 →
      completes (.ptpMessageRx p ⟨.delayReq h, pcs⟩) s fun t =>
        queued t 1 = old 1 ++ [.ptp n tx
          { type := 9, hdr := { hdr with seq := h.seq, correction := h.correction }, time := d.rxStamp p n pcs, dest := some h.src }] ∧
          keepsBut d t.dev [] ∧ keepsRest s t) ∧
    (d.nat .PTP_PORT_STATE p = 6 → (old 0).length < 64 → (old 1).length < 64 →
      (completes (.ptpMessageDue p .sync) s fun t =>
        queued t 0 = old 0 ++ [.ptp n tx { type := 0, hdr := hdr }] ∧ (t.dev.ptpOf p).txSeq = seq ∧ keepsBut d t.dev [] ∧ keepsRest s t) ∧
      (completes (.ptpMessageDue p .announce) s fun t =>
        queued t 1 = old 1 ++ [.ptp n tx { type := 11, hdr := hdr, data := some (d.ptpAnnounced n) }] ∧ (t.dev.ptpOf p).txSeq = seq ∧
          keepsBut d t.dev [] ∧ keepsRest s t)) ∧
    (d.nat .PTP_PORT_STATE p = 9 → d.nat .PTP_DELAY_MECH p = 0 → (old 0).length < 64 →
      completes (.ptpMessageDue p .delayReq) s fun t =>
        queued t 0 = old 0 ++ [.ptp n tx { type := 1, hdr := hdr }] ∧
          (t.dev.ptpOf p).delayTx = none ∧ (t.dev.ptpOf p).delaySeq = seq ∧ keepsBut d t.dev [] ∧ keepsRest s t)

/-- R47, R49: when announceReceiptTimeout runs out on a port, the master it had heard is forgotten; and where no other port of the
instance hears one, a port of role 1 whose link is up becomes MASTER. -/
def Sys2Proof.Claim.AnnounceTimeoutForgetsTheMaster : Prop :=
  ∀ (s : State) (p : Nat), p < 4 → s.dev.quiet → s.dev.gen.running = true → s.dev.nat .PTP_ROLE p ≠ 0 →
    completes (.ptpAnnounceTimeout p) s fun t =>
      (t.dev.ptpOf p).best = none ∧ keepsRest s t ∧ keepsBut s.dev t.dev [.PTP_PORT_STATE, .TB_RATE_ADJ] ∧
        (s.dev.ptpPorts (s.dev.nat .PTP_INSTANCE p) = [p] → s.dev.nat .PORT_LINK p = 1 → s.dev.nat .PTP_ROLE p = 1 →
          t.dev.nat .PTP_PORT_STATE p = 6)

/-- PTP's messages and its timeout. -/
def Obligations.PtpFollowsItsMaster : Prop := Sys2Proof.Claim.PtpPortsExchangeMessages ∧ Sys2Proof.Claim.AnnounceTimeoutForgetsTheMaster

/-- R52 to R54: a target reached within the window fires a SINGLE output once, and a PERIODIC one is left with its next target; the
active level ends with its width, or with a write of OFF; targets and modes are written within the window of R52. -/
def Sys2Proof.Claim.PulsesFireAtTheirTargets : Prop :=
  ∀ (s : State) (k : Nat), k < 4 → s.dev.quiet →
    let d := s.dev
    let tb := d.nat .PULSE_TIMEBASE k % 8
    let late := timeDiff (d.now tb) (d.nat .PULSE_TARGET k)
    (d.gen.running = true → d.nat .PULSE_MODE k ≠ 0 → 0 ≤ late → late < 16 * 65536 → d.tbValid tb = true →
      completes (.pulseTargetReached k) s fun t =>
        tget {} k t.dev.pulses = { active := true, left := widthCycles (d.nat .PULSE_WIDTH k) } ∧
          t.dev.nat .PULSE_FIRED k = (d.nat .PULSE_FIRED k + 1) % 2 ^ 32 ∧
          t.dev.out = d.out ++ [.pulse k true (decide (d.nat .PULSE_POLARITY k = 0))] ∧
          (if d.nat .PULSE_MODE k = 2 then
            t.dev.nat .PULSE_MODE k = 2 ∧
              t.dev.nat .PULSE_TARGET k = (d.nat .PULSE_TARGET k + d.nat .PULSE_PERIOD k * 65536) % timeMod
          else t.dev.nat .PULSE_MODE k = 0 ∧ t.dev.nat .PULSE_TARGET k = d.nat .PULSE_TARGET k) ∧
          keepsBut d t.dev [.PULSE_FIRED, .PULSE_MODE, .PULSE_TARGET] ∧ keepsRest s t) ∧
    (d.gen.running = true → (tget {} k d.pulses).active = true →
      completes (.pulseWidthEnd k) s fun t =>
        tget {} k t.dev.pulses = {} ∧ t.dev.out = d.out ++ [.pulse k false (decide (d.nat .PULSE_POLARITY k = 1))] ∧
          keepsBut d t.dev [] ∧ keepsRest s t) ∧
    (∀ src time, d.hears src { o := .PULSE_TARGET, u := k } → time < 2 ^ 80 → completes (.pulseTargetWrite src k time) s fun t => keepsRest s t ∧
      match d.pulseWindow k (d.nat .PULSE_MODE k) time with
      | .ok x => t.dev.nat .PULSE_TARGET k = x ∧ t.dev.acceptedBy d src { o := .PULSE_TARGET, u := k } ∧
          keepsBut d t.dev [.PULSE_TARGET, .DICT_WRITES] ∧ onlyDict d t.dev
      | .error a => t.dev.refusedBy d src { o := .PULSE_TARGET, u := k } a ∧ keepsBut d t.dev [.DICT_ABORTS] ∧ onlyDict d t.dev) ∧
    (∀ src, d.hears src { o := .PULSE_MODE, u := k } → completes (.pulseModeWrite src k 0) s fun t =>
      t.dev.nat .PULSE_MODE k = 0 ∧ (tget {} k t.dev.pulses).active = false ∧ keepsBut d t.dev [.PULSE_MODE, .PULSE_TARGET, .DICT_WRITES] ∧
        keepsRest s t) ∧
    (∀ src mode, d.hears src { o := .PULSE_MODE, u := k } → mode = 1 ∨ mode = 2 → ∀ x, d.pulseWindow k mode (d.nat .PULSE_TARGET k) = .ok x →
      completes (.pulseModeWrite src k mode) s fun t =>
        t.dev.nat .PULSE_MODE k = mode ∧ t.dev.nat .PULSE_TARGET k = x ∧ t.dev.acceptedBy d src { o := .PULSE_MODE, u := k } ∧
          onlyDict d t.dev ∧ keepsBut d t.dev [.PULSE_MODE, .PULSE_TARGET, .DICT_WRITES] ∧ keepsRest s t)

/-- R55, R56: a selected edge is stamped on the input's time base and queued behind at most fifteen others, and a seventeenth is counted
and lost, while a base that the edge disciplines takes its sample; a read of CAPTURE_TIME takes the oldest out of the queue and shows it, with its number and direction in CAPTURE_INFO. -/
def Sys2Proof.Claim.CapturesQueueAndAreRead : Prop :=
  ∀ (s : State) (j : Nat), j < 2 → s.dev.quiet →
    let d := s.dev
    let c := d.capOf j
    let stamp := d.now (d.nat .CAPTURE_TIMEBASE j % 8)
    let seq := (c.seq + 1) % 65536
    (∀ rising, d.gen.running = true → d.nat .CAPTURE_EDGE j = 3 → completes (.captureEdge j rising) s fun t =>
      keepsRest s t ∧ keepsBut d t.dev [.CAPTURE_OVERFLOWS, .TB_STEPS, .TB_RATE_ADJ] ∧ (t.dev.capOf j).level = rising ∧ (t.dev.capOf j).seq = seq ∧
        if c.fifo.length < 16 then (t.dev.capOf j).fifo = c.fifo ++ [⟨stamp, seq, rising⟩]
        else (t.dev.capOf j).fifo = c.fifo ∧
          t.dev.nat .CAPTURE_OVERFLOWS j = (d.nat .CAPTURE_OVERFLOWS j + 1) % 2 ^ 32) ∧
    (∀ src x r, d.reaches src = true → c.fifo = x :: r → completes (.captureTimeRead src j) s fun t =>
      t.dev.out = d.out ++ [.value src (0x2058 + j) 4 (natToOctets 10 (x.time % 2 ^ 80))] ∧ (t.dev.capOf j).fifo = r ∧ (t.dev.capOf j).last = x ∧
        t.dev.nat .CAPTURE_INFO j = x.seq * 65536 + (if x.rising then 1 else 0) ∧ keepsBut d t.dev [.CAPTURE_INFO] ∧ keepsRest s t)

/-- Pulse outputs and capture inputs. -/
def Obligations.PulsesAndCaptures : Prop := Sys2Proof.Claim.PulsesFireAtTheirTargets ∧ Sys2Proof.Claim.CapturesQueueAndAreRead

/-! ### HDP (chapter 4) -/

/-- R85, R86, R88: an OPEN at a management address under a loaded key slot, authentic and with a SEQ above the last accepted if any was, opens a session where no refusal of R86 applies: of a
number no other has, with the slot's key derived for it and the idle time it asked for. -/
def Sys2Proof.Claim.OpenMakesASession : Prop :=
  ∀ (s : State) (h : HdpHdr) (req : Nat) (nonce key : Octets) (timeout : Nat), s.dev.quiet → s.dev.gen.running = true →
    s.dev.isMgmt h.port h.vlan h.dst = true → hdpFormed h true = true → h.parses = true → h.short = false → h.listed = true → h.session = 0 → h.keySlot ≤ 3 → tfind h.keySlot s.dev.sec.hdpKeys = some key →
    h.sealKey = key → h.seq < 2 ^ 63 → (∀ q, tfind h.keySlot s.dev.hdp.openSeq = some q → q < h.seq) → s.dev.openRefusal timeout = none →
    completes (.hdpOpen h req nonce timeout) s fun t =>
      ∃ x : Session, t.dev.hdp.sessions = s.dev.hdp.sessions ++ [x] ∧ x.id ≠ 0 ∧ s.dev.sessionOf x.id = none ∧ x.slot = h.keySlot ∧
        x.timeout = (if timeout = 0 then s.dev.nat .HDP_SESSION_TIMEOUT else timeout) ∧ x.txSeq = 1 ∧
        (∃ mine, x.key = sessionKey key nonce mine x.id) ∧
        tget 0 h.keySlot t.dev.hdp.openSeq = h.seq ∧ keepsBut s.dev t.dev [.PORT_TX_DROPS] ∧ keepsRest s t

/-- R87: of a session's authentic datagrams the device accepts a SEQ that it has not yet accepted and that exceeds the highest accepted
minus 64, and discards every other as a replay. -/
def Obligations.ReplaysAreDiscarded : Prop :=
  ∀ (d : Dev) (h : HdpHdr) (x : Session), hdpFormed h false = true → d.sessionOf h.session = some x → h.sealKey = x.key →
    h.seq < 2 ^ 63 →
    if h.seq ∉ x.seen ∧ x.high < h.seq + 64 then
      ∃ y, d.hdpAccept h = (some y, d.setSession y) ∧ y.id = x.id ∧ y.high = max x.high h.seq ∧ h.seq ∈ y.seen
    else d.hdpAccept h = (none, d.bump .HDP_REPLAYS)

/-- R88: a session ends with CLOSE, or when it has accepted nothing for its TIMEOUT_LAPS, and not before; its place among the open
sessions is free. -/
def Sys2Proof.Claim.SessionsClose : Prop :=
  ∀ (s : State) (x : Session), s.dev.quiet → s.dev.gen.running = true → s.dev.sessionOf x.id = some x →
    (∀ h req, h.session = x.id → s.dev.takesRequest h req x → completes (.hdpClose h req) s fun t =>
      t.dev.sessionOf x.id = none ∧ keepsRest s t) ∧
    (completes (.hdpSessionTimeout x.id) s fun t => keepsRest s t ∧
      if x.heard + 600 * x.timeout ≤ s.dev.stride then t.dev.sessionOf x.id = none else t.dev = s.dev)

/-- R84, R89: a KEEPALIVE is answered in its own form, and the session has heard its controller. -/
def Sys2Proof.Claim.KeepaliveIsAnswered : Prop :=
  ∀ (s : State) (h : HdpHdr) (req : Nat) (x : Session), s.dev.quiet → s.dev.gen.running = true → s.dev.takesRequest h req x →
    completes (.hdpKeepalive h req) s fun t =>
      t.dev.answered s.dev h.session req 4 [] ∧ keepsBut s.dev t.dev [.PORT_TX_DROPS] ∧ t.dev.out = s.dev.out ∧ keepsRest s t ∧
        ∃ y, t.dev.sessionOf h.session = some y ∧ y.heard = s.dev.stride

/-- The life of an HDP session. -/
def Obligations.SessionsOpenAndClose : Prop :=
  Sys2Proof.Claim.OpenMakesASession ∧ Sys2Proof.Claim.SessionsClose ∧ Sys2Proof.Claim.KeepaliveIsAnswered

/-- R90, R91: a READ or a WRITE runs at once where its entries fit what is left of the stride and no request waits, and takes them from
what is left; else it waits with at most 63 others of HDP, is served from its front when it fits, and is dropped and counted when the queue is full. -/
def Sys2Proof.Claim.RequestsRunOrWait : Prop :=
  ∀ (s : State) (h : HdpHdr) (req : Nat) (x : Session), s.dev.quiet → s.dev.gen.running = true → s.dev.takesRequest h req x →
    let acc := (s.dev.hdpAccept h).2
    let at_ := fun (n : Nat) => ({ acc with hdp := { acc.hdp with left := acc.hdp.left - n } } : Dev)
    (∀ es : List RdEntry, es.length ≤ 64 → completes (.hdpRead h req es) s fun t => keepsRest s t ∧
      if s.dev.hdp.queue = [] ∧ es.length ≤ s.dev.hdp.left then
        let r := (at_ es.length).readBody 1400 es
        t.dev = (r.2.hdpAnswer x.id 0x11 req r.1).settle
      else if (s.dev.hdp.queue.filter (·.body.ofHdp)).length < 64 then
        t.dev.hdp.queue = s.dev.hdp.queue ++ [{ session := x.id, req := req, accepted := s.dev.stride, body := .read es }]
      else t.dev.nat .DICT_QUEUE_DROPS = (s.dev.nat .DICT_QUEUE_DROPS + 1) % 2 ^ 32) ∧
    (∀ es : List WrEntry, es.length ≤ 64 → completes (.hdpWrite h req es) s fun t => keepsRest s t ∧
      if s.dev.hdp.queue = [] ∧ es.length ≤ s.dev.hdp.left then
        let r := (at_ es.length).writeEntries x.id es
        t.dev = (r.2.2.hdpAnswer x.id 0x13 req (match r.2.1 with
          | none => writeResp 0 r.1 0 0
          | some (e, code) => writeResp code r.1 e.index e.sub)).settle
      else if (s.dev.hdp.queue.filter (·.body.ofHdp)).length < 64 then
        t.dev.hdp.queue = s.dev.hdp.queue ++ [{ session := x.id, req := req, accepted := s.dev.stride, body := .write es }]
      else t.dev.nat .DICT_QUEUE_DROPS = (s.dev.nat .DICT_QUEUE_DROPS + 1) % 2 ^ 32)

/-- R90, R97: the front of the queue runs when its entries fit the stride; a request that has waited 4 laps is ended and answered with
TIMEOUT; a bulk transfer that has been open for 4 laps is ended. -/
def Sys2Proof.Claim.WaitingWorkEnds : Prop :=
  ∀ (s : State), s.dev.quiet → s.dev.gen.running = true →
    (∀ q r, s.dev.hdp.queue = q :: r → q.body.entries ≤ s.dev.hdp.left →
      completes .hdpRequestExecute s fun t => keepsRest s t ∧
        t.dev = (({ s.dev with hdp := { s.dev.hdp with queue := r } } : Dev).runRequest q).settle) ∧
    (∀ q es, q ∈ s.dev.hdp.queue → q.body = .read es → (∀ y ∈ s.dev.hdp.queue, y.session = q.session → y.req = q.req → y = q) →
      q.accepted + 2400 ≤ s.dev.stride → (s.dev.sessionOf q.session).isSome = true →
      completes (.hdpRequestTimeout q.session q.req) s fun t =>
        q ∉ t.dev.hdp.queue ∧ t.dev.answered s.dev q.session q.req 0x11 (readRefusal .timeout) ∧
          keepsBut s.dev t.dev [.PORT_TX_DROPS, .DICT_ABORTS] ∧ keepsRest s t) ∧
    (∀ x b, s.dev.sessionOf x.id = some x → x.bulk = some b → b.opened + 2400 ≤ s.dev.stride →
      completes (.bulkTransferTimeout x.id) s fun t =>
        (∃ y, t.dev.sessionOf x.id = some y ∧ y.bulk = none) ∧ keepsRest s t)

/-- HDP's requests, run at once or queued. -/
def Obligations.RequestsRunWaitAndEnd : Prop := Sys2Proof.Claim.RequestsRunOrWait ∧ Sys2Proof.Claim.WaitingWorkEnds

/-- R84, R93, R95: a SUBSCRIBE that R93 does not refuse stands in its session under its number, or as its mask of error classes for
0xFF; an UNSUBSCRIBE takes it out. -/
def Sys2Proof.Claim.SubscriptionsStandAndGo : Prop :=
  ∀ (s : State) (h : HdpHdr) (req number : Nat) (x : Session), s.dev.quiet → s.dev.gen.running = true → s.dev.takesRequest h req x →
    (∀ period es, subscribeRefusal number period es.length = none → completes (.hdpSubscribe h req number period es) s fun t =>
      t.dev.answered s.dev h.session req 0x21 (subResp 0 number) ∧ keepsBut s.dev t.dev [.PORT_TX_DROPS] ∧ keepsRest s t ∧
        ∃ y, t.dev.sessionOf h.session = some y ∧
          if number = 0xFF then y.errMask = some (period % 16) else tfind number y.subs = some { period := period, entries := es }) ∧
    ((if number = 0xFF then x.errMask.isSome else thas number x.subs) = true → completes (.hdpUnsubscribe h req number) s fun t =>
      t.dev.answered s.dev h.session req 0x21 (subResp 0 number) ∧ keepsBut s.dev t.dev [.PORT_TX_DROPS] ∧ keepsRest s t ∧
        ∃ y, t.dev.sessionOf h.session = some y ∧ if number = 0xFF then y.errMask = none else tfind number y.subs = none)

/-- R96, R97: in its turn, a BULK_BEGIN of a load opens the one transfer of its session, and one of a read takes its copy; the load's data
are kept; a BULK_END names the first byte missing, or writes the whole value as one write where its CRC confirms it; a BULK_READ of an open
read answers from the copy. -/
def Obligations.BulkTransfersMoveValues : Prop :=
  ∀ (s : State) (h : HdpHdr) (req : Nat) (x : Session), s.dev.quiet → s.dev.gen.running = true → s.dev.takesRequest h req x →
    let acc := (s.dev.hdpAccept h).2.spent
    let buffers := fun (n : Nat) => (n + bulkBuffer - 1) / bulkBuffer
    (∀ index sub total crc e, s.dev.inTurn → x.bulk = none → acc.bulkTarget x.id index sub true total = .ok ([], e) →
      (e.alloc .bulk 2 bulkBuffer none (buffers total)).1.length = buffers total →
      completes (.hdpBulkBegin h req index sub true total crc) s fun t =>
        t.dev.answered s.dev h.session req 0x34 (bulkBegun 0 total crc) ∧ keepsRest s t ∧
          ∃ y b, t.dev.sessionOf h.session = some y ∧ y.bulk = some b ∧ b.load = true ∧ b.total = total ∧ b.crc = crc ∧
            b.index = index ∧ b.sub = sub ∧ b.opened = s.dev.stride ∧ b.parts = []) ∧
    (∀ index sub total crc copy e, s.dev.inTurn → x.bulk = none → acc.readAt index sub = .ok (copy, e) →
      (e.alloc .bulk 2 bulkBuffer none (buffers copy.length)).1.length = buffers copy.length →
      completes (.hdpBulkBegin h req index sub false total crc) s fun t =>
        t.dev.answered s.dev h.session req 0x34 (bulkBegun 0 copy.length (crc32 copy)) ∧ keepsRest s t ∧
          ∃ y b, t.dev.sessionOf h.session = some y ∧ y.bulk = some b ∧ b.load = false ∧ b.copy = copy) ∧
    (∀ offset data b, x.bulk = some b → b.load = true → data ≠ [] → data.length ≤ 1024 → completes (.hdpBulkData h req offset data) s fun t =>
      keepsBut s.dev t.dev [] ∧ t.dev.out = s.dev.out ∧ keepsRest s t ∧ ∃ y, t.dev.sessionOf h.session = some y ∧
        y.bulk = some { b with parts := (offset, data.take (b.total - offset)) :: b.parts }) ∧
    (∀ b i, s.dev.inTurn → x.bulk = some b → b.load = true → (List.range b.total).find? (fun i => (b.byteAt i).isNone) = some i →
      completes (.hdpBulkEnd h req) s fun t =>
        t.dev.answered s.dev h.session req 0x34 (bulkEnded Abort.bulkMissing.code i) ∧ keepsRest s t ∧
          ∃ y, t.dev.sessionOf h.session = some y ∧ y.bulk = some b) ∧
    (∀ b value y, s.dev.inTurn → x.bulk = some b → b.load = true → (List.range b.total).map b.byteAt = value.map some →
      acc.sessionOf x.id = some y → completes (.hdpBulkEnd h req) s fun t => keepsRest s t ∧
        let e := acc.endBulk y b
        let r := e.countWrite (.hdp x.id) b.index b.sub value
        t.dev = (if crc32 value = b.crc then r.2.hdpAnswer x.id 0x34 req (bulkEnded r.1 0)
          else e.hdpAnswer x.id 0x34 req (bulkEnded Abort.bulkCrc.code 0)).settle) ∧
    (∀ b, s.dev.inTurn → x.bulk = some b → b.load = false → completes (.hdpBulkEnd h req) s fun t =>
        t.dev.answered s.dev h.session req 0x34 (bulkEnded 0 0) ∧ keepsRest s t ∧
          ∃ y, t.dev.sessionOf h.session = some y ∧ y.bulk = none) ∧
    (∀ offset len b, x.bulk = some b → b.load = false → len ≤ 1024 → completes (.hdpBulkRead h req offset len) s fun t =>
        t.dev.answered s.dev h.session req 0x34 (bulkGot 0 offset ((b.copy.drop offset).take len)) ∧
          keepsBut s.dev t.dev [.PORT_TX_DROPS] ∧ keepsRest s t)

/-- R98, R99: a PUNT_CLAIM makes its session the owner of the punt; a PUNT_TX for a leg that is not IDLE goes to the leg, and for an IDLE
one is refused with DEVICE_STATE. -/
def Sys2Proof.Claim.PuntsAreOwnedAndSent : Prop :=
  ∀ (s : State) (h : HdpHdr) (req : Nat) (x : Session), s.dev.quiet → s.dev.gen.running = true → s.dev.takesRequest h req x →
    (completes (.hdpPuntClaim h req) s fun t =>
      t.dev.nat .PUNT_OWNER = h.session ∧ t.dev.answered s.dev h.session req 0x43 (natToOctets 4 0) ∧
        keepsBut s.dev t.dev [.PUNT_OWNER, .PORT_TX_DROPS] ∧ keepsRest s t) ∧
    (∀ leg data, leg < 4096 → data.length ≤ 1340 → completes (.hdpPuntTx h req leg data) s fun t => keepsRest s t ∧
      t.dev.answered s.dev h.session req 0x43 (natToOctets 4 (if s.dev.legState leg = .idle then Abort.deviceState.code else 0)))

/-- What HDP sends unasked, and the frames it is handed. -/
def Obligations.SubscriptionsAndPunts : Prop := Sys2Proof.Claim.SubscriptionsStandAndGo ∧ Sys2Proof.Claim.PuntsAreOwnedAndSent

/-! ### CAN (chapter 4) -/

/-- R75: an NMT command for this node, or for all, moves the node to the state it names, and ends an SDO transfer where SDO stops; reset
node and reset communication, which act alike, reload the communication objects, record their event (R439) and send the boot-up, and never
touch the stride. A command for another node changes nothing. -/
def Obligations.NmtMovesTheNode : Prop :=
  ∀ (s : State) (node : Nat), s.dev.quiet → s.dev.nodeRuns = true →
    let d := s.dev
    let mine := node = 0 ∨ node = d.can.node
    (mine → completes (.nmtStart node) s fun t => t.dev.can.nmt = .operational ∧ keepsRest s t) ∧
    (mine → completes (.nmtStop node) s fun t =>
      t.dev.can = { d.can with nmt := .stopped, sdo := none } ∧ keepsBut d t.dev [] ∧ t.dev.out = d.out ∧ keepsRest s t) ∧
    (mine → completes (.nmtEnterPreOperational node) s fun t =>
      t.dev.can = { d.can with nmt := .preOperational } ∧ keepsBut d t.dev [] ∧ t.dev.out = d.out ∧ keepsRest s t) ∧
    (mine → ∀ c ∈ [Instr.nmtResetNode node, .nmtResetCommunication node], completes c s fun t =>
      t.dev.can.nmt = .preOperational ∧ t.dev.can.sdo = none ∧ t.dev.nat .LAST_RESET = 0x07060000 ∧
        t.dev.nat .RESET_EPOCH = (d.nat .RESET_EPOCH + 1) % 2 ^ 32 ∧ t.dev.nat .REVERTED_MASK = d.nat .REVERTED_MASK ||| 8 ∧
        t.dev.out = d.out ++ [.can ((0x700 + t.dev.can.node) % 0x800) [0]] ∧
        keepsBut d t.dev (commObjects ++ [.LAST_RESET, .RESET_EPOCH, .REVERTED_MASK]) ∧ t.dev.gen = d.gen ∧ keepsRest s t) ∧
    (¬mine → ∀ c ∈ [Instr.nmtStart node, .nmtStop node, .nmtEnterPreOperational node, .nmtResetNode node,
      .nmtResetCommunication node], completes c s fun t => t = s)

/-- R77, R90: in its turn an expedited download writes its value and is answered, in CiA 301's frames, and an upload of up to four octets is
answered with them, least significant first; one of more opens a transfer, whose segments carry seven octets each and turn the toggle; the
client's abort ends it, and so does a lap without a frame of the client. -/
def Sys2Proof.Claim.SdoServesTransfers : Prop :=
  ∀ (s : State) (index sub : Nat), s.dev.quiet → s.dev.nodeRuns = true → s.dev.sdoRuns = true →
    let d := s.dev
    let frame := fun (b : Octets) => Output.can ((0x580 + d.can.node) % 0x800) (b ++ List.replicate (8 - b.length) 0)
    (d.can.sdo = none → d.inTurn →
      completes (.sdoDownloadInitiate 0x2000 0x10 .expedited 1 [1]) s fun t =>
        t.dev.flag .STRIDE_COMMIT = true ∧ t.dev.out = d.out ++ [frame [0x60, 0, 0x20, 0x10]] ∧
          t.dev.nat .DICT_WRITES = (d.nat .DICT_WRITES + 1) % 2 ^ 32 ∧ keepsRest s t) ∧
    (∀ size, 0 < size → size ≤ sdoMost → d.can.sdo = none →
      completes (.sdoDownloadInitiate index sub .segmented size []) s fun t =>
        t.dev.can.sdo = some { index := index, sub := sub, kind := .segmented, size := size, heard := d.can.ticks } ∧
          t.dev.out = d.out ++ [frame ([0x60] ++ sdoHead index sub)] ∧ keepsBut d t.dev [] ∧ keepsRest s t) ∧
    (∀ b e, d.can.sdo = none → d.inTurn → d.spent.readAt index sub = .ok (b, e) → (canOrder index sub b).length ≤ 4 →
      completes (.sdoUploadInitiate index sub .expedited) s fun t => keepsRest s t ∧
        t.dev.out.getLast? =
          some (frame ([0x43 + 4 * (4 - (canOrder index sub b).length)] ++ sdoHead index sub ++ canOrder index sub b))) ∧
    (∀ x toggle data, d.can.sdo = some x → x.kind = .segmented → x.download = false → toggle = x.toggle → 7 < x.data.length →
      completes (.sdoSegment toggle 0 data false true) s fun t =>
        t.dev.can.sdo = some { x with data := x.data.drop 7, toggle := !toggle, heard := d.can.ticks } ∧
          t.dev.out = d.out ++ [frame ((if toggle then 16 else 0) :: x.data.take 7)] ∧ keepsBut d t.dev [] ∧ keepsRest s t) ∧
    (∀ x, d.can.sdo = some x →
      (completes .sdoClientAbort s fun t => t.dev.can.sdo = none ∧ t.dev.out = d.out ∧ keepsBut d t.dev [] ∧ keepsRest s t) ∧
      (completes .sdoTimeout s fun t => keepsRest s t ∧
        if x.heard + 600 ≤ d.can.ticks then
          t.dev.can.sdo = none ∧ t.dev.nat .DICT_ABORTS = (d.nat .DICT_ABORTS + 1) % 2 ^ 32 ∧ keepsBut d t.dev [.DICT_ABORTS] ∧
            t.dev.out = d.out ++ [frame ([0x80] ++ sdoHead x.index x.sub ++ [0, 0, 4, 5])]
        else t.dev = d))

/-- R81: an RPDO that is too short raises EMCY 0x8210 and writes nothing, and one of its mapped length writes its entries in order where its turn has come (R90); the
event timer of an enabled TPDO whose inhibit time has passed sends its mapped objects. -/
def Sys2Proof.Claim.PdosCarryMappedObjects : Prop :=
  ∀ (s : State) (i : Nat), i < 4 → s.dev.quiet → s.dev.nodeRuns = true →
    let d := s.dev
    let mapped := d.mapping .RPDO_MAP i
    let length := mapped.foldl (fun a e => a + e.2.2 / 8) 0
    (∀ data, d.pdoOn .RPDO_COB_ID i = true → completes (.rpdoReceive i data) s fun t => keepsRest s t ∧
      if data.length < length then
        t.dev.nat .ERROR_FIELD 0 0 = 0x8210 ∧ keepsBut d t.dev [.ERROR_FIELD, .ERROR_COUNT, .EMCY_SUPPRESSED]
      else d.gen.running = false ∨ d.hdp.queue = [] ∧ mapped.length ≤ d.hdp.left →
        t.dev = (({ d with hdp := { d.hdp with left := d.hdp.left - mapped.length } } : Dev).rpdoWrite mapped data).settle) ∧
    (d.pdoOn .TPDO_COB_ID i = true → d.flag .TPDO_EVENT i = true → d.tpdoFree i = true →
      completes (.tpdoEventTimer i) s fun t => keepsRest s t ∧
        t.dev.out = d.out ++ [.can (d.nat .TPDO_COB_ID i % 0x800) (d.tpdoTake (d.mapping .TPDO_MAP i)).1])

/-- SDO and PDO. -/
def Obligations.CanopenServesObjects : Prop := Sys2Proof.Claim.SdoServesTransfers ∧ Sys2Proof.Claim.PdosCarryMappedObjects

/-- R75, R76, R78: the heartbeat carries the NMT state; error passive and an overrun enter their EMCY codes in the error field, bus off
and its end set CAN_STATUS, the recovery enters 0x8140; a bus that is error active again for a lap clears the communication bit. -/
def Sys2Proof.Claim.CanReportsItsBus : Prop :=
  ∀ (s : State), s.dev.quiet → s.dev.nodeRuns = true →
    let d := s.dev
    let emcyObjs := [Obj.ERROR_FIELD, .ERROR_COUNT, .EMCY_SUPPRESSED, .CAN_STATUS]
    (d.flag .PRODUCER_HEARTBEAT_TIME = true → completes .heartbeatTimer s fun t =>
      t.dev.out = d.out ++ [.can ((0x700 + d.can.node) % 0x800) [d.can.nmt.num]] ∧ onlyDict d t.dev ∧ keepsBut d t.dev [] ∧ keepsRest s t) ∧
    (completes .canErrorPassive s fun t => t.dev.nat .CAN_STATUS = 1 ∧ t.dev.nat .ERROR_FIELD 0 0 = 0x8120 ∧
      t.dev.nat .ERROR_FIELD 0 1 = d.nat .ERROR_FIELD 0 0 ∧ t.dev.can.commBit = true ∧ keepsBut d t.dev emcyObjs ∧ keepsRest s t) ∧
    (completes .canBusOff s fun t => t.dev.nat .CAN_STATUS = 2 ∧ t.dev.can.commBit = true ∧ keepsBut d t.dev [.CAN_STATUS] ∧
      t.dev.out = d.out ∧ keepsRest s t) ∧
    (d.nat .CAN_STATUS = 2 → completes .canBusOffRecovered s fun t => t.dev.nat .CAN_STATUS = 0 ∧
      t.dev.nat .ERROR_FIELD 0 0 = 0x8140 ∧ keepsBut d t.dev emcyObjs ∧ keepsRest s t) ∧
    (completes .canOverrun s fun t => t.dev.nat .ERROR_FIELD 0 0 = 0x8110 ∧ t.dev.nat .CAN_STATUS = d.nat .CAN_STATUS ∧
      keepsBut d t.dev emcyObjs ∧ keepsRest s t) ∧
    (d.nat .CAN_STATUS = 1 → completes .canErrorActive s fun t => t.dev.nat .CAN_STATUS = 0 ∧ onlyDict d t.dev ∧
      keepsBut d t.dev [.CAN_STATUS] ∧ t.dev.out = d.out ∧ keepsRest s t) ∧
    (d.nat .CAN_STATUS = 0 → d.can.commBit = true → completes .communicationBitClear s fun t => t.dev.can.commBit = false ∧
      keepsBut d t.dev emcyObjs ∧ keepsRest s t)

/-- R72: a write of 0 to [1003.00] empties the error field and its count. -/
def Sys2Proof.Claim.ErrorFieldIsCleared : Prop :=
  ∀ (s : State) (src : Src), s.dev.quiet → s.dev.hears src { o := .ERROR_COUNT } →
    completes (.errorCountClear src) s fun t =>
      t.dev.nat .ERROR_COUNT = 0 ∧ (∀ i, i < 8 → t.dev.nat .ERROR_FIELD 0 i = 0) ∧ t.dev.acceptedBy s.dev src { o := .ERROR_COUNT } ∧
        onlyDict s.dev t.dev ∧ keepsBut s.dev t.dev [.ERROR_COUNT, .ERROR_FIELD, .DICT_WRITES] ∧ keepsRest s t

/-- What the node reports of its bus, and the error field. -/
def Obligations.CanReportsAndClears : Prop := Sys2Proof.Claim.CanReportsItsBus ∧ Sys2Proof.Claim.ErrorFieldIsCleared

/-! ### Ports, the packet path and line adaptation (chapters 6 and 7) -/

/-- R120, R121, R122: a frame of a linked port is counted with its bytes, and one that a filter drops is counted under its reason alone: bad
FCS or fewer than 64 bytes before every other. An ARP request for an address answered there is answered to its sender through system queue 2 of its
port, or of its pair's active port. A port that is off or has no link receives nothing. -/
def Sys2Proof.Claim.FramesAreCountedAndFiltered : Prop :=
  ∀ (s : State) (p : Nat) (f : Frame), p < 4 → s.dev.quiet → s.dev.gen.running = true →
    let d := s.dev
    let e := (d.bump .PORT_RX_FRAMES p).add .PORT_RX_BYTES p 0 f.len
    let counted := fun (t : State) => t.dev.nat .PORT_RX_FRAMES p = (d.nat .PORT_RX_FRAMES p + 1) % 2 ^ 64 ∧
      t.dev.nat .PORT_RX_BYTES p = (d.nat .PORT_RX_BYTES p + f.len) % 2 ^ 64 ∧ t.dev.out = d.out ∧ keepsRest s t
    (d.nat .PORT_MODE p = 0 ∨ d.nat .PORT_LINK p ≠ 1 → completes (.frameReceive p f) s fun t => t = s) ∧
    (d.service ≠ .boot → d.nat .PORT_MODE p ≠ 0 → d.nat .PORT_LINK p = 1 →
      (f.fcsOk = false ∨ f.len < 64 → e.dropReason p f = some 0) ∧
      (∀ i, e.dropReason p f = some i → completes (.frameReceive p f) s fun t => counted t ∧
        t.dev.nat .PORT_DROP p i = (d.nat .PORT_DROP p i + 1) % 2 ^ 32 ∧ (∀ j, j ≠ i → t.dev.nat .PORT_DROP p j = d.nat .PORT_DROP p j) ∧
        keepsBut d t.dev [.PORT_RX_FRAMES, .PORT_RX_BYTES, .PORT_DROP] ∧ onlyDict d t.dev) ∧
      (∀ ip sender, e.dropReason p f = none → f.body = .arp true ip sender → ip.length = 4 → d.nat .PORT_SYS_POLICER p = 0xFF →
        let v4 := List.replicate 10 0 ++ [0xFF, 0xFF] ++ ip
        let at_ := if d.nat .PAIR_MODE (p / 2) ≠ 0 then d.nat .PAIR_ACTIVE (p / 2) else p
        let waiting := tget [] 2 (d.portOf at_).sys
        e.answersFor p (vlanOf f) v4 = true → waiting.length < 64 → completes (.frameReceive p f) s fun t => counted t ∧
          tget [] 2 (t.dev.portOf at_).sys = waiting ++ [.arpReply (vlanOf f)
            { target := v4, mac := e.stationMac p, toMac := f.srcMac, toIp := sender }] ∧
          keepsBut d t.dev [.PORT_RX_FRAMES, .PORT_RX_BYTES]))

/-- R147: when the hold of a frame ends, the frame leaves the hold of its leg, and no other frame does; only buffers that nothing keeps any
more go back to their pools. -/
def Sys2Proof.Claim.HeldFramesAreReleased : Prop :=
  ∀ (s : State) (n ssrc ts : Nat), n < 4096 → s.dev.quiet → s.dev.gen.running = true →
    completes (.videoHoldExpiry n ssrc ts) s fun t => keepsRest s t ∧ keepsBut s.dev t.dev poolObjs ∧ t.dev.out = s.dev.out ∧
      (∀ f ∈ (t.dev.rxOf n).hold, f ∈ (s.dev.rxOf n).hold ∧ ¬(f.ssrc = ssrc ∧ f.ts = ts)) ∧
      (∀ f ∈ (s.dev.rxOf n).hold, ¬(f.ssrc = ssrc ∧ f.ts = ts) → f ∈ (t.dev.rxOf n).hold)

/-- Frames at the ports, and those held for a stride. -/
def Obligations.FramesAreTakenAndHeld : Prop := Sys2Proof.Claim.FramesAreCountedAndFiltered ∧ Sys2Proof.Claim.HeldFramesAreReleased

/-- R121, R124, R125, R485: a port that is on reports its link and codewords, and counts a loss of link; a lost SerDes reference takes the
link from the ports that it serves; in revertive mode the lower port, up and not failed for PAIR_REVERT_LAPS, is active again; PAIR_FORCE
names the port of the next edge, and is refused where the pair has no mode (RANGE) or the port has failed (DEVICE_STATE). -/
def Sys2Proof.Claim.LinksPairsAndReferences : Prop :=
  ∀ (s : State), s.dev.quiet → s.dev.gen.running = true →
    let d := s.dev
    (∀ p link bad good, p < 4 → completes (.portLinkChange p link bad good) s fun t => keepsRest s t ∧
      if d.nat .PORT_MODE p = 0 then t.dev = d
      else t.dev.nat .PORT_LINK p = link ∧ t.dev.nat .PORT_FEC_UNCORRECTED p = (d.nat .PORT_FEC_UNCORRECTED p + bad) % 2 ^ 32 ∧
        t.dev.nat .PORT_FEC_CORRECTED p = (d.nat .PORT_FEC_CORRECTED p + good) % 2 ^ 32 ∧
        t.dev.nat .PORT_LINK_DOWNS p =
          (if d.nat .PORT_LINK p = 1 ∧ link ≠ 1 then (d.nat .PORT_LINK_DOWNS p + 1) % 2 ^ 32 else d.nat .PORT_LINK_DOWNS p) ∧
        keepsOther d t.dev .PORT_LINK p) ∧
    (∀ r, r < 2 → completes (.srefclkLoss r) s fun t => keepsRest s t ∧ r ∈ t.dev.pins.srefLost ∧
      ∀ p ∈ [r, r + 2], t.dev.nat .PORT_LINK p = if d.nat .PORT_MODE p = 0 then d.nat .PORT_LINK p else 0) ∧
    (∀ q, q < 2 → completes (.pairRevert q) s fun t => keepsRest s t ∧
      if d.nat .PAIR_MODE q = 2 ∧ d.nat .PAIR_ACTIVE q = 2 * q + 1 ∧ d.portFailed (2 * q) = false ∧
          (d.portOf (2 * q)).upSince + 600 * d.nat .PAIR_REVERT_LAPS q ≤ d.stride + 1 then
        t.dev.nat .PAIR_ACTIVE q = 2 * q ∧ t.dev.nat .PAIR_SWITCHES q = (d.nat .PAIR_SWITCHES q + 1) % 2 ^ 32
      else t.dev = d) ∧
    (∀ src q p, q < 2 → p < 4 → d.hears src { o := .PAIR_FORCE, u := q } → completes (.pairForce src q p) s fun t => keepsRest s t ∧
      if d.nat .PAIR_MODE q = 0 ∨ p / 2 ≠ q then
        t.dev.refusedBy d src { o := .PAIR_FORCE, u := q } .range ∧ onlyDict d t.dev ∧ keepsBut d t.dev [.DICT_ABORTS]
      else if d.portFailed p then
        t.dev.refusedBy d src { o := .PAIR_FORCE, u := q } .deviceState ∧ onlyDict d t.dev ∧ keepsBut d t.dev [.DICT_ABORTS]
      else t.dev.acceptedBy d src { o := .PAIR_FORCE, u := q } ∧ tget {} q t.dev.pairs = { force := some p } ∧
        keepsBut d t.dev [.DICT_WRITES])

/-- R50, R166, R172, R344: a port that has link and an address sends the first frame of its first system queue that holds one, whatever its legs
have waiting, and counts it; a Sync that leaves has its Follow_Up with its stamp wait behind the general messages; a port with no link sends
nothing. A packet that does not read at its dequeue leaves its queue. -/
def Sys2Proof.Claim.SystemFramesGoFirst : Prop :=
  ∀ (s : State) (p : Nat) (word : Int), p < 4 → s.dev.quiet → s.dev.gen.running = true → s.dev.hdp.punt = [] →
    let d := s.dev
    let queue := fun (e : Dev) (j : Nat) => tget [] j (e.portOf p).sys
    let event := fun (x : NetOut) => match x with
      | .ptp _ _ m => decide (m.type ≤ 3)
      | _ => false
    let sent := fun (x : NetOut) (t : State) => (∃ m, t.dev.out = d.out ++ [.net p m x]) ∧ keepsRest s t ∧
      t.dev.nat .PORT_TX_FRAMES p = (d.nat .PORT_TX_FRAMES p + 1) % 2 ^ 64 ∧
      keepsBut d t.dev (poolObjs ++ [.PORT_TX_FRAMES, .PORT_TX_BYTES, .TX_DROP_AGE])
    (∀ unread, d.nat .PORT_LINK p ≠ 1 → completes (.portFrameSelect ⟨p, word, unread⟩) s fun t => t.dev.out = d.out ∧ keepsRest s t) ∧
    (∀ q x r, d.nat .PORT_LINK p = 1 → (d.bytes .PORT_MAC p).all (· == 0) = false → q < 8 →
      (∀ j, j < q → queue d j = []) → queue d q = x :: r →
      (event x = false → completes (.portFrameSelect ⟨p, word, []⟩) s fun t => sent x t ∧ queue t.dev q = r ∧
        ∀ j, j ≠ q → queue t.dev j = queue d j) ∧
      (∀ i tr m, q = 0 → x = .ptp i tr m → m.type = 0 → (queue d 1).length < 64 → completes (.portFrameSelect ⟨p, word, []⟩) s fun t => sent x t ∧
        queue t.dev 0 = r ∧ (∀ j, 2 ≤ j → queue t.dev j = queue d j) ∧
          let n := d.nat .PTP_INSTANCE p
          queue t.dev 1 = queue d 1 ++ [.ptp n (d.nat .PTP_TRANSPORT p)
            { type := 8, hdr := { domain := d.nat .PTP_DOMAIN n, src := d.ptpSelf p, seq := m.hdr.seq }, time := d.txStamp p i word }])) ∧
    (∀ n q r h unread, d.nat .PORT_LINK p = 1 → (d.bytes .PORT_MAC p).all (· == 0) = false → n ∈ d.legs → d.legPort n = some p →
      (d.txOf n).audio = q :: r → q.buf = some h → h ∈ unread → d.readsSingle h = true →
      completes (.portFrameSelect ⟨p, word, unread⟩) s fun t => (t.dev.txOf n).audio.length ≤ r.length ∧ keepsRest s t)

/-- Links, pairs and references, and what a port sends first. -/
def Obligations.LinksAndSystemFrames : Prop := Sys2Proof.Claim.LinksPairsAndReferences ∧ Sys2Proof.Claim.SystemFramesGoFirst

/-- R158, R159: the loop item of a leg with media runs once in a stride. It leaves an estimate that is no more than LEG_MAX_RATE and than any
TMMBR bound, and no less than LEG_MIN_RATE where no bound is lower, and shows it with its state. A leg with no media, suspended, or
whose loop has run or was ended by a fault keeps everything. -/
def Sys2Proof.Claim.LineLoopEstimates : Prop :=
  ∀ (s : State) (n : Nat), n < 4096 → s.dev.quiet → s.dev.gen.running = true →
    let d := s.dev
    completes (.lineLoopItem n) s fun t => keepsRest s t ∧
      if (d.lifeOf n).media ≠ 2 ∨ (d.lifeOf n).suspended = true ∨ (d.loopOf n).ran = true ∨ d.itemFailed .loop n = true then t.dev = d
      else
        let l := t.dev.loopOf n
        l.ran = true ∧ l.pending.isSome = true ∧ l.e ≤ d.nat .LEG_MAX_RATE n * 1000 ∧ (∀ x ∈ l.tmmbr, l.e ≤ x.2) ∧
          (l.tmmbr = [] → d.nat .LEG_MIN_RATE n ≤ d.nat .LEG_MAX_RATE n → d.nat .LEG_MIN_RATE n * 1000 ≤ l.e) ∧
          t.dev.nat .LINE_ESTIMATE n = l.e / 1000 ∧ t.dev.nat .LINE_STATE n = l.state.num ∧ t.dev.out = d.out ∧
          keepsBut d t.dev [.LINE_ESTIMATE, .LINE_STATE, .LINE_LOSS, .LINE_ACKED_RATE, .LINE_GRADIENT]

/-- R162: the evaluation sets the FEC group of mode 1 by the loss: none below 5 ‰, then 16, 8, 4 and 2 packets from 5, 20, 50
and 100 ‰ up, and shows the size in force: 0 where FEC is off, LEG_FEC_K in mode 2. -/
def Sys2Proof.Claim.FecFollowsTheLoss : Prop :=
  ∀ (s : State) (n : Nat), n < 4096 → s.dev.quiet → s.dev.gen.running = true →
    let d := s.dev
    let perMille := d.nat .LINE_LOSS n * 1000 / 65536
    let k := if perMille < 5 then 0 else if perMille < 20 then 16 else if perMille < 50 then 8 else if perMille < 100 then 4 else 2
    completes (.fecKEvaluate n) s fun t => t.dev.txOf n = { d.txOf n with fecK := k } ∧ t.dev.out = d.out ∧ keepsRest s t ∧
      keepsBut d t.dev [.LINE_FEC_K] ∧ keepsOther d t.dev .LINE_FEC_K n ∧
      t.dev.nat .LINE_FEC_K n = if 127 < d.nat .VTX_FEC_PT n ∨ d.nat .LEG_FEC_MODE n = 0 then 0
        else if d.nat .LEG_FEC_MODE n = 2 then d.nat .LEG_FEC_K n else k

/-- R163, R325: a report that falls due for a leg with media becomes a feedback item of its block with the block's next number; a finished
item's result leaves its place in the order, and results leave in the order of their numbers: all up to the first unfinished. -/
def Sys2Proof.Claim.FeedbackLeavesInOrder : Prop :=
  (∀ (s : State) (n : Nat) (kind : ReportKind), n < 4096 → s.dev.quiet → s.dev.gen.running = true →
    let d := s.dev
    let b := d.nat .LEG_ADMIT_BLOCK n
    let wanted := kind = .senderReport ∨ (kind = .rfc8888 ∧ d.nat .LEG_FB_MODE n = 1) ∨ (kind = .transportWide ∧ d.nat .LEG_FB_MODE n = 2)
    let media := 2 ≤ (d.lifeOf n).media ∧ (d.lifeOf n).media ≤ 4 ∧ (d.lifeOf n).suspended = false
    let seq := (d.blkOf b).nextSeq
    completes (.rtcpReportDue n kind) s fun t => keepsRest s t ∧
      (¬(wanted ∧ media ∧ b < 64) → t.dev = d) ∧
      (wanted → media → b < 64 → keepsBut d t.dev [] ∧ t.dev.out = d.out ∧ (t.dev.txOf n).due = (d.txOf n).due ++ [(seq, kind)] ∧
        (t.dev.blkOf b).nextSeq = seq + 1 ∧ (t.dev.blkOf b).order = (d.blkOf b).order ++ [(n, (seq, .unfinished))] ∧
        ∃ i : Item, i.kind = .feedback ∧ i.unit = n ∧ i.seq = seq ∧ (t.dev.blkOf b).ready = (d.blkOf b).ready ++ [i])) ∧
  (∀ (s : State) (n seq : Nat), n < 4096 → s.dev.quiet → s.dev.gen.running = true →
    let b := s.dev.nat .LEG_ADMIT_BLOCK n
    b < 64 → s.dev.feedbackSeq b n = some seq → completes (.feedbackBuildItem n) s fun t => keepsRest s t ∧ t.dev.out = s.dev.out ∧
      (t.dev.txOf n).due = tdel seq (s.dev.txOf n).due ∧ ∀ o ∈ (t.dev.blkOf b).order, o ∈ (s.dev.blkOf b).order ∨ o.1 = n ∧ o.2.1 = seq) ∧
  ∀ (n : Nat) (order : List (Nat × (Nat × OrderSlot))),
    let mine := order.filter fun o => o.1 = n
    let done := fun (o : Nat × (Nat × OrderSlot)) => decide (o.2.2 ≠ .unfinished)
    (releaseOrder n true order).1 = (mine.takeWhile done).filterMap (fun o => match o.2.2 with
      | .held parts => some parts
      | _ => none) ∧
    ((releaseOrder n true order).2.filter fun o => o.1 = n) = mine.dropWhile done ∧
    ((releaseOrder n true order).2.filter fun o => o.1 ≠ n) = order.filter fun o => o.1 ≠ n

/-- The line: its estimate, its FEC and its feedback. -/
def Obligations.LinesAdaptToTheirLoss : Prop :=
  Sys2Proof.Claim.LineLoopEstimates ∧ Sys2Proof.Claim.FecFollowsTheLoss ∧ Sys2Proof.Claim.FeedbackLeavesInOrder

/-! ### The audio path (chapter 8) -/

/-- R176, R186 to R191, R344: the input item of a leg that is dispatched and not done takes what the jitter buffer holds for the stride and leaves its
stage-8 samples, with their level, the gate's state and the activity, α of a quarter of the way from the last to the level heard through the
gate; an item that is not wanted changes nothing but frees the buffers that nothing keeps. A packet whose only placement did not read is no
longer in the jitter buffer. -/
def Obligations.InputItemsMeterTheirLeg : Prop :=
  ∀ (s : State) (n : Nat) (unread : List Nat), n < 4096 → s.dev.quiet → s.dev.gen.running = true →
    let a := s.dev.audioOf n
    completes (.audioInputItem n unread) s fun t => keepsRest s t ∧
      let b := t.dev.audioOf n
      if a.want = false ∨ a.done = true then t.dev = s.dev.bufferSweep
      else
        let level := levelCode (sumSquares b.x)
        let heard : Int := if b.gate then level else 0
        b.done = true ∧ b.want = true ∧ b.last8 = b.x ∧ b.alpha = a.alpha + asr (16 * heard - a.alpha) 2 ∧
          t.dev.nat .LEG_IN_LEVEL n = level ∧ t.dev.nat .LEG_ACTIVITY n = b.alpha.toNat ∧
          t.dev.nat .LEG_GATE_STATE n = (if b.gate then 1 else 0) ∧ t.dev.int .LEG_AGC_GAIN n = b.gamma ∧ (unread = [] → t.dev.out = s.dev.out) ∧
          ∀ h ∈ unread, s.dev.readsSingle h = true → ∀ p ∈ (t.dev.rxOf n).jb.pkts, p.buf ≠ some h

/-- R176, R196 to R198: the mix item of a conference waits for every input of its members; it then adds the contributions of the contributors,
sample by sample, and the members of the mixed set say that they are mixed. One that a fault has ended mixes nothing (R380). -/
def Sys2Proof.Claim.MixesAddTheirContributors : Prop :=
  ∀ (s : State) (k : Nat), k < 1024 → s.dev.quiet → s.dev.gen.running = true →
    let d := s.dev
    let waits := ∃ n ∈ d.confMembers k, (d.audioOf n).want = true ∧ (d.audioOf n).done = false
    completes (.mixItem k) s fun t => keepsRest s t ∧
      let x := t.dev.mixOf k
      ((d.mixOf k).want = false ∨ (d.mixOf k).mixed = true ∨ waits ∨ d.itemFailed .mix k = true → t.dev = d) ∧
      ((d.mixOf k).want = true → (d.mixOf k).mixed = false → ¬waits → d.itemFailed .mix k = false →
        x.mixed = true ∧ x.m = (List.range 80).map (fun i => (x.w.map fun c => c.2.getD i 0).sum) ∧
          t.dev.nat .CONF_MIX_COUNT k = x.set.length ∧ (∀ m ∈ x.set, t.dev.nat .LEG_IN_MIXED m.leg = 1) ∧ t.dev.out = d.out ∧
          (∀ j, j ≠ k → t.dev.mixOf j = d.mixOf j) ∧
          keepsBut d t.dev [.CONF_MIX_CHANGES, .LEG_IN_MIXED, .CONF_MIX_MEMBER, .CONF_MIX_COUNT])

/-- R176, R198 to R200: the output item of a leg whose conference is mixed leaves 80 stage-14 samples within 24 bits, with their level, and
a least limiter gain of at most 0x8000. -/
def Sys2Proof.Claim.OutputsStayWithinTheirRange : Prop :=
  ∀ (s : State) (n : Nat), n < 4096 → s.dev.quiet → s.dev.gen.running = true →
    let d := s.dev
    let a := d.audioOf n
    completes (.audioOutputItem n) s fun t => keepsRest s t ∧
      let y := (t.dev.audioOf n).last14
      if a.want = false ∨ a.outDone = true ∨ (d.mixOf (d.nat .LEG_CONFERENCE n)).mixed = false then t.dev = d
      else
        (t.dev.audioOf n).outDone = true ∧ t.dev.nat .LEG_OUT_LEVEL n = levelCode (sumSquares y) ∧
          t.dev.nat .LEG_LIM_MIN_GAIN n ≤ 0x8000 ∧ t.dev.out = d.out ∧
          (a.outCut = false → y.length = 80 ∧ ∀ v ∈ y, -(2 : Int) ^ 23 ≤ v ∧ v < 2 ^ 23) ∧
          keepsBut d t.dev [.LEG_OUT_CLIPS, .LEG_LIM_MIN_GAIN, .TAP_DATA, .LEG_OUT_LEVEL, .LEG_OUT_PEAK]

/-- The mix of a conference and the outputs made of it. -/
def Obligations.MixesAndOutputs : Prop := Sys2Proof.Claim.MixesAddTheirContributors ∧ Sys2Proof.Claim.OutputsStayWithinTheirRange

/-- R201: the encode item of a whole frame makes its packet: of the SSRC, the sequence number and the timestamp of the frame, with the payload
that the codec makes of its samples, in a buffer of its own at the end of the leg's audio queue. An encoder that sends nothing leaves the
next packet marked; and where no frame of the item's timestamp waits, there is nothing to encode. -/
def Sys2Proof.Claim.EncodedFramesAreQueued : Prop :=
  ∀ (s : State) (n : Nat), n < 4096 → s.dev.quiet → s.dev.gen.running = true →
    let d := s.dev
    let a := d.audioOf n
    let x := d.txOf n
    (∀ ts, a.ready = none ∨ a.readyTs ≠ ts → completes (.audioEncodeItem n ts) s fun t => t.dev = d.bufferSweep ∧ keepsRest s t) ∧
    (∀ xs, a.ready = some xs →
      let c := encodeFrame d.warmAudio (d.nat .LEG_TX_CODEC n) a.enc xs
      (c.1 = none → completes (.audioEncodeItem n a.readyTs) s fun t => keepsRest s t ∧ keepsBut d t.dev poolObjs ∧
        t.dev.audioOf n = { a with ready := none, enc := c.2, marker := true } ∧ t.dev.txOf n = x ∧ t.dev.out = d.out) ∧
      (∀ payload, c.1 = some payload → d.sendsAudio n = true → d.alarmed = false → (d.keysOf n).tx.isSome = true →
        x.sendIndex x.audioSsrc x.audioSeq < 2 ^ 48 - 2 ^ 16 → d.hasNexthop n = true →
        x.audio.length < d.nat .TC_AUDIO_LIMIT (d.tc n) → (d.sendBuffer n .audio (d.rtpLen n payload.length)).1.isSome = true →
        completes (.audioEncodeItem n a.readyTs) s fun t => keepsRest s t ∧ t.dev.out = d.out ∧ keepsBut d t.dev poolObjs ∧
          t.dev.audioOf n = { a with ready := none, enc := c.2, marker := false } ∧ (t.dev.txOf n).audioSeq = (x.audioSeq + 1) % 65536 ∧
          ∃ q, (t.dev.txOf n).audio = x.audio ++ [q] ∧ q.pkt.leg = n ∧ q.pkt.ssrc = x.audioSsrc ∧ q.pkt.seq = x.audioSeq ∧
            q.pkt.ts = a.readyTs ∧ q.pkt.marker = a.marker ∧ q.pkt.payload = payload ∧ q.buf.isSome = true))

/-- R194, R195: an event whose packets have not come for 60 strides ends and enters the FIFO, or is counted as lost when 16 wait; a read of LEG_EVENT takes
the oldest, and of an empty FIFO is refused with NO_DATA. -/
def Sys2Proof.Claim.EventsEndAndAreRead : Prop :=
  ∀ (s : State) (n : Nat), n < 4096 → s.dev.quiet →
    let d := s.dev
    let a := d.audioOf n
    (∀ o, d.gen.running = true → a.openEv = [o] → o.ended = false → o.heard + 60 ≤ d.stride → completes (.dtmfEventTimeout n) s fun t =>
      keepsRest s t ∧ (t.dev.audioOf n).openEv = [{ o with ended := true }] ∧ keepsBut d t.dev [.LEG_EVENT_LOST] ∧ t.dev.out = d.out ∧
        if a.events.length < 16 then (t.dev.audioOf n).events =
          a.events ++ [{ start := o.start, duration := o.duration, code := o.code, inband := false }]
        else (t.dev.audioOf n).events = a.events ∧
          t.dev.nat .LEG_EVENT_LOST n = (d.nat .LEG_EVENT_LOST n + 1) % 2 ^ 32) ∧
    (∀ src, d.reaches src = true → d.service ≠ .minimum → completes (.legEventRead src n) s fun t => keepsRest s t ∧
      match a.events with
      | e :: r => (t.dev.audioOf n).events = r ∧ keepsBut d t.dev [] ∧
          t.dev.out = d.out ++ [.value src (0x3000 + n) 172 (natToOctets 8 (e.word % 2 ^ 64))]
      | [] => t.dev.out = d.out ++ [.answer src (0x3000 + n) 172 Abort.noData.code] ∧ keepsBut d t.dev [.DICT_ABORTS] ∧ onlyDict d t.dev)

/-- R474: TAP_CMD of an ACTIVE leg starts a capture at the next edge with nothing taken yet, and is refused with DEVICE_STATE for any other
leg or while one runs; a capture's end shows TAP_STATE 2. -/
def Sys2Proof.Claim.TapsCapture : Prop :=
  ∀ (s : State), s.dev.quiet →
    let d := s.dev
    (∀ src, d.hears src { o := .TAP_CMD } → completes (.tapCmd src) s fun t => keepsRest s t ∧
      if d.nat .TAP_LEG < 4096 ∧ d.legState (d.nat .TAP_LEG) = .active ∧ d.nat .TAP_STATE ≠ 1 then
        t.dev.nat .TAP_STATE = 1 ∧ t.dev.bytes .TAP_DATA = [] ∧ t.dev.tapFrom = d.stride + 1 ∧ t.dev.acceptedBy d src { o := .TAP_CMD } ∧
          keepsBut d t.dev [.TAP_STATE, .TAP_DATA, .DICT_WRITES]
      else t.dev.refusedBy d src { o := .TAP_CMD } .deviceState ∧ keepsBut d t.dev [.DICT_ABORTS] ∧ onlyDict d t.dev) ∧
    (d.gen.running = true → completes .tapComplete s fun t => keepsRest s t ∧ t.dev.out = d.out ∧ onlyDict d t.dev ∧
      keepsBut d t.dev [.TAP_STATE] ∧ t.dev.nat .TAP_STATE = if d.nat .TAP_STATE = 1 then 2 else d.nat .TAP_STATE)

/-- Encoded audio, telephone events and taps. -/
def Obligations.EncodedFramesEventsAndTaps : Prop :=
  Sys2Proof.Claim.EncodedFramesAreQueued ∧ Sys2Proof.Claim.EventsEndAndAreRead ∧ Sys2Proof.Claim.TapsCapture

/-! ### Cells, blocks and arbiters (chapter 13) -/

/-- R28, R320, R321: a block places one ready item, the first in order that can be placed, in a prefetch slot of a usable cell of its own that has
room, and restarts the cell's clock; the items that cannot be placed hold back none, and those before it that no longer fit the stride are
deferred and counted once. -/
def Sys2Proof.Claim.ItemsArePlacedInOrder : Prop :=
  ∀ (s : State) (b : Nat), b < 64 → s.dev.quiet → s.dev.regionRuns (b / 16) = true →
    let d := s.dev
    let ready := (d.blkOf b).ready
    let marked := fun (late : Item → Bool) => ready.map fun i => if late i then { i with counted := true } else i
    completes (.itemPlacement b) s fun t => keepsRest s t ∧ t.dev.out = d.out ∧
      keepsBut d t.dev [.CELL_GATED, .ITEMS_DEFERRED, .BLK_DEFERRED] ∧
      ((∀ i ∈ ready, d.placeAt b i = none) → (t.dev.blkOf b).ready = marked (d.tooLong b) ∧ (∀ c, t.dev.cellOf c = d.cellOf c) ∧
        t.dev.nat .ITEMS_DEFERRED =
          (d.nat .ITEMS_DEFERRED + (ready.filter fun i => d.tooLong b i && !i.counted).length) % 2 ^ 32) ∧
      ((∃ i ∈ ready, d.placeAt b i ≠ none) → ∃ i c late, i ∈ ready ∧ d.placeAt b i = some c ∧
        (∀ j ∈ ready, d.orderKey j < d.orderKey i → d.placeAt b j = none ∧ late j = d.tooLong b j) ∧
        (∀ j ∈ ready, late j = true → d.tooLong b j = true ∧ d.orderKey j ≤ d.orderKey i) ∧ c / 16 = b ∧ d.usable c = true ∧
        (d.cellOf c).slots.length < 2 ∧ (t.dev.blkOf b).ready = (marked late).erase i ∧
        (t.dev.cellOf c).slots = (d.cellOf c).slots ++ [i] ∧ (t.dev.cellOf c).stopped = none ∧
        (∀ c', c' ≠ c → t.dev.cellOf c' = d.cellOf c'))

/-- R28, R313, R322: a free cell starts the item in its first slot, remembers where its flow ran, and keeps in its local memory no more than fits
beside the item's own flow; an item of class 1 or above that no longer fits the stride returns to the ready list as deferred, and is counted
once. A busy cell, or one with nothing to start, keeps everything. -/
def Sys2Proof.Claim.ItemsStartOrAreDeferred : Prop :=
  ∀ (s : State) (c : Nat), c < 1024 → s.dev.quiet → s.dev.regionRuns (c / 256) = true →
    let d := s.dev
    let b := c / 16
    let x := d.cellOf c
    (x.running ≠ none ∨ x.slots = [] → completes (.itemStart c) s fun t => t = s) ∧
    (∀ i rest, x.running = none → x.slots = i :: rest → completes (.itemStart c) s fun t => keepsRest s t ∧ t.dev.out = d.out ∧
      let y := t.dev.cellOf c
      y.slots = rest ∧
      if 0 < kindClass i.kind ∧ d.cyclesLeft b < i.est then
        let n := if i.counted then 0 else 1
        y.running = none ∧ (t.dev.blkOf b).ready = (d.blkOf b).ready ++ [{ i with counted := true }] ∧
          t.dev.nat .ITEMS_DEFERRED = (d.nat .ITEMS_DEFERRED + n) % 2 ^ 32 ∧ t.dev.nat .BLK_DEFERRED b = (d.nat .BLK_DEFERRED b + n) % 2 ^ 32 ∧
          keepsBut d t.dev [.ITEMS_DEFERRED, .BLK_DEFERRED]
      else
        y.running = some i ∧ y.began = d.gen.total ∧ tfind i.flow t.dev.flows = some c ∧ y.tags.length ≤ max 8 x.tags.length ∧
          (∀ k ∈ y.kept, k.1 = i.flow ∨ k ∈ x.kept) ∧ (y.kept.map fun k => 64 * k.2.length).sum ≤ Config.localRoom ∧
          t.dev.nat .CELL_ITEMS c = (d.nat .CELL_ITEMS c + 1) % 2 ^ 32 ∧
          keepsBut d t.dev [.CELL_ITEMS, .CELL_LOOP_MISSES, .CELL_AFFINITY_HITS, .BLK_MIGRATIONS])

/-- R317, R328, R376: a check item that passes ends and changes no object; one that fails retires its cell, whose block loses the capacity of its
reserve. A cell with nothing running and both slots empty stops its clock. -/
def Sys2Proof.Claim.CellsAreCheckedAndStopped : Prop :=
  ∀ (s : State) (c : Nat), c < 1024 → s.dev.quiet → s.dev.regionRuns (c / 256) = true →
    let d := s.dev
    (∀ item word, completes (.checkItem c item word true) s fun t => keepsRest s t ∧ keepsBut d t.dev [] ∧ t.dev.out = d.out ∧
      ∀ i, (d.cellOf c).running = some i → (t.dev.cellOf c).running = if i.kind = .check then none else some i) ∧
    (∀ item word, d.nat .CELL_STATE c ≠ 3 → completes (.checkItem c item word false) s fun t => keepsRest s t ∧
      t.dev.nat .CELL_STATE c = 3 ∧ t.dev.nat .RETIRED_CELLS = d.nat .RETIRED_CELLS + 1 ∧
        t.dev.nat .BLK_RESERVE_CELL (c / 16) = 0xFFFF ∧ t.dev.nat .BLK_CAPACITY (c / 16) = min (d.nat .BLK_CAPACITY (c / 16)) 27931400) ∧
    (completes (.cellClockStop c) s fun t => keepsRest s t ∧ keepsBut d t.dev [] ∧ t.dev.out = d.out ∧
      (t.dev.cellOf c).stopped =
        if (d.cellOf c).running = none ∧ (d.cellOf c).slots = [] ∧ (d.cellOf c).stopped = none then some d.gen.total else (d.cellOf c).stopped)

/-- Items: ready, placed, started, checked and stopped. -/
def Obligations.ItemsRunOnTheirCells : Prop :=
  Sys2Proof.Claim.ItemsArePlacedInOrder ∧ Sys2Proof.Claim.ItemsStartOrAreDeferred ∧ Sys2Proof.Claim.CellsAreCheckedAndStopped

/-- R329, R330: an arbiter grants the requester that a sweep interrupted before any other; else a waiting one. A block's or a region's takes the first
waiting slot at or after its pointer and moves past it; a channel's that gave its last three grants to panic gives the fourth to another
that waits. A sweep takes the grant and keeps the requester for after it. -/
def Obligations.ArbitersGrantInRotation : Prop :=
  ∀ (s : State) (a : Arb), (arbUnit a).1 < (arbUnit a).2 → s.dev.quiet → s.dev.arbRuns a = true →
    let d := s.dev
    let x := d.arbOf a
    let rot := rotation a
    (∀ waiting panic, completes (.arbiterGrant a waiting panic) s fun t => keepsRest s t ∧ keepsBut d t.dev [] ∧ t.dev.out = d.out ∧
      let y := t.dev.arbOf a
      (∀ r, x.interrupted = some r → y = { x with interrupted := none, current := some r }) ∧
      (x.interrupted = none →
        (∀ r, y.current = some r → r ∈ waiting ∧ r ∈ rot) ∧
        (waiting ≠ [] → (∀ r ∈ waiting, r ∈ rot) → y.current.isSome = true) ∧
        (∀ r, (∀ c, a ≠ .chip c) → y.current = some r → ∃ i, i < rot.length ∧ rot[(x.ptr + i) % rot.length]? = some r ∧
          (∀ j, j < i → ∀ w ∈ waiting, rot[(x.ptr + j) % rot.length]? ≠ some w) ∧ y.ptr = (x.ptr + i + 1) % rot.length) ∧
        (∀ r c, a = .chip c → x.recent.take 3 = [true, true, true] → (∃ w ∈ waiting, w ∉ panic) → y.current = some r → r ∉ panic))) ∧
    (completes (.debugSweep a) s fun t => keepsRest s t ∧ t.dev.out = d.out ∧
      t.dev.arbOf a = { x with interrupted := x.current, current := none } ∧ keepsBut d t.dev [.BLK_SWEEPS, .RGN_SWEEPS, .REFRESH_STOPS] ∧
      (∀ b, a = .block b → t.dev.nat .BLK_SWEEPS b = (d.nat .BLK_SWEEPS b + 1) % 2 ^ 32) ∧
      (∀ g, a = .region g → t.dev.nat .RGN_SWEEPS g = (d.nat .RGN_SWEEPS g + 1) % 2 ^ 32))

/-! ### Video: decode, encode, composition and splicing (chapters 9 to 12) -/

/-- R225, R306: while its consumers wait and its leg's media run, a request that was sent is repeated once its interval has passed: the next of its
messages, a PLI or a FIR with its sequence number, joins the control queue led by its report, and is counted; a request that nobody waits
for, that was never sent, or whose interval still runs, is not. -/
def Sys2Proof.Claim.KeyframeRequestsRepeat : Prop :=
  ∀ (s : State) (n q : Nat), n < 4096 → s.dev.quiet → s.dev.gen.running = true →
    let d := s.dev
    let r := d.reqOf n q
    let due := r.lastSent + max 30 (ceilDiv (2 * d.nat .LINE_RTT n * 600) 1000000)
    (r.consumers = [] ∨ r.sent = false ∨ d.stride < due ∨ d.mediaActive n = false →
      completes (.keyframeRequestRepeat n q) s fun t => t = s) ∧
    (∀ ssrc fir, r.consumers ≠ [] → r.sent = true → due ≤ d.stride → d.mediaActive n = true → tfind q (d.fsrcOf n).ssrcs = some ssrc →
      d.kfMessage n r (r.repeats + 1) = some fir → d.hasNexthop n = true → (d.txOf n).control.length < d.nat .TC_CONTROL_LIMIT (d.tc n) →
      let seq := if fir && !r.firOut then (r.firSeq + 1) % 256 else r.firSeq
      let parts := d.rtcpLead n [] ++ [if fir then .fir ssrc seq else .pli ssrc]
      (d.sendBuffer n .control (d.ipLenOf n { rtcp := parts })).1.isSome = true →
      completes (.keyframeRequestRepeat n q) s fun t => keepsRest s t ∧ t.dev.out = d.out ∧
        (t.dev.reqOf n q).repeats = r.repeats + 1 ∧ (t.dev.reqOf n q).lastSent = d.stride ∧ (t.dev.reqOf n q).firSeq = seq ∧
        t.dev.nat .FWD_KF_SENT n = (d.nat .FWD_KF_SENT n + 1) % 2 ^ 32 ∧
        keepsBut d t.dev (poolObjs ++ [.FWD_KF_SENT, .DEC_KF_REQUESTS]) ∧
        ∃ x, (t.dev.txOf n).control = (d.txOf n).control ++ [x] ∧ x.rtcp = parts)

/-- R208, R209, R211: when the pair of a slot's picture consumes a packet that is the last of a picture, that picture is complete and leaves its
slot; a slot none of whose pictures is in a context changes nothing. -/
def Sys2Proof.Claim.LastPacketsCompleteTheirPicture : Prop :=
  ∀ (s : State) (n k : Nat), n < 4096 → s.dev.quiet → s.dev.gen.running = true →
    let d := s.dev
    ((∀ i ∈ (d.decOf n k).active, i.ctx = false) → ∀ trace, completes (.decodePictureComplete n k trace) s fun t =>
      t.dev = d.bufferSweep ∧ keepsRest s t) ∧
    (∀ i pkt rest j, (d.decOf n k).active.find? (·.ctx) = some i →
      let p := d.itemPair n k i
      d.pairWorks p = true → (d.pairxOf p).ring = pkt :: rest → pkt.last = true → pkt.mark ≠ .abandon →
      d.itemOf pkt.ctx = some j → completes (.decodePictureComplete n k [.consume]) s fun t =>
        let e := d.setPairx p { d.pairxOf p with ring := rest, head := none }
        let r := e.decFinish s.mem pkt.ctx.leg pkt.ctx.slot { j with runs := j.runs ++ [pkt.run] }
        t.pending = s.pending ∧ t.mem = r.2 ∧ t.dev = (r.1.pairUpdate p).bufferSweep.settle ∧
          ∀ y ∈ (t.dev.decOf pkt.ctx.leg pkt.ctx.slot).active, y.ts ≠ j.ts)

/-- R213, R214, R216, R221, R222: a complete picture leaves its slot and counts its errors, at least one where a packet of it is missing or it
exceeds its share of DEC_MAX_KBPS. A picture that is output is counted, with its size, and as concealed where it is. A sequence that exceeds a
limit puts its slot OUTSIDE, counts it once and abandons the picture, and a picture that is no random access point is then given up
uncounted. -/
def Sys2Proof.Claim.DecodedPicturesAreCounted : Prop :=
  ∀ (d : Dev) (m : List Host.Cell) (n k p : Nat) (i : DecItem),
    (let e := (d.decFinish m n k i).1
      let size := 8 * i.parts.foldl (fun a t => a + t.len) 0
      let exceeds := 16 * d.nat .DEC_MAX_KBPS n k * 1000 < size * d.nat .DEC_MAX_FPS n k
      (∀ y ∈ (e.decOf n k).active, y.ts ≠ i.ts) ∧
        e.nat .DEC_ERRORS n k =
          (d.nat .DEC_ERRORS n k + max i.errors (if i.complete = true ∧ ¬exceeds then 0 else 1)) % 2 ^ 32) ∧
    (∀ pic : Picture, let e := d.decOut n k pic
      (e.decOf n k).last = some pic ∧ e.nat .DEC_PICTURES n k = (d.nat .DEC_PICTURES n k + 1) % 2 ^ 32 ∧
        e.nat .DEC_SIZE n k = pic.shown.1 * 65536 + pic.shown.2 ∧
        e.nat .DEC_CONCEALED n k =
          if pic.concealed then (d.nat .DEC_CONCEALED n k + 1) % 2 ^ 32 else d.nat .DEC_CONCEALED n k) ∧
    (∀ q, i.seq = some q → (d.decOf n k).seq = none → d.outsideBy n k (d.decCodec n k % 16) q ≠ 0 →
      let e := d.parseItem n k p i
      (∀ y ∈ (e.decOf n k).active, y.ts ≠ i.ts) ∧
        if d.decOutsideNow n k = true ∧ d.itemRap n k i = false then e.nat .DEC_OUTSIDE n k = d.nat .DEC_OUTSIDE n k
        else e.nat .DEC_STATE n k = 4 ∧ e.nat .DEC_OUTSIDE n k = (d.nat .DEC_OUTSIDE n k + 1) % 2 ^ 32)

/-- R210: the entropy engine writes records only while 8 lines of the coupling buffer are free, never more than it holds, and a row that
reaches 128 KiB is cut. -/
def Sys2Proof.Claim.RecordsFitTheCouplingBuffer : Prop :=
  ∀ (d : Dev) (p lines : Nat),
    let used := fun (x : PairX) => x.open_ + x.ring.foldl (fun a k => a + k.lines) 0
    let x := d.pairxOf p
    let y := (d.coupleRecord p lines).pairxOf p
    ((x.on = none ∨ 4096 < used x + 8) → d.coupleRecord p lines = d) ∧ (used x ≤ 4096 → used y ≤ 4096) ∧
      (x.open_ < 2048 → lines ≤ 2048 → y.open_ < 2048)

/-- Decode slots, their coupling buffers and their key-frame requests. -/
def Obligations.DecodingAndItsKeyframes : Prop :=
  Sys2Proof.Claim.KeyframeRequestsRepeat ∧ Sys2Proof.Claim.LastPacketsCompleteTheirPicture ∧ Sys2Proof.Claim.DecodedPicturesAreCounted ∧
    Sys2Proof.Claim.RecordsFitTheCouplingBuffer

/-- R237, R239, R241: a row's bits join the picture in a context, for as many rows as it has; a finished picture of a leg's own encode
leaves the context, is counted with its size, and shows as its QP the mean of its rows' rounded to the nearest. -/
def Obligations.EncodedPicturesCountTheirBits : Prop :=
  ∀ (s : State), s.dev.quiet → s.dev.gen.running = true →
    let d := s.dev
    (∀ e c later bits header finds, (encUnit e).1 < (encUnit e).2 → (d.encOf e).cur = c :: later →
      completes (.encodeRowComplete e bits header finds) s fun t => keepsRest s t ∧
        if c.ctx = true ∧ c.bits.length < c.rows then
          (∃ c', (t.dev.encOf e).cur = c' :: later ∧ c'.bits = c.bits ++ [bits] ∧ c'.header = header ∧ c'.satd = finds.satd) ∧
            keepsBut d t.dev [] ∧ t.dev.out = d.out
        else t.dev = d) ∧
    (∀ n c later size entryBits, n < 4096 → (d.encOf (.composed n)).cur = c :: later → c.ctx = true →
      completes (.encodePictureComplete (.composed n) size entryBits) s fun t => keepsRest s t ∧
        (∀ y ∈ (t.dev.encOf (.composed n)).cur, y.period ≠ c.period) ∧
        t.dev.nat .ENC_PICTURES n = (d.nat .ENC_PICTURES n + 1) % 2 ^ 32 ∧ t.dev.nat .ENC_LAST_BITS n = size ∧
        (c.intra = true → t.dev.nat .ENC_INTRA n = (d.nat .ENC_INTRA n + 1) % 2 ^ 32) ∧
        (c.qps ≠ [] → 2 * c.qps.sum ≤ (2 * t.dev.nat .ENC_LAST_QP n + 1) * c.qps.length ∧
          2 * t.dev.nat .ENC_LAST_QP n * c.qps.length ≤ 2 * c.qps.sum + c.qps.length)) ∧
    (∀ e size entryBits, (encUnit e).1 < (encUnit e).2 → (d.encOf e).cur = [] →
      completes (.encodePictureComplete e size entryBits) s fun t => t.dev = d.bufferSweep ∧ keepsRest s t)

/-- R260, R285 to R288: a composer in service starts, with none in hand, one item whose time has come. A completed item sends its picture,
unless a privacy region of it failed both times, or not in time: then the picture is withheld and counted. -/
def Sys2Proof.Claim.ComposersWithholdWhatFailed : Prop :=
  ∀ (s : State) (k : Nat), k < 4 → s.dev.quiet → s.dev.regionRuns k = true →
    let d := s.dev
    let x := d.compOf k
    let pictures := fun (e : Dev) => e.out.filterMap fun o => match o with
      | .picture id planes => some (id, planes)
      | _ => none
    (d.nat .COMPOSER_STATE k = 0 → x.halted = false → (∀ i ∈ x.items, i.started = false) →
      (∃ i ∈ x.items, i.earliest ≤ d.stride ∧ i.cutoff ≤ d.stride) → completes (.composerItemStart k) s fun t => keepsRest s t ∧
        t.dev.out = d.out ∧ (t.dev.compOf k).items.length = x.items.length ∧
        ∃ y ∈ (t.dev.compOf k).items, y.started = true ∧ y.earliest ≤ d.stride) ∧
    ((∀ i ∈ x.items, i.started = true → i.finished = true) → ∀ regions late, completes (.composerItemComplete k regions late) s fun t =>
      t.dev = d.bufferSweep ∧ keepsRest s t) ∧
    (∀ i regions late, x.items.find? (fun i => i.started && !i.finished) = some i →
      completes (.composerItemComplete k regions late) s fun t => t.pending = s.pending ∧
        let pics := (d.encOf (itemEnc i.id)).shown.map fun y => (y.1, d.displayed s.mem y.2)
        let crc := fun (r : IndRegion) =>
          tfind r.layer ((i.plan.layers.filter fun y => y.kind = 4).map fun y => (y.layer, i.plan.indCrc y))
        let failed := fun (r : IndRegion) => ∃ c, crc r = some c ∧ r.blendCrc ≠ c
        let l := (d.itemLayout i.id).getD 0
        ((∃ r ∈ regions, failed r ∧ (r.layer ∈ late ∨ crc r ≠ some r.backCrc)) → pictures t.dev = pictures d ∧ t.mem = s.mem ∧
          t.dev.nat .IND_BLANKED l = (d.nat .IND_BLANKED l + 1) % 2 ^ 32) ∧
        ((∀ r ∈ regions, ¬failed r) → t.dev.nat .IND_BLANKED l = d.nat .IND_BLANKED l ∧
          t.dev.nat .CHECK_FAILS k = d.nat .CHECK_FAILS k % 2 ^ 32 ∧
          (∀ y ∈ (t.dev.compOf k).items, y.started = true → y.finished = true ∨ y ∈ x.items) ∧
          ∀ id planes, (id, planes) ∈ pictures t.dev → (id, planes) ∈ pictures d ∨ (id = itemEnc i.id ∧ i.plan.draw pics = some planes)))

/-- R276, R277, R279, R280, R282: a splice of a viewer that is on begins at a period at position 0 of its pattern, with every tile of the period
settled; it notes the period and the top layer it carries, and a picture of a carried layer is sent, an IDR picture with its parameter sets
(a key frame for AV1), and counted. A period that is not whole, not over, or already spliced keeps everything. -/
def Sys2Proof.Claim.SplicesFollowThePattern : Prop :=
  ∀ (s : State) (n p : Nat), n < 4096 → s.dev.quiet → s.dev.gen.running = true →
    let d := s.dev
    let l := d.nat .VIEW_LAYOUT n
    let per := period (d.encFpsSet (.strip l))
    let layers := d.encLayers (.strip l)
    let c := (gridRow (d.layoutGrid l)).1
    let x := d.viewOf n
    (d.spliceOn n = false ∨ p % per ≠ 0 ∨ d.stride < p ∨ (∃ last, x.lastPeriod = some last ∧ p ≤ last) →
      completes (.spliceAssemble n p) s fun t => t.dev = d.bufferSweep ∧ keepsRest s t) ∧
    (d.spliceOn n = true → p % per = 0 → p ≤ d.stride → x.lastPeriod = none → x.active = false → positionOf p per layers = 0 →
      (∀ m, m < 4096 → d.settled (.tile m c) p = true) → d.settled (.strip l) p = true →
      completes (.spliceAssemble n p) s fun t => keepsRest s t ∧ (t.dev.viewOf n).active = true ∧
        (t.dev.viewOf n).lastPeriod = some p ∧ t.dev.nat .VIEW_TOP_NOW n = d.topNext n ∧
        if d.topNext n < (patternOf layers).getD 0 0 then t.dev.nat .VIEW_PICTURES n = d.nat .VIEW_PICTURES n ∧ t.dev.out = d.out
        else t.dev.nat .VIEW_PICTURES n = (d.nat .VIEW_PICTURES n + 1) % 2 ^ 32 ∧
          ∃ z : SplicedPict, t.dev.out = d.out ++ [.spliced n z] ∧ z.period = p ∧ z.sets = true ∧
            z.nal = if d.fld .LAYOUT_SPLICE l 0 27 26 = 3 then none else some .idrWRadl)

/-- What a composer completes and a splicer forwards. -/
def Obligations.ComposersAndSplices : Prop := Sys2Proof.Claim.ComposersWithholdWhatFailed ∧ Sys2Proof.Claim.SplicesFollowThePattern

/-! ### DRAM (chapter 14) -/

/-- R337, R338: a burst whose errors lie in one device, whatever they are in each beat, is corrected, and the device is named where it erred
at all; with a device marked, its errors are corrected in every beat, and an error of another is found and not corrected. -/
def Obligations.OneDeviceIsCorrected : Prop :=
  ∀ (data : Octets) (e : Nat) (vs : List Nat), data.length = 64 → data.ok = true → e < 10 → vs.length = 8 → (∀ v ∈ vs, v < 256) →
    let err := vs.map fun v => List.replicate e 0 ++ [v]
    decodeBurst none data err = some (data, if vs.all (· == 0) then none else some e) ∧
      decodeBurst (some e) data err = some (data, if vs.all (· == 0) then none else some e) ∧
      ∀ m, m < 10 → m ≠ e → (∃ v ∈ vs, v ≠ 0) → decodeBurst (some m) data err = none

/-- R343, R347, R348, R355: a channel in training passes its steps in order; after the ninth it initialises, its every byte reads 0, and the
bytes to write are counted; a step that fails fails the channel. When initialisation ends the channel is in service, DEGRADED where a device is
marked. In any other state of the channel nothing changes. -/
def Sys2Proof.Claim.TrainingBringsAChannelUp : Prop :=
  ∀ (s : State) (c : Nat), c < 4 → s.dev.quiet →
    let d := s.dev
    let x := d.chanOf c
    let result := fun (t : State) (step bad ms : Nat) => t.dev.nat .CH_TRAIN_RESULT c = step * 2 ^ 28 + bad * 2 ^ 24 + (x.ms + ms) % 65536
    (∀ passed ms, d.nat .CH_STATE c ≠ 1 → completes (.dramTrainingStep c passed ms) s fun t => t = s) ∧
    (∀ ms, d.nat .CH_STATE c = 1 → x.step + 1 < 9 → completes (.dramTrainingStep c true ms) s fun t =>
      t.dev.nat .CH_STATE c = 1 ∧ result t (x.step + 1) 0 ms ∧ keepsRest s t) ∧
    (∀ ms, d.nat .CH_STATE c = 1 → x.step + 1 = 9 → completes (.dramTrainingStep c true ms) s fun t =>
      t.dev.nat .CH_STATE c = 2 ∧ result t 9 0 ms ∧ t.pending = s.pending ∧
        t.dev.nat .DRAM_INIT_LEFT = (d.nat .DRAM_INIT_LEFT + d.nat .DRAM_RANKS * 2 ^ 34) % 2 ^ 64 ∧
        ∀ a, Memory.read t.mem a = if a / channelSpan = c then 0 else Memory.read s.mem a) ∧
    (∀ ms, d.nat .CH_STATE c = 1 → completes (.dramTrainingStep c false ms) s fun t =>
      t.dev.nat .CH_STATE c = 6 ∧ t.dev.nat .PD_STATE (40 + c) = 3 ∧ result t x.step (x.step + 1) ms ∧ keepsRest s t) ∧
    (d.rst.released = true → completes (.dramInitComplete c) s fun t => keepsRest s t ∧
      if d.nat .CH_STATE c = 2 then t.dev.nat .CH_STATE c = if d.nat .CH_MARKED c = 0 then 3 else 4 else t.dev = d)

/-- R337, R342: a write of a live buffer stores its octets in each placement whose channel serves, and nowhere else. -/
def Sys2Proof.Claim.DramWritesReachBothPlacements : Prop :=
  ∀ (s : State) (h off : Nat) (data : Octets), s.memOk → s.dev.quiet → s.dev.inBuffer h off data.length = true → data.ok = true →
    let d := s.dev
    let p := handlePool h
    let x := d.descOf p (handleIndex h)
    let places := if x.mirrored then [x.primary, x.mirror].eraseDups else [x.primary]
    let stored := fun (j i : Nat) => listOf p j * channelSpan + d.storageAddr p j (off + i)
    completes (.dramWrite h off data) s fun t => t.pending = s.pending ∧ t.memOk ∧ t.dev.out = d.out ∧
      (∀ a, (∀ j ∈ places, d.chServes (listOf p j) = true → ∀ i, i < data.length → a ≠ stored j i) →
        Memory.read t.mem a = Memory.read s.mem a) ∧
      (x.mirrored = false → d.chServes (listOf p x.primary) = true → ∀ i, i < data.length →
        (Memory.read t.mem (stored x.primary i)).toNat = data.getD i 0) ∧
      keepsBut d t.dev [.CH_BYTES, .CH_PAGE_HITS, .CH_PAGE_CONFLICTS]

/-- R337, R338, R342, R344: a clean read of a line of a live buffer answers what its primary placement holds and changes no byte; a
read of a channel that does not serve fails: it answers no octets. -/
def Sys2Proof.Claim.DramReadsAnswerThePrimary : Prop :=
  ∀ (s : State) (h off : Nat) (retry mirror : List (List Nat)), s.dev.quiet → s.dev.inBuffer h (off / 64 * 64) 64 = true →
    let d := s.dev
    let p := handlePool h
    let j := (d.descOf p (handleIndex h)).primary
    let c := listOf p j
    let line := off / 64 * 64
    (d.chServes c = true → d.faults.injected = [] → completes (.dramRead h off [] retry mirror) s fun t => keepsRest s t ∧
      t.dev.out = d.out ++ [.burst c line (Memory.readN s.mem (c * channelSpan + d.storageAddr p j line) 64)] ∧
        t.dev.nat .CH_BYTES c = (d.nat .CH_BYTES c + 64) % 2 ^ 64 ∧ keepsBut d t.dev [.CH_BYTES, .CH_PAGE_HITS, .CH_PAGE_CONFLICTS]) ∧
    (d.chServes c = false → ∀ err, completes (.dramRead h off err retry mirror) s fun t => keepsRest s t ∧ t.dev = d.emit (.burst c line []))

/-- R340, R345, R352: a scrub read of a clean line changes no byte, and a channel that serves nothing is not scrubbed; a finished copy of a buffer
makes it mirrored again and falls from DRAM_REMIRROR_LEFT, homes before contexts and these before all else; an idle page is closed. -/
def Sys2Proof.Claim.ScrubsAndCopiesKeepData : Prop :=
  ∀ (s : State) (c : Nat), c < 4 → s.memOk → s.dev.quiet →
    let d := s.dev
    (∀ a retry mirror, a < d.nat .DRAM_RANKS * 2 ^ 34 → completes (.scrubRead c a [] retry mirror) s fun t => t.pending = s.pending ∧
      (d.chServes c = false → t = s) ∧
      (d.chServes c = true → d.faults.injected = [] → t.mem = s.mem ∧ t.dev.out = d.out ∧
        keepsBut d t.dev [.CH_BYTES, .CH_PAGE_HITS, .CH_PAGE_CONFLICTS])) ∧
    (∀ h, completes (.remirrorCopy h) s fun t => t.pending = s.pending ∧
      let x := d.descOf (handlePool h) (handleIndex h)
      if x.allocated = true ∧ x.copying = true ∧ x.gen = handleGen h ∧
          (∀ kv ∈ d.pool.descs, kv.2.copying = true → copyRank x.use ≤ copyRank kv.2.use) then
        t.memOk ∧ t.dev.out = d.out ∧ keepsBut d t.dev [.DRAM_REMIRROR_LEFT] ∧
          t.dev.nat .DRAM_REMIRROR_LEFT = d.nat .DRAM_REMIRROR_LEFT - poolSize (handlePool h) ∧
          t.dev.descOf (handlePool h) (handleIndex h) = { x with copying := false, mirrored := true }
      else t = s) ∧
    (∀ r b, d.rst.released = true → completes (.pageIdleTimeout c r b) s fun t => keepsRest s t ∧ keepsBut d t.dev [] ∧ t.dev.out = d.out ∧
      tget {} (r, b) (t.dev.chanOf c).banks = { tget {} (r, b) (d.chanOf c).banks with isOpen := false })

/-- The five accesses that move DRAM's bytes. -/
def Obligations.DramKeepsItsData : Prop :=
  Sys2Proof.Claim.DramWritesReachBothPlacements ∧ Sys2Proof.Claim.DramReadsAnswerThePrimary ∧ Sys2Proof.Claim.ScrubsAndCopiesKeepData

/-- R343, R350, R351, R353, R354: alerts in more than 4 of 16 consecutive strides fail their channel; a refresh that falls due under panic waits up
to four times, and each DRAM_RETRAIN_EVERY-th sweep makes a pause; the next comes after 3,900 ns, or 1,950 ns where the mode or a hot DRAM asks for it; the rows beside one drawn are refreshed and counted; a port raises
panic below its level and clears it above twice that. -/
def Obligations.ChannelsRefreshAndPanic : Prop :=
  ∀ (s : State) (c : Nat), c < 4 → s.dev.quiet → s.dev.rst.released = true →
    let d := s.dev
    let x := d.chanOf c
    let fast := d.nat .DRAM_REFRESH_MODE = 2 ∨ d.nat .DRAM_REFRESH_MODE ≠ 1 ∧ d.gov.dramHot = true
    let y : Chan := { x with interval := if fast then 1950 else 3900 }
    let seen := (d.stride :: x.alerts.filter fun a => decide (d.stride < a + 16)).eraseDups
    (d.chServes c = true →
      (completes (.caParityAlert c) s fun t => keepsRest s t ∧ t.dev.nat .CH_CA_PARITY c = (d.nat .CH_CA_PARITY c + 1) % 2 ^ 32 ∧
        (4 < seen.length → t.dev.nat .CH_STATE c = 6) ∧
        (seen.length ≤ 4 → t.dev.chanOf c = { x with alerts := seen } ∧ keepsBut d t.dev [.CH_CA_PARITY] ∧ t.dev.out = d.out)) ∧
      (∀ lane, completes (.refreshDue c lane) s fun t => keepsRest s t ∧
        (d.panic ≠ [] → x.due < 4 → t.dev.chanOf c = { y with due := x.due + 1 } ∧ keepsBut d t.dev []) ∧
        (d.panic ≠ [] → 4 ≤ x.due → t.dev.chanOf c = { y with due := 0, sweeps := x.sweeps + 1 } ∧ keepsBut d t.dev []) ∧
        (d.panic = [] → x.sweeps + 1 < d.nat .DRAM_RETRAIN_EVERY →
          t.dev.chanOf c = { y with due := 0, sweeps := x.sweeps + 1 } ∧ keepsBut d t.dev []) ∧
        (d.panic = [] → d.nat .DRAM_RETRAIN_EVERY ≤ x.sweeps + 1 → (t.dev.chanOf c).sweeps = 0 ∧
          (t.dev.chanOf c).pauseWrite = !x.pauseWrite ∧
          t.dev.nat .CH_RETRAIN_STEPS c = (d.nat .CH_RETRAIN_STEPS c + (if lane = 0 then 0 else 1)) % 2 ^ 32)) ∧
      (∀ r b row, completes (.neighbourRefresh c r b row) s fun t => keepsRest s t ∧ keepsBut d t.dev [.CH_NBR_REFRESHES] ∧
        (t.dev.chanOf c).neighbours = x.neighbours.erase (r, (b, row)) ∧
        (0 < row → row + 1 < 2 ^ 17 → d.nat .DRAM_NBR_DISTANCE = 1 →
          t.dev.nat .CH_NBR_REFRESHES c = (d.nat .CH_NBR_REFRESHES c + 2) % 2 ^ 32))) ∧
    (∀ p fill, d.gen.running = true → completes (.portPanic p fill) s fun t => keepsRest s t ∧ keepsBut d t.dev [] ∧ t.dev.out = d.out ∧
      (fill < d.panicLevel p → p ∈ t.dev.panic) ∧
      (d.panicLevel p ≤ fill → fill ≤ 2 * d.panicLevel p → t.dev.panic = d.panic) ∧
      (d.panicLevel p ≤ fill → 2 * d.panicLevel p < fill → t.dev.panic = d.panic.erase p))

/-- R343, R355, R356: RETRAIN of a FAILED channel starts its training; FAIL fails a channel where no other has failed; each is refused with
DEVICE_STATE otherwise. MARGIN_CMD names a scan and a rank that exist (RANGE), of a channel in service that is not scanning (DEVICE_STATE), and
the finished scan shows the margins of the ten devices. -/
def Sys2Proof.Claim.ChannelCommandsTakeEffect : Prop :=
  ∀ (s : State) (src : Src) (c : Nat), c < 4 → s.dev.quiet →
    let d := s.dev
    (d.hears src { o := .CH_CMD, u := c } →
      let turned := fun (t : State) => t.dev.refusedBy d src { o := .CH_CMD, u := c } .deviceState ∧ keepsBut d t.dev [.DICT_ABORTS] ∧
        onlyDict d t.dev
      (completes (.chRetrain src c) s fun t => keepsRest s t ∧
        if d.nat .CH_STATE c = 6 then t.dev.nat .CH_STATE c = 1 ∧ (t.dev.chanOf c).step = 0 ∧ (t.dev.chanOf c).retrain = true ∧
          t.dev.nat .PD_WAKES (40 + c) = (d.nat .PD_WAKES (40 + c) + 1) % 2 ^ 32 ∧ t.dev.acceptedBy d src { o := .CH_CMD, u := c } ∧
          keepsBut d t.dev [.CH_STATE, .CH_TRAIN_RESULT, .PD_STATE, .PD_WAKES, .DICT_WRITES]
        else turned t) ∧
      (completes (.chFail src c) s fun t => keepsRest s t ∧
        ((∃ k, k < 4 ∧ k ≠ c ∧ d.nat .CH_STATE k = 6) → turned t) ∧
        ((∀ k, k < 4 → k ≠ c → d.nat .CH_STATE k ≠ 6) → t.dev.nat .CH_STATE c = 6))) ∧
    (∀ v, v < 256 → d.hears src { o := .MARGIN_CMD, u := c } → completes (.marginCmd src c v) s fun t => keepsRest s t ∧
      let k : Key := { o := .MARGIN_CMD, u := c }
      if v % 4 = 0 ∨ v / 4 % 4 ≠ 0 ∨ 32 ≤ v ∨ max 1 (d.nat .DRAM_RANKS) ≤ v / 16 then
        t.dev.refusedBy d src k .range ∧ keepsBut d t.dev [.DICT_ABORTS]
      else if d.nat .MARGIN_STATE c = 1 ∨ (d.nat .CH_STATE c ≠ 3 ∧ d.nat .CH_STATE c ≠ 4) then
        t.dev.refusedBy d src k .deviceState ∧ keepsBut d t.dev [.DICT_ABORTS]
      else t.dev.nat .MARGIN_STATE c = 1 ∧ (t.dev.chanOf c).scan = some v ∧ t.dev.acceptedBy d src k ∧
        keepsBut d t.dev [.MARGIN_STATE, .DICT_WRITES]) ∧
    (∀ v values, d.rst.released = true → (d.chanOf c).scan = some v → completes (.marginScanComplete c values) s fun t => keepsRest s t ∧
      t.dev.nat .MARGIN_STATE c = 2 ∧ (t.dev.chanOf c).scan = none ∧ t.dev.out = d.out ∧
        ∀ i, i < 10 → t.dev.nat (if v % 4 = 1 then .MARGIN_READ else if v % 4 = 2 then .MARGIN_WRITE else .MARGIN_VREF) c i =
          values.getD i 0 % 65536)

/-- A channel's training and its commands. -/
def Obligations.ChannelsTrainAndObey : Prop := Sys2Proof.Claim.TrainingBringsAChannelUp ∧ Sys2Proof.Claim.ChannelCommandsTakeEffect

/-! ### The buffer pools (chapter 15) -/

/-- R361, R364, R365: a receive packet that fits P0 takes one buffer of the fullest list in full service, where the domain's quota and the pool's
reserve leave room: its handle goes to the domain, and its descriptor has the next generation and one reference. One larger than the use's
ceiling, and one that the quota blocks, get the null handle and are counted. R363: a link that fails its check has its list rebuilt from
the descriptors, in ascending order, and counted; the allocation is served from another. -/
def Sys2Proof.Claim.BuffersAreAllocated : Prop :=
  ∀ (s : State) (dom size : Nat) (conf : Option Nat) (count : Nat), dom < 16 → s.dev.quiet → s.dev.gen.running = true →
    let d := s.dev
    let used := tget 0 dom d.pool.dom
    let blocked := d.nat .DOM_QUOTA dom ≠ 0xFFFFFFFF ∧ d.nat .DOM_QUOTA dom * 1024 < used + 256
    let answers := fun (t : State) (h : Nat) => t.dev.out = d.out ++ [.handles dom [h]] ∧ keepsRest s t
    (16384 < size → completes (.bufferAllocate dom .rxPacket size conf count none) s fun t => answers t nullHandle ∧
      t.dev.nat .POOL_EXHAUSTED 2 = (d.nat .POOL_EXHAUSTED 2 + 1) % 2 ^ 32 ∧ keepsBut d t.dev [.POOL_EXHAUSTED]) ∧
    (size ≤ 256 → blocked → completes (.bufferAllocate dom .rxPacket size conf count none) s fun t => answers t nullHandle ∧
      t.dev.nat .DOM_QUOTA_FAILS dom = (d.nat .DOM_QUOTA_FAILS dom + 1) % 2 ^ 32 ∧ keepsBut d t.dev [.DOM_QUOTA_FAILS]) ∧
    (size ≤ 256 → ¬blocked → d.service ≠ .warmup → d.reserveOf 0 + 1 ≤ d.poolFree 0 → d.fullest 0 none ≠ none →
      completes (.bufferAllocate dom .rxPacket size conf count none) s fun t =>
        ∃ i, answers t (mkHandle 0 (((d.descOf 0 i).gen + 1) % 16) i) ∧
          t.dev.descOf 0 i = {
            allocated := true, gen := ((d.descOf 0 i).gen + 1) % 16, owner := dom, share := 0x0FF3, refs := 1
            primary := i, mirror := i, use := .rxPacket } ∧
          (∀ q j, (q, j) ≠ (0, i) → t.dev.descOf q j = d.descOf q j) ∧ tget 0 dom t.dev.pool.dom = used + 256 ∧
          keepsBut d t.dev [.POOL_PEAK_REFS, .DOM_USE, .POOL_FREE, .POOL_LOW_WATER]) ∧
    (∀ b c, size ≤ 256 → d.fullest 0 none = some c → linkHolds (d.headHandle 0 c) b = false →
      completes (.bufferAllocate dom .rxPacket size conf count (some b)) s fun t => keepsRest s t ∧
        t.dev.nat .POOL_LIST_REBUILDS = (d.nat .POOL_LIST_REBUILDS + 1) % 2 ^ 32 ∧
        (t.dev.listAt 0 c).stack = sortAsc id (d.listAt 0 c).stack)

/-- R367, R368: an addition or a drop that the checks reject changes no descriptor and is counted under its check; one that passes adds its
references, or drops one, and the last drop frees the buffer. An addition of none or of more than 4,096 is none. -/
def Obligations.ReferencesAreCounted : Prop :=
  ∀ (s : State) (dom h n : Nat), dom < 16 → s.dev.quiet → s.dev.gen.running = true →
    let d := s.dev
    let p := handlePool h
    let i := handleIndex h
    let x := d.descOf p i
    let rejects := fun (o : Obj) (t : State) => t.dev.pool = d.pool ∧ t.dev.nat o = (d.nat o + 1) % 2 ^ 32 ∧ keepsRest s t
    (n < 1 ∨ 4096 < n → completes (.referenceAdd dom h n) s fun t => t = s) ∧
    (1 ≤ n → n ≤ 4096 → ∀ code o, d.refCheck dom h n = some (code, o) → completes (.referenceAdd dom h n) s (rejects o)) ∧
    (1 ≤ n → n ≤ 4096 → d.refCheck dom h n = none → completes (.referenceAdd dom h n) s fun t => keepsRest s t ∧ t.dev.out = d.out ∧
      t.dev.descOf p i = { x with refs := x.refs + n } ∧ t.dev.nat .POOL_PEAK_REFS p = max (d.nat .POOL_PEAK_REFS p) (x.refs + n) ∧
      keepsBut d t.dev [.POOL_PEAK_REFS]) ∧
    (∀ code o, d.refCheck dom h 0 = some (code, o) → completes (.referenceDrop dom h) s (rejects o)) ∧
    (d.refCheck dom h 0 = none → completes (.referenceDrop dom h) s fun t => keepsRest s t ∧ t.dev.out = d.out ∧
      if 1 < x.refs then t.dev.descOf p i = { x with refs := x.refs - 1 } ∧ keepsBut d t.dev []
      else (t.dev.descOf p i).allocated = false ∧ (t.dev.descOf p i).refs = 0)

/-- R372: a read of POOL_LOW_WATER answers the least free count since the last read and begins again from the present one; POOL_PEAK_REFS likewise
begins again from the most references that a buffer of the pool holds. -/
def Sys2Proof.Claim.LowWaterReadsBeginAgain : Prop :=
  ∀ (s : State) (src : Src) (p : Nat), p < 6 → s.dev.quiet → s.dev.reaches src = true →
    let d := s.dev
    (completes (.poolLowWaterRead src p false) s fun t => keepsRest s t ∧ t.dev.nat .POOL_LOW_WATER p = d.poolFree p ∧
      (∃ b, t.dev.out = d.out ++ [.value src (0x2200 + p) (Key.sub { o := .POOL_LOW_WATER }) b] ∧
        Octets.toNat b = d.nat .POOL_LOW_WATER p % 2 ^ 32) ∧ keepsBut d t.dev [.POOL_LOW_WATER]) ∧
    (completes (.poolLowWaterRead src p true) s fun t => keepsRest s t ∧
      (∀ kv ∈ d.pool.descs, kv.1.1 = p → kv.2.refs ≤ t.dev.nat .POOL_PEAK_REFS p) ∧
      (∃ b, t.dev.out = d.out ++ [.value src (0x2200 + p) (Key.sub { o := .POOL_PEAK_REFS }) b]) ∧ keepsBut d t.dev [.POOL_PEAK_REFS])

/-- The pools' free lists. -/
def Obligations.BuffersAndLowWater : Prop := Sys2Proof.Claim.BuffersAreAllocated ∧ Sys2Proof.Claim.LowWaterReadsBeginAgain

/-! ### Faults and the log (chapter 16) -/

/-- R79, R395: a record takes the slot of its number in the ring of 4,096 and is counted, as held or as overwriting; a corrected one whose
like was logged in the lap is only counted. LOG_CLEAR empties every slot, and the numbers go on. -/
def Obligations.RecordsEnterTheRing : Prop :=
  (∀ (d : Dev) (r : Rec) (a : Option Nat),
    let e := d.enterRec r a
    let seq := d.nat .LOG_NEXT_SEQ
    if r.cls = .corrected ∧ (r.code, r.unit) ∈ d.faults.seen then
      e.nat .LOG_COALESCED = (d.nat .LOG_COALESCED + 1) % 2 ^ 32 ∧ keepsBut d e [.LOG_COALESCED] ∧ e.out = d.out ∧
        e.faults.slots = d.faults.slots
    else
      tfind (seq % 4096) e.faults.slots = some { r with seq := seq } ∧
        (∀ i, i ≠ seq % 4096 → tfind i e.faults.slots = tfind i d.faults.slots) ∧
        e.nat .LOG_NEXT_SEQ = (seq + 1) % 2 ^ 32 ∧
        (if thas (seq % 4096) d.faults.slots then e.nat .LOG_OVERWRITTEN = (d.nat .LOG_OVERWRITTEN + 1) % 2 ^ 32
          else e.nat .LOG_COUNT = min 4096 (d.nat .LOG_COUNT + 1)) ∧
        (a = none → bit (d.nat .EMCY_CLASS_MASK) r.cls.num = false → e.out = d.out) ∧
        (∀ code, a = some code → e.nat .ERROR_FIELD 0 0 = r.unit * 65536 + code ∧ ∀ i, i < 7 →
          e.int .ERROR_FIELD 0 (i + 1) = d.int .ERROR_FIELD 0 i)) ∧
  ∀ (s : State) (src : Src), s.dev.quiet → s.dev.hears src { o := .LOG_CLEAR } → completes (.logClear src) s fun t => keepsRest s t ∧
    t.dev.nat .LOG_COUNT = 0 ∧ t.dev.faults.slots = [] ∧ t.dev.nat .LOG_NEXT_SEQ = s.dev.nat .LOG_NEXT_SEQ ∧
      t.dev.acceptedBy s.dev src { o := .LOG_CLEAR } ∧ keepsBut s.dev t.dev [.LOG_COUNT, .DICT_WRITES]

/-- R378, R379, R382: a cell that its detector reports is halted and gives up the item it ran and those it held; a corrected word stops nothing.
A fault of a block's own unit resets the block, an event of R439; a block whose clock is out of range is fenced; one that was reset
rejoins. Retired or fenced units report no more. -/
def Obligations.CellAndBlockFaults : Prop :=
  ∀ (s : State), s.dev.quiet →
    let d := s.dev
    let event := fun (t : State) (what : Nat) => t.dev.nat .RESET_EPOCH = (d.nat .RESET_EPOCH + 1) % 2 ^ 32 ∧ t.dev.nat .LAST_RESET = what ∧
      t.dev.nat .REVERTED_MASK = d.nat .REVERTED_MASK ||| 4
    (∀ c det cycle, c < 1024 → d.regionRuns (c / 256) = true → completes (.cellFault c det cycle) s fun t => keepsRest s t ∧
      if d.nat .CELL_STATE c = 3 ∨ d.nat .CELL_STATE c = 4 then t.dev = d
      else if det = .corrected then t.dev.cell = d.cell ∧ t.dev.blk = d.blk ∧ t.dev.nat .CELL_STATE c = d.nat .CELL_STATE c
      else (t.dev.cellOf c).halted = true ∧ (t.dev.cellOf c).running = none ∧ (t.dev.cellOf c).slots = []) ∧
    (∀ b cause, b < 64 → d.regionRuns (b / 16) = true → completes (.blockFault b cause) s fun t => keepsRest s t ∧
      if 3 ≤ d.nat .BLK_STATE b then t.dev = d
      else match cause with
        | .memCorrected _ => t.dev.nat .BLK_MEM_CORRECTED b = (d.nat .BLK_MEM_CORRECTED b + 1) % 2 ^ 32 ∧ t.dev.blk = d.blk
        | .memory c _ => c / 16 ≠ b → t.dev = d
        | .clock _ => t.dev.nat .BLK_STATE b = 3 ∧ bit (t.dev.nat .RETIRED_BLOCKS) b = true ∧ event t (0x05040000 + b)
        | _ => (t.dev.blkOf b).halted = true ∧ event t (0x05040000 + b)) ∧
    (∀ b, b < 64 → d.regionRuns (b / 16) = true → completes (.blockRejoin b) s fun t => keepsRest s t ∧
      t.dev.blkOf b = { d.blkOf b with halted := false } ∧ keepsBut d t.dev [] ∧ t.dev.out = d.out)

/-- R384 to R388: a coding pair or a composer with an uncorrectable fault is reset, an event of R439, and halts its work; a composer's corrected error is
no fault. A rail that is silent has failed, and one whose line only it spoils is corrected and counted. A region that fails takes its
blocks out of service, and an entry that a chip unit loses fails its leg. -/
def Obligations.UnitFaultsAreContained : Prop :=
  ∀ (s : State), s.dev.quiet →
    let d := s.dev
    let event := fun (t : State) (what : Nat) => t.dev.nat .RESET_EPOCH = (d.nat .RESET_EPOCH + 1) % 2 ^ 32 ∧ t.dev.nat .LAST_RESET = what ∧
      t.dev.nat .REVERTED_MASK = d.nat .REVERTED_MASK ||| 4
    (∀ p engine corrected, p < 16 → d.regionRuns (p / 4) = true → completes (.pairFault p engine corrected) s fun t => keepsRest s t ∧
      if d.nat .PAIR_STATE (p / 4) (p % 4) = 2 then t.dev = d
      else if corrected then t.dev.pairx = d.pairx ∧ t.dev.dec = d.dec ∧ t.dev.enc = d.enc
      else (tget {} p t.dev.pairx).halted = true ∧ event t (0x06040000 + p)) ∧
    (∀ k corrected, k < 4 → d.regionRuns k = true → completes (.composerFault k corrected) s fun t => keepsRest s t ∧
      if corrected ∨ d.nat .COMPOSER_STATE k = 2 then t.dev = d else (t.dev.compOf k).halted = true ∧ event t (0x06040000 + k)) ∧
    (∀ g x, g < 4 → d.regionRuns g = true → completes (.fabricRailError g x) s fun t => keepsRest s t ∧
      (∀ r, x.silent = some r → bit (t.dev.nat .FAILED_RAILS) (2 * g + r % 2) = true) ∧
      (x.silent = none → x.aOk = x.bOk → t.dev = d) ∧
      (x.silent = none → x.aOk ≠ x.bOk → bit (d.nat .FAILED_RAILS) (2 * g) = false → bit (d.nat .FAILED_RAILS) (2 * g + 1) = false →
        t.dev.nat .RGN_RAIL_CORRECTED g = (d.nat .RGN_RAIL_CORRECTED g + 1) % 2 ^ 32)) ∧
    (∀ g clock, g < 4 → d.regionRuns g = true → completes (.regionFail g clock) s fun t => keepsRest s t ∧ t.dev.nat .RGN_STATE g = 2 ∧
      ∀ b, b / 16 = g → 3 ≤ t.dev.nat .BLK_STATE b) ∧
    (d.gen.running = true → ∀ e, completes (.chipUnitError e) s fun t => keepsRest s t ∧
      match e with
      | .region g _ two => g < 4 →
          t.dev.nat .RGN_MEM_CORRECTED g = if two then d.nat .RGN_MEM_CORRECTED g else (d.nat .RGN_MEM_CORRECTED g + 1) % 2 ^ 32
      | .legEntry _ _ n _ => n < 4096 → d.legState n = .active → t.dev.nat .LEG_STATE n = 6
      | _ => t.dev.life = d.life ∧ t.dev.cell = d.cell ∧ t.dev.blk = d.blk)

/-! ### Power and the voltage regulator (chapters 17 and 21) -/

/-- R404: GOV_CMD 1 is accepted with no leg admitted and in FULL, for DOZE at the next edge, and GOV_CMD 2 in DOZE, for the wake; at other
times each is refused with DEVICE_STATE. When the wake completes, service is FULL again; where no channel's retraining failed, every
channel goes on in the state it held, and no domain stays gated as DOZE gated it. -/
def Sys2Proof.Claim.GovernorDozesAndWakes : Prop :=
  ∀ (s : State), s.dev.quiet →
    (∀ src, s.dev.hears src { o := .GOV_CMD } →
      (completes (.govDoze src) s fun t => keepsRest s t ∧
        if s.dev.nat .LEGS_ADMITTED = 0 ∧ s.dev.service = .full then
          t.dev.gov = { s.dev.gov with doze := true } ∧ t.dev.acceptedBy s.dev src { o := .GOV_CMD } ∧ keepsBut s.dev t.dev [.DICT_WRITES]
        else
          t.dev.refusedBy s.dev src { o := .GOV_CMD } .deviceState ∧ onlyDict s.dev t.dev ∧ keepsBut s.dev t.dev [.DICT_ABORTS]) ∧
      (completes (.govWake src) s fun t => keepsRest s t ∧
        if s.dev.service = .doze then
          t.dev.gov = { s.dev.gov with wake := true } ∧ t.dev.acceptedBy s.dev src { o := .GOV_CMD } ∧ keepsBut s.dev t.dev [.DICT_WRITES]
        else
          t.dev.refusedBy s.dev src { o := .GOV_CMD } .deviceState ∧ onlyDict s.dev t.dev ∧ keepsBut s.dev t.dev [.DICT_ABORTS])) ∧
    (∀ fails, s.dev.gen.running = true → s.dev.service = .doze → s.dev.gov.wake = true → completes (.dozeWakeComplete fails) s fun t =>
      keepsRest s t ∧ t.dev.service = .full ∧ t.dev.gov = { s.dev.gov with wake := false } ∧
        (fails = [] → (∀ c, c < 4 → s.dev.chState c = 5 → t.dev.chState c = (s.dev.chanOf c).held) ∧
          ∀ dom, dom < 40 → s.dev.nat .PD_STATE dom = 2 → t.dev.nat .PD_STATE dom = 0))

/-- R398, R403: a domain that was waking is on when its wake completes, and one that fails to wake is retired, with its blocks. Every wake is
counted. A domain idle for GOV_TRIM_IDLE edges in a row is gated under TRIM, a quad with retention and any other without, each an event of R439. -/
def Sys2Proof.Claim.DomainsGateAndWake : Prop :=
  ∀ (s : State) (dom : Nat), dom < 50 → s.dev.quiet → s.dev.gen.running = true →
    let d := s.dev
    let wakes := fun (t : State) => t.dev.nat .PD_WAKES dom = (d.nat .PD_WAKES dom + 1) % 2 ^ 32
    (completes (.domainWakeComplete dom) s fun t => keepsRest s t ∧
      if dom ∈ d.waking then
        t.dev.nat .PD_STATE dom = (if d.nat .PD_STATE dom = 3 then 3 else 0) ∧ wakes t ∧ keepsOther d t.dev .PD_STATE dom ∧
          t.dev.waking = d.waking.filter (· ≠ dom)
      else t.dev = d) ∧
    (completes (.domainWakeTimeout dom) s fun t => keepsRest s t ∧
      if dom ∈ d.waking then
        t.dev.nat .PD_STATE dom = 3 ∧ wakes t ∧
          ∀ b, b / 4 = dom → b < 64 → d.nat .BLK_STATE b < 3 → t.dev.nat .BLK_STATE b = 4
      else t.dev = d) ∧
    (completes (.domainIdleGate dom) s fun t => keepsRest s t ∧
      if d.flag .GOV_TRIM = true ∧ d.nat .PD_MODE dom = 0 ∧ d.service = .full ∧ d.domainIdle dom = true ∧
          d.nat .GOV_TRIM_IDLE ≤ tget 0 dom d.gov.idle ∧ dom ∉ d.waking ∧ d.nat .PD_STATE dom = 0 then
        t.dev.nat .PD_STATE dom = (if dom < 16 then 1 else 2) ∧
          t.dev.nat .LAST_RESET = (if dom < 16 then 0x08050000 else 0x09050000) + dom ∧
          t.dev.nat .RESET_EPOCH = (d.nat .RESET_EPOCH + 1) % 2 ^ 32
      else t.dev = d)

/-- R482, R483: a transaction with the regulator that succeeded ends it, and one that failed is sent again once; a second failure in a row
stops the falls until a read-back succeeds, and its failures are counted. -/
def Sys2Proof.Claim.RegulatorTransactionsEnd : Prop :=
  ∀ (s : State) (ok : Bool) (readback : Option Nat) (status : Nat), s.dev.quiet → s.dev.rst.released = true →
    completes (.avsTransactionEnd ok readback status) s fun t => keepsRest s t ∧
      let g := s.dev.gov
      if ok then
        t.dev = { s.dev with gov := { g with avsFails := 0, avsHeld := g.avsHeld && readback.isNone, avsOpen := none } }
      else if g.avsFails = 0 then
        t.dev.gov = { g with avsFails := 1 } ∧ keepsBut s.dev t.dev [] ∧
          t.dev.out = s.dev.out ++ (g.avsOpen.toList.map fun mv => Output.avsWrite mv)
      else
        t.dev.gov = { g with avsFails := g.avsFails + 1, avsHeld := true, avsOpen := none } ∧
          t.dev.nat .AVS_ERRORS = (s.dev.nat .AVS_ERRORS + if g.avsFails = 1 then 2 else 1) % 2 ^ 32

/-- The governor, the power domains and the regulator. -/
def Obligations.PowerFollowsTheGovernor : Prop :=
  Sys2Proof.Claim.GovernorDozesAndWakes ∧ Sys2Proof.Claim.DomainsGateAndWake ∧ Sys2Proof.Claim.RegulatorTransactionsEnd

/-! ### Reset, release, the option block and warm-up (chapter 18) -/

/-- R419, R420, R422, R439: PORn resets everything but class P and the flash; its release brings the always-on domain up from a cold reset, with the alarm sources that
stand latched (R444). TRSTn resets the TAP alone. -/
def Sys2Proof.Claim.PornResetsColdly : Prop :=
  ∀ (s : State),
    (completes .pornAssert s fun t => keepsRest s t ∧ t.dev.rst.released = false ∧ t.dev.gen.running = false ∧ t.dev.hdp.sessions = [] ∧
      t.dev.sec.slots = [] ∧ t.dev.sec.hdpKeys = [] ∧ t.dev.sec.legKeys = [] ∧ t.dev.sec.tk = s.dev.sec.tk ∧
      t.dev.rst.halfA = s.dev.rst.halfA ∧ t.dev.rst.halfB = s.dev.rst.halfB ∧
      (∀ o u k, o.row.cls ≠ .P → t.dev.get o u k = dfltOf o u k) ∧
      ∀ o ∈ [Obj.SERIAL, .REVISION, .IDENTITY_DIGEST, .TK_KCV, .OWNER_STATE, .OWNER_DIGEST], ∀ u k, t.dev.get o u k = s.dev.get o u k) ∧
    (∀ sources, s.dev.quiet → completes (.pornRelease sources) s fun t => keepsRest s t ∧
      if s.dev.rst.released then t.dev = s.dev
      else
        t.dev.rst.released = true ∧ t.dev.rst.step = 3 ∧ t.dev.rst.optDone = false ∧ t.dev.nat .LAST_RESET = 0x01000000 ∧
          ∀ i, i < 4 → bit (t.dev.nat .ALARM_LATCH) i = bit sources i) ∧
    (s.dev.quiet → completes .trstnAssert s fun t => t = { s with dev := { s.dev with rst := { s.dev.rst with tapReset := true } } })

/-- R57, R422, R423, R424: the domains are released one after another, each when its PLL has locked: the channels begin to train, the stride generator
and the time bases start at 0, and each region follows, with the blocks fenced whose clocks fail their check. A PLL that does not lock brings the fall-back,
or leaves its region in reset. -/
def Obligations.DomainsAreReleasedInOrder : Prop :=
  ∀ (s : State), s.dev.quiet → s.dev.rst.released = true →
    let d := s.dev
    let r := d.rst
    let pll := fun (t : State) (locked : Reset) => keepsRest s t ∧ t.dev = (if r.step < 3 then d else { d with rst := locked })
    (∀ fails, completes (.domainRelease fails) s fun t => keepsRest s t ∧
      if d.service = .minimum ∨ r.inWarm = true then t.dev = d
      else if r.step = 3 then
        if r.optDone = true ∧ r.ddrPll = true then
          t.dev.rst = { r with step := 4 } ∧ t.dev.pins.ddrResetN = .low ∧ t.dev.pins.ddrCke = .low ∧
            (d.nat .DRAM_RANKS = 1 ∨ d.nat .DRAM_RANKS = 2 → ∀ c, c < 4 → t.dev.chState c = 1)
        else t.dev = d
      else if r.step = 4 then
        if r.packetPll = true then
          t.dev.rst = { r with step := 5 } ∧ t.dev.gen = { running := true } ∧ t.dev.tb = [] ∧ t.dev.nat .PD_STATE 48 = 0
        else t.dev = d
      else if 5 ≤ r.step ∧ r.step < 9 then
        let g := r.step - 5
        if g ∈ r.fabricPll ∨ g ∈ r.fabricFailed then
          t.dev.rst.step = r.step + 1 ∧
            (g ∉ r.fabricFailed → ∀ u ∈ fails, u < 16 → d.nat .BLK_STATE (16 * g + u) < 3 → t.dev.nat .BLK_STATE (16 * g + u) = 3)
        else t.dev = d
      else t.dev = d) ∧
    (completes (.pllLock .packet) s fun t => pll t { r with packetPll := true }) ∧
    (completes (.pllLock .ddr) s fun t => pll t { r with ddrPll := true }) ∧
    (∀ g, g < 4 → completes (.pllLock (.fabric g)) s fun t =>
      pll t (if g ∈ r.fabricPll then r else { r with fabricPll := r.fabricPll ++ [g] })) ∧
    (∀ p, completes (.pllLockTimeout p) s fun t => keepsRest s t ∧
      match p with
      | .fabric g =>
        if 3 ≤ r.step ∧ g < 4 ∧ g ∉ r.fabricPll ∧ g ∉ r.fabricFailed then
          t.dev.rst.fabricFailed = r.fabricFailed ++ [g] ∧ t.dev.nat .RGN_STATE g = 1 ∧ ∀ b, b / 16 = g → 3 ≤ t.dev.nat .BLK_STATE b
        else t.dev = d
      | p =>
        if r.step < 3 ∨ (p = .packet ∧ r.packetPll = true) ∨ (p = .ddr ∧ r.ddrPll = true) then t.dev = d
        else t.dev.service = .minimum ∧ t.dev.rst.step = 2 ∧ t.dev.nat .LAST_RESET = 0x03080000 ∧
          t.dev.nat .OPT_STATUS = d.nat .OPT_STATUS)

/-- R426, R427: of two valid copies the one of higher SEQUENCE boots, A where they are equal; a single valid one boots; with none the device enters the
fall-back, and OPT_STATUS says why. The reader runs once in a boot, and CANopen's boot-up follows. -/
def Sys2Proof.Claim.OptionBlockBoots : Prop :=
  (∀ (d : Dev) (a b : OptCopy), let c := d.chooseCopy a b
    (d.optResult a = 1 → d.optResult b = 1 → c = ((1, 1), some (if a.sequence < b.sequence then (1, b) else (0, a)))) ∧
    (d.optResult a = 1 → d.optResult b ≠ 1 → c.2 = some (0, a)) ∧ (d.optResult a ≠ 1 → d.optResult b = 1 → c.2 = some (1, b)) ∧
    (d.optResult a ≠ 1 → d.optResult b ≠ 1 → c = ((d.optResult a, d.optResult b), none))) ∧
  ∀ (s : State) (a b : OptCopy) (octal : Bool), s.dev.quiet → s.dev.rst.released = true →
    completes (.optionBlockRead a b octal) s fun t => keepsRest s t ∧
      let d := s.dev
      if d.rst.step < 3 ∨ d.rst.optDone = true ∨ d.rst.inWarm = true ∨ d.service = .minimum then t.dev = d
      else
        let c := d.chooseCopy (d.rst.halfA.found a) (d.rst.halfB.found b)
        t.dev.can.nmt = .preOperational ∧
        match c.2 with
        | none => t.dev.service = .minimum ∧ t.dev.nat .OPT_STATUS = c.1.2 * 256 + c.1.1 ∧ t.dev.nat .LAST_RESET = 0x03070000
        | some (half, x) => t.dev.rst.optDone = true ∧ t.dev.rst.standing = (if bit x.warmup 0 then x.stable else []) ∧
            (x.ptable = [] → t.dev.nat .OPT_COPY = half ∧ t.dev.nat .OPT_SEQUENCE = x.sequence ∧
              t.dev.nat .OPT_STATUS = c.1.2 * 256 + c.1.1 ∧ t.dev.nat .XSPI_MODE = (if octal then 1 else 0))

/-- R433, R435, R436, R437: warm-up begins once region 0 is released, the handover begins when its condition holds and three edges later full service
carries the legs, and service returns to warm-up when fewer than two channels are left: each at an edge whose number in the lap is divisible by 3. -/
def Obligations.WarmupHandsOver : Prop :=
  ∀ (s : State), s.dev.quiet → s.dev.gen.running = true →
    let d := s.dev
    let edge := d.nat .STRIDE_IN_LAP % 3 = 0
    (completes .warmupStart s fun t => keepsRest s t ∧
      if d.service = .boot ∧ d.rst.handed = false ∧ 6 ≤ d.rst.step ∧ edge then
        t.dev.service = .warmup ∧ (d.rst.standing = [] → (∀ n, t.dev.legState n = d.legState n) ∧
          t.dev.nat .POOL_BUFFERS 0 = (d.nat .POOL_BUFFERS 0 + 1024) % 2 ^ 32)
      else t.dev = d) ∧
    (completes .handoverBegin s fun t => keepsRest s t ∧
      if d.service = .warmup ∧ d.handoverDue = true ∧ edge ∧ d.rst.handoverAt = none then
        t.dev.service = .warmup ∧ t.dev.rst.handoverAt = some (d.nat .STRIDE_COUNT + 3)
      else t.dev = d) ∧
    (completes .handover s fun t => keepsRest s t ∧
      match d.rst.handoverAt with
      | none => t.dev = d
      | some e =>
        if d.service = .warmup ∧ e ≤ d.nat .STRIDE_COUNT ∧ edge then
          t.dev.service = .full ∧ t.dev.rst.handed = true ∧ t.dev.rst.handoverAt = none ∧ t.dev.nat .LEGS_SUSPENDED = 0 ∧
            ∀ n, (t.dev.lifeOf n).suspended = false
        else t.dev = d) ∧
    (completes .warmupReturn s fun t => keepsRest s t ∧
      if d.rst.returnDue = true ∧ d.service = .full ∧ edge then
        t.dev.service = .warmup ∧ t.dev.rst.returnDue = false ∧ t.dev.rst.carried.length ≤ 256
      else t.dev = d)

/-- R438, R439, R444, R58: WRSTn resets all but the always-on domain and class K, as a cold reset before the first handover; while it is held, the block stands still
and its outputs are held. At its release the stride generator runs again, the resumption is counted, and no time base is VALID. -/
def Obligations.WarmResetKeepsItsConfiguration : Prop :=
  ∀ (s : State), s.dev.quiet → s.dev.rst.released = true →
    let d := s.dev
    (completes .wrstnAssert s fun t => keepsRest s t ∧
      if d.service = .minimum then t.dev = d
      else if d.rst.handed = false then
        t.dev.rst.released = true ∧ t.dev.rst.step = 3 ∧ t.dev.rst.inWarm = false ∧ t.dev.nat .LAST_RESET = 0x01010000
      else if d.rst.inWarm = true then t.dev = d
      else
        t.dev.rst.inWarm = true ∧ t.dev.rst.warmSource = 1 ∧ t.dev.gen.running = false ∧ t.dev.hdp.sessions = [] ∧ t.dev.hdp.queue = [] ∧
          t.dev.sec.slots = d.sec.slots ∧ t.dev.sec.job = none ∧ t.dev.nat .LAST_RESET = 0x02010000 ∧ t.dev.pins.serdes = .idle ∧
          t.dev.pins.ddrCke = .low ∧
          (∀ o ∈ [Obj.LEG_SUITE, .LEG_CONFERENCE, .LEG_RX_CODEC, .CONF_MIX_N, .CAN_NODE_ID, .SLOT_STATE], ∀ u k,
            t.dev.get o u k = d.get o u k) ∧
          ∀ o ∈ [Obj.DICT_WRITES, .DICT_ABORTS, .AVS_ERRORS, .SC_JOBS, .PD_WAKES], ∀ u k, t.dev.get o u k = dfltOf o u k) ∧
    (∀ resume notIn, completes (.warmResetRelease resume notIn) s fun t => keepsRest s t ∧
      if d.rst.inWarm = true then
        t.dev.rst.inWarm = false ∧ t.dev.gen.running = true ∧ t.dev.nat .WARM_RESUME = min 24 (max 1 resume) ∧
          (∀ n, n < 8 → (t.dev.tbOf n).valid = false) ∧ t.dev.pins.ddrCke = .high
      else t.dev = d)

/-- R421: RESET_CMD asks for a warm, a cold or a region's reset, performed at the second edge after its acceptance; only a cold one is accepted in the fall-back,
and a region's only in FULL, of a region that has not failed. R441: REVERTED_MASK is cleared where it is written with ones. -/
def Sys2Proof.Claim.ResetsAreAskedFor : Prop :=
  ∀ (s : State) (src : Src), s.dev.quiet →
    (s.dev.hears src { o := .RESET_CMD } →
      let d := s.dev
      let asked := fun (ok : Prop) (a : ResetAsk) (t : State) => keepsRest s t ∧
        (ok → t.dev.rst = { d.rst with asks := d.rst.asks ++ [(2, (a, decide (src = .can)))] } ∧
          t.dev.acceptedBy d src { o := .RESET_CMD } ∧ keepsBut d t.dev [.DICT_WRITES]) ∧
        (¬ok → t.dev.refusedBy d src { o := .RESET_CMD } .deviceState ∧ onlyDict d t.dev ∧ keepsBut d t.dev [.DICT_ABORTS])
      completes (.resetCmdWarm src) s (asked (d.service ≠ .minimum) .warm) ∧
      completes (.resetCmdCold src) s (asked True .cold) ∧
      ∀ g, g < 4 → completes (.resetCmdRegion src g) s (asked (d.service = .full ∧ d.nat .RGN_STATE g ≠ 2) (.region g))) ∧
    (s.dev.hears src { o := .REVERTED_MASK } → ∀ value, value < 16 → completes (.revertedMaskWrite src value) s fun t =>
      keepsRest s t ∧ onlyDict s.dev t.dev ∧ keepsBut s.dev t.dev [.REVERTED_MASK, .DICT_WRITES] ∧
        t.dev.acceptedBy s.dev src { o := .REVERTED_MASK } ∧
        ∀ i, bit (t.dev.nat .REVERTED_MASK) i = (bit (s.dev.nat .REVERTED_MASK) i && !bit value i))

/-- The reset pins and the reset commands. -/
def Obligations.ResetsAndTheirRequests : Prop := Sys2Proof.Claim.PornResetsColdly ∧ Sys2Proof.Claim.ResetsAreAskedFor

/-- R431: a copy that is valid for this device and newer than the booted one is written to the other half, which is erased first, programmed and read back; one that
is not is refused with RANGE, and with DEVICE_STATE while a write is in hand. A half whose read-back failed holds no copy. -/
def Sys2Proof.Claim.OptionImagesAreWritten : Prop :=
  ∀ (s : State), s.dev.quiet →
    let d := s.dev
    (∀ src img, d.hears src { o := .OPT_IMAGE } → completes (.optImage src img) s fun t => keepsRest s t ∧
      let refused := fun (a : Abort) =>
        t.dev.refusedBy d src { o := .OPT_IMAGE } a ∧ onlyDict d t.dev ∧ keepsBut d t.dev [.DICT_ABORTS]
      if ¬(d.optResult img = 1 ∧ (d.nat .OPT_COPY = 0xFF ∨ d.nat .OPT_SEQUENCE < img.sequence)) then refused .range
      else if 1 ≤ d.nat .OPT_WRITE_STATE ∧ d.nat .OPT_WRITE_STATE ≤ 3 then refused .deviceState
      else
        t.dev.nat .OPT_WRITE_STATE = 1 ∧ t.dev.rst.writing = some img ∧ keepsBut d t.dev [.OPT_WRITE_STATE, .DICT_WRITES] ∧
          (d.nat .OPT_COPY = 0 → t.dev.rst.halfB = { touched := true } ∧ t.dev.rst.halfA = d.rst.halfA) ∧
          (d.nat .OPT_COPY = 1 → t.dev.rst.halfA = { touched := true } ∧ t.dev.rst.halfB = d.rst.halfB)) ∧
    (d.rst.released = true → completes .optEraseComplete s fun t => keepsRest s t ∧
      if d.nat .OPT_WRITE_STATE = 1 then t.dev.nat .OPT_WRITE_STATE = 2 ∧ keepsBut d t.dev [.OPT_WRITE_STATE] ∧ onlyDict d t.dev
      else t.dev = d) ∧
    (d.rst.released = true → ∀ ok, completes (.optImageWriteComplete ok) s fun t => keepsRest s t ∧
      ∀ c, d.rst.writing = some c → d.nat .OPT_WRITE_STATE = 2 →
        t.dev.nat .OPT_WRITE_STATE = (if ok then 4 else 5) ∧ t.dev.rst.writing = none ∧
          (if d.optHalf = 0 then t.dev.rst.halfA else t.dev.rst.halfB).img = (if ok then some c else none) ∧
          (if d.optHalf = 0 then t.dev.rst.halfB = d.rst.halfB else t.dev.rst.halfA = d.rst.halfA))

/-- The option block's copies. -/
def Obligations.OptionBlockIsReadAndWritten : Prop := Sys2Proof.Claim.OptionBlockBoots ∧ Sys2Proof.Claim.OptionImagesAreWritten

/-! ### Keys, the service cipher, alarms, owner slots and attestation (chapter 19) -/

/-- R446, R447, R448, R449, R450: TK is fused once, over CAN. A wrapped key is refused while an alarm is latched; one that unwraps under its unwrapping key replaces its
slot's, its master key's or its leg's (in REKEY it becomes pending), and one that does not leaves the stored key as it was. A write of LEG_SUITE erases
the leg's keys. -/
def Obligations.KeysAreLoadedUnderWraps : Prop :=
  ∀ (s : State) (src : Src), s.dev.quiet →
    let d := s.dev
    let refused := fun (k : Key) (a : Abort) (t : State) =>
      t.dev.refusedBy d src k a ∧ t.dev.sec = d.sec ∧ keepsBut d t.dev [.KEY_UNWRAP_FAILS, .DICT_ABORTS]
    let wrapped := fun (k : Key) (r : Except (Abort × Dev) Octets) (good : Octets → State → Prop) (t : State) => keepsRest s t ∧
      if d.alarmed = true then refused k (if src = .can then .deviceState else .alarm) t
      else match r with
        | .ok p => good p t ∧ t.dev.acceptedBy d src k
        | .error (a, _) => refused k a t
    (∀ key : Octets, key.length = 32 → d.hears src { o := .TK_PROGRAM } → completes (.tkProgram src key) s fun t => keepsRest s t ∧
      if src = .can ∧ d.nat .TK_KCV = 0 then
        t.dev.sec = { d.sec with tk := some key } ∧ t.dev.nat .TK_KCV = kcv key ∧ t.dev.acceptedBy d src { o := .TK_PROGRAM } ∧
          keepsBut d t.dev [.TK_KCV, .DICT_WRITES]
      else refused { o := .TK_PROGRAM } .readOnly t) ∧
    (∀ n wrap, 1 ≤ n → n < 8 → d.hears src { o := .SLOT_WRAP, u := n } → completes (.slotWrap src n wrap) s
      (wrapped { o := .SLOT_WRAP, u := n } (d.unwrap src (d.nat .SLOT_PARENT n) [(24, 16), (40, 32)] wrap) fun p t =>
        t.dev.sec = { d.sec with slots := tset n p d.sec.slots } ∧ t.dev.nat .SLOT_STATE n = (if p.length = 16 then 1 else 2) ∧
          t.dev.nat .SLOT_KCV n = kcv p ∧ keepsBut d t.dev [.SLOT_STATE, .SLOT_KCV, .DICT_WRITES])) ∧
    (∀ n wrap, n < 4 → d.hears src { o := .HDP_KEY, k := n } → completes (.hdpKey src n wrap) s
      (wrapped { o := .HDP_KEY, k := n } (d.unwrap src 0 [(40, 32)] wrap) fun p t =>
        t.dev.sec = { d.sec with hdpKeys := tset n p d.sec.hdpKeys } ∧ keepsBut d t.dev [.DICT_WRITES])) ∧
    (∀ n wrap, ∀ tx : Bool, n < 4096 → wrap.length = 40 ∨ wrap.length = 56 →
      let k : Key := { o := if tx then .LEG_TX_KEY else .LEG_RX_KEY, u := n }
      let x := d.keysOf n
      d.hears src k → completes (if tx then .legTxKey src n wrap else .legRxKey src n wrap) s
        (wrapped k
          (if d.legState n ≠ .idle ∧ d.legState n ≠ .configured ∧ d.legState n ≠ .rekey ∨ d.nat .LEG_SUITE n = 0 then
            .error (.deviceState, d)
           else d.unwrap src (d.nat .LEG_KEK n) (legKeyLengths (d.nat .LEG_SUITE n)) wrap)
          fun p t =>
            t.dev.keysOf n = (match decide (d.legState n = .rekey), tx with
              | true, true => { x with txPending := some p, txNew := true }
              | true, false => { x with rxPending := some p, rxNew := true }
              | false, true => { x with tx := some p, suite := d.nat .LEG_SUITE n }
              | false, false => { x with rx := some p, suite := d.nat .LEG_SUITE n }) ∧
              (∀ m, m ≠ n → t.dev.keysOf m = d.keysOf m) ∧
              t.dev.nat .LEG_KEY_LOADS n = (d.nat .LEG_KEY_LOADS n + 1) % 2 ^ 32 ∧ keepsBut d t.dev [.LEG_KEY_LOADS, .DICT_WRITES])) ∧
    (∀ n suite, n < 4096 → suite < 5 → d.hears src { o := .LEG_SUITE, u := n } → completes (.legSuiteWrite src n suite) s fun t =>
      keepsRest s t ∧
      if d.legIdle n = true then
        t.dev.nat .LEG_SUITE n = suite ∧ t.dev.keysOf n = {} ∧ (∀ m, m ≠ n → t.dev.keysOf m = d.keysOf m) ∧
          t.dev.acceptedBy d src { o := .LEG_SUITE, u := n } ∧ keepsBut d t.dev [.LEG_SUITE, .DICT_WRITES]
      else refused { o := .LEG_SUITE, u := n } .deviceState t)

/-- R451, R452, R453: a session takes or renews the lock for 1,200 strides where it is free or its own, and its lease's end abandons the job. The holder's write of SC_CMD starts a job
of SC_MODE under a loaded slot with the use and a length that the mode allows, with the job's outcome waiting; it is otherwise refused, and the job's end gives its
output, status and tag. -/
def Obligations.ServiceCipherRunsJobs : Prop :=
  ∀ (s : State), s.dev.quiet →
    let d := s.dev
    let refused := fun (src : Src) (o : Obj) (a : Abort) (t : State) =>
      t.dev.refusedBy d src { o := o } a ∧ onlyDict d t.dev ∧ keepsBut d t.dev [.DICT_ABORTS]
    (∀ id, d.hears (.hdp id) { o := .SC_LOCK } →
      (completes (.scLockTake (.hdp id)) s fun t => keepsRest s t ∧
        if d.locked = false ∨ d.nat .SC_LOCK_OWNER = id then
          t.dev.nat .SC_LOCK = 1 ∧ t.dev.nat .SC_LOCK_OWNER = id ∧
            t.dev.sec = { d.sec with leaseEnd := d.nat .STRIDE_COUNT + 1200 } ∧ t.dev.acceptedBy d (.hdp id) { o := .SC_LOCK } ∧
            keepsBut d t.dev [.SC_LOCK, .SC_LOCK_OWNER, .DICT_WRITES]
        else refused (.hdp id) .SC_LOCK .deviceState t) ∧
      (completes (.scLockRelease (.hdp id)) s fun t => keepsRest s t ∧
        if d.locked = false ∨ d.nat .SC_LOCK_OWNER = id then
          t.dev.nat .SC_LOCK = 0 ∧ t.dev.nat .SC_LOCK_OWNER = 0 ∧ t.dev.sec = d.sec ∧
            t.dev.acceptedBy d (.hdp id) { o := .SC_LOCK } ∧ keepsBut d t.dev [.SC_LOCK, .SC_LOCK_OWNER, .DICT_WRITES]
        else refused (.hdp id) .SC_LOCK .deviceState t)) ∧
    (d.gen.running = true → completes .scLeaseExpiry s fun t => keepsRest s t ∧
      if d.locked = true then
        t.dev.sec = { d.sec with job := none } ∧ t.dev.nat .SC_LOCK = 0 ∧ t.dev.nat .SC_LOCK_OWNER = 0 ∧ t.dev.nat .SC_STATUS = 6 ∧
          (∀ o ∈ [Obj.SC_INPUT, .SC_OUTPUT, .SC_AAD], t.dev.bytes o = []) ∧
          ∀ o ∈ [Obj.SC_IV, .SC_TAG], t.dev.bytes o = List.replicate 16 0
      else t.dev = d) ∧
    (∀ src, d.hears src { o := .SC_CMD } → ∀ x ∈ [(1, Instr.aesCbcEncrypt src), (2, .aesCbcDecrypt src), (3, .aesCtr src),
        (4, .aesGcmEncrypt src), (5, .aesGcmDecrypt src), (6, .rfc5649Wrap src), (7, .rfc5649Unwrap src)],
      completes x.2 s fun t => keepsRest s t ∧
        let mode := x.1
        let slot := d.nat .SC_KEY_SLOT
        let input := d.bytes .SC_INPUT
        let key := tfind slot d.sec.slots
        let job := fun (key : Octets) =>
          scRun mode key input (d.bytes .SC_IV) (d.bytes .SC_AAD) (d.bytes .SC_TAG) (d.flag .SC_PAD)
        if d.nat .SC_MODE ≠ mode then t.dev = d
        else if d.holder src = false ∨ d.sec.job ≠ none then refused src .SC_CMD .deviceState t
        else if scLengthOk mode input.length (d.flag .SC_PAD) (d.bytes .SC_AAD).length = false then refused src .SC_CMD .range t
        else if d.bitOf .SLOT_USE slot 0 (if mode = 6 then 2 else 1) = false ∨ key = none then refused src .SC_CMD .deviceState t
        else
          t.dev.sec = { d.sec with job := key.map job } ∧ t.dev.nat .SC_STATUS = 1 ∧ t.dev.bytes .SC_OUTPUT = [] ∧
            t.dev.acceptedBy d src { o := .SC_CMD } ∧ keepsBut d t.dev [.SC_STATUS, .SC_OUTPUT, .DICT_WRITES]) ∧
    (d.gen.running = true → completes .scJobComplete s fun t => keepsRest s t ∧
      match d.sec.job with
      | none => t.dev = d
      | some j =>
        t.dev.sec = { d.sec with job := none } ∧ t.dev.nat .SC_STATUS = j.status ∧ t.dev.bytes .SC_OUTPUT = j.output ∧
          t.dev.nat .SC_JOBS = (d.nat .SC_JOBS + 1) % 2 ^ 32 ∧ t.dev.bytes .SC_TAG = j.tag.getD (d.bytes .SC_TAG) ∧
          keepsBut d t.dev [.SC_STATUS, .SC_OUTPUT, .SC_JOBS, .SC_TAG] ∧ t.dev.out = d.out)

/-- R454, R455, R456, R457: a source that is detected latches its bit, is counted, and erases every slot, master and leg key, with the lock, the queued requests and the sessions.
An erasure passes when its read-back is zero and else is repeated and counted. ALARM_CLEAR is accepted once no source is present and the erasure has
passed. -/
def Obligations.AlarmsEraseTheKeys : Prop :=
  ∀ (s : State), s.dev.quiet →
    let d := s.dev
    let raised := fun (source : Nat) (t : State) =>
      bit (t.dev.nat .ALARM_LATCH) source = true ∧ bit (t.dev.nat .ALARM_ACTIVE) source = true ∧
        t.dev.nat .ALARM_COUNT = (d.nat .ALARM_COUNT + 1) % 2 ^ 32 ∧ t.dev.nat .ALARM_ERASE_STATE = 1 ∧
        t.dev.sec.slots = [] ∧ t.dev.sec.hdpKeys = [] ∧ t.dev.sec.legKeys = [] ∧ t.dev.sec.tk = d.sec.tk ∧ t.dev.nat .SC_LOCK = 0 ∧
        (∀ q ∈ t.dev.hdp.queue, q.body.ofHdp = false) ∧ t.dev.hdp.sessions = [] ∧ ∀ n, n < 8 → t.dev.nat .SLOT_STATE n = 0 ∧ t.dev.nat .SLOT_KCV n = 0
    (d.rst.released = true →
      (∀ supply mv, supply < 8 → completes (.supplyAlarm supply mv) s fun t => keepsRest s t ∧
        if mv < (supplyRange supply).1 ∨ (supplyRange supply).2 < mv then raised 0 t else t.dev = d) ∧
      (∀ clock, completes (.clockAlarm clock) s fun t => keepsRest s t ∧ raised 1 t) ∧
      (∀ sensor celsius, sensor < 16 → completes (.temperatureAlarm sensor celsius) s fun t => keepsRest s t ∧
        if 125 < celsius ∨ celsius < -50 then raised 2 t else t.dev = d) ∧
      (completes .tamperAlarm s fun t => keepsRest s t ∧ raised 3 t) ∧
      (∀ zero, completes (.keyEraseVerify zero) s fun t => keepsRest s t ∧
        if d.sec.erasing = false then t.dev = d
        else if zero then
          t.dev.nat .ALARM_ERASE_STATE = 2 ∧ t.dev.sec = { d.sec with erasing := false } ∧ keepsBut d t.dev [.ALARM_ERASE_STATE]
        else
          t.dev.nat .ALARM_ERASE_STATE = 1 ∧ t.dev.sec.slots = [] ∧ t.dev.sec.erasing = true ∧
            t.dev.nat .ALARM_ERASE_RETRIES = (d.nat .ALARM_ERASE_RETRIES + 1) % 2 ^ Obj.ALARM_ERASE_RETRIES.row.ty.bits) ∧
      (∀ source, source < 4 → completes (.alarmSourceClear source) s fun t => keepsRest s t ∧ onlyDict d t.dev ∧
        keepsBut d t.dev [.ALARM_ACTIVE] ∧
          ∀ i, bit (t.dev.nat .ALARM_ACTIVE) i = (bit (d.nat .ALARM_ACTIVE) i && decide (i ≠ source)))) ∧
    (∀ src, d.hears src { o := .ALARM_CLEAR } → completes (.alarmClear src) s fun t => keepsRest s t ∧
      if d.nat .ALARM_LATCH = 0 ∨ (d.nat .ALARM_ACTIVE = 0 ∧ d.nat .ALARM_ERASE_STATE = 2) then
        t.dev.nat .ALARM_LATCH = 0 ∧ t.dev.nat .DICT_WRITES = (d.nat .DICT_WRITES + 1) % 2 ^ 32 ∧ t.dev.sec = d.sec
      else
        t.dev.refusedBy d src { o := .ALARM_CLEAR } .deviceState ∧ onlyDict d t.dev ∧ keepsBut d t.dev [.DICT_ABORTS])

/-- R461: OWNER_PROGRAM fuses the digest of a slot that is empty, and OWNER_REVOKE revokes a slot, but neither the booted one nor the last live one. R462, R463: a report
is asked for once at a time, with the nonce of its write, and its signature over the fields it took makes it ready. -/
def Obligations.OwnersAndReports : Prop :=
  ∀ (s : State) (src : Src), s.dev.quiet →
    let d := s.dev
    let refused := fun (o : Obj) (a : Abort) (t : State) =>
      t.dev.refusedBy d src { o := o } a ∧ onlyDict d t.dev ∧ keepsBut d t.dev [.DICT_ABORTS]
    let live := fun (i : Nat) => d.ownerFused i && !d.ownerRevoked i
    (∀ slot digest, slot < 256 → digest.length = 32 → d.hears src { o := .OWNER_PROGRAM } →
      completes (.ownerProgram src slot digest) s fun t => keepsRest s t ∧
        if 4 ≤ slot then refused .OWNER_PROGRAM .range t
        else if d.ownerFused slot = true then refused .OWNER_PROGRAM .deviceState t
        else t.dev.sec = { d.sec with ownerNext := tset slot digest d.sec.ownerNext } ∧
          t.dev.nat .DICT_WRITES = (d.nat .DICT_WRITES + 1) % 2 ^ 32) ∧
    (∀ slot, slot < 256 → d.hears src { o := .OWNER_REVOKE } → completes (.ownerRevoke src slot) s fun t => keepsRest s t ∧
        if 4 ≤ slot then refused .OWNER_REVOKE .range t
        else if d.nat .OWNER_BOOT_SLOT = slot ∨ (live slot = true ∧ ∀ i ∈ List.range 4, i ≠ slot → live i = false) then
          refused .OWNER_REVOKE .deviceState t
        else t.dev.sec = { d.sec with ownerRevokeNext := withBit d.sec.ownerRevokeNext slot true } ∧
          t.dev.nat .DICT_WRITES = (d.nat .DICT_WRITES + 1) % 2 ^ 32) ∧
    (d.hears src { o := .ATTEST_CMD } → completes (.attestCmd src) s fun t => keepsRest s t ∧
        if d.nat .ATTEST_STATE = 1 then refused .ATTEST_CMD .deviceState t
        else
          t.dev.sec = { d.sec with attestNonce := d.bytes .ATTEST_NONCE, attestFields := none, attestAsked := true } ∧
            t.dev.nat .ATTEST_STATE = 1 ∧ t.dev.bytes .ATTEST_REPORT = [] ∧ t.dev.acceptedBy d src { o := .ATTEST_CMD } ∧
            keepsBut d t.dev [.ATTEST_STATE, .ATTEST_REPORT, .DICT_WRITES]) ∧
    (d.rst.released = true → completes .attestReportReady s fun t => keepsRest s t ∧
        ∀ f, d.sec.attestFields = some f → d.nat .ATTEST_STATE = 1 →
          t.dev.nat .ATTEST_STATE = 2 ∧ t.dev.bytes .ATTEST_REPORT = f ++ Config.identitySign (Config.freeValue d.free) f ∧
            t.dev.nat .ATTEST_COUNT = (d.nat .ATTEST_COUNT + 1) % 2 ^ 32 ∧
            keepsBut d t.dev [.ATTEST_STATE, .ATTEST_REPORT, .ATTEST_COUNT])

/-! ### The photo finish and fault injection (chapter 20) -/

/-- R466, R469, R470: a trigger latches the photo finish, with the stride and the time, and drives SNAP_OUT, which the end of its width lowers; while it is latched, a trigger is
counted as dropped, until SNAP_RELEASE arms it again. -/
def Sys2Proof.Claim.PhotoFinishLatchesOnce : Prop :=
  ∀ (s : State), s.dev.quiet →
    let d := s.dev
    let latched := fun (cause : Nat) (t : State) =>
      if d.nat .SNAP_STATE = 2 then
        t.dev.nat .SNAP_STATE = 2 ∧ t.dev.nat .SNAP_DROPPED = (d.nat .SNAP_DROPPED + 1) % 2 ^ 32 ∧ t.dev.nat .SNAP_SEQ = d.nat .SNAP_SEQ ∧
          t.dev.pins = d.pins
      else
        t.dev.nat .SNAP_STATE = 2 ∧ t.dev.nat .SNAP_SEQ = (d.nat .SNAP_SEQ + 1) % 2 ^ 32 ∧ t.dev.nat .SNAP_CAUSE = cause ∧
          t.dev.nat .SNAP_STRIDE = d.nat .STRIDE_COUNT ∧ t.dev.nat .SNAP_TIME = d.now 0 ∧ t.dev.pins.snapOut = .high ∧
          t.dev.nat .SNAP_DROPPED = d.nat .SNAP_DROPPED
    (∀ src, d.hears src { o := .SNAP_NOW } → completes (.snapNow src) s fun t => keepsRest s t ∧ latched 8 t) ∧
    (d.gen.running = true → completes .snapInEdge s fun t => keepsRest s t ∧
      if d.bitOf .SNAP_SOURCES 0 0 1 = true then latched 2 t else t.dev = d) ∧
    (d.gen.running = true → completes .snapOutEnd s fun t => keepsRest s t ∧
      if d.pins.snapOut = .high then
        t.dev = { d with pins := { d.pins with snapOut := .low }, out := d.out ++ [.snapOut false] }
      else t.dev = d) ∧
    (∀ src, d.hears src { o := .SNAP_RELEASE } → completes (.snapRelease src) s fun t => keepsRest s t ∧ onlyDict d t.dev ∧
      t.dev.nat .SNAP_STATE = (if d.nat .SNAP_SOURCES % 8 = 0 then 0 else 1) ∧ t.dev.acceptedBy d src { o := .SNAP_RELEASE } ∧
        keepsBut d t.dev [.SNAP_STATE, .DICT_WRITES])

/-- R468: a write of SNAP_EDGE is in force at acceptance where it is 0, which disarms bit 0 of the sources, or names an edge still to come, and is refused with RANGE
otherwise. One that names the next edge latches at it. -/
def Obligations.SnapEdgeArmsALaterEdge : Prop :=
  (∀ (s : State) (src : Src) (edge : Nat), edge < 2 ^ 64 → s.dev.quiet → s.dev.hears src { o := .SNAP_EDGE } →
    completes (.snapEdgeWrite src edge) s fun t => keepsRest s t ∧ onlyDict s.dev t.dev ∧
      if edge = 0 ∨ s.dev.nat .STRIDE_COUNT < edge then
        t.dev.nat .SNAP_EDGE = edge ∧ t.dev.acceptedBy s.dev src { o := .SNAP_EDGE } ∧ keepsBut s.dev t.dev [.SNAP_EDGE, .DICT_WRITES]
      else t.dev.refusedBy s.dev src { o := .SNAP_EDGE } .range ∧ keepsBut s.dev t.dev [.DICT_ABORTS]) ∧
  (∀ d : Dev, d.flag .SNAP_EDGE = false → d.snapEdge = d) ∧
  ∀ d : Dev, d.quiet → d.bitOf .SNAP_SOURCES 0 0 0 = true → d.nat .SNAP_STATE ≠ 2 → d.nat .STRIDE_COUNT + 1 < 2 ^ 64 →
    d.nat .SNAP_EDGE = d.nat .STRIDE_COUNT + 1 →
    let e := d.countEdge.snapEdge
    e.nat .SNAP_STATE = 2 ∧ e.nat .SNAP_CAUSE = 1 ∧ e.nat .SNAP_STRIDE = d.nat .STRIDE_COUNT + 1 ∧ e.pins.snapOut = .high

/-- R475: INJ_CMD injects a fault into the unit of INJ_TARGET, to be reported by its own detector, and is refused with DEVICE_STATE in MINIMUM and for a unit
that is not in service. -/
def Sys2Proof.Claim.FaultsAreInjected : Prop :=
  ∀ (s : State) (src : Src), s.dev.quiet → s.dev.hears src { o := .INJ_CMD } → completes (.injCmd src) s fun t => keepsRest s t ∧
    let d := s.dev
    let kind := d.nat .INJ_TARGET / 2 ^ 28
    let refused := t.dev.refusedBy d src { o := .INJ_CMD } .deviceState ∧ onlyDict d t.dev ∧ keepsBut d t.dev [.DICT_ABORTS]
    match injNumber kind (d.nat .INJ_TARGET % 65536) with
    | none => refused
    | some n =>
      if d.service ≠ .minimum ∧ d.injectable kind n = true then
        t.dev.faults = { d.faults with injected := d.faults.injected ++ [kind * 2 ^ 28 + n] } ∧
          t.dev.nat .INJ_COUNT = (d.nat .INJ_COUNT + 1) % 2 ^ 32 ∧ t.dev.acceptedBy d src { o := .INJ_CMD } ∧
          keepsBut d t.dev [.INJ_COUNT, .DICT_WRITES]
      else refused

/-- The photo finish, and the faults that are injected. -/
def Obligations.PhotoFinishAndInjection : Prop := Sys2Proof.Claim.PhotoFinishLatchesOnce ∧ Sys2Proof.Claim.FaultsAreInjected
end

