-- ==== Sys2Proof/Laws/State.lean ====
section
/-! SUPPORT. What each update of the device leaves as it was: one lemma for each update and each part it does not touch, all true by
unfolding. Sets and counts of objects are written as `put`. -/

namespace Sys2Proof.Machine

theorem Dev.setI_eq (d : Dev) (o : Obj) (u k : Nat) (v : Int) : d.setI o u k v = d.put o u k (.num v) := rfl
theorem Dev.setN_eq (d : Dev) (o : Obj) (u v : Nat) : d.setN o u v = d.put o u 0 (.num v) := rfl
theorem Dev.add_eq (d : Dev) (o : Obj) (u k n : Nat) :
    d.add o u k n = d.put o u k (.num (((d.nat o u k + n) % 2 ^ o.row.ty.bits : Nat))) := rfl
theorem Dev.bump_eq (d : Dev) (o : Obj) (u k : Nat) :
    d.bump o u k = d.put o u k (.num (((d.nat o u k + 1) % 2 ^ o.row.ty.bits : Nat))) := rfl
theorem Dev.sub_eq (d : Dev) (o : Obj) (u n : Nat) : d.sub o u n = d.put o u 0 (.num ((d.nat o u - n : Nat))) := rfl

@[simp] theorem Dev.put_out (d : Dev) (o : Obj) (u k : Nat) (v : Val) : (d.put o u k v).out = d.out := rfl
@[simp] theorem Dev.put_free (d : Dev) (o : Obj) (u k : Nat) (v : Val) : (d.put o u k v).free = d.free := rfl
@[simp] theorem Dev.put_trig (d : Dev) (o : Obj) (u k : Nat) (v : Val) : (d.put o u k v).trig = d.trig := rfl
@[simp] theorem Dev.put_stage (d : Dev) (o : Obj) (u k : Nat) (v : Val) : (d.put o u k v).stage = d.stage := rfl
@[simp] theorem Dev.put_resultBefore (d : Dev) (o : Obj) (u k : Nat) (v : Val) : (d.put o u k v).resultBefore = d.resultBefore := rfl
@[simp] theorem Dev.put_tb (d : Dev) (o : Obj) (u k : Nat) (v : Val) : (d.put o u k v).tb = d.tb := rfl
@[simp] theorem Dev.put_gen (d : Dev) (o : Obj) (u k : Nat) (v : Val) : (d.put o u k v).gen = d.gen := rfl
@[simp] theorem Dev.put_pulses (d : Dev) (o : Obj) (u k : Nat) (v : Val) : (d.put o u k v).pulses = d.pulses := rfl
@[simp] theorem Dev.put_caps (d : Dev) (o : Obj) (u k : Nat) (v : Val) : (d.put o u k v).caps = d.caps := rfl
@[simp] theorem Dev.put_ptp (d : Dev) (o : Obj) (u k : Nat) (v : Val) : (d.put o u k v).ptp = d.ptp := rfl
@[simp] theorem Dev.put_can (d : Dev) (o : Obj) (u k : Nat) (v : Val) : (d.put o u k v).can = d.can := rfl
@[simp] theorem Dev.put_hdp (d : Dev) (o : Obj) (u k : Nat) (v : Val) : (d.put o u k v).hdp = d.hdp := rfl
@[simp] theorem Dev.put_sec (d : Dev) (o : Obj) (u k : Nat) (v : Val) : (d.put o u k v).sec = d.sec := rfl
@[simp] theorem Dev.put_faults (d : Dev) (o : Obj) (u k : Nat) (v : Val) : (d.put o u k v).faults = d.faults := rfl
@[simp] theorem Dev.put_gov (d : Dev) (o : Obj) (u k : Nat) (v : Val) : (d.put o u k v).gov = d.gov := rfl
@[simp] theorem Dev.put_pins (d : Dev) (o : Obj) (u k : Nat) (v : Val) : (d.put o u k v).pins = d.pins := rfl
@[simp] theorem Dev.put_rst (d : Dev) (o : Obj) (u k : Nat) (v : Val) : (d.put o u k v).rst = d.rst := rfl
@[simp] theorem Dev.put_ports (d : Dev) (o : Obj) (u k : Nat) (v : Val) : (d.put o u k v).ports = d.ports := rfl
@[simp] theorem Dev.put_pairs (d : Dev) (o : Obj) (u k : Nat) (v : Val) : (d.put o u k v).pairs = d.pairs := rfl
@[simp] theorem Dev.put_addrBuckets (d : Dev) (o : Obj) (u k : Nat) (v : Val) : (d.put o u k v).addrBuckets = d.addrBuckets := rfl
@[simp] theorem Dev.put_polOld (d : Dev) (o : Obj) (u k : Nat) (v : Val) : (d.put o u k v).polOld = d.polOld := rfl
@[simp] theorem Dev.put_life (d : Dev) (o : Obj) (u k : Nat) (v : Val) : (d.put o u k v).life = d.life := rfl
@[simp] theorem Dev.put_rx (d : Dev) (o : Obj) (u k : Nat) (v : Val) : (d.put o u k v).rx = d.rx := rfl
@[simp] theorem Dev.put_loop (d : Dev) (o : Obj) (u k : Nat) (v : Val) : (d.put o u k v).loop = d.loop := rfl
@[simp] theorem Dev.put_tx (d : Dev) (o : Obj) (u k : Nat) (v : Val) : (d.put o u k v).tx = d.tx := rfl
@[simp] theorem Dev.put_audio (d : Dev) (o : Obj) (u k : Nat) (v : Val) : (d.put o u k v).audio = d.audio := rfl
@[simp] theorem Dev.put_mix (d : Dev) (o : Obj) (u k : Nat) (v : Val) : (d.put o u k v).mix = d.mix := rfl
@[simp] theorem Dev.put_pool (d : Dev) (o : Obj) (u k : Nat) (v : Val) : (d.put o u k v).pool = d.pool := rfl
@[simp] theorem Dev.put_chan (d : Dev) (o : Obj) (u k : Nat) (v : Val) : (d.put o u k v).chan = d.chan := rfl
@[simp] theorem Dev.put_panic (d : Dev) (o : Obj) (u k : Nat) (v : Val) : (d.put o u k v).panic = d.panic := rfl
@[simp] theorem Dev.put_panicAcc (d : Dev) (o : Obj) (u k : Nat) (v : Val) : (d.put o u k v).panicAcc = d.panicAcc := rfl
@[simp] theorem Dev.put_blk (d : Dev) (o : Obj) (u k : Nat) (v : Val) : (d.put o u k v).blk = d.blk := rfl
@[simp] theorem Dev.put_cell (d : Dev) (o : Obj) (u k : Nat) (v : Val) : (d.put o u k v).cell = d.cell := rfl
@[simp] theorem Dev.put_homes (d : Dev) (o : Obj) (u k : Nat) (v : Val) : (d.put o u k v).homes = d.homes := rfl
@[simp] theorem Dev.put_loads (d : Dev) (o : Obj) (u k : Nat) (v : Val) : (d.put o u k v).loads = d.loads := rfl
@[simp] theorem Dev.put_flows (d : Dev) (o : Obj) (u k : Nat) (v : Val) : (d.put o u k v).flows = d.flows := rfl
@[simp] theorem Dev.put_flowHomes (d : Dev) (o : Obj) (u k : Nat) (v : Val) : (d.put o u k v).flowHomes = d.flowHomes := rfl
@[simp] theorem Dev.put_arb (d : Dev) (o : Obj) (u k : Nat) (v : Val) : (d.put o u k v).arb = d.arb := rfl
@[simp] theorem Dev.put_pairx (d : Dev) (o : Obj) (u k : Nat) (v : Val) : (d.put o u k v).pairx = d.pairx := rfl
@[simp] theorem Dev.put_dec (d : Dev) (o : Obj) (u k : Nat) (v : Val) : (d.put o u k v).dec = d.dec := rfl
@[simp] theorem Dev.put_enc (d : Dev) (o : Obj) (u k : Nat) (v : Val) : (d.put o u k v).enc = d.enc := rfl
@[simp] theorem Dev.put_comp (d : Dev) (o : Obj) (u k : Nat) (v : Val) : (d.put o u k v).comp = d.comp := rfl
@[simp] theorem Dev.put_view (d : Dev) (o : Obj) (u k : Nat) (v : Val) : (d.put o u k v).view = d.view := rfl
@[simp] theorem Dev.put_fwd (d : Dev) (o : Obj) (u k : Nat) (v : Val) : (d.put o u k v).fwd = d.fwd := rfl
@[simp] theorem Dev.put_fsrc (d : Dev) (o : Obj) (u k : Nat) (v : Val) : (d.put o u k v).fsrc = d.fsrc := rfl
@[simp] theorem Dev.put_waking (d : Dev) (o : Obj) (u k : Nat) (v : Val) : (d.put o u k v).waking = d.waking := rfl
@[simp] theorem Dev.put_tapFrom (d : Dev) (o : Obj) (u k : Nat) (v : Val) : (d.put o u k v).tapFrom = d.tapFrom := rfl
@[simp] theorem Dev.emit_free (d : Dev) (x : Output) : (d.emit x).free = d.free := rfl
@[simp] theorem Dev.emit_trig (d : Dev) (x : Output) : (d.emit x).trig = d.trig := rfl
@[simp] theorem Dev.emit_dict (d : Dev) (x : Output) : (d.emit x).dict = d.dict := rfl
@[simp] theorem Dev.emit_stage (d : Dev) (x : Output) : (d.emit x).stage = d.stage := rfl
@[simp] theorem Dev.emit_resultBefore (d : Dev) (x : Output) : (d.emit x).resultBefore = d.resultBefore := rfl
@[simp] theorem Dev.emit_tb (d : Dev) (x : Output) : (d.emit x).tb = d.tb := rfl
@[simp] theorem Dev.emit_gen (d : Dev) (x : Output) : (d.emit x).gen = d.gen := rfl
@[simp] theorem Dev.emit_pulses (d : Dev) (x : Output) : (d.emit x).pulses = d.pulses := rfl
@[simp] theorem Dev.emit_caps (d : Dev) (x : Output) : (d.emit x).caps = d.caps := rfl
@[simp] theorem Dev.emit_ptp (d : Dev) (x : Output) : (d.emit x).ptp = d.ptp := rfl
@[simp] theorem Dev.emit_can (d : Dev) (x : Output) : (d.emit x).can = d.can := rfl
@[simp] theorem Dev.emit_hdp (d : Dev) (x : Output) : (d.emit x).hdp = d.hdp := rfl
@[simp] theorem Dev.emit_sec (d : Dev) (x : Output) : (d.emit x).sec = d.sec := rfl
@[simp] theorem Dev.emit_faults (d : Dev) (x : Output) : (d.emit x).faults = d.faults := rfl
@[simp] theorem Dev.emit_gov (d : Dev) (x : Output) : (d.emit x).gov = d.gov := rfl
@[simp] theorem Dev.emit_pins (d : Dev) (x : Output) : (d.emit x).pins = d.pins := rfl
@[simp] theorem Dev.emit_rst (d : Dev) (x : Output) : (d.emit x).rst = d.rst := rfl
@[simp] theorem Dev.emit_ports (d : Dev) (x : Output) : (d.emit x).ports = d.ports := rfl
@[simp] theorem Dev.emit_pairs (d : Dev) (x : Output) : (d.emit x).pairs = d.pairs := rfl
@[simp] theorem Dev.emit_addrBuckets (d : Dev) (x : Output) : (d.emit x).addrBuckets = d.addrBuckets := rfl
@[simp] theorem Dev.emit_polOld (d : Dev) (x : Output) : (d.emit x).polOld = d.polOld := rfl
@[simp] theorem Dev.emit_life (d : Dev) (x : Output) : (d.emit x).life = d.life := rfl
@[simp] theorem Dev.emit_rx (d : Dev) (x : Output) : (d.emit x).rx = d.rx := rfl
@[simp] theorem Dev.emit_loop (d : Dev) (x : Output) : (d.emit x).loop = d.loop := rfl
@[simp] theorem Dev.emit_tx (d : Dev) (x : Output) : (d.emit x).tx = d.tx := rfl
@[simp] theorem Dev.emit_audio (d : Dev) (x : Output) : (d.emit x).audio = d.audio := rfl
@[simp] theorem Dev.emit_mix (d : Dev) (x : Output) : (d.emit x).mix = d.mix := rfl
@[simp] theorem Dev.emit_pool (d : Dev) (x : Output) : (d.emit x).pool = d.pool := rfl
@[simp] theorem Dev.emit_chan (d : Dev) (x : Output) : (d.emit x).chan = d.chan := rfl
@[simp] theorem Dev.emit_panic (d : Dev) (x : Output) : (d.emit x).panic = d.panic := rfl
@[simp] theorem Dev.emit_panicAcc (d : Dev) (x : Output) : (d.emit x).panicAcc = d.panicAcc := rfl
@[simp] theorem Dev.emit_blk (d : Dev) (x : Output) : (d.emit x).blk = d.blk := rfl
@[simp] theorem Dev.emit_cell (d : Dev) (x : Output) : (d.emit x).cell = d.cell := rfl
@[simp] theorem Dev.emit_homes (d : Dev) (x : Output) : (d.emit x).homes = d.homes := rfl
@[simp] theorem Dev.emit_loads (d : Dev) (x : Output) : (d.emit x).loads = d.loads := rfl
@[simp] theorem Dev.emit_flows (d : Dev) (x : Output) : (d.emit x).flows = d.flows := rfl
@[simp] theorem Dev.emit_flowHomes (d : Dev) (x : Output) : (d.emit x).flowHomes = d.flowHomes := rfl
@[simp] theorem Dev.emit_arb (d : Dev) (x : Output) : (d.emit x).arb = d.arb := rfl
@[simp] theorem Dev.emit_pairx (d : Dev) (x : Output) : (d.emit x).pairx = d.pairx := rfl
@[simp] theorem Dev.emit_dec (d : Dev) (x : Output) : (d.emit x).dec = d.dec := rfl
@[simp] theorem Dev.emit_enc (d : Dev) (x : Output) : (d.emit x).enc = d.enc := rfl
@[simp] theorem Dev.emit_comp (d : Dev) (x : Output) : (d.emit x).comp = d.comp := rfl
@[simp] theorem Dev.emit_view (d : Dev) (x : Output) : (d.emit x).view = d.view := rfl
@[simp] theorem Dev.emit_fwd (d : Dev) (x : Output) : (d.emit x).fwd = d.fwd := rfl
@[simp] theorem Dev.emit_fsrc (d : Dev) (x : Output) : (d.emit x).fsrc = d.fsrc := rfl
@[simp] theorem Dev.emit_waking (d : Dev) (x : Output) : (d.emit x).waking = d.waking := rfl
@[simp] theorem Dev.emit_tapFrom (d : Dev) (x : Output) : (d.emit x).tapFrom = d.tapFrom := rfl
@[simp] theorem Dev.setTb_out (d : Dev) (n : Nat) (x : TimeBase) : (d.setTb n x).out = d.out := rfl
@[simp] theorem Dev.setTb_free (d : Dev) (n : Nat) (x : TimeBase) : (d.setTb n x).free = d.free := rfl
@[simp] theorem Dev.setTb_trig (d : Dev) (n : Nat) (x : TimeBase) : (d.setTb n x).trig = d.trig := rfl
@[simp] theorem Dev.setTb_dict (d : Dev) (n : Nat) (x : TimeBase) : (d.setTb n x).dict = d.dict := rfl
@[simp] theorem Dev.setTb_stage (d : Dev) (n : Nat) (x : TimeBase) : (d.setTb n x).stage = d.stage := rfl
@[simp] theorem Dev.setTb_resultBefore (d : Dev) (n : Nat) (x : TimeBase) : (d.setTb n x).resultBefore = d.resultBefore := rfl
@[simp] theorem Dev.setTb_gen (d : Dev) (n : Nat) (x : TimeBase) : (d.setTb n x).gen = d.gen := rfl
@[simp] theorem Dev.setTb_pulses (d : Dev) (n : Nat) (x : TimeBase) : (d.setTb n x).pulses = d.pulses := rfl
@[simp] theorem Dev.setTb_caps (d : Dev) (n : Nat) (x : TimeBase) : (d.setTb n x).caps = d.caps := rfl
@[simp] theorem Dev.setTb_ptp (d : Dev) (n : Nat) (x : TimeBase) : (d.setTb n x).ptp = d.ptp := rfl
@[simp] theorem Dev.setTb_can (d : Dev) (n : Nat) (x : TimeBase) : (d.setTb n x).can = d.can := rfl
@[simp] theorem Dev.setTb_hdp (d : Dev) (n : Nat) (x : TimeBase) : (d.setTb n x).hdp = d.hdp := rfl
@[simp] theorem Dev.setTb_sec (d : Dev) (n : Nat) (x : TimeBase) : (d.setTb n x).sec = d.sec := rfl
@[simp] theorem Dev.setTb_faults (d : Dev) (n : Nat) (x : TimeBase) : (d.setTb n x).faults = d.faults := rfl
@[simp] theorem Dev.setTb_gov (d : Dev) (n : Nat) (x : TimeBase) : (d.setTb n x).gov = d.gov := rfl
@[simp] theorem Dev.setTb_pins (d : Dev) (n : Nat) (x : TimeBase) : (d.setTb n x).pins = d.pins := rfl
@[simp] theorem Dev.setTb_rst (d : Dev) (n : Nat) (x : TimeBase) : (d.setTb n x).rst = d.rst := rfl
@[simp] theorem Dev.setTb_ports (d : Dev) (n : Nat) (x : TimeBase) : (d.setTb n x).ports = d.ports := rfl
@[simp] theorem Dev.setTb_pairs (d : Dev) (n : Nat) (x : TimeBase) : (d.setTb n x).pairs = d.pairs := rfl
@[simp] theorem Dev.setTb_addrBuckets (d : Dev) (n : Nat) (x : TimeBase) : (d.setTb n x).addrBuckets = d.addrBuckets := rfl
@[simp] theorem Dev.setTb_polOld (d : Dev) (n : Nat) (x : TimeBase) : (d.setTb n x).polOld = d.polOld := rfl
@[simp] theorem Dev.setTb_life (d : Dev) (n : Nat) (x : TimeBase) : (d.setTb n x).life = d.life := rfl
@[simp] theorem Dev.setTb_rx (d : Dev) (n : Nat) (x : TimeBase) : (d.setTb n x).rx = d.rx := rfl
@[simp] theorem Dev.setTb_loop (d : Dev) (n : Nat) (x : TimeBase) : (d.setTb n x).loop = d.loop := rfl
@[simp] theorem Dev.setTb_tx (d : Dev) (n : Nat) (x : TimeBase) : (d.setTb n x).tx = d.tx := rfl
@[simp] theorem Dev.setTb_audio (d : Dev) (n : Nat) (x : TimeBase) : (d.setTb n x).audio = d.audio := rfl
@[simp] theorem Dev.setTb_mix (d : Dev) (n : Nat) (x : TimeBase) : (d.setTb n x).mix = d.mix := rfl
@[simp] theorem Dev.setTb_pool (d : Dev) (n : Nat) (x : TimeBase) : (d.setTb n x).pool = d.pool := rfl
@[simp] theorem Dev.setTb_chan (d : Dev) (n : Nat) (x : TimeBase) : (d.setTb n x).chan = d.chan := rfl
@[simp] theorem Dev.setTb_panic (d : Dev) (n : Nat) (x : TimeBase) : (d.setTb n x).panic = d.panic := rfl
@[simp] theorem Dev.setTb_panicAcc (d : Dev) (n : Nat) (x : TimeBase) : (d.setTb n x).panicAcc = d.panicAcc := rfl
@[simp] theorem Dev.setTb_blk (d : Dev) (n : Nat) (x : TimeBase) : (d.setTb n x).blk = d.blk := rfl
@[simp] theorem Dev.setTb_cell (d : Dev) (n : Nat) (x : TimeBase) : (d.setTb n x).cell = d.cell := rfl
@[simp] theorem Dev.setTb_homes (d : Dev) (n : Nat) (x : TimeBase) : (d.setTb n x).homes = d.homes := rfl
@[simp] theorem Dev.setTb_loads (d : Dev) (n : Nat) (x : TimeBase) : (d.setTb n x).loads = d.loads := rfl
@[simp] theorem Dev.setTb_flows (d : Dev) (n : Nat) (x : TimeBase) : (d.setTb n x).flows = d.flows := rfl
@[simp] theorem Dev.setTb_flowHomes (d : Dev) (n : Nat) (x : TimeBase) : (d.setTb n x).flowHomes = d.flowHomes := rfl
@[simp] theorem Dev.setTb_arb (d : Dev) (n : Nat) (x : TimeBase) : (d.setTb n x).arb = d.arb := rfl
@[simp] theorem Dev.setTb_pairx (d : Dev) (n : Nat) (x : TimeBase) : (d.setTb n x).pairx = d.pairx := rfl
@[simp] theorem Dev.setTb_dec (d : Dev) (n : Nat) (x : TimeBase) : (d.setTb n x).dec = d.dec := rfl
@[simp] theorem Dev.setTb_enc (d : Dev) (n : Nat) (x : TimeBase) : (d.setTb n x).enc = d.enc := rfl
@[simp] theorem Dev.setTb_comp (d : Dev) (n : Nat) (x : TimeBase) : (d.setTb n x).comp = d.comp := rfl
@[simp] theorem Dev.setTb_view (d : Dev) (n : Nat) (x : TimeBase) : (d.setTb n x).view = d.view := rfl
@[simp] theorem Dev.setTb_fwd (d : Dev) (n : Nat) (x : TimeBase) : (d.setTb n x).fwd = d.fwd := rfl
@[simp] theorem Dev.setTb_fsrc (d : Dev) (n : Nat) (x : TimeBase) : (d.setTb n x).fsrc = d.fsrc := rfl
@[simp] theorem Dev.setTb_waking (d : Dev) (n : Nat) (x : TimeBase) : (d.setTb n x).waking = d.waking := rfl
@[simp] theorem Dev.setTb_tapFrom (d : Dev) (n : Nat) (x : TimeBase) : (d.setTb n x).tapFrom = d.tapFrom := rfl
@[simp] theorem Dev.setLife_out (d : Dev) (n : Nat) (x : LegLife) : (d.setLife n x).out = d.out := rfl
@[simp] theorem Dev.setLife_free (d : Dev) (n : Nat) (x : LegLife) : (d.setLife n x).free = d.free := rfl
@[simp] theorem Dev.setLife_trig (d : Dev) (n : Nat) (x : LegLife) : (d.setLife n x).trig = d.trig := rfl
@[simp] theorem Dev.setLife_dict (d : Dev) (n : Nat) (x : LegLife) : (d.setLife n x).dict = d.dict := rfl
@[simp] theorem Dev.setLife_stage (d : Dev) (n : Nat) (x : LegLife) : (d.setLife n x).stage = d.stage := rfl
@[simp] theorem Dev.setLife_resultBefore (d : Dev) (n : Nat) (x : LegLife) : (d.setLife n x).resultBefore = d.resultBefore := rfl
@[simp] theorem Dev.setLife_tb (d : Dev) (n : Nat) (x : LegLife) : (d.setLife n x).tb = d.tb := rfl
@[simp] theorem Dev.setLife_gen (d : Dev) (n : Nat) (x : LegLife) : (d.setLife n x).gen = d.gen := rfl
@[simp] theorem Dev.setLife_pulses (d : Dev) (n : Nat) (x : LegLife) : (d.setLife n x).pulses = d.pulses := rfl
@[simp] theorem Dev.setLife_caps (d : Dev) (n : Nat) (x : LegLife) : (d.setLife n x).caps = d.caps := rfl
@[simp] theorem Dev.setLife_ptp (d : Dev) (n : Nat) (x : LegLife) : (d.setLife n x).ptp = d.ptp := rfl
@[simp] theorem Dev.setLife_can (d : Dev) (n : Nat) (x : LegLife) : (d.setLife n x).can = d.can := rfl
@[simp] theorem Dev.setLife_hdp (d : Dev) (n : Nat) (x : LegLife) : (d.setLife n x).hdp = d.hdp := rfl
@[simp] theorem Dev.setLife_sec (d : Dev) (n : Nat) (x : LegLife) : (d.setLife n x).sec = d.sec := rfl
@[simp] theorem Dev.setLife_faults (d : Dev) (n : Nat) (x : LegLife) : (d.setLife n x).faults = d.faults := rfl
@[simp] theorem Dev.setLife_gov (d : Dev) (n : Nat) (x : LegLife) : (d.setLife n x).gov = d.gov := rfl
@[simp] theorem Dev.setLife_pins (d : Dev) (n : Nat) (x : LegLife) : (d.setLife n x).pins = d.pins := rfl
@[simp] theorem Dev.setLife_rst (d : Dev) (n : Nat) (x : LegLife) : (d.setLife n x).rst = d.rst := rfl
@[simp] theorem Dev.setLife_ports (d : Dev) (n : Nat) (x : LegLife) : (d.setLife n x).ports = d.ports := rfl
@[simp] theorem Dev.setLife_pairs (d : Dev) (n : Nat) (x : LegLife) : (d.setLife n x).pairs = d.pairs := rfl
@[simp] theorem Dev.setLife_addrBuckets (d : Dev) (n : Nat) (x : LegLife) : (d.setLife n x).addrBuckets = d.addrBuckets := rfl
@[simp] theorem Dev.setLife_polOld (d : Dev) (n : Nat) (x : LegLife) : (d.setLife n x).polOld = d.polOld := rfl
@[simp] theorem Dev.setLife_rx (d : Dev) (n : Nat) (x : LegLife) : (d.setLife n x).rx = d.rx := rfl
@[simp] theorem Dev.setLife_loop (d : Dev) (n : Nat) (x : LegLife) : (d.setLife n x).loop = d.loop := rfl
@[simp] theorem Dev.setLife_tx (d : Dev) (n : Nat) (x : LegLife) : (d.setLife n x).tx = d.tx := rfl
@[simp] theorem Dev.setLife_audio (d : Dev) (n : Nat) (x : LegLife) : (d.setLife n x).audio = d.audio := rfl
@[simp] theorem Dev.setLife_mix (d : Dev) (n : Nat) (x : LegLife) : (d.setLife n x).mix = d.mix := rfl
@[simp] theorem Dev.setLife_pool (d : Dev) (n : Nat) (x : LegLife) : (d.setLife n x).pool = d.pool := rfl
@[simp] theorem Dev.setLife_chan (d : Dev) (n : Nat) (x : LegLife) : (d.setLife n x).chan = d.chan := rfl
@[simp] theorem Dev.setLife_panic (d : Dev) (n : Nat) (x : LegLife) : (d.setLife n x).panic = d.panic := rfl
@[simp] theorem Dev.setLife_panicAcc (d : Dev) (n : Nat) (x : LegLife) : (d.setLife n x).panicAcc = d.panicAcc := rfl
@[simp] theorem Dev.setLife_blk (d : Dev) (n : Nat) (x : LegLife) : (d.setLife n x).blk = d.blk := rfl
@[simp] theorem Dev.setLife_cell (d : Dev) (n : Nat) (x : LegLife) : (d.setLife n x).cell = d.cell := rfl
@[simp] theorem Dev.setLife_homes (d : Dev) (n : Nat) (x : LegLife) : (d.setLife n x).homes = d.homes := rfl
@[simp] theorem Dev.setLife_loads (d : Dev) (n : Nat) (x : LegLife) : (d.setLife n x).loads = d.loads := rfl
@[simp] theorem Dev.setLife_flows (d : Dev) (n : Nat) (x : LegLife) : (d.setLife n x).flows = d.flows := rfl
@[simp] theorem Dev.setLife_flowHomes (d : Dev) (n : Nat) (x : LegLife) : (d.setLife n x).flowHomes = d.flowHomes := rfl
@[simp] theorem Dev.setLife_arb (d : Dev) (n : Nat) (x : LegLife) : (d.setLife n x).arb = d.arb := rfl
@[simp] theorem Dev.setLife_pairx (d : Dev) (n : Nat) (x : LegLife) : (d.setLife n x).pairx = d.pairx := rfl
@[simp] theorem Dev.setLife_dec (d : Dev) (n : Nat) (x : LegLife) : (d.setLife n x).dec = d.dec := rfl
@[simp] theorem Dev.setLife_enc (d : Dev) (n : Nat) (x : LegLife) : (d.setLife n x).enc = d.enc := rfl
@[simp] theorem Dev.setLife_comp (d : Dev) (n : Nat) (x : LegLife) : (d.setLife n x).comp = d.comp := rfl
@[simp] theorem Dev.setLife_view (d : Dev) (n : Nat) (x : LegLife) : (d.setLife n x).view = d.view := rfl
@[simp] theorem Dev.setLife_fwd (d : Dev) (n : Nat) (x : LegLife) : (d.setLife n x).fwd = d.fwd := rfl
@[simp] theorem Dev.setLife_fsrc (d : Dev) (n : Nat) (x : LegLife) : (d.setLife n x).fsrc = d.fsrc := rfl
@[simp] theorem Dev.setLife_waking (d : Dev) (n : Nat) (x : LegLife) : (d.setLife n x).waking = d.waking := rfl
@[simp] theorem Dev.setLife_tapFrom (d : Dev) (n : Nat) (x : LegLife) : (d.setLife n x).tapFrom = d.tapFrom := rfl
@[simp] theorem Dev.setRx_out (d : Dev) (n : Nat) (x : Rx) : (d.setRx n x).out = d.out := rfl
@[simp] theorem Dev.setRx_free (d : Dev) (n : Nat) (x : Rx) : (d.setRx n x).free = d.free := rfl
@[simp] theorem Dev.setRx_trig (d : Dev) (n : Nat) (x : Rx) : (d.setRx n x).trig = d.trig := rfl
@[simp] theorem Dev.setRx_dict (d : Dev) (n : Nat) (x : Rx) : (d.setRx n x).dict = d.dict := rfl
@[simp] theorem Dev.setRx_stage (d : Dev) (n : Nat) (x : Rx) : (d.setRx n x).stage = d.stage := rfl
@[simp] theorem Dev.setRx_resultBefore (d : Dev) (n : Nat) (x : Rx) : (d.setRx n x).resultBefore = d.resultBefore := rfl
@[simp] theorem Dev.setRx_tb (d : Dev) (n : Nat) (x : Rx) : (d.setRx n x).tb = d.tb := rfl
@[simp] theorem Dev.setRx_gen (d : Dev) (n : Nat) (x : Rx) : (d.setRx n x).gen = d.gen := rfl
@[simp] theorem Dev.setRx_pulses (d : Dev) (n : Nat) (x : Rx) : (d.setRx n x).pulses = d.pulses := rfl
@[simp] theorem Dev.setRx_caps (d : Dev) (n : Nat) (x : Rx) : (d.setRx n x).caps = d.caps := rfl
@[simp] theorem Dev.setRx_ptp (d : Dev) (n : Nat) (x : Rx) : (d.setRx n x).ptp = d.ptp := rfl
@[simp] theorem Dev.setRx_can (d : Dev) (n : Nat) (x : Rx) : (d.setRx n x).can = d.can := rfl
@[simp] theorem Dev.setRx_hdp (d : Dev) (n : Nat) (x : Rx) : (d.setRx n x).hdp = d.hdp := rfl
@[simp] theorem Dev.setRx_sec (d : Dev) (n : Nat) (x : Rx) : (d.setRx n x).sec = d.sec := rfl
@[simp] theorem Dev.setRx_faults (d : Dev) (n : Nat) (x : Rx) : (d.setRx n x).faults = d.faults := rfl
@[simp] theorem Dev.setRx_gov (d : Dev) (n : Nat) (x : Rx) : (d.setRx n x).gov = d.gov := rfl
@[simp] theorem Dev.setRx_pins (d : Dev) (n : Nat) (x : Rx) : (d.setRx n x).pins = d.pins := rfl
@[simp] theorem Dev.setRx_rst (d : Dev) (n : Nat) (x : Rx) : (d.setRx n x).rst = d.rst := rfl
@[simp] theorem Dev.setRx_ports (d : Dev) (n : Nat) (x : Rx) : (d.setRx n x).ports = d.ports := rfl
@[simp] theorem Dev.setRx_pairs (d : Dev) (n : Nat) (x : Rx) : (d.setRx n x).pairs = d.pairs := rfl
@[simp] theorem Dev.setRx_addrBuckets (d : Dev) (n : Nat) (x : Rx) : (d.setRx n x).addrBuckets = d.addrBuckets := rfl
@[simp] theorem Dev.setRx_polOld (d : Dev) (n : Nat) (x : Rx) : (d.setRx n x).polOld = d.polOld := rfl
@[simp] theorem Dev.setRx_life (d : Dev) (n : Nat) (x : Rx) : (d.setRx n x).life = d.life := rfl
@[simp] theorem Dev.setRx_loop (d : Dev) (n : Nat) (x : Rx) : (d.setRx n x).loop = d.loop := rfl
@[simp] theorem Dev.setRx_tx (d : Dev) (n : Nat) (x : Rx) : (d.setRx n x).tx = d.tx := rfl
@[simp] theorem Dev.setRx_audio (d : Dev) (n : Nat) (x : Rx) : (d.setRx n x).audio = d.audio := rfl
@[simp] theorem Dev.setRx_mix (d : Dev) (n : Nat) (x : Rx) : (d.setRx n x).mix = d.mix := rfl
@[simp] theorem Dev.setRx_pool (d : Dev) (n : Nat) (x : Rx) : (d.setRx n x).pool = d.pool := rfl
@[simp] theorem Dev.setRx_chan (d : Dev) (n : Nat) (x : Rx) : (d.setRx n x).chan = d.chan := rfl
@[simp] theorem Dev.setRx_panic (d : Dev) (n : Nat) (x : Rx) : (d.setRx n x).panic = d.panic := rfl
@[simp] theorem Dev.setRx_panicAcc (d : Dev) (n : Nat) (x : Rx) : (d.setRx n x).panicAcc = d.panicAcc := rfl
@[simp] theorem Dev.setRx_blk (d : Dev) (n : Nat) (x : Rx) : (d.setRx n x).blk = d.blk := rfl
@[simp] theorem Dev.setRx_cell (d : Dev) (n : Nat) (x : Rx) : (d.setRx n x).cell = d.cell := rfl
@[simp] theorem Dev.setRx_homes (d : Dev) (n : Nat) (x : Rx) : (d.setRx n x).homes = d.homes := rfl
@[simp] theorem Dev.setRx_loads (d : Dev) (n : Nat) (x : Rx) : (d.setRx n x).loads = d.loads := rfl
@[simp] theorem Dev.setRx_flows (d : Dev) (n : Nat) (x : Rx) : (d.setRx n x).flows = d.flows := rfl
@[simp] theorem Dev.setRx_flowHomes (d : Dev) (n : Nat) (x : Rx) : (d.setRx n x).flowHomes = d.flowHomes := rfl
@[simp] theorem Dev.setRx_arb (d : Dev) (n : Nat) (x : Rx) : (d.setRx n x).arb = d.arb := rfl
@[simp] theorem Dev.setRx_pairx (d : Dev) (n : Nat) (x : Rx) : (d.setRx n x).pairx = d.pairx := rfl
@[simp] theorem Dev.setRx_dec (d : Dev) (n : Nat) (x : Rx) : (d.setRx n x).dec = d.dec := rfl
@[simp] theorem Dev.setRx_enc (d : Dev) (n : Nat) (x : Rx) : (d.setRx n x).enc = d.enc := rfl
@[simp] theorem Dev.setRx_comp (d : Dev) (n : Nat) (x : Rx) : (d.setRx n x).comp = d.comp := rfl
@[simp] theorem Dev.setRx_view (d : Dev) (n : Nat) (x : Rx) : (d.setRx n x).view = d.view := rfl
@[simp] theorem Dev.setRx_fwd (d : Dev) (n : Nat) (x : Rx) : (d.setRx n x).fwd = d.fwd := rfl
@[simp] theorem Dev.setRx_fsrc (d : Dev) (n : Nat) (x : Rx) : (d.setRx n x).fsrc = d.fsrc := rfl
@[simp] theorem Dev.setRx_waking (d : Dev) (n : Nat) (x : Rx) : (d.setRx n x).waking = d.waking := rfl
@[simp] theorem Dev.setRx_tapFrom (d : Dev) (n : Nat) (x : Rx) : (d.setRx n x).tapFrom = d.tapFrom := rfl
@[simp] theorem Dev.setLoop_out (d : Dev) (n : Nat) (x : Loop) : (d.setLoop n x).out = d.out := rfl
@[simp] theorem Dev.setLoop_free (d : Dev) (n : Nat) (x : Loop) : (d.setLoop n x).free = d.free := rfl
@[simp] theorem Dev.setLoop_trig (d : Dev) (n : Nat) (x : Loop) : (d.setLoop n x).trig = d.trig := rfl
@[simp] theorem Dev.setLoop_dict (d : Dev) (n : Nat) (x : Loop) : (d.setLoop n x).dict = d.dict := rfl
@[simp] theorem Dev.setLoop_stage (d : Dev) (n : Nat) (x : Loop) : (d.setLoop n x).stage = d.stage := rfl
@[simp] theorem Dev.setLoop_resultBefore (d : Dev) (n : Nat) (x : Loop) : (d.setLoop n x).resultBefore = d.resultBefore := rfl
@[simp] theorem Dev.setLoop_tb (d : Dev) (n : Nat) (x : Loop) : (d.setLoop n x).tb = d.tb := rfl
@[simp] theorem Dev.setLoop_gen (d : Dev) (n : Nat) (x : Loop) : (d.setLoop n x).gen = d.gen := rfl
@[simp] theorem Dev.setLoop_pulses (d : Dev) (n : Nat) (x : Loop) : (d.setLoop n x).pulses = d.pulses := rfl
@[simp] theorem Dev.setLoop_caps (d : Dev) (n : Nat) (x : Loop) : (d.setLoop n x).caps = d.caps := rfl
@[simp] theorem Dev.setLoop_ptp (d : Dev) (n : Nat) (x : Loop) : (d.setLoop n x).ptp = d.ptp := rfl
@[simp] theorem Dev.setLoop_can (d : Dev) (n : Nat) (x : Loop) : (d.setLoop n x).can = d.can := rfl
@[simp] theorem Dev.setLoop_hdp (d : Dev) (n : Nat) (x : Loop) : (d.setLoop n x).hdp = d.hdp := rfl
@[simp] theorem Dev.setLoop_sec (d : Dev) (n : Nat) (x : Loop) : (d.setLoop n x).sec = d.sec := rfl
@[simp] theorem Dev.setLoop_faults (d : Dev) (n : Nat) (x : Loop) : (d.setLoop n x).faults = d.faults := rfl
@[simp] theorem Dev.setLoop_gov (d : Dev) (n : Nat) (x : Loop) : (d.setLoop n x).gov = d.gov := rfl
@[simp] theorem Dev.setLoop_pins (d : Dev) (n : Nat) (x : Loop) : (d.setLoop n x).pins = d.pins := rfl
@[simp] theorem Dev.setLoop_rst (d : Dev) (n : Nat) (x : Loop) : (d.setLoop n x).rst = d.rst := rfl
@[simp] theorem Dev.setLoop_ports (d : Dev) (n : Nat) (x : Loop) : (d.setLoop n x).ports = d.ports := rfl
@[simp] theorem Dev.setLoop_pairs (d : Dev) (n : Nat) (x : Loop) : (d.setLoop n x).pairs = d.pairs := rfl
@[simp] theorem Dev.setLoop_addrBuckets (d : Dev) (n : Nat) (x : Loop) : (d.setLoop n x).addrBuckets = d.addrBuckets := rfl
@[simp] theorem Dev.setLoop_polOld (d : Dev) (n : Nat) (x : Loop) : (d.setLoop n x).polOld = d.polOld := rfl
@[simp] theorem Dev.setLoop_life (d : Dev) (n : Nat) (x : Loop) : (d.setLoop n x).life = d.life := rfl
@[simp] theorem Dev.setLoop_rx (d : Dev) (n : Nat) (x : Loop) : (d.setLoop n x).rx = d.rx := rfl
@[simp] theorem Dev.setLoop_tx (d : Dev) (n : Nat) (x : Loop) : (d.setLoop n x).tx = d.tx := rfl
@[simp] theorem Dev.setLoop_audio (d : Dev) (n : Nat) (x : Loop) : (d.setLoop n x).audio = d.audio := rfl
@[simp] theorem Dev.setLoop_mix (d : Dev) (n : Nat) (x : Loop) : (d.setLoop n x).mix = d.mix := rfl
@[simp] theorem Dev.setLoop_pool (d : Dev) (n : Nat) (x : Loop) : (d.setLoop n x).pool = d.pool := rfl
@[simp] theorem Dev.setLoop_chan (d : Dev) (n : Nat) (x : Loop) : (d.setLoop n x).chan = d.chan := rfl
@[simp] theorem Dev.setLoop_panic (d : Dev) (n : Nat) (x : Loop) : (d.setLoop n x).panic = d.panic := rfl
@[simp] theorem Dev.setLoop_panicAcc (d : Dev) (n : Nat) (x : Loop) : (d.setLoop n x).panicAcc = d.panicAcc := rfl
@[simp] theorem Dev.setLoop_blk (d : Dev) (n : Nat) (x : Loop) : (d.setLoop n x).blk = d.blk := rfl
@[simp] theorem Dev.setLoop_cell (d : Dev) (n : Nat) (x : Loop) : (d.setLoop n x).cell = d.cell := rfl
@[simp] theorem Dev.setLoop_homes (d : Dev) (n : Nat) (x : Loop) : (d.setLoop n x).homes = d.homes := rfl
@[simp] theorem Dev.setLoop_loads (d : Dev) (n : Nat) (x : Loop) : (d.setLoop n x).loads = d.loads := rfl
@[simp] theorem Dev.setLoop_flows (d : Dev) (n : Nat) (x : Loop) : (d.setLoop n x).flows = d.flows := rfl
@[simp] theorem Dev.setLoop_flowHomes (d : Dev) (n : Nat) (x : Loop) : (d.setLoop n x).flowHomes = d.flowHomes := rfl
@[simp] theorem Dev.setLoop_arb (d : Dev) (n : Nat) (x : Loop) : (d.setLoop n x).arb = d.arb := rfl
@[simp] theorem Dev.setLoop_pairx (d : Dev) (n : Nat) (x : Loop) : (d.setLoop n x).pairx = d.pairx := rfl
@[simp] theorem Dev.setLoop_dec (d : Dev) (n : Nat) (x : Loop) : (d.setLoop n x).dec = d.dec := rfl
@[simp] theorem Dev.setLoop_enc (d : Dev) (n : Nat) (x : Loop) : (d.setLoop n x).enc = d.enc := rfl
@[simp] theorem Dev.setLoop_comp (d : Dev) (n : Nat) (x : Loop) : (d.setLoop n x).comp = d.comp := rfl
@[simp] theorem Dev.setLoop_view (d : Dev) (n : Nat) (x : Loop) : (d.setLoop n x).view = d.view := rfl
@[simp] theorem Dev.setLoop_fwd (d : Dev) (n : Nat) (x : Loop) : (d.setLoop n x).fwd = d.fwd := rfl
@[simp] theorem Dev.setLoop_fsrc (d : Dev) (n : Nat) (x : Loop) : (d.setLoop n x).fsrc = d.fsrc := rfl
@[simp] theorem Dev.setLoop_waking (d : Dev) (n : Nat) (x : Loop) : (d.setLoop n x).waking = d.waking := rfl
@[simp] theorem Dev.setLoop_tapFrom (d : Dev) (n : Nat) (x : Loop) : (d.setLoop n x).tapFrom = d.tapFrom := rfl
@[simp] theorem Dev.setTx_out (d : Dev) (n : Nat) (x : Tx) : (d.setTx n x).out = d.out := rfl
@[simp] theorem Dev.setTx_free (d : Dev) (n : Nat) (x : Tx) : (d.setTx n x).free = d.free := rfl
@[simp] theorem Dev.setTx_trig (d : Dev) (n : Nat) (x : Tx) : (d.setTx n x).trig = d.trig := rfl
@[simp] theorem Dev.setTx_dict (d : Dev) (n : Nat) (x : Tx) : (d.setTx n x).dict = d.dict := rfl
@[simp] theorem Dev.setTx_stage (d : Dev) (n : Nat) (x : Tx) : (d.setTx n x).stage = d.stage := rfl
@[simp] theorem Dev.setTx_resultBefore (d : Dev) (n : Nat) (x : Tx) : (d.setTx n x).resultBefore = d.resultBefore := rfl
@[simp] theorem Dev.setTx_tb (d : Dev) (n : Nat) (x : Tx) : (d.setTx n x).tb = d.tb := rfl
@[simp] theorem Dev.setTx_gen (d : Dev) (n : Nat) (x : Tx) : (d.setTx n x).gen = d.gen := rfl
@[simp] theorem Dev.setTx_pulses (d : Dev) (n : Nat) (x : Tx) : (d.setTx n x).pulses = d.pulses := rfl
@[simp] theorem Dev.setTx_caps (d : Dev) (n : Nat) (x : Tx) : (d.setTx n x).caps = d.caps := rfl
@[simp] theorem Dev.setTx_ptp (d : Dev) (n : Nat) (x : Tx) : (d.setTx n x).ptp = d.ptp := rfl
@[simp] theorem Dev.setTx_can (d : Dev) (n : Nat) (x : Tx) : (d.setTx n x).can = d.can := rfl
@[simp] theorem Dev.setTx_hdp (d : Dev) (n : Nat) (x : Tx) : (d.setTx n x).hdp = d.hdp := rfl
@[simp] theorem Dev.setTx_sec (d : Dev) (n : Nat) (x : Tx) : (d.setTx n x).sec = d.sec := rfl
@[simp] theorem Dev.setTx_faults (d : Dev) (n : Nat) (x : Tx) : (d.setTx n x).faults = d.faults := rfl
@[simp] theorem Dev.setTx_gov (d : Dev) (n : Nat) (x : Tx) : (d.setTx n x).gov = d.gov := rfl
@[simp] theorem Dev.setTx_pins (d : Dev) (n : Nat) (x : Tx) : (d.setTx n x).pins = d.pins := rfl
@[simp] theorem Dev.setTx_rst (d : Dev) (n : Nat) (x : Tx) : (d.setTx n x).rst = d.rst := rfl
@[simp] theorem Dev.setTx_ports (d : Dev) (n : Nat) (x : Tx) : (d.setTx n x).ports = d.ports := rfl
@[simp] theorem Dev.setTx_pairs (d : Dev) (n : Nat) (x : Tx) : (d.setTx n x).pairs = d.pairs := rfl
@[simp] theorem Dev.setTx_addrBuckets (d : Dev) (n : Nat) (x : Tx) : (d.setTx n x).addrBuckets = d.addrBuckets := rfl
@[simp] theorem Dev.setTx_polOld (d : Dev) (n : Nat) (x : Tx) : (d.setTx n x).polOld = d.polOld := rfl
@[simp] theorem Dev.setTx_life (d : Dev) (n : Nat) (x : Tx) : (d.setTx n x).life = d.life := rfl
@[simp] theorem Dev.setTx_rx (d : Dev) (n : Nat) (x : Tx) : (d.setTx n x).rx = d.rx := rfl
@[simp] theorem Dev.setTx_loop (d : Dev) (n : Nat) (x : Tx) : (d.setTx n x).loop = d.loop := rfl
@[simp] theorem Dev.setTx_audio (d : Dev) (n : Nat) (x : Tx) : (d.setTx n x).audio = d.audio := rfl
@[simp] theorem Dev.setTx_mix (d : Dev) (n : Nat) (x : Tx) : (d.setTx n x).mix = d.mix := rfl
@[simp] theorem Dev.setTx_pool (d : Dev) (n : Nat) (x : Tx) : (d.setTx n x).pool = d.pool := rfl
@[simp] theorem Dev.setTx_chan (d : Dev) (n : Nat) (x : Tx) : (d.setTx n x).chan = d.chan := rfl
@[simp] theorem Dev.setTx_panic (d : Dev) (n : Nat) (x : Tx) : (d.setTx n x).panic = d.panic := rfl
@[simp] theorem Dev.setTx_panicAcc (d : Dev) (n : Nat) (x : Tx) : (d.setTx n x).panicAcc = d.panicAcc := rfl
@[simp] theorem Dev.setTx_blk (d : Dev) (n : Nat) (x : Tx) : (d.setTx n x).blk = d.blk := rfl
@[simp] theorem Dev.setTx_cell (d : Dev) (n : Nat) (x : Tx) : (d.setTx n x).cell = d.cell := rfl
@[simp] theorem Dev.setTx_homes (d : Dev) (n : Nat) (x : Tx) : (d.setTx n x).homes = d.homes := rfl
@[simp] theorem Dev.setTx_loads (d : Dev) (n : Nat) (x : Tx) : (d.setTx n x).loads = d.loads := rfl
@[simp] theorem Dev.setTx_flows (d : Dev) (n : Nat) (x : Tx) : (d.setTx n x).flows = d.flows := rfl
@[simp] theorem Dev.setTx_flowHomes (d : Dev) (n : Nat) (x : Tx) : (d.setTx n x).flowHomes = d.flowHomes := rfl
@[simp] theorem Dev.setTx_arb (d : Dev) (n : Nat) (x : Tx) : (d.setTx n x).arb = d.arb := rfl
@[simp] theorem Dev.setTx_pairx (d : Dev) (n : Nat) (x : Tx) : (d.setTx n x).pairx = d.pairx := rfl
@[simp] theorem Dev.setTx_dec (d : Dev) (n : Nat) (x : Tx) : (d.setTx n x).dec = d.dec := rfl
@[simp] theorem Dev.setTx_enc (d : Dev) (n : Nat) (x : Tx) : (d.setTx n x).enc = d.enc := rfl
@[simp] theorem Dev.setTx_comp (d : Dev) (n : Nat) (x : Tx) : (d.setTx n x).comp = d.comp := rfl
@[simp] theorem Dev.setTx_view (d : Dev) (n : Nat) (x : Tx) : (d.setTx n x).view = d.view := rfl
@[simp] theorem Dev.setTx_fwd (d : Dev) (n : Nat) (x : Tx) : (d.setTx n x).fwd = d.fwd := rfl
@[simp] theorem Dev.setTx_fsrc (d : Dev) (n : Nat) (x : Tx) : (d.setTx n x).fsrc = d.fsrc := rfl
@[simp] theorem Dev.setTx_waking (d : Dev) (n : Nat) (x : Tx) : (d.setTx n x).waking = d.waking := rfl
@[simp] theorem Dev.setTx_tapFrom (d : Dev) (n : Nat) (x : Tx) : (d.setTx n x).tapFrom = d.tapFrom := rfl
@[simp] theorem Dev.setAudio_out (d : Dev) (n : Nat) (x : LegAudio) : (d.setAudio n x).out = d.out := rfl
@[simp] theorem Dev.setAudio_free (d : Dev) (n : Nat) (x : LegAudio) : (d.setAudio n x).free = d.free := rfl
@[simp] theorem Dev.setAudio_trig (d : Dev) (n : Nat) (x : LegAudio) : (d.setAudio n x).trig = d.trig := rfl
@[simp] theorem Dev.setAudio_dict (d : Dev) (n : Nat) (x : LegAudio) : (d.setAudio n x).dict = d.dict := rfl
@[simp] theorem Dev.setAudio_stage (d : Dev) (n : Nat) (x : LegAudio) : (d.setAudio n x).stage = d.stage := rfl
@[simp] theorem Dev.setAudio_resultBefore (d : Dev) (n : Nat) (x : LegAudio) : (d.setAudio n x).resultBefore = d.resultBefore := rfl
@[simp] theorem Dev.setAudio_tb (d : Dev) (n : Nat) (x : LegAudio) : (d.setAudio n x).tb = d.tb := rfl
@[simp] theorem Dev.setAudio_gen (d : Dev) (n : Nat) (x : LegAudio) : (d.setAudio n x).gen = d.gen := rfl
@[simp] theorem Dev.setAudio_pulses (d : Dev) (n : Nat) (x : LegAudio) : (d.setAudio n x).pulses = d.pulses := rfl
@[simp] theorem Dev.setAudio_caps (d : Dev) (n : Nat) (x : LegAudio) : (d.setAudio n x).caps = d.caps := rfl
@[simp] theorem Dev.setAudio_ptp (d : Dev) (n : Nat) (x : LegAudio) : (d.setAudio n x).ptp = d.ptp := rfl
@[simp] theorem Dev.setAudio_can (d : Dev) (n : Nat) (x : LegAudio) : (d.setAudio n x).can = d.can := rfl
@[simp] theorem Dev.setAudio_hdp (d : Dev) (n : Nat) (x : LegAudio) : (d.setAudio n x).hdp = d.hdp := rfl
@[simp] theorem Dev.setAudio_sec (d : Dev) (n : Nat) (x : LegAudio) : (d.setAudio n x).sec = d.sec := rfl
@[simp] theorem Dev.setAudio_faults (d : Dev) (n : Nat) (x : LegAudio) : (d.setAudio n x).faults = d.faults := rfl
@[simp] theorem Dev.setAudio_gov (d : Dev) (n : Nat) (x : LegAudio) : (d.setAudio n x).gov = d.gov := rfl
@[simp] theorem Dev.setAudio_pins (d : Dev) (n : Nat) (x : LegAudio) : (d.setAudio n x).pins = d.pins := rfl
@[simp] theorem Dev.setAudio_rst (d : Dev) (n : Nat) (x : LegAudio) : (d.setAudio n x).rst = d.rst := rfl
@[simp] theorem Dev.setAudio_ports (d : Dev) (n : Nat) (x : LegAudio) : (d.setAudio n x).ports = d.ports := rfl
@[simp] theorem Dev.setAudio_pairs (d : Dev) (n : Nat) (x : LegAudio) : (d.setAudio n x).pairs = d.pairs := rfl
@[simp] theorem Dev.setAudio_addrBuckets (d : Dev) (n : Nat) (x : LegAudio) : (d.setAudio n x).addrBuckets = d.addrBuckets := rfl
@[simp] theorem Dev.setAudio_polOld (d : Dev) (n : Nat) (x : LegAudio) : (d.setAudio n x).polOld = d.polOld := rfl
@[simp] theorem Dev.setAudio_life (d : Dev) (n : Nat) (x : LegAudio) : (d.setAudio n x).life = d.life := rfl
@[simp] theorem Dev.setAudio_rx (d : Dev) (n : Nat) (x : LegAudio) : (d.setAudio n x).rx = d.rx := rfl
@[simp] theorem Dev.setAudio_loop (d : Dev) (n : Nat) (x : LegAudio) : (d.setAudio n x).loop = d.loop := rfl
@[simp] theorem Dev.setAudio_tx (d : Dev) (n : Nat) (x : LegAudio) : (d.setAudio n x).tx = d.tx := rfl
@[simp] theorem Dev.setAudio_mix (d : Dev) (n : Nat) (x : LegAudio) : (d.setAudio n x).mix = d.mix := rfl
@[simp] theorem Dev.setAudio_pool (d : Dev) (n : Nat) (x : LegAudio) : (d.setAudio n x).pool = d.pool := rfl
@[simp] theorem Dev.setAudio_chan (d : Dev) (n : Nat) (x : LegAudio) : (d.setAudio n x).chan = d.chan := rfl
@[simp] theorem Dev.setAudio_panic (d : Dev) (n : Nat) (x : LegAudio) : (d.setAudio n x).panic = d.panic := rfl
@[simp] theorem Dev.setAudio_panicAcc (d : Dev) (n : Nat) (x : LegAudio) : (d.setAudio n x).panicAcc = d.panicAcc := rfl
@[simp] theorem Dev.setAudio_blk (d : Dev) (n : Nat) (x : LegAudio) : (d.setAudio n x).blk = d.blk := rfl
@[simp] theorem Dev.setAudio_cell (d : Dev) (n : Nat) (x : LegAudio) : (d.setAudio n x).cell = d.cell := rfl
@[simp] theorem Dev.setAudio_homes (d : Dev) (n : Nat) (x : LegAudio) : (d.setAudio n x).homes = d.homes := rfl
@[simp] theorem Dev.setAudio_loads (d : Dev) (n : Nat) (x : LegAudio) : (d.setAudio n x).loads = d.loads := rfl
@[simp] theorem Dev.setAudio_flows (d : Dev) (n : Nat) (x : LegAudio) : (d.setAudio n x).flows = d.flows := rfl
@[simp] theorem Dev.setAudio_flowHomes (d : Dev) (n : Nat) (x : LegAudio) : (d.setAudio n x).flowHomes = d.flowHomes := rfl
@[simp] theorem Dev.setAudio_arb (d : Dev) (n : Nat) (x : LegAudio) : (d.setAudio n x).arb = d.arb := rfl
@[simp] theorem Dev.setAudio_pairx (d : Dev) (n : Nat) (x : LegAudio) : (d.setAudio n x).pairx = d.pairx := rfl
@[simp] theorem Dev.setAudio_dec (d : Dev) (n : Nat) (x : LegAudio) : (d.setAudio n x).dec = d.dec := rfl
@[simp] theorem Dev.setAudio_enc (d : Dev) (n : Nat) (x : LegAudio) : (d.setAudio n x).enc = d.enc := rfl
@[simp] theorem Dev.setAudio_comp (d : Dev) (n : Nat) (x : LegAudio) : (d.setAudio n x).comp = d.comp := rfl
@[simp] theorem Dev.setAudio_view (d : Dev) (n : Nat) (x : LegAudio) : (d.setAudio n x).view = d.view := rfl
@[simp] theorem Dev.setAudio_fwd (d : Dev) (n : Nat) (x : LegAudio) : (d.setAudio n x).fwd = d.fwd := rfl
@[simp] theorem Dev.setAudio_fsrc (d : Dev) (n : Nat) (x : LegAudio) : (d.setAudio n x).fsrc = d.fsrc := rfl
@[simp] theorem Dev.setAudio_waking (d : Dev) (n : Nat) (x : LegAudio) : (d.setAudio n x).waking = d.waking := rfl
@[simp] theorem Dev.setAudio_tapFrom (d : Dev) (n : Nat) (x : LegAudio) : (d.setAudio n x).tapFrom = d.tapFrom := rfl
@[simp] theorem Dev.setMix_out (d : Dev) (n : Nat) (x : ConfMix) : (d.setMix n x).out = d.out := rfl
@[simp] theorem Dev.setMix_free (d : Dev) (n : Nat) (x : ConfMix) : (d.setMix n x).free = d.free := rfl
@[simp] theorem Dev.setMix_trig (d : Dev) (n : Nat) (x : ConfMix) : (d.setMix n x).trig = d.trig := rfl
@[simp] theorem Dev.setMix_dict (d : Dev) (n : Nat) (x : ConfMix) : (d.setMix n x).dict = d.dict := rfl
@[simp] theorem Dev.setMix_stage (d : Dev) (n : Nat) (x : ConfMix) : (d.setMix n x).stage = d.stage := rfl
@[simp] theorem Dev.setMix_resultBefore (d : Dev) (n : Nat) (x : ConfMix) : (d.setMix n x).resultBefore = d.resultBefore := rfl
@[simp] theorem Dev.setMix_tb (d : Dev) (n : Nat) (x : ConfMix) : (d.setMix n x).tb = d.tb := rfl
@[simp] theorem Dev.setMix_gen (d : Dev) (n : Nat) (x : ConfMix) : (d.setMix n x).gen = d.gen := rfl
@[simp] theorem Dev.setMix_pulses (d : Dev) (n : Nat) (x : ConfMix) : (d.setMix n x).pulses = d.pulses := rfl
@[simp] theorem Dev.setMix_caps (d : Dev) (n : Nat) (x : ConfMix) : (d.setMix n x).caps = d.caps := rfl
@[simp] theorem Dev.setMix_ptp (d : Dev) (n : Nat) (x : ConfMix) : (d.setMix n x).ptp = d.ptp := rfl
@[simp] theorem Dev.setMix_can (d : Dev) (n : Nat) (x : ConfMix) : (d.setMix n x).can = d.can := rfl
@[simp] theorem Dev.setMix_hdp (d : Dev) (n : Nat) (x : ConfMix) : (d.setMix n x).hdp = d.hdp := rfl
@[simp] theorem Dev.setMix_sec (d : Dev) (n : Nat) (x : ConfMix) : (d.setMix n x).sec = d.sec := rfl
@[simp] theorem Dev.setMix_faults (d : Dev) (n : Nat) (x : ConfMix) : (d.setMix n x).faults = d.faults := rfl
@[simp] theorem Dev.setMix_gov (d : Dev) (n : Nat) (x : ConfMix) : (d.setMix n x).gov = d.gov := rfl
@[simp] theorem Dev.setMix_pins (d : Dev) (n : Nat) (x : ConfMix) : (d.setMix n x).pins = d.pins := rfl
@[simp] theorem Dev.setMix_rst (d : Dev) (n : Nat) (x : ConfMix) : (d.setMix n x).rst = d.rst := rfl
@[simp] theorem Dev.setMix_ports (d : Dev) (n : Nat) (x : ConfMix) : (d.setMix n x).ports = d.ports := rfl
@[simp] theorem Dev.setMix_pairs (d : Dev) (n : Nat) (x : ConfMix) : (d.setMix n x).pairs = d.pairs := rfl
@[simp] theorem Dev.setMix_addrBuckets (d : Dev) (n : Nat) (x : ConfMix) : (d.setMix n x).addrBuckets = d.addrBuckets := rfl
@[simp] theorem Dev.setMix_polOld (d : Dev) (n : Nat) (x : ConfMix) : (d.setMix n x).polOld = d.polOld := rfl
@[simp] theorem Dev.setMix_life (d : Dev) (n : Nat) (x : ConfMix) : (d.setMix n x).life = d.life := rfl
@[simp] theorem Dev.setMix_rx (d : Dev) (n : Nat) (x : ConfMix) : (d.setMix n x).rx = d.rx := rfl
@[simp] theorem Dev.setMix_loop (d : Dev) (n : Nat) (x : ConfMix) : (d.setMix n x).loop = d.loop := rfl
@[simp] theorem Dev.setMix_tx (d : Dev) (n : Nat) (x : ConfMix) : (d.setMix n x).tx = d.tx := rfl
@[simp] theorem Dev.setMix_audio (d : Dev) (n : Nat) (x : ConfMix) : (d.setMix n x).audio = d.audio := rfl
@[simp] theorem Dev.setMix_pool (d : Dev) (n : Nat) (x : ConfMix) : (d.setMix n x).pool = d.pool := rfl
@[simp] theorem Dev.setMix_chan (d : Dev) (n : Nat) (x : ConfMix) : (d.setMix n x).chan = d.chan := rfl
@[simp] theorem Dev.setMix_panic (d : Dev) (n : Nat) (x : ConfMix) : (d.setMix n x).panic = d.panic := rfl
@[simp] theorem Dev.setMix_panicAcc (d : Dev) (n : Nat) (x : ConfMix) : (d.setMix n x).panicAcc = d.panicAcc := rfl
@[simp] theorem Dev.setMix_blk (d : Dev) (n : Nat) (x : ConfMix) : (d.setMix n x).blk = d.blk := rfl
@[simp] theorem Dev.setMix_cell (d : Dev) (n : Nat) (x : ConfMix) : (d.setMix n x).cell = d.cell := rfl
@[simp] theorem Dev.setMix_homes (d : Dev) (n : Nat) (x : ConfMix) : (d.setMix n x).homes = d.homes := rfl
@[simp] theorem Dev.setMix_loads (d : Dev) (n : Nat) (x : ConfMix) : (d.setMix n x).loads = d.loads := rfl
@[simp] theorem Dev.setMix_flows (d : Dev) (n : Nat) (x : ConfMix) : (d.setMix n x).flows = d.flows := rfl
@[simp] theorem Dev.setMix_flowHomes (d : Dev) (n : Nat) (x : ConfMix) : (d.setMix n x).flowHomes = d.flowHomes := rfl
@[simp] theorem Dev.setMix_arb (d : Dev) (n : Nat) (x : ConfMix) : (d.setMix n x).arb = d.arb := rfl
@[simp] theorem Dev.setMix_pairx (d : Dev) (n : Nat) (x : ConfMix) : (d.setMix n x).pairx = d.pairx := rfl
@[simp] theorem Dev.setMix_dec (d : Dev) (n : Nat) (x : ConfMix) : (d.setMix n x).dec = d.dec := rfl
@[simp] theorem Dev.setMix_enc (d : Dev) (n : Nat) (x : ConfMix) : (d.setMix n x).enc = d.enc := rfl
@[simp] theorem Dev.setMix_comp (d : Dev) (n : Nat) (x : ConfMix) : (d.setMix n x).comp = d.comp := rfl
@[simp] theorem Dev.setMix_view (d : Dev) (n : Nat) (x : ConfMix) : (d.setMix n x).view = d.view := rfl
@[simp] theorem Dev.setMix_fwd (d : Dev) (n : Nat) (x : ConfMix) : (d.setMix n x).fwd = d.fwd := rfl
@[simp] theorem Dev.setMix_fsrc (d : Dev) (n : Nat) (x : ConfMix) : (d.setMix n x).fsrc = d.fsrc := rfl
@[simp] theorem Dev.setMix_waking (d : Dev) (n : Nat) (x : ConfMix) : (d.setMix n x).waking = d.waking := rfl
@[simp] theorem Dev.setMix_tapFrom (d : Dev) (n : Nat) (x : ConfMix) : (d.setMix n x).tapFrom = d.tapFrom := rfl
@[simp] theorem Dev.setKeys_out (d : Dev) (n : Nat) (x : LegKeys) : (d.setKeys n x).out = d.out := rfl
@[simp] theorem Dev.setKeys_free (d : Dev) (n : Nat) (x : LegKeys) : (d.setKeys n x).free = d.free := rfl
@[simp] theorem Dev.setKeys_trig (d : Dev) (n : Nat) (x : LegKeys) : (d.setKeys n x).trig = d.trig := rfl
@[simp] theorem Dev.setKeys_dict (d : Dev) (n : Nat) (x : LegKeys) : (d.setKeys n x).dict = d.dict := rfl
@[simp] theorem Dev.setKeys_stage (d : Dev) (n : Nat) (x : LegKeys) : (d.setKeys n x).stage = d.stage := rfl
@[simp] theorem Dev.setKeys_resultBefore (d : Dev) (n : Nat) (x : LegKeys) : (d.setKeys n x).resultBefore = d.resultBefore := rfl
@[simp] theorem Dev.setKeys_tb (d : Dev) (n : Nat) (x : LegKeys) : (d.setKeys n x).tb = d.tb := rfl
@[simp] theorem Dev.setKeys_gen (d : Dev) (n : Nat) (x : LegKeys) : (d.setKeys n x).gen = d.gen := rfl
@[simp] theorem Dev.setKeys_pulses (d : Dev) (n : Nat) (x : LegKeys) : (d.setKeys n x).pulses = d.pulses := rfl
@[simp] theorem Dev.setKeys_caps (d : Dev) (n : Nat) (x : LegKeys) : (d.setKeys n x).caps = d.caps := rfl
@[simp] theorem Dev.setKeys_ptp (d : Dev) (n : Nat) (x : LegKeys) : (d.setKeys n x).ptp = d.ptp := rfl
@[simp] theorem Dev.setKeys_can (d : Dev) (n : Nat) (x : LegKeys) : (d.setKeys n x).can = d.can := rfl
@[simp] theorem Dev.setKeys_hdp (d : Dev) (n : Nat) (x : LegKeys) : (d.setKeys n x).hdp = d.hdp := rfl
@[simp] theorem Dev.setKeys_faults (d : Dev) (n : Nat) (x : LegKeys) : (d.setKeys n x).faults = d.faults := rfl
@[simp] theorem Dev.setKeys_gov (d : Dev) (n : Nat) (x : LegKeys) : (d.setKeys n x).gov = d.gov := rfl
@[simp] theorem Dev.setKeys_pins (d : Dev) (n : Nat) (x : LegKeys) : (d.setKeys n x).pins = d.pins := rfl
@[simp] theorem Dev.setKeys_rst (d : Dev) (n : Nat) (x : LegKeys) : (d.setKeys n x).rst = d.rst := rfl
@[simp] theorem Dev.setKeys_ports (d : Dev) (n : Nat) (x : LegKeys) : (d.setKeys n x).ports = d.ports := rfl
@[simp] theorem Dev.setKeys_pairs (d : Dev) (n : Nat) (x : LegKeys) : (d.setKeys n x).pairs = d.pairs := rfl
@[simp] theorem Dev.setKeys_addrBuckets (d : Dev) (n : Nat) (x : LegKeys) : (d.setKeys n x).addrBuckets = d.addrBuckets := rfl
@[simp] theorem Dev.setKeys_polOld (d : Dev) (n : Nat) (x : LegKeys) : (d.setKeys n x).polOld = d.polOld := rfl
@[simp] theorem Dev.setKeys_life (d : Dev) (n : Nat) (x : LegKeys) : (d.setKeys n x).life = d.life := rfl
@[simp] theorem Dev.setKeys_rx (d : Dev) (n : Nat) (x : LegKeys) : (d.setKeys n x).rx = d.rx := rfl
@[simp] theorem Dev.setKeys_loop (d : Dev) (n : Nat) (x : LegKeys) : (d.setKeys n x).loop = d.loop := rfl
@[simp] theorem Dev.setKeys_tx (d : Dev) (n : Nat) (x : LegKeys) : (d.setKeys n x).tx = d.tx := rfl
@[simp] theorem Dev.setKeys_audio (d : Dev) (n : Nat) (x : LegKeys) : (d.setKeys n x).audio = d.audio := rfl
@[simp] theorem Dev.setKeys_mix (d : Dev) (n : Nat) (x : LegKeys) : (d.setKeys n x).mix = d.mix := rfl
@[simp] theorem Dev.setKeys_pool (d : Dev) (n : Nat) (x : LegKeys) : (d.setKeys n x).pool = d.pool := rfl
@[simp] theorem Dev.setKeys_chan (d : Dev) (n : Nat) (x : LegKeys) : (d.setKeys n x).chan = d.chan := rfl
@[simp] theorem Dev.setKeys_panic (d : Dev) (n : Nat) (x : LegKeys) : (d.setKeys n x).panic = d.panic := rfl
@[simp] theorem Dev.setKeys_panicAcc (d : Dev) (n : Nat) (x : LegKeys) : (d.setKeys n x).panicAcc = d.panicAcc := rfl
@[simp] theorem Dev.setKeys_blk (d : Dev) (n : Nat) (x : LegKeys) : (d.setKeys n x).blk = d.blk := rfl
@[simp] theorem Dev.setKeys_cell (d : Dev) (n : Nat) (x : LegKeys) : (d.setKeys n x).cell = d.cell := rfl
@[simp] theorem Dev.setKeys_homes (d : Dev) (n : Nat) (x : LegKeys) : (d.setKeys n x).homes = d.homes := rfl
@[simp] theorem Dev.setKeys_loads (d : Dev) (n : Nat) (x : LegKeys) : (d.setKeys n x).loads = d.loads := rfl
@[simp] theorem Dev.setKeys_flows (d : Dev) (n : Nat) (x : LegKeys) : (d.setKeys n x).flows = d.flows := rfl
@[simp] theorem Dev.setKeys_flowHomes (d : Dev) (n : Nat) (x : LegKeys) : (d.setKeys n x).flowHomes = d.flowHomes := rfl
@[simp] theorem Dev.setKeys_arb (d : Dev) (n : Nat) (x : LegKeys) : (d.setKeys n x).arb = d.arb := rfl
@[simp] theorem Dev.setKeys_pairx (d : Dev) (n : Nat) (x : LegKeys) : (d.setKeys n x).pairx = d.pairx := rfl
@[simp] theorem Dev.setKeys_dec (d : Dev) (n : Nat) (x : LegKeys) : (d.setKeys n x).dec = d.dec := rfl
@[simp] theorem Dev.setKeys_enc (d : Dev) (n : Nat) (x : LegKeys) : (d.setKeys n x).enc = d.enc := rfl
@[simp] theorem Dev.setKeys_comp (d : Dev) (n : Nat) (x : LegKeys) : (d.setKeys n x).comp = d.comp := rfl
@[simp] theorem Dev.setKeys_view (d : Dev) (n : Nat) (x : LegKeys) : (d.setKeys n x).view = d.view := rfl
@[simp] theorem Dev.setKeys_fwd (d : Dev) (n : Nat) (x : LegKeys) : (d.setKeys n x).fwd = d.fwd := rfl
@[simp] theorem Dev.setKeys_fsrc (d : Dev) (n : Nat) (x : LegKeys) : (d.setKeys n x).fsrc = d.fsrc := rfl
@[simp] theorem Dev.setKeys_waking (d : Dev) (n : Nat) (x : LegKeys) : (d.setKeys n x).waking = d.waking := rfl
@[simp] theorem Dev.setKeys_tapFrom (d : Dev) (n : Nat) (x : LegKeys) : (d.setKeys n x).tapFrom = d.tapFrom := rfl
@[simp] theorem Dev.setPort_out (d : Dev) (n : Nat) (x : Port) : (d.setPort n x).out = d.out := rfl
@[simp] theorem Dev.setPort_free (d : Dev) (n : Nat) (x : Port) : (d.setPort n x).free = d.free := rfl
@[simp] theorem Dev.setPort_trig (d : Dev) (n : Nat) (x : Port) : (d.setPort n x).trig = d.trig := rfl
@[simp] theorem Dev.setPort_dict (d : Dev) (n : Nat) (x : Port) : (d.setPort n x).dict = d.dict := rfl
@[simp] theorem Dev.setPort_stage (d : Dev) (n : Nat) (x : Port) : (d.setPort n x).stage = d.stage := rfl
@[simp] theorem Dev.setPort_resultBefore (d : Dev) (n : Nat) (x : Port) : (d.setPort n x).resultBefore = d.resultBefore := rfl
@[simp] theorem Dev.setPort_tb (d : Dev) (n : Nat) (x : Port) : (d.setPort n x).tb = d.tb := rfl
@[simp] theorem Dev.setPort_gen (d : Dev) (n : Nat) (x : Port) : (d.setPort n x).gen = d.gen := rfl
@[simp] theorem Dev.setPort_pulses (d : Dev) (n : Nat) (x : Port) : (d.setPort n x).pulses = d.pulses := rfl
@[simp] theorem Dev.setPort_caps (d : Dev) (n : Nat) (x : Port) : (d.setPort n x).caps = d.caps := rfl
@[simp] theorem Dev.setPort_ptp (d : Dev) (n : Nat) (x : Port) : (d.setPort n x).ptp = d.ptp := rfl
@[simp] theorem Dev.setPort_can (d : Dev) (n : Nat) (x : Port) : (d.setPort n x).can = d.can := rfl
@[simp] theorem Dev.setPort_hdp (d : Dev) (n : Nat) (x : Port) : (d.setPort n x).hdp = d.hdp := rfl
@[simp] theorem Dev.setPort_sec (d : Dev) (n : Nat) (x : Port) : (d.setPort n x).sec = d.sec := rfl
@[simp] theorem Dev.setPort_faults (d : Dev) (n : Nat) (x : Port) : (d.setPort n x).faults = d.faults := rfl
@[simp] theorem Dev.setPort_gov (d : Dev) (n : Nat) (x : Port) : (d.setPort n x).gov = d.gov := rfl
@[simp] theorem Dev.setPort_pins (d : Dev) (n : Nat) (x : Port) : (d.setPort n x).pins = d.pins := rfl
@[simp] theorem Dev.setPort_rst (d : Dev) (n : Nat) (x : Port) : (d.setPort n x).rst = d.rst := rfl
@[simp] theorem Dev.setPort_pairs (d : Dev) (n : Nat) (x : Port) : (d.setPort n x).pairs = d.pairs := rfl
@[simp] theorem Dev.setPort_addrBuckets (d : Dev) (n : Nat) (x : Port) : (d.setPort n x).addrBuckets = d.addrBuckets := rfl
@[simp] theorem Dev.setPort_polOld (d : Dev) (n : Nat) (x : Port) : (d.setPort n x).polOld = d.polOld := rfl
@[simp] theorem Dev.setPort_life (d : Dev) (n : Nat) (x : Port) : (d.setPort n x).life = d.life := rfl
@[simp] theorem Dev.setPort_rx (d : Dev) (n : Nat) (x : Port) : (d.setPort n x).rx = d.rx := rfl
@[simp] theorem Dev.setPort_loop (d : Dev) (n : Nat) (x : Port) : (d.setPort n x).loop = d.loop := rfl
@[simp] theorem Dev.setPort_tx (d : Dev) (n : Nat) (x : Port) : (d.setPort n x).tx = d.tx := rfl
@[simp] theorem Dev.setPort_audio (d : Dev) (n : Nat) (x : Port) : (d.setPort n x).audio = d.audio := rfl
@[simp] theorem Dev.setPort_mix (d : Dev) (n : Nat) (x : Port) : (d.setPort n x).mix = d.mix := rfl
@[simp] theorem Dev.setPort_pool (d : Dev) (n : Nat) (x : Port) : (d.setPort n x).pool = d.pool := rfl
@[simp] theorem Dev.setPort_chan (d : Dev) (n : Nat) (x : Port) : (d.setPort n x).chan = d.chan := rfl
@[simp] theorem Dev.setPort_panic (d : Dev) (n : Nat) (x : Port) : (d.setPort n x).panic = d.panic := rfl
@[simp] theorem Dev.setPort_panicAcc (d : Dev) (n : Nat) (x : Port) : (d.setPort n x).panicAcc = d.panicAcc := rfl
@[simp] theorem Dev.setPort_blk (d : Dev) (n : Nat) (x : Port) : (d.setPort n x).blk = d.blk := rfl
@[simp] theorem Dev.setPort_cell (d : Dev) (n : Nat) (x : Port) : (d.setPort n x).cell = d.cell := rfl
@[simp] theorem Dev.setPort_homes (d : Dev) (n : Nat) (x : Port) : (d.setPort n x).homes = d.homes := rfl
@[simp] theorem Dev.setPort_loads (d : Dev) (n : Nat) (x : Port) : (d.setPort n x).loads = d.loads := rfl
@[simp] theorem Dev.setPort_flows (d : Dev) (n : Nat) (x : Port) : (d.setPort n x).flows = d.flows := rfl
@[simp] theorem Dev.setPort_flowHomes (d : Dev) (n : Nat) (x : Port) : (d.setPort n x).flowHomes = d.flowHomes := rfl
@[simp] theorem Dev.setPort_arb (d : Dev) (n : Nat) (x : Port) : (d.setPort n x).arb = d.arb := rfl
@[simp] theorem Dev.setPort_pairx (d : Dev) (n : Nat) (x : Port) : (d.setPort n x).pairx = d.pairx := rfl
@[simp] theorem Dev.setPort_dec (d : Dev) (n : Nat) (x : Port) : (d.setPort n x).dec = d.dec := rfl
@[simp] theorem Dev.setPort_enc (d : Dev) (n : Nat) (x : Port) : (d.setPort n x).enc = d.enc := rfl
@[simp] theorem Dev.setPort_comp (d : Dev) (n : Nat) (x : Port) : (d.setPort n x).comp = d.comp := rfl
@[simp] theorem Dev.setPort_view (d : Dev) (n : Nat) (x : Port) : (d.setPort n x).view = d.view := rfl
@[simp] theorem Dev.setPort_fwd (d : Dev) (n : Nat) (x : Port) : (d.setPort n x).fwd = d.fwd := rfl
@[simp] theorem Dev.setPort_fsrc (d : Dev) (n : Nat) (x : Port) : (d.setPort n x).fsrc = d.fsrc := rfl
@[simp] theorem Dev.setPort_waking (d : Dev) (n : Nat) (x : Port) : (d.setPort n x).waking = d.waking := rfl
@[simp] theorem Dev.setPort_tapFrom (d : Dev) (n : Nat) (x : Port) : (d.setPort n x).tapFrom = d.tapFrom := rfl
@[simp] theorem Dev.setCap_out (d : Dev) (n : Nat) (x : CaptureIn) : (d.setCap n x).out = d.out := rfl
@[simp] theorem Dev.setCap_free (d : Dev) (n : Nat) (x : CaptureIn) : (d.setCap n x).free = d.free := rfl
@[simp] theorem Dev.setCap_trig (d : Dev) (n : Nat) (x : CaptureIn) : (d.setCap n x).trig = d.trig := rfl
@[simp] theorem Dev.setCap_dict (d : Dev) (n : Nat) (x : CaptureIn) : (d.setCap n x).dict = d.dict := rfl
@[simp] theorem Dev.setCap_stage (d : Dev) (n : Nat) (x : CaptureIn) : (d.setCap n x).stage = d.stage := rfl
@[simp] theorem Dev.setCap_resultBefore (d : Dev) (n : Nat) (x : CaptureIn) : (d.setCap n x).resultBefore = d.resultBefore := rfl
@[simp] theorem Dev.setCap_tb (d : Dev) (n : Nat) (x : CaptureIn) : (d.setCap n x).tb = d.tb := rfl
@[simp] theorem Dev.setCap_gen (d : Dev) (n : Nat) (x : CaptureIn) : (d.setCap n x).gen = d.gen := rfl
@[simp] theorem Dev.setCap_pulses (d : Dev) (n : Nat) (x : CaptureIn) : (d.setCap n x).pulses = d.pulses := rfl
@[simp] theorem Dev.setCap_ptp (d : Dev) (n : Nat) (x : CaptureIn) : (d.setCap n x).ptp = d.ptp := rfl
@[simp] theorem Dev.setCap_can (d : Dev) (n : Nat) (x : CaptureIn) : (d.setCap n x).can = d.can := rfl
@[simp] theorem Dev.setCap_hdp (d : Dev) (n : Nat) (x : CaptureIn) : (d.setCap n x).hdp = d.hdp := rfl
@[simp] theorem Dev.setCap_sec (d : Dev) (n : Nat) (x : CaptureIn) : (d.setCap n x).sec = d.sec := rfl
@[simp] theorem Dev.setCap_faults (d : Dev) (n : Nat) (x : CaptureIn) : (d.setCap n x).faults = d.faults := rfl
@[simp] theorem Dev.setCap_gov (d : Dev) (n : Nat) (x : CaptureIn) : (d.setCap n x).gov = d.gov := rfl
@[simp] theorem Dev.setCap_pins (d : Dev) (n : Nat) (x : CaptureIn) : (d.setCap n x).pins = d.pins := rfl
@[simp] theorem Dev.setCap_rst (d : Dev) (n : Nat) (x : CaptureIn) : (d.setCap n x).rst = d.rst := rfl
@[simp] theorem Dev.setCap_ports (d : Dev) (n : Nat) (x : CaptureIn) : (d.setCap n x).ports = d.ports := rfl
@[simp] theorem Dev.setCap_pairs (d : Dev) (n : Nat) (x : CaptureIn) : (d.setCap n x).pairs = d.pairs := rfl
@[simp] theorem Dev.setCap_addrBuckets (d : Dev) (n : Nat) (x : CaptureIn) : (d.setCap n x).addrBuckets = d.addrBuckets := rfl
@[simp] theorem Dev.setCap_polOld (d : Dev) (n : Nat) (x : CaptureIn) : (d.setCap n x).polOld = d.polOld := rfl
@[simp] theorem Dev.setCap_life (d : Dev) (n : Nat) (x : CaptureIn) : (d.setCap n x).life = d.life := rfl
@[simp] theorem Dev.setCap_rx (d : Dev) (n : Nat) (x : CaptureIn) : (d.setCap n x).rx = d.rx := rfl
@[simp] theorem Dev.setCap_loop (d : Dev) (n : Nat) (x : CaptureIn) : (d.setCap n x).loop = d.loop := rfl
@[simp] theorem Dev.setCap_tx (d : Dev) (n : Nat) (x : CaptureIn) : (d.setCap n x).tx = d.tx := rfl
@[simp] theorem Dev.setCap_audio (d : Dev) (n : Nat) (x : CaptureIn) : (d.setCap n x).audio = d.audio := rfl
@[simp] theorem Dev.setCap_mix (d : Dev) (n : Nat) (x : CaptureIn) : (d.setCap n x).mix = d.mix := rfl
@[simp] theorem Dev.setCap_pool (d : Dev) (n : Nat) (x : CaptureIn) : (d.setCap n x).pool = d.pool := rfl
@[simp] theorem Dev.setCap_chan (d : Dev) (n : Nat) (x : CaptureIn) : (d.setCap n x).chan = d.chan := rfl
@[simp] theorem Dev.setCap_panic (d : Dev) (n : Nat) (x : CaptureIn) : (d.setCap n x).panic = d.panic := rfl
@[simp] theorem Dev.setCap_panicAcc (d : Dev) (n : Nat) (x : CaptureIn) : (d.setCap n x).panicAcc = d.panicAcc := rfl
@[simp] theorem Dev.setCap_blk (d : Dev) (n : Nat) (x : CaptureIn) : (d.setCap n x).blk = d.blk := rfl
@[simp] theorem Dev.setCap_cell (d : Dev) (n : Nat) (x : CaptureIn) : (d.setCap n x).cell = d.cell := rfl
@[simp] theorem Dev.setCap_homes (d : Dev) (n : Nat) (x : CaptureIn) : (d.setCap n x).homes = d.homes := rfl
@[simp] theorem Dev.setCap_loads (d : Dev) (n : Nat) (x : CaptureIn) : (d.setCap n x).loads = d.loads := rfl
@[simp] theorem Dev.setCap_flows (d : Dev) (n : Nat) (x : CaptureIn) : (d.setCap n x).flows = d.flows := rfl
@[simp] theorem Dev.setCap_flowHomes (d : Dev) (n : Nat) (x : CaptureIn) : (d.setCap n x).flowHomes = d.flowHomes := rfl
@[simp] theorem Dev.setCap_arb (d : Dev) (n : Nat) (x : CaptureIn) : (d.setCap n x).arb = d.arb := rfl
@[simp] theorem Dev.setCap_pairx (d : Dev) (n : Nat) (x : CaptureIn) : (d.setCap n x).pairx = d.pairx := rfl
@[simp] theorem Dev.setCap_dec (d : Dev) (n : Nat) (x : CaptureIn) : (d.setCap n x).dec = d.dec := rfl
@[simp] theorem Dev.setCap_enc (d : Dev) (n : Nat) (x : CaptureIn) : (d.setCap n x).enc = d.enc := rfl
@[simp] theorem Dev.setCap_comp (d : Dev) (n : Nat) (x : CaptureIn) : (d.setCap n x).comp = d.comp := rfl
@[simp] theorem Dev.setCap_view (d : Dev) (n : Nat) (x : CaptureIn) : (d.setCap n x).view = d.view := rfl
@[simp] theorem Dev.setCap_fwd (d : Dev) (n : Nat) (x : CaptureIn) : (d.setCap n x).fwd = d.fwd := rfl
@[simp] theorem Dev.setCap_fsrc (d : Dev) (n : Nat) (x : CaptureIn) : (d.setCap n x).fsrc = d.fsrc := rfl
@[simp] theorem Dev.setCap_waking (d : Dev) (n : Nat) (x : CaptureIn) : (d.setCap n x).waking = d.waking := rfl
@[simp] theorem Dev.setCap_tapFrom (d : Dev) (n : Nat) (x : CaptureIn) : (d.setCap n x).tapFrom = d.tapFrom := rfl
@[simp] theorem Dev.logRec_out (d : Dev) (r : Rec) (a : Option Nat) : (d.logRec r a).out = d.out := rfl
@[simp] theorem Dev.logRec_free (d : Dev) (r : Rec) (a : Option Nat) : (d.logRec r a).free = d.free := rfl
@[simp] theorem Dev.logRec_trig (d : Dev) (r : Rec) (a : Option Nat) : (d.logRec r a).trig = d.trig := rfl
@[simp] theorem Dev.logRec_dict (d : Dev) (r : Rec) (a : Option Nat) : (d.logRec r a).dict = d.dict := rfl
@[simp] theorem Dev.logRec_stage (d : Dev) (r : Rec) (a : Option Nat) : (d.logRec r a).stage = d.stage := rfl
@[simp] theorem Dev.logRec_resultBefore (d : Dev) (r : Rec) (a : Option Nat) : (d.logRec r a).resultBefore = d.resultBefore := rfl
@[simp] theorem Dev.logRec_tb (d : Dev) (r : Rec) (a : Option Nat) : (d.logRec r a).tb = d.tb := rfl
@[simp] theorem Dev.logRec_gen (d : Dev) (r : Rec) (a : Option Nat) : (d.logRec r a).gen = d.gen := rfl
@[simp] theorem Dev.logRec_pulses (d : Dev) (r : Rec) (a : Option Nat) : (d.logRec r a).pulses = d.pulses := rfl
@[simp] theorem Dev.logRec_caps (d : Dev) (r : Rec) (a : Option Nat) : (d.logRec r a).caps = d.caps := rfl
@[simp] theorem Dev.logRec_ptp (d : Dev) (r : Rec) (a : Option Nat) : (d.logRec r a).ptp = d.ptp := rfl
@[simp] theorem Dev.logRec_can (d : Dev) (r : Rec) (a : Option Nat) : (d.logRec r a).can = d.can := rfl
@[simp] theorem Dev.logRec_hdp (d : Dev) (r : Rec) (a : Option Nat) : (d.logRec r a).hdp = d.hdp := rfl
@[simp] theorem Dev.logRec_sec (d : Dev) (r : Rec) (a : Option Nat) : (d.logRec r a).sec = d.sec := rfl
@[simp] theorem Dev.logRec_gov (d : Dev) (r : Rec) (a : Option Nat) : (d.logRec r a).gov = d.gov := rfl
@[simp] theorem Dev.logRec_pins (d : Dev) (r : Rec) (a : Option Nat) : (d.logRec r a).pins = d.pins := rfl
@[simp] theorem Dev.logRec_rst (d : Dev) (r : Rec) (a : Option Nat) : (d.logRec r a).rst = d.rst := rfl
@[simp] theorem Dev.logRec_ports (d : Dev) (r : Rec) (a : Option Nat) : (d.logRec r a).ports = d.ports := rfl
@[simp] theorem Dev.logRec_pairs (d : Dev) (r : Rec) (a : Option Nat) : (d.logRec r a).pairs = d.pairs := rfl
@[simp] theorem Dev.logRec_addrBuckets (d : Dev) (r : Rec) (a : Option Nat) : (d.logRec r a).addrBuckets = d.addrBuckets := rfl
@[simp] theorem Dev.logRec_polOld (d : Dev) (r : Rec) (a : Option Nat) : (d.logRec r a).polOld = d.polOld := rfl
@[simp] theorem Dev.logRec_life (d : Dev) (r : Rec) (a : Option Nat) : (d.logRec r a).life = d.life := rfl
@[simp] theorem Dev.logRec_rx (d : Dev) (r : Rec) (a : Option Nat) : (d.logRec r a).rx = d.rx := rfl
@[simp] theorem Dev.logRec_loop (d : Dev) (r : Rec) (a : Option Nat) : (d.logRec r a).loop = d.loop := rfl
@[simp] theorem Dev.logRec_tx (d : Dev) (r : Rec) (a : Option Nat) : (d.logRec r a).tx = d.tx := rfl
@[simp] theorem Dev.logRec_audio (d : Dev) (r : Rec) (a : Option Nat) : (d.logRec r a).audio = d.audio := rfl
@[simp] theorem Dev.logRec_mix (d : Dev) (r : Rec) (a : Option Nat) : (d.logRec r a).mix = d.mix := rfl
@[simp] theorem Dev.logRec_pool (d : Dev) (r : Rec) (a : Option Nat) : (d.logRec r a).pool = d.pool := rfl
@[simp] theorem Dev.logRec_chan (d : Dev) (r : Rec) (a : Option Nat) : (d.logRec r a).chan = d.chan := rfl
@[simp] theorem Dev.logRec_panic (d : Dev) (r : Rec) (a : Option Nat) : (d.logRec r a).panic = d.panic := rfl
@[simp] theorem Dev.logRec_panicAcc (d : Dev) (r : Rec) (a : Option Nat) : (d.logRec r a).panicAcc = d.panicAcc := rfl
@[simp] theorem Dev.logRec_blk (d : Dev) (r : Rec) (a : Option Nat) : (d.logRec r a).blk = d.blk := rfl
@[simp] theorem Dev.logRec_cell (d : Dev) (r : Rec) (a : Option Nat) : (d.logRec r a).cell = d.cell := rfl
@[simp] theorem Dev.logRec_homes (d : Dev) (r : Rec) (a : Option Nat) : (d.logRec r a).homes = d.homes := rfl
@[simp] theorem Dev.logRec_loads (d : Dev) (r : Rec) (a : Option Nat) : (d.logRec r a).loads = d.loads := rfl
@[simp] theorem Dev.logRec_flows (d : Dev) (r : Rec) (a : Option Nat) : (d.logRec r a).flows = d.flows := rfl
@[simp] theorem Dev.logRec_flowHomes (d : Dev) (r : Rec) (a : Option Nat) : (d.logRec r a).flowHomes = d.flowHomes := rfl
@[simp] theorem Dev.logRec_arb (d : Dev) (r : Rec) (a : Option Nat) : (d.logRec r a).arb = d.arb := rfl
@[simp] theorem Dev.logRec_pairx (d : Dev) (r : Rec) (a : Option Nat) : (d.logRec r a).pairx = d.pairx := rfl
@[simp] theorem Dev.logRec_dec (d : Dev) (r : Rec) (a : Option Nat) : (d.logRec r a).dec = d.dec := rfl
@[simp] theorem Dev.logRec_enc (d : Dev) (r : Rec) (a : Option Nat) : (d.logRec r a).enc = d.enc := rfl
@[simp] theorem Dev.logRec_comp (d : Dev) (r : Rec) (a : Option Nat) : (d.logRec r a).comp = d.comp := rfl
@[simp] theorem Dev.logRec_view (d : Dev) (r : Rec) (a : Option Nat) : (d.logRec r a).view = d.view := rfl
@[simp] theorem Dev.logRec_fwd (d : Dev) (r : Rec) (a : Option Nat) : (d.logRec r a).fwd = d.fwd := rfl
@[simp] theorem Dev.logRec_fsrc (d : Dev) (r : Rec) (a : Option Nat) : (d.logRec r a).fsrc = d.fsrc := rfl
@[simp] theorem Dev.logRec_waking (d : Dev) (r : Rec) (a : Option Nat) : (d.logRec r a).waking = d.waking := rfl
@[simp] theorem Dev.logRec_tapFrom (d : Dev) (r : Rec) (a : Option Nat) : (d.logRec r a).tapFrom = d.tapFrom := rfl
@[simp] theorem Dev.trigger_out (d : Dev) (n : Nat) : (d.trigger n).out = d.out := rfl
@[simp] theorem Dev.trigger_free (d : Dev) (n : Nat) : (d.trigger n).free = d.free := rfl
@[simp] theorem Dev.trigger_dict (d : Dev) (n : Nat) : (d.trigger n).dict = d.dict := rfl
@[simp] theorem Dev.trigger_stage (d : Dev) (n : Nat) : (d.trigger n).stage = d.stage := rfl
@[simp] theorem Dev.trigger_resultBefore (d : Dev) (n : Nat) : (d.trigger n).resultBefore = d.resultBefore := rfl
@[simp] theorem Dev.trigger_tb (d : Dev) (n : Nat) : (d.trigger n).tb = d.tb := rfl
@[simp] theorem Dev.trigger_gen (d : Dev) (n : Nat) : (d.trigger n).gen = d.gen := rfl
@[simp] theorem Dev.trigger_pulses (d : Dev) (n : Nat) : (d.trigger n).pulses = d.pulses := rfl
@[simp] theorem Dev.trigger_caps (d : Dev) (n : Nat) : (d.trigger n).caps = d.caps := rfl
@[simp] theorem Dev.trigger_ptp (d : Dev) (n : Nat) : (d.trigger n).ptp = d.ptp := rfl
@[simp] theorem Dev.trigger_can (d : Dev) (n : Nat) : (d.trigger n).can = d.can := rfl
@[simp] theorem Dev.trigger_hdp (d : Dev) (n : Nat) : (d.trigger n).hdp = d.hdp := rfl
@[simp] theorem Dev.trigger_sec (d : Dev) (n : Nat) : (d.trigger n).sec = d.sec := rfl
@[simp] theorem Dev.trigger_faults (d : Dev) (n : Nat) : (d.trigger n).faults = d.faults := rfl
@[simp] theorem Dev.trigger_gov (d : Dev) (n : Nat) : (d.trigger n).gov = d.gov := rfl
@[simp] theorem Dev.trigger_pins (d : Dev) (n : Nat) : (d.trigger n).pins = d.pins := rfl
@[simp] theorem Dev.trigger_rst (d : Dev) (n : Nat) : (d.trigger n).rst = d.rst := rfl
@[simp] theorem Dev.trigger_ports (d : Dev) (n : Nat) : (d.trigger n).ports = d.ports := rfl
@[simp] theorem Dev.trigger_pairs (d : Dev) (n : Nat) : (d.trigger n).pairs = d.pairs := rfl
@[simp] theorem Dev.trigger_addrBuckets (d : Dev) (n : Nat) : (d.trigger n).addrBuckets = d.addrBuckets := rfl
@[simp] theorem Dev.trigger_polOld (d : Dev) (n : Nat) : (d.trigger n).polOld = d.polOld := rfl
@[simp] theorem Dev.trigger_life (d : Dev) (n : Nat) : (d.trigger n).life = d.life := rfl
@[simp] theorem Dev.trigger_rx (d : Dev) (n : Nat) : (d.trigger n).rx = d.rx := rfl
@[simp] theorem Dev.trigger_loop (d : Dev) (n : Nat) : (d.trigger n).loop = d.loop := rfl
@[simp] theorem Dev.trigger_tx (d : Dev) (n : Nat) : (d.trigger n).tx = d.tx := rfl
@[simp] theorem Dev.trigger_audio (d : Dev) (n : Nat) : (d.trigger n).audio = d.audio := rfl
@[simp] theorem Dev.trigger_mix (d : Dev) (n : Nat) : (d.trigger n).mix = d.mix := rfl
@[simp] theorem Dev.trigger_pool (d : Dev) (n : Nat) : (d.trigger n).pool = d.pool := rfl
@[simp] theorem Dev.trigger_chan (d : Dev) (n : Nat) : (d.trigger n).chan = d.chan := rfl
@[simp] theorem Dev.trigger_panic (d : Dev) (n : Nat) : (d.trigger n).panic = d.panic := rfl
@[simp] theorem Dev.trigger_panicAcc (d : Dev) (n : Nat) : (d.trigger n).panicAcc = d.panicAcc := rfl
@[simp] theorem Dev.trigger_blk (d : Dev) (n : Nat) : (d.trigger n).blk = d.blk := rfl
@[simp] theorem Dev.trigger_cell (d : Dev) (n : Nat) : (d.trigger n).cell = d.cell := rfl
@[simp] theorem Dev.trigger_homes (d : Dev) (n : Nat) : (d.trigger n).homes = d.homes := rfl
@[simp] theorem Dev.trigger_loads (d : Dev) (n : Nat) : (d.trigger n).loads = d.loads := rfl
@[simp] theorem Dev.trigger_flows (d : Dev) (n : Nat) : (d.trigger n).flows = d.flows := rfl
@[simp] theorem Dev.trigger_flowHomes (d : Dev) (n : Nat) : (d.trigger n).flowHomes = d.flowHomes := rfl
@[simp] theorem Dev.trigger_arb (d : Dev) (n : Nat) : (d.trigger n).arb = d.arb := rfl
@[simp] theorem Dev.trigger_pairx (d : Dev) (n : Nat) : (d.trigger n).pairx = d.pairx := rfl
@[simp] theorem Dev.trigger_dec (d : Dev) (n : Nat) : (d.trigger n).dec = d.dec := rfl
@[simp] theorem Dev.trigger_enc (d : Dev) (n : Nat) : (d.trigger n).enc = d.enc := rfl
@[simp] theorem Dev.trigger_comp (d : Dev) (n : Nat) : (d.trigger n).comp = d.comp := rfl
@[simp] theorem Dev.trigger_view (d : Dev) (n : Nat) : (d.trigger n).view = d.view := rfl
@[simp] theorem Dev.trigger_fwd (d : Dev) (n : Nat) : (d.trigger n).fwd = d.fwd := rfl
@[simp] theorem Dev.trigger_fsrc (d : Dev) (n : Nat) : (d.trigger n).fsrc = d.fsrc := rfl
@[simp] theorem Dev.trigger_waking (d : Dev) (n : Nat) : (d.trigger n).waking = d.waking := rfl
@[simp] theorem Dev.trigger_tapFrom (d : Dev) (n : Nat) : (d.trigger n).tapFrom = d.tapFrom := rfl
@[simp] theorem Dev.draw_out (d : Dev) : d.draw.2.out = d.out := rfl
@[simp] theorem Dev.draw_trig (d : Dev) : d.draw.2.trig = d.trig := rfl
@[simp] theorem Dev.draw_dict (d : Dev) : d.draw.2.dict = d.dict := rfl
@[simp] theorem Dev.draw_stage (d : Dev) : d.draw.2.stage = d.stage := rfl
@[simp] theorem Dev.draw_resultBefore (d : Dev) : d.draw.2.resultBefore = d.resultBefore := rfl
@[simp] theorem Dev.draw_tb (d : Dev) : d.draw.2.tb = d.tb := rfl
@[simp] theorem Dev.draw_gen (d : Dev) : d.draw.2.gen = d.gen := rfl
@[simp] theorem Dev.draw_pulses (d : Dev) : d.draw.2.pulses = d.pulses := rfl
@[simp] theorem Dev.draw_caps (d : Dev) : d.draw.2.caps = d.caps := rfl
@[simp] theorem Dev.draw_ptp (d : Dev) : d.draw.2.ptp = d.ptp := rfl
@[simp] theorem Dev.draw_can (d : Dev) : d.draw.2.can = d.can := rfl
@[simp] theorem Dev.draw_hdp (d : Dev) : d.draw.2.hdp = d.hdp := rfl
@[simp] theorem Dev.draw_sec (d : Dev) : d.draw.2.sec = d.sec := rfl
@[simp] theorem Dev.draw_faults (d : Dev) : d.draw.2.faults = d.faults := rfl
@[simp] theorem Dev.draw_gov (d : Dev) : d.draw.2.gov = d.gov := rfl
@[simp] theorem Dev.draw_pins (d : Dev) : d.draw.2.pins = d.pins := rfl
@[simp] theorem Dev.draw_rst (d : Dev) : d.draw.2.rst = d.rst := rfl
@[simp] theorem Dev.draw_ports (d : Dev) : d.draw.2.ports = d.ports := rfl
@[simp] theorem Dev.draw_pairs (d : Dev) : d.draw.2.pairs = d.pairs := rfl
@[simp] theorem Dev.draw_addrBuckets (d : Dev) : d.draw.2.addrBuckets = d.addrBuckets := rfl
@[simp] theorem Dev.draw_polOld (d : Dev) : d.draw.2.polOld = d.polOld := rfl
@[simp] theorem Dev.draw_life (d : Dev) : d.draw.2.life = d.life := rfl
@[simp] theorem Dev.draw_rx (d : Dev) : d.draw.2.rx = d.rx := rfl
@[simp] theorem Dev.draw_loop (d : Dev) : d.draw.2.loop = d.loop := rfl
@[simp] theorem Dev.draw_tx (d : Dev) : d.draw.2.tx = d.tx := rfl
@[simp] theorem Dev.draw_audio (d : Dev) : d.draw.2.audio = d.audio := rfl
@[simp] theorem Dev.draw_mix (d : Dev) : d.draw.2.mix = d.mix := rfl
@[simp] theorem Dev.draw_pool (d : Dev) : d.draw.2.pool = d.pool := rfl
@[simp] theorem Dev.draw_chan (d : Dev) : d.draw.2.chan = d.chan := rfl
@[simp] theorem Dev.draw_panic (d : Dev) : d.draw.2.panic = d.panic := rfl
@[simp] theorem Dev.draw_panicAcc (d : Dev) : d.draw.2.panicAcc = d.panicAcc := rfl
@[simp] theorem Dev.draw_blk (d : Dev) : d.draw.2.blk = d.blk := rfl
@[simp] theorem Dev.draw_cell (d : Dev) : d.draw.2.cell = d.cell := rfl
@[simp] theorem Dev.draw_homes (d : Dev) : d.draw.2.homes = d.homes := rfl
@[simp] theorem Dev.draw_loads (d : Dev) : d.draw.2.loads = d.loads := rfl
@[simp] theorem Dev.draw_flows (d : Dev) : d.draw.2.flows = d.flows := rfl
@[simp] theorem Dev.draw_flowHomes (d : Dev) : d.draw.2.flowHomes = d.flowHomes := rfl
@[simp] theorem Dev.draw_arb (d : Dev) : d.draw.2.arb = d.arb := rfl
@[simp] theorem Dev.draw_pairx (d : Dev) : d.draw.2.pairx = d.pairx := rfl
@[simp] theorem Dev.draw_dec (d : Dev) : d.draw.2.dec = d.dec := rfl
@[simp] theorem Dev.draw_enc (d : Dev) : d.draw.2.enc = d.enc := rfl
@[simp] theorem Dev.draw_comp (d : Dev) : d.draw.2.comp = d.comp := rfl
@[simp] theorem Dev.draw_view (d : Dev) : d.draw.2.view = d.view := rfl
@[simp] theorem Dev.draw_fwd (d : Dev) : d.draw.2.fwd = d.fwd := rfl
@[simp] theorem Dev.draw_fsrc (d : Dev) : d.draw.2.fsrc = d.fsrc := rfl
@[simp] theorem Dev.draw_waking (d : Dev) : d.draw.2.waking = d.waking := rfl
@[simp] theorem Dev.draw_tapFrom (d : Dev) : d.draw.2.tapFrom = d.tapFrom := rfl

@[simp] theorem Dev.emit_out (d : Dev) (x : Output) : (d.emit x).out = d.out ++ [x] := rfl
@[simp] theorem Dev.trigger_trig (d : Dev) (n : Nat) : (d.trigger n).trig = d.trig ++ [(n, 0)] := rfl
@[simp] theorem Dev.logRec_cycle (d : Dev) (r : Rec) (a : Option Nat) :
    (d.logRec r a).faults.cycle = d.faults.cycle ++ [({ r with time := d.now 0 }, a)] := rfl

@[simp] theorem Dev.emit_get (d : Dev) (x : Output) (o : Obj) (u k : Nat) : (d.emit x).get o u k = d.get o u k := rfl
@[simp] theorem Dev.emit_nat (d : Dev) (x : Output) (o : Obj) (u k : Nat) : (d.emit x).nat o u k = d.nat o u k := rfl
@[simp] theorem Dev.setTb_get (d : Dev) (n : Nat) (x : TimeBase) (o : Obj) (u k : Nat) : (d.setTb n x).get o u k = d.get o u k := rfl
@[simp] theorem Dev.setTb_nat (d : Dev) (n : Nat) (x : TimeBase) (o : Obj) (u k : Nat) : (d.setTb n x).nat o u k = d.nat o u k := rfl
@[simp] theorem Dev.setLife_get (d : Dev) (n : Nat) (x : LegLife) (o : Obj) (u k : Nat) : (d.setLife n x).get o u k = d.get o u k := rfl
@[simp] theorem Dev.setLife_nat (d : Dev) (n : Nat) (x : LegLife) (o : Obj) (u k : Nat) : (d.setLife n x).nat o u k = d.nat o u k := rfl
@[simp] theorem Dev.setRx_get (d : Dev) (n : Nat) (x : Rx) (o : Obj) (u k : Nat) : (d.setRx n x).get o u k = d.get o u k := rfl
@[simp] theorem Dev.setRx_nat (d : Dev) (n : Nat) (x : Rx) (o : Obj) (u k : Nat) : (d.setRx n x).nat o u k = d.nat o u k := rfl
@[simp] theorem Dev.setLoop_get (d : Dev) (n : Nat) (x : Loop) (o : Obj) (u k : Nat) : (d.setLoop n x).get o u k = d.get o u k := rfl
@[simp] theorem Dev.setLoop_nat (d : Dev) (n : Nat) (x : Loop) (o : Obj) (u k : Nat) : (d.setLoop n x).nat o u k = d.nat o u k := rfl
@[simp] theorem Dev.setTx_get (d : Dev) (n : Nat) (x : Tx) (o : Obj) (u k : Nat) : (d.setTx n x).get o u k = d.get o u k := rfl
@[simp] theorem Dev.setTx_nat (d : Dev) (n : Nat) (x : Tx) (o : Obj) (u k : Nat) : (d.setTx n x).nat o u k = d.nat o u k := rfl
@[simp] theorem Dev.setAudio_get (d : Dev) (n : Nat) (x : LegAudio) (o : Obj) (u k : Nat) : (d.setAudio n x).get o u k = d.get o u k := rfl
@[simp] theorem Dev.setAudio_nat (d : Dev) (n : Nat) (x : LegAudio) (o : Obj) (u k : Nat) : (d.setAudio n x).nat o u k = d.nat o u k := rfl
@[simp] theorem Dev.setMix_get (d : Dev) (n : Nat) (x : ConfMix) (o : Obj) (u k : Nat) : (d.setMix n x).get o u k = d.get o u k := rfl
@[simp] theorem Dev.setMix_nat (d : Dev) (n : Nat) (x : ConfMix) (o : Obj) (u k : Nat) : (d.setMix n x).nat o u k = d.nat o u k := rfl
@[simp] theorem Dev.setKeys_get (d : Dev) (n : Nat) (x : LegKeys) (o : Obj) (u k : Nat) : (d.setKeys n x).get o u k = d.get o u k := rfl
@[simp] theorem Dev.setKeys_nat (d : Dev) (n : Nat) (x : LegKeys) (o : Obj) (u k : Nat) : (d.setKeys n x).nat o u k = d.nat o u k := rfl
@[simp] theorem Dev.setPort_get (d : Dev) (n : Nat) (x : Port) (o : Obj) (u k : Nat) : (d.setPort n x).get o u k = d.get o u k := rfl
@[simp] theorem Dev.setPort_nat (d : Dev) (n : Nat) (x : Port) (o : Obj) (u k : Nat) : (d.setPort n x).nat o u k = d.nat o u k := rfl
@[simp] theorem Dev.setCap_get (d : Dev) (n : Nat) (x : CaptureIn) (o : Obj) (u k : Nat) : (d.setCap n x).get o u k = d.get o u k := rfl
@[simp] theorem Dev.setCap_nat (d : Dev) (n : Nat) (x : CaptureIn) (o : Obj) (u k : Nat) : (d.setCap n x).nat o u k = d.nat o u k := rfl
@[simp] theorem Dev.logRec_get (d : Dev) (r : Rec) (a : Option Nat) (o : Obj) (u k : Nat) : (d.logRec r a).get o u k = d.get o u k := rfl
@[simp] theorem Dev.logRec_nat (d : Dev) (r : Rec) (a : Option Nat) (o : Obj) (u k : Nat) : (d.logRec r a).nat o u k = d.nat o u k := rfl
@[simp] theorem Dev.trigger_get (d : Dev) (n : Nat) (o : Obj) (u k : Nat) : (d.trigger n).get o u k = d.get o u k := rfl
@[simp] theorem Dev.trigger_nat (d : Dev) (n : Nat) (o : Obj) (u k : Nat) : (d.trigger n).nat o u k = d.nat o u k := rfl

end Sys2Proof.Machine
end

