-- ==== Sys2Proof/Laws/Table.lean ====
section
/-! SUPPORT. Reading a sparse table after it was changed. -/

namespace Sys2Proof.Machine

variable {κ α : Type} [DecidableEq κ]

@[simp] theorem tget_tset_same (d v : α) (k : κ) (t : List (κ × α)) : tget d k (tset k v t) = v := by
  induction t with
  | nil => simp [tset, tget]
  | cons x r ih =>
    obtain ⟨k', v'⟩ := x
    by_cases h : k = k' <;> simp [tset, tget, h, ih]

theorem tget_tset_other (d v : α) {j k : κ} (h : j ≠ k) (t : List (κ × α)) : tget d j (tset k v t) = tget d j t := by
  induction t with
  | nil => simp [tset, tget, h]
  | cons x r ih =>
    obtain ⟨k', v'⟩ := x
    by_cases hk : k = k'
    · subst hk; simp [tset, tget, h]
    · by_cases hj : j = k' <;> simp [tset, tget, hk, hj, ih]

@[simp] theorem tget_tdel_same (d : α) (k : κ) (t : List (κ × α)) : tget d k (tdel k t) = d := by
  induction t with
  | nil => simp [tdel, tget]
  | cons x r ih =>
    obtain ⟨k', v'⟩ := x
    by_cases h : k = k' <;> simp [tdel, tget, h, ih]
    exact h ▸ ih

theorem tget_tdel_other (d : α) {j k : κ} (h : j ≠ k) (t : List (κ × α)) : tget d j (tdel k t) = tget d j t := by
  induction t with
  | nil => simp [tdel]
  | cons x r ih =>
    obtain ⟨k', v'⟩ := x
    by_cases hk : k = k'
    · subst hk; simp [tdel, tget, h, ih]
    · by_cases hj : j = k' <;> simp [tdel, tget, hk, hj, ih]

@[simp] theorem tget_tput_same [DecidableEq α] (d v : α) (k : κ) (t : List (κ × α)) : tget d k (tput d k v t) = v := by
  by_cases h : v = d <;> simp [tput, h]

theorem tget_tput_other [DecidableEq α] (d d' v : α) {j k : κ} (h : j ≠ k) (t : List (κ × α)) :
    tget d j (tput d' k v t) = tget d j t := by
  by_cases hv : v = d' <;> simp [tput, hv, tget_tset_other, tget_tdel_other, h]

theorem tget_filter (d : α) (k : κ) (p : κ × α → Bool) (hp : ∀ v, p (k, v) = true) (t : List (κ × α)) :
    tget d k (t.filter p) = tget d k t := by
  induction t with
  | nil => simp
  | cons x r ih =>
    obtain ⟨k', v'⟩ := x
    by_cases h : k = k'
    · subst h; simp [hp, tget]
    · by_cases hq : p (k', v') = true <;> simp [hq, tget, h, ih]

@[simp] theorem tfind_tset_same (v : α) (k : κ) (t : List (κ × α)) : tfind k (tset k v t) = some v := by
  induction t with
  | nil => simp [tset, tfind]
  | cons x r ih =>
    obtain ⟨k', v'⟩ := x
    by_cases h : k = k' <;> simp [tset, tfind, h, ih]

@[simp] theorem thas_tset_same (v : α) (k : κ) (t : List (κ × α)) : thas k (tset k v t) = true := by
  induction t with
  | nil => simp [tset, thas]
  | cons x r ih =>
    obtain ⟨k', v'⟩ := x
    by_cases h : k = k' <;> simp [tset, thas, h, ih]

/-- What a fold keeps when each of its steps keeps it. -/
theorem foldl_keeps {σ τ : Type} {P : σ → Prop} {f : σ → τ → σ} (hf : ∀ s x, P s → P (f s x)) (l : List τ) {s : σ}
    (h : P s) : P (l.foldl f s) := by
  induction l generalizing s with
  | nil => exact h
  | cons x r ih => exact ih (hf s x h)

end Sys2Proof.Machine
end

