-- ==== Sys2Proof/Laws/Ops.lean ====
section
/-! SUPPORT. What an object holds after a set, and what the parts of the device hold after theirs. -/

namespace Sys2Proof.Machine

theorem Dev.get_put_same (d : Dev) (o : Obj) (u k : Nat) (v : Val) : (d.put o u k v).get o u k = v := by
  simp [Dev.get, Dev.put]

theorem Dev.get_put_other (d : Dev) {o o' : Obj} {u u' k k' : Nat} (v : Val) (h : ¬(o = o' ∧ u = u' ∧ k = k')) :
    (d.put o' u' k' v).get o u k = d.get o u k := by
  unfold Dev.get Dev.put
  exact tget_tput_other _ _ _ (by simpa [Key.mk.injEq] using h) _

/-- The value of an object after a set: the value set where it is the same object of the same unit and place. -/
@[simp] theorem Dev.get_put (d : Dev) (o o' : Obj) (u u' k k' : Nat) (v : Val) :
    (d.put o' u' k' v).get o u k = if o = o' ∧ u = u' ∧ k = k' then v else d.get o u k := by
  split
  · rename_i h; obtain ⟨rfl, rfl, rfl⟩ := h; exact d.get_put_same o u k v
  · rename_i h; exact d.get_put_other v h

@[simp] theorem Dev.nat_put (d : Dev) (o o' : Obj) (u u' k k' : Nat) (v : Val) :
    (d.put o' u' k' v).nat o u k = if o = o' ∧ u = u' ∧ k = k' then v.toInt.toNat else d.nat o u k := by
  unfold Dev.nat Dev.int
  rw [Dev.get_put]
  split <;> rfl

@[simp] theorem Dev.int_put (d : Dev) (o o' : Obj) (u u' k k' : Nat) (v : Val) :
    (d.put o' u' k' v).int o u k = if o = o' ∧ u = u' ∧ k = k' then v.toInt else d.int o u k := by
  unfold Dev.int
  rw [Dev.get_put]
  split <;> rfl

@[simp] theorem Val.num_toInt (v : Int) : (Val.num v).toInt = v := rfl
@[simp] theorem Val.bytes_toBytes (b : Octets) : (Val.bytes b).toBytes = b := rfl

/-- A number that is set is read back. -/
theorem Dev.nat_setN (d : Dev) (o : Obj) (u v : Nat) : (d.setN o u v).nat o u = v := by simp [Dev.setN_eq]

/-- A set of another object, unit or place leaves a number. -/
theorem Dev.nat_setN_other (d : Dev) {o o' : Obj} (u u' v k : Nat) (h : o ≠ o') : (d.setN o' u' v).nat o u k = d.nat o u k := by
  simp [Dev.setN_eq, h]

theorem Dev.nat_eq_of_get {d e : Dev} {o : Obj} {u k : Nat} (h : e.get o u k = d.get o u k) : e.nat o u k = d.nat o u k := by
  simp only [Dev.nat, Dev.int, h]

theorem Dev.int_eq_of_get {d e : Dev} {o : Obj} {u k : Nat} (h : e.get o u k = d.get o u k) : e.int o u k = d.int o u k := by
  simp only [Dev.int, h]

@[simp] theorem Dev.tbOf_setTb (d : Dev) (n m : Nat) (x : TimeBase) :
    (d.setTb n x).tbOf m = if m = n then x else d.tbOf m := by
  unfold Dev.tbOf Dev.setTb
  split
  · rename_i h; subst h; simp
  · rename_i h; exact tget_tput_other _ _ _ h _

@[simp] theorem Dev.lifeOf_setLife (d : Dev) (n m : Nat) (x : LegLife) :
    (d.setLife n x).lifeOf m = if m = n then x else d.lifeOf m := by
  unfold Dev.lifeOf Dev.setLife
  split
  · rename_i h; subst h; simp
  · rename_i h; exact tget_tput_other _ _ _ h _

@[simp] theorem Dev.rxOf_setRx (d : Dev) (n m : Nat) (x : Rx) : (d.setRx n x).rxOf m = if m = n then x else d.rxOf m := by
  unfold Dev.rxOf Dev.setRx
  split
  · rename_i h; subst h; simp
  · rename_i h; exact tget_tput_other _ _ _ h _

@[simp] theorem Dev.loopOf_setLoop (d : Dev) (n m : Nat) (x : Loop) :
    (d.setLoop n x).loopOf m = if m = n then x else d.loopOf m := by
  unfold Dev.loopOf Dev.setLoop
  split
  · rename_i h; subst h; simp
  · rename_i h; exact tget_tput_other _ _ _ h _

@[simp] theorem Dev.txOf_setTx (d : Dev) (n m : Nat) (x : Tx) : (d.setTx n x).txOf m = if m = n then x else d.txOf m := by
  unfold Dev.txOf Dev.setTx
  split
  · rename_i h; subst h; simp
  · rename_i h; exact tget_tput_other _ _ _ h _

@[simp] theorem Dev.audioOf_setAudio (d : Dev) (n m : Nat) (x : LegAudio) :
    (d.setAudio n x).audioOf m = if m = n then x else d.audioOf m := by
  unfold Dev.audioOf Dev.setAudio
  split
  · rename_i h; subst h; simp
  · rename_i h; exact tget_tput_other _ _ _ h _

@[simp] theorem Dev.mixOf_setMix (d : Dev) (n m : Nat) (x : ConfMix) :
    (d.setMix n x).mixOf m = if m = n then x else d.mixOf m := by
  unfold Dev.mixOf Dev.setMix
  split
  · rename_i h; subst h; simp
  · rename_i h; exact tget_tput_other _ _ _ h _

@[simp] theorem Dev.keysOf_setKeys (d : Dev) (n m : Nat) (x : LegKeys) :
    (d.setKeys n x).keysOf m = if m = n then x else d.keysOf m := by
  unfold Dev.keysOf Dev.setKeys
  split
  · rename_i h; subst h; simp
  · rename_i h; exact tget_tput_other _ _ _ h _

@[simp] theorem Dev.portOf_setPort (d : Dev) (n m : Nat) (x : Port) :
    (d.setPort n x).portOf m = if m = n then x else d.portOf m := by
  unfold Dev.portOf Dev.setPort
  split
  · rename_i h; subst h; simp
  · rename_i h; exact tget_tput_other _ _ _ h _

@[simp] theorem Dev.capOf_setCap (d : Dev) (n m : Nat) (x : CaptureIn) :
    (d.setCap n x).capOf m = if m = n then x else d.capOf m := by
  unfold Dev.capOf Dev.setCap
  split
  · rename_i h; subst h; simp
  · rename_i h; exact tget_tput_other _ _ _ h _

end Sys2Proof.Machine
end

