-- ==== Sys2Proof/Laws/Settle.lean ====
section
/-! SUPPORT. What the close of a command does: it enters records and latches the photo finish, and touches nothing else. -/

namespace Sys2Proof.Machine

/-- Is an object one that the close of a command may write: the error field, the log's counts, and the snapshot? -/
def closeObj (o : Obj) : Bool :=
  [Obj.ERROR_FIELD, .ERROR_COUNT, .EMCY_SUPPRESSED, .LOG_COALESCED, .LOG_OVERWRITTEN, .LOG_COUNT, .LOG_NEXT_SEQ].contains o ||
    (decide (0x6800 ≤ o.row.base) && decide (o.row.base ≤ 0x684F))

/-- `e` differs from `d` only where the close of a command may write. -/
structure Closes (d e : Dev) : Prop where
  obj : ∀ o u k, closeObj o = false → e.get o u k = d.get o u k
  canNode : e.can.node = d.can.node
  canNmt : e.can.nmt = d.can.nmt
  canTicks : e.can.ticks = d.can.ticks
  canSdo : e.can.sdo = d.can.sdo
  injected : e.faults.injected = d.faults.injected
  free : e.free = d.free
  stage : e.stage = d.stage
  resultBefore : e.resultBefore = d.resultBefore
  tb : e.tb = d.tb
  gen : e.gen = d.gen
  pulses : e.pulses = d.pulses
  caps : e.caps = d.caps
  ptp : e.ptp = d.ptp
  hdp : e.hdp = d.hdp
  sec : e.sec = d.sec
  gov : e.gov = d.gov
  rst : e.rst = d.rst
  ports : e.ports = d.ports
  pairs : e.pairs = d.pairs
  addrBuckets : e.addrBuckets = d.addrBuckets
  polOld : e.polOld = d.polOld
  life : e.life = d.life
  rx : e.rx = d.rx
  loop : e.loop = d.loop
  tx : e.tx = d.tx
  audio : e.audio = d.audio
  mix : e.mix = d.mix
  pool : e.pool = d.pool
  chan : e.chan = d.chan
  panic : e.panic = d.panic
  panicAcc : e.panicAcc = d.panicAcc
  blk : e.blk = d.blk
  cell : e.cell = d.cell
  homes : e.homes = d.homes
  loads : e.loads = d.loads
  flows : e.flows = d.flows
  flowHomes : e.flowHomes = d.flowHomes
  arb : e.arb = d.arb
  pairx : e.pairx = d.pairx
  dec : e.dec = d.dec
  enc : e.enc = d.enc
  comp : e.comp = d.comp
  view : e.view = d.view
  fwd : e.fwd = d.fwd
  fsrc : e.fsrc = d.fsrc
  waking : e.waking = d.waking
  tapFrom : e.tapFrom = d.tapFrom

theorem Closes.refl (d : Dev) : Closes d d := by constructor <;> intros <;> rfl

theorem Closes.trans {d e f : Dev} (h : Closes d e) (g : Closes e f) : Closes d f where
  obj o u k ho := (g.obj o u k ho).trans (h.obj o u k ho)
  canNode := g.canNode.trans h.canNode
  canNmt := g.canNmt.trans h.canNmt
  canTicks := g.canTicks.trans h.canTicks
  canSdo := g.canSdo.trans h.canSdo
  injected := g.injected.trans h.injected
  free := g.free.trans h.free
  stage := g.stage.trans h.stage
  resultBefore := g.resultBefore.trans h.resultBefore
  tb := g.tb.trans h.tb
  gen := g.gen.trans h.gen
  pulses := g.pulses.trans h.pulses
  caps := g.caps.trans h.caps
  ptp := g.ptp.trans h.ptp
  hdp := g.hdp.trans h.hdp
  sec := g.sec.trans h.sec
  gov := g.gov.trans h.gov
  rst := g.rst.trans h.rst
  ports := g.ports.trans h.ports
  pairs := g.pairs.trans h.pairs
  addrBuckets := g.addrBuckets.trans h.addrBuckets
  polOld := g.polOld.trans h.polOld
  life := g.life.trans h.life
  rx := g.rx.trans h.rx
  loop := g.loop.trans h.loop
  tx := g.tx.trans h.tx
  audio := g.audio.trans h.audio
  mix := g.mix.trans h.mix
  pool := g.pool.trans h.pool
  chan := g.chan.trans h.chan
  panic := g.panic.trans h.panic
  panicAcc := g.panicAcc.trans h.panicAcc
  blk := g.blk.trans h.blk
  cell := g.cell.trans h.cell
  homes := g.homes.trans h.homes
  loads := g.loads.trans h.loads
  flows := g.flows.trans h.flows
  flowHomes := g.flowHomes.trans h.flowHomes
  arb := g.arb.trans h.arb
  pairx := g.pairx.trans h.pairx
  dec := g.dec.trans h.dec
  enc := g.enc.trans h.enc
  comp := g.comp.trans h.comp
  view := g.view.trans h.view
  fwd := g.fwd.trans h.fwd
  fsrc := g.fsrc.trans h.fsrc
  waking := g.waking.trans h.waking
  tapFrom := g.tapFrom.trans h.tapFrom

theorem Closes.put {d e : Dev} (h : Closes d e) {o : Obj} (ho : closeObj o = true) (u k : Nat) (v : Val) :
    Closes d (e.put o u k v) := by
  refine h.trans ?_
  constructor
  case obj =>
    intro o' u' k' ho'
    refine Dev.get_put_other _ _ ?_
    rintro ⟨rfl, _⟩
    rw [ho] at ho'
    exact absurd ho' (by decide)
  all_goals rfl

theorem Closes.lose {d e : Dev} (h : Closes d e) (mine : Key → Bool)
    (hm : ∀ k, mine k = true → closeObj k.o = true) : Closes d (e.loseL mine) := by
  refine h.trans ?_
  constructor
  case obj =>
    intro o u k ho
    unfold Dev.get Dev.loseL
    refine tget_filter _ _ _ ?_ _
    intro v
    have : mine ⟨o, u, k⟩ = false := by
      cases hc : mine ⟨o, u, k⟩ with
      | false => rfl
      | true => rw [hm _ hc] at ho; exact absurd ho (by decide)
    simp [this]
  all_goals rfl

theorem closes_emcy (d : Dev) (c l u low : Nat) (b : Bool) : Closes d (d.emcy c l u low b) := by
  unfold Dev.emcy
  extract_lets word n d1 d2 inhibit held data
  have h1 : Closes d d1 := foldl_keeps (P := Closes d) (fun s _ hs => hs.put (by decide) _ _ _) _ (Closes.refl d)
  have h2 : Closes d d2 := (h1.put (o := .ERROR_FIELD) (by decide) 0 0 _).put (o := .ERROR_COUNT) (by decide) 0 0 _
  clear_value d2
  by_cases hi : d2.can.nmt = .initialising
  · rw [if_pos hi]; exact h2
  · rw [if_neg hi]
    split
    · exact h2.put (by decide) _ _ _
    · refine h2.trans ?_
      constructor <;> intros <;> rfl

theorem closes_enterRec (d : Dev) (r : Rec) (a : Option Nat) : Closes d (d.enterRec r a) := by
  unfold Dev.enterRec
  by_cases hc : r.cls = .corrected ∧ d.faults.seen.contains (r.code, r.unit)
  · rw [if_pos hc]; exact (Closes.refl d).put (by decide) _ _ _
  · rw [if_neg hc]
    extract_lets seq slot r1 held d1 d2 f3 d3 d4
    have h1 : Closes d d1 := by
      show Closes d (if held = true then _ else _)
      split <;> exact (Closes.refl d).put (by decide) _ _ _
    have h2 : Closes d d2 := h1.put (by decide) _ _ _
    have h3 : Closes d d3 := by
      refine h2.trans ?_
      constructor <;> intros <;> rfl
    clear_value d3
    have h4 : Closes d d4 := by
      refine h3.trans ?_
      show Closes d3 (match a with
        | some c => _
        | none => _)
      cases a with
      | some c => exact closes_emcy _ _ _ _ _ _
      | none =>
        show Closes d3 (if _ then _ else _)
        split
        · exact closes_emcy _ _ _ _ _ _
        · exact Closes.refl _
    clear_value d4
    split
    · refine h4.trans ?_
      constructor <;> intros <;> rfl
    · exact h4

theorem closes_settleRecs (d : Dev) : Closes d d.settleRecs := by
  have h : Closes d { d with faults := { d.faults with cycle := [] } } := by constructor <;> intros <;> rfl
  exact foldl_keeps (P := Closes d) (fun s x hs => hs.trans (closes_enterRec s x.1 x.2)) _ h

theorem closes_snapRegion (d : Dev) (g : Nat) : Closes d (d.snapRegion g) := by
  unfold Dev.snapRegion
  split
  · refine (Closes.refl d).lose _ ?_
    intro k hk
    simp only [Bool.and_eq_true, decide_eq_true_eq] at hk
    simp [closeObj, hk.1]
  · simp only [Dev.setN_eq]
    exact ((((Closes.refl d).put (by decide) _ _ _).put (by decide) _ _ _).put (by decide) _ _ _).put (by decide) _ _ _

theorem closes_snapBlock (d : Dev) (b : Nat) : Closes d (d.snapBlock b) := by
  unfold Dev.snapBlock
  extract_lets st x step items held d1 d2 d3
  split
  · refine Closes.put ((Closes.refl d).lose _ ?_) (by decide) _ _ _
    intro k hk
    simp only [Bool.and_eq_true, decide_eq_true_eq] at hk
    simp [closeObj, hk.1]
  · have h1 : Closes d d1 := ((Closes.refl d).put (by decide) _ _ _).put (by decide) _ _ _
    have h2 : Closes d d2 := h1.put (by decide) _ _ _
    have h3 : Closes d d3 := ((h2.put (by decide) _ _ _).put (by decide) _ _ _).put (by decide) _ _ _
    exact foldl_keeps (P := Closes d) (fun s _ hs => hs.put (by decide) _ _ _) _ h3

theorem closes_raise (e : Dev) (x : Pins) (y : Output) : Closes e ({ e with pins := x }.emit y) := by
  constructor <;> intros <;> rfl

theorem closes_snapLatch (d : Dev) : Closes d d.snapLatch := by
  unfold Dev.snapLatch
  extract_lets causes d0 cause record d1 d2 d3 d4 d5 d6
  have h0 : Closes d d0 := by constructor <;> intros <;> rfl
  split
  · exact h0
  · split
    · exact h0.put (by decide) _ _ _
    · have h1 : Closes d d1 := ((h0.put (by decide) _ _ _).put (by decide) _ _ _).put (by decide) _ _ _
      have h2 : Closes d d2 := ((h1.put (by decide) _ _ _).put (by decide) _ _ _).put (by decide) _ _ _
      have h3 : Closes d d3 := (h2.put (by decide) _ _ _).put (by decide) _ _ _
      have h4 : Closes d d4 := (h3.put (by decide) _ _ _).put (by decide) _ _ _
      have h5 : Closes d d5 := foldl_keeps (P := Closes d) (fun s p hs => hs.put (by decide) _ _ _) (List.range 6) h4
      have h6 : Closes d d6 := foldl_keeps (P := Closes d) (fun s g hs => hs.trans (closes_snapRegion s g)) (List.range 4) h5
      have h7 := foldl_keeps (P := Closes d) (fun s b hs => hs.trans (closes_snapBlock s b)) (List.range 64) h6
      exact h7.trans (closes_raise _ _ _)

/-- The close of a command touches only the error field, the log, the snapshot, SNAP_OUT and the outbox. -/
theorem closes_settle (d : Dev) : Closes d d.settle := (closes_settleRecs d).trans (closes_snapLatch _)

@[simp] theorem settle_nat (d : Dev) {o : Obj} (ho : closeObj o = false) (u k : Nat) : d.settle.nat o u k = d.nat o u k :=
  Dev.nat_eq_of_get ((closes_settle d).obj o u k ho)

@[simp] theorem settle_get (d : Dev) {o : Obj} (ho : closeObj o = false) (u k : Nat) : d.settle.get o u k = d.get o u k :=
  (closes_settle d).obj o u k ho

@[simp] theorem settle_int (d : Dev) {o : Obj} (ho : closeObj o = false) (u k : Nat) : d.settle.int o u k = d.int o u k :=
  Dev.int_eq_of_get ((closes_settle d).obj o u k ho)

@[simp] theorem settle_nmt (d : Dev) : d.settle.can.nmt = d.can.nmt := (closes_settle d).canNmt
@[simp] theorem settle_sdo (d : Dev) : d.settle.can.sdo = d.can.sdo := (closes_settle d).canSdo
@[simp] theorem settle_injected (d : Dev) : d.settle.faults.injected = d.faults.injected := (closes_settle d).injected
@[simp] theorem settle_free (d : Dev) : d.settle.free = d.free := (closes_settle d).free
@[simp] theorem settle_stage (d : Dev) : d.settle.stage = d.stage := (closes_settle d).stage
@[simp] theorem settle_resultBefore (d : Dev) : d.settle.resultBefore = d.resultBefore := (closes_settle d).resultBefore
@[simp] theorem settle_tb (d : Dev) : d.settle.tb = d.tb := (closes_settle d).tb
@[simp] theorem settle_gen (d : Dev) : d.settle.gen = d.gen := (closes_settle d).gen
@[simp] theorem settle_pulses (d : Dev) : d.settle.pulses = d.pulses := (closes_settle d).pulses
@[simp] theorem settle_caps (d : Dev) : d.settle.caps = d.caps := (closes_settle d).caps
@[simp] theorem settle_ptp (d : Dev) : d.settle.ptp = d.ptp := (closes_settle d).ptp
@[simp] theorem settle_hdp (d : Dev) : d.settle.hdp = d.hdp := (closes_settle d).hdp
@[simp] theorem settle_sec (d : Dev) : d.settle.sec = d.sec := (closes_settle d).sec
@[simp] theorem settle_gov (d : Dev) : d.settle.gov = d.gov := (closes_settle d).gov
@[simp] theorem settle_rst (d : Dev) : d.settle.rst = d.rst := (closes_settle d).rst
@[simp] theorem settle_ports (d : Dev) : d.settle.ports = d.ports := (closes_settle d).ports
@[simp] theorem settle_pairs (d : Dev) : d.settle.pairs = d.pairs := (closes_settle d).pairs
@[simp] theorem settle_addrBuckets (d : Dev) : d.settle.addrBuckets = d.addrBuckets := (closes_settle d).addrBuckets
@[simp] theorem settle_polOld (d : Dev) : d.settle.polOld = d.polOld := (closes_settle d).polOld
@[simp] theorem settle_life (d : Dev) : d.settle.life = d.life := (closes_settle d).life
@[simp] theorem settle_rx (d : Dev) : d.settle.rx = d.rx := (closes_settle d).rx
@[simp] theorem settle_loop (d : Dev) : d.settle.loop = d.loop := (closes_settle d).loop
@[simp] theorem settle_tx (d : Dev) : d.settle.tx = d.tx := (closes_settle d).tx
@[simp] theorem settle_audio (d : Dev) : d.settle.audio = d.audio := (closes_settle d).audio
@[simp] theorem settle_mix (d : Dev) : d.settle.mix = d.mix := (closes_settle d).mix
@[simp] theorem settle_pool (d : Dev) : d.settle.pool = d.pool := (closes_settle d).pool
@[simp] theorem settle_chan (d : Dev) : d.settle.chan = d.chan := (closes_settle d).chan
@[simp] theorem settle_panic (d : Dev) : d.settle.panic = d.panic := (closes_settle d).panic
@[simp] theorem settle_panicAcc (d : Dev) : d.settle.panicAcc = d.panicAcc := (closes_settle d).panicAcc
@[simp] theorem settle_blk (d : Dev) : d.settle.blk = d.blk := (closes_settle d).blk
@[simp] theorem settle_cell (d : Dev) : d.settle.cell = d.cell := (closes_settle d).cell
@[simp] theorem settle_homes (d : Dev) : d.settle.homes = d.homes := (closes_settle d).homes
@[simp] theorem settle_loads (d : Dev) : d.settle.loads = d.loads := (closes_settle d).loads
@[simp] theorem settle_flows (d : Dev) : d.settle.flows = d.flows := (closes_settle d).flows
@[simp] theorem settle_flowHomes (d : Dev) : d.settle.flowHomes = d.flowHomes := (closes_settle d).flowHomes
@[simp] theorem settle_arb (d : Dev) : d.settle.arb = d.arb := (closes_settle d).arb
@[simp] theorem settle_pairx (d : Dev) : d.settle.pairx = d.pairx := (closes_settle d).pairx
@[simp] theorem settle_dec (d : Dev) : d.settle.dec = d.dec := (closes_settle d).dec
@[simp] theorem settle_enc (d : Dev) : d.settle.enc = d.enc := (closes_settle d).enc
@[simp] theorem settle_comp (d : Dev) : d.settle.comp = d.comp := (closes_settle d).comp
@[simp] theorem settle_view (d : Dev) : d.settle.view = d.view := (closes_settle d).view
@[simp] theorem settle_fwd (d : Dev) : d.settle.fwd = d.fwd := (closes_settle d).fwd
@[simp] theorem settle_fsrc (d : Dev) : d.settle.fsrc = d.fsrc := (closes_settle d).fsrc
@[simp] theorem settle_waking (d : Dev) : d.settle.waking = d.waking := (closes_settle d).waking
@[simp] theorem settle_tapFrom (d : Dev) : d.settle.tapFrom = d.tapFrom := (closes_settle d).tapFrom


/-- Where nothing was logged and nothing triggered, the close of a command does nothing. -/
theorem settle_of_quiet {d : Dev} (h : d.quiet) : d.settle = d := by
  obtain ⟨h1, h2⟩ := h
  have hs : d.settleRecs = d := by
    unfold Dev.settleRecs
    rw [h1]
    exact congrArg (fun c => ({ d with faults := { d.faults with cycle := c } } : Dev)) h1.symm
  unfold Dev.settle
  rw [hs]
  unfold Dev.snapLatch
  rw [h2]
  exact congrArg (fun c => ({ d with trig := c } : Dev)) h2.symm

end Sys2Proof.Machine
end

