-- ==== Sys2Proof/Laws/Frames.lean ====
section
/-! SUPPORT. What the shared operations leave as it was, each said once: the objects they may write, and that they send nothing. -/

namespace Sys2Proof.Machine

/-- `e` differs from `d` only in objects of `os` and in parts that are not objects; it has sent and logged nothing more. -/
structure Within (os : List Obj) (d e : Dev) : Prop where
  obj : keepsBut d e os
  out : e.out = d.out
  faults : e.faults = d.faults
  trig : e.trig = d.trig

theorem Within.refl (os : List Obj) (d : Dev) : Within os d d := ⟨fun _ _ _ _ => rfl, rfl, rfl, rfl⟩

theorem Within.trans {os : List Obj} {d e f : Dev} (h : Within os d e) (g : Within os e f) : Within os d f :=
  ⟨fun o u k ho => (g.obj o u k ho).trans (h.obj o u k ho), g.out.trans h.out, g.faults.trans h.faults, g.trig.trans h.trig⟩

theorem Within.mono {os ps : List Obj} {d e : Dev} (h : Within os d e) (hs : os ⊆ ps) : Within ps d e :=
  ⟨fun o u k ho => h.obj o u k (fun hx => ho (hs hx)), h.out, h.faults, h.trig⟩

/-- Nothing is left to close where nothing was. -/
theorem Within.quiet {os : List Obj} {d e : Dev} (h : Within os d e) (hq : d.quiet) : e.quiet := by
  unfold Dev.quiet
  rw [h.faults, h.trig]
  exact hq

/-- A set of one of the objects keeps within them. -/
theorem Within.put {os : List Obj} {d e : Dev} (h : Within os d e) {o : Obj} (ho : o ∈ os) (u k : Nat) (v : Val) :
    Within os d (e.put o u k v) := by
  refine h.trans ⟨?_, rfl, rfl, rfl⟩
  intro o' u' k' ho'
  refine Dev.get_put_other _ _ ?_
  rintro ⟨rfl, _⟩
  exact ho' ho

/-- A change of parts that are not objects keeps within any. -/
theorem Within.parts {os : List Obj} {d e f : Dev} (h : Within os d e) (hd : f.dict = e.dict) (ho : f.out = e.out)
    (hf : f.faults = e.faults) (ht : f.trig = e.trig) : Within os d f := by
  refine h.trans ⟨?_, ho, hf, ht⟩
  intro o u k _
  simp only [Dev.get, hd]

theorem Within.fold {τ : Type} {os : List Obj} {d : Dev} {f : Dev → τ → Dev} (hf : ∀ e x, Within os e (f e x)) (l : List τ)
    {e : Dev} (h : Within os d e) : Within os d (l.foldl f e) :=
  foldl_keeps (P := Within os d) (fun s x hs => hs.trans (hf s x)) l h

/-- The number an object outside them holds. -/
theorem Within.nat {os : List Obj} {d e : Dev} (h : Within os d e) {o : Obj} (ho : o ∉ os) (u k : Nat) :
    e.nat o u k = d.nat o u k := Dev.nat_eq_of_get (h.obj o u k ho)

/-- The close of a command keeps the objects that it does not write. -/
theorem Within.settle {os : List Obj} {d e : Dev} (h : Within os d e) {o : Obj} (ho : o ∉ os) (hc : closeObj o = false)
    (u k : Nat) : e.settle.nat o u k = d.nat o u k := (settle_nat e hc u k).trans (h.nat ho u k)

/-! ### The dictionary alone -/

theorem onlyDict_refl (d : Dev) : onlyDict d d := ⟨d.dict, d.out, rfl⟩

theorem onlyDict.put {d e : Dev} (h : onlyDict d e) (o : Obj) (u k : Nat) (v : Val) : onlyDict d (e.put o u k v) := by
  obtain ⟨t, x, rfl⟩ := h
  exact ⟨_, _, rfl⟩

theorem onlyDict.emit {d e : Dev} (h : onlyDict d e) (x : Output) : onlyDict d (e.emit x) := by
  obtain ⟨t, y, rfl⟩ := h
  exact ⟨_, _, rfl⟩

theorem onlyDict.confRecount {d e : Dev} (h : onlyDict d e) (k : Nat) : onlyDict d (e.confRecount k) := by
  unfold Dev.confRecount
  split
  · exact h
  · exact (h.put _ _ _ _).put _ _ _ _

/-- What differs in the dictionary and the outbox alone has nothing more to close than before. -/
theorem onlyDict.quiet {d e : Dev} (h : onlyDict d e) (hq : d.quiet) : e.quiet := by
  obtain ⟨t, y, rfl⟩ := h
  exact hq

/-! ### Conferences, cycles and homes -/

theorem within_confRecount (d : Dev) (k : Nat) : Within [.CONF_LEG_COUNT, .CONF_PIXEL_USE] d (d.confRecount k) := by
  unfold Dev.confRecount
  split
  · exact Within.refl _ _
  · exact ((Within.refl _ d).put (by decide) _ _ _).put (by decide) _ _ _

theorem within_setLegState (d : Dev) (n : Nat) (s : LegState) :
    Within [.LEG_STATE, .LEG_STATE_STRIDE, .CONF_LEG_COUNT, .CONF_PIXEL_USE] d (d.setLegState n s) := by
  have h : Within [.LEG_STATE, .LEG_STATE_STRIDE, .CONF_LEG_COUNT, .CONF_PIXEL_USE] d
      ((d.setN .LEG_STATE n s.num).setN .LEG_STATE_STRIDE n d.stride) :=
    ((Within.refl _ d).put (by decide) _ _ _).put (by decide) _ _ _
  unfold Dev.setLegState
  extract_lets d1 l d2
  have h2 : Within [.LEG_STATE, .LEG_STATE_STRIDE, .CONF_LEG_COUNT, .CONF_PIXEL_USE] d d2 := by
    refine h.trans ?_
    show Within _ d1 (if s = .active then _ else d1)
    split
    · exact (Within.refl _ _).parts rfl rfl rfl rfl
    · exact Within.refl _ _
  exact h2.trans ((within_confRecount _ _).mono (by decide))

/-- A leg's state after it was set. -/
@[simp] theorem setLegState_state (d : Dev) (n : Nat) (s : LegState) : (d.setLegState n s).nat .LEG_STATE n = s.num := by
  unfold Dev.setLegState
  extract_lets d1 l d2
  rw [(within_confRecount d2 _).nat (by decide)]
  have : d2.nat .LEG_STATE n = d1.nat .LEG_STATE n := by
    show (if s = .active then _ else d1 : Dev).nat _ _ = _
    split <;> rfl
  rw [this]
  simp [d1, Dev.setN_eq]

/-- The stride a leg's state was set in. -/
@[simp] theorem setLegState_stride (d : Dev) (n : Nat) (s : LegState) :
    (d.setLegState n s).nat .LEG_STATE_STRIDE n = d.stride := by
  unfold Dev.setLegState
  extract_lets d1 l d2
  rw [(within_confRecount d2 _).nat (by decide)]
  have : d2.nat .LEG_STATE_STRIDE n = d1.nat .LEG_STATE_STRIDE n := by
    show (if s = .active then _ else d1 : Dev).nat _ _ = _
    split <;> rfl
  rw [this]
  simp [d1, Dev.setN_eq]

/-- The other legs keep their states. -/
theorem setLegState_other (d : Dev) {n m : Nat} (h : m ≠ n) (s : LegState) {o : Obj} (k : Nat)
    (ho : o ≠ .CONF_LEG_COUNT ∧ o ≠ .CONF_PIXEL_USE) : (d.setLegState n s).get o m k = d.get o m k := by
  unfold Dev.setLegState
  extract_lets d1 l d2
  rw [(within_confRecount d2 _).obj o m k (by simp [ho])]
  have : d2.get o m k = d1.get o m k := by
    show (if s = .active then _ else d1 : Dev).get _ _ _ = _
    split <;> rfl
  rw [this]
  simp [d1, Dev.setN_eq, h]

/-- A leg that does not become ACTIVE takes its state in the dictionary alone. -/
theorem setLegState_onlyDict (d : Dev) (n : Nat) {s : LegState} (h : s ≠ .active) : onlyDict d (d.setLegState n s) := by
  have e : d.setLegState n s = Dev.confRecount ((d.setN .LEG_STATE n s.num).setN .LEG_STATE_STRIDE n d.stride)
      (((d.setN .LEG_STATE n s.num).setN .LEG_STATE_STRIDE n d.stride).nat .LEG_CONFERENCE n) := by
    unfold Dev.setLegState
    simp only [if_neg h]
  rw [e]
  exact (((onlyDict_refl d).put _ _ _ _).put _ _ _ _).confRecount _

theorem within_chargeCycles (d : Dev) (b : Nat) (c : Int) :
    Within [.BLK_ADMIT_CYCLES, .RGN_ADMIT_CYCLES, .ADMIT_CYCLES_USE] d (d.chargeCycles b c) :=
  (((Within.refl _ d).put (by decide) _ _ _).put (by decide) _ _ _).put (by decide) _ _ _

theorem within_setLoad (d : Dev) (c v : Nat) : Within [.CELL_HOME_LOAD, .BLK_HOME_LOAD] d (d.setLoad c v) := by
  have h : Within [.CELL_HOME_LOAD, .BLK_HOME_LOAD] d { d with loads := tput 0 c v d.loads } := (Within.refl _ d).parts rfl rfl rfl rfl
  exact (h.put (o := .CELL_HOME_LOAD) (by decide) _ _ _).put (o := .BLK_HOME_LOAD) (by decide) _ _ _

theorem within_giveHome (d : Dev) (key b c : Nat) : Within [.CELL_HOME_LOAD, .BLK_HOME_LOAD] d (d.giveHome key b c) := by
  unfold Dev.giveHome
  split
  · exact Within.refl _ _
  · rename_i c _
    have h : Within [.CELL_HOME_LOAD, .BLK_HOME_LOAD] d { d with homes := tset key c d.homes } := (Within.refl _ d).parts rfl rfl rfl rfl
    exact h.trans (within_setLoad _ _ _)

theorem within_dropHome (d : Dev) (key c : Nat) : Within [.CELL_HOME_LOAD, .BLK_HOME_LOAD] d (d.dropHome key c) := by
  unfold Dev.dropHome
  split
  · exact Within.refl _ _
  · rename_i c _
    have h : Within [.CELL_HOME_LOAD, .BLK_HOME_LOAD] d { d with homes := tdel key d.homes } := (Within.refl _ d).parts rfl rfl rfl rfl
    exact h.trans (within_setLoad _ _ _)

/-- The flows of a unit end in parts that are not objects, and its home load is released (R318, R327). -/
theorem within_endHome (d : Dev) (key c : Nat) : Within [.CELL_HOME_LOAD, .BLK_HOME_LOAD] d (d.endHome key c) := by
  have h : Within [.CELL_HOME_LOAD, .BLK_HOME_LOAD] d (d.endFlows key) := (Within.refl _ d).parts rfl rfl rfl rfl
  exact h.trans (within_dropHome _ _ _)

theorem within_ungate (os : List Obj) (d : Dev) (dom : Nat) : Within os d (d.ungate dom) := by
  unfold Dev.ungate
  extract_lets st
  split
  · exact (Within.refl _ d).parts rfl rfl rfl rfl
  · exact Within.refl _ _

/-! ### Pools -/

/-- The objects that an allocation or a release of buffers may write. -/
def poolWritten : List Obj :=
  [.POOL_FREE, .POOL_LOW_WATER, .POOL_PEAK_REFS, .POOL_EXHAUSTED, .POOL_FALLBACKS, .DOM_USE, .DOM_QUOTA_FAILS, .CONF_BUFFER_USE,
   .DRAM_REMIRROR_LEFT, .POOL_LOST, .POOL_BUFFERS, .POOL_INVALID, .POOL_STALE_FREES, .POOL_DOUBLE_FREES, .POOL_FOREIGN_FREES,
   .POOL_REF_LIMIT]

theorem within_chargeBytes (d : Dev) (dom : Nat) (a : Option Nat) (b : Int) : Within poolWritten d (d.chargeBytes dom a b) := by
  unfold Dev.chargeBytes
  have hp : ∀ (e : Dev) (x : Pool), Within poolWritten e { e with pool := x } := fun e x => (Within.refl _ e).parts rfl rfl rfl rfl
  cases a with
  | none => exact (hp _ _).put (o := .DOM_USE) (by decide) _ _ _
  | some k =>
    exact (((hp _ _).put (o := .DOM_USE) (by decide) _ _ _).trans (hp _ _)).put (o := .CONF_BUFFER_USE) (by decide) _ _ _

theorem within_poolTouch (d : Dev) (p : Nat) : Within poolWritten d (d.poolTouch p) := by
  unfold Dev.poolTouch
  extract_lets n d1
  have h1 : Within poolWritten d d1 := (Within.refl _ d).put (by decide) _ _ _
  split
  · exact h1.put (by decide) _ _ _
  · exact h1

theorem within_poolFailed (d : Dev) (p : Nat) : Within poolWritten d (d.poolFailed p) :=
  ((Within.refl _ d).put (by decide) _ _ _).parts rfl rfl rfl rfl

theorem within_takeOne {d e : Dev} {p dom h : Nat} {u : PoolUse} {row : UseRow} {a x : Option Nat}
    (ht : d.takeOne p u row dom a x = some (h, e)) : Within poolWritten d e := by
  have hp : ∀ d : Dev, Within poolWritten d (if d.nat .POOL_PEAK_REFS p < 1 then d.setN .POOL_PEAK_REFS p 1 else d) := by
    intro d
    split
    · exact (Within.refl _ d).put (by decide) _ _ _
    · exact Within.refl _ _
  unfold Dev.takeOne at ht
  split at ht
  · exact absurd ht (by simp)
  · split at ht
    · exact absurd ht (by simp)
    · rename_i c _ _ i l _
      simp only at ht
      have hl : ∀ (d : Dev) (c : Nat) (l : PoolList), Within poolWritten d (d.setList p c l) := fun d c l =>
        (Within.refl _ d).parts rfl rfl rfl rfl
      have hx : ∀ (d : Dev) (i : Nat) (x : Desc), Within poolWritten d (d.setDesc p i x) := fun d i x =>
        (Within.refl _ d).parts rfl rfl rfl rfl
      split at ht
      · split at ht
        · exact absurd ht (by simp)
        · split at ht
          · exact absurd ht (by simp)
          · obtain ⟨_, rfl⟩ := Prod.mk.inj (Option.some.inj ht)
            exact ((((hl d c l).trans (hp _)).trans (hl _ _ _)).trans (hx _ _ _)).trans (hx _ _ _)
      · obtain ⟨_, rfl⟩ := Prod.mk.inj (Option.some.inj ht)
        exact ((hl d c l).trans (hp _)).trans (hx _ _ _)

theorem within_takeMany {p dom : Nat} {u : PoolUse} {row : UseRow} {a x : Option Nat} :
    ∀ (n : Nat) {d e : Dev} {hs : List Nat}, d.takeMany p u row dom a x n = some (hs, e) → Within poolWritten d e
  | 0, d, e, hs, h => by
    simp only [Dev.takeMany, Option.some.injEq, Prod.mk.injEq] at h
    rw [← h.2]
    exact Within.refl _ _
  | n + 1, d, e, hs, h => by
    simp only [Dev.takeMany] at h
    split at h
    · exact absurd h (by simp)
    · rename_i h1 e1 ht
      simp only [Option.map_eq_some_iff, Prod.mk.injEq] at h
      obtain ⟨⟨hs', e'⟩, hm, _, rfl⟩ := h
      exact (within_takeOne ht).trans (within_takeMany n hm)

theorem within_allocFrom {u : PoolUse} {row : UseRow} {dom n first : Nat} {a x : Option Nat} :
    ∀ (fuel : Nat) (p : Nat) (d : Dev), Within poolWritten d (d.allocFrom u row dom a n first x fuel p).2
  | 0, _, d => Within.refl _ d
  | fuel + 1, p, d => by
    unfold Dev.allocFrom
    extract_lets placements bytes confBlocks enough got
    split
    · exact (Within.refl _ d).put (by decide) _ _ _
    · have hgot : ∀ hs e, got = some (hs, e) → Within poolWritten d e := by
        intro hs e hg
        have hg' : (if enough then d.takeMany p u row dom a x n else none) = some (hs, e) := hg
        split at hg'
        · exact within_takeMany n hg'
        · exact absurd hg' (by simp)
      clear_value got
      cases got with
      | none =>
        show Within poolWritten d (if p < row.ceiling then _ else _ : List Nat × Dev).2
        split
        · exact ((Within.refl _ d).put (o := .POOL_FALLBACKS) (by decide) _ _ _).trans (within_allocFrom fuel (p + 1) _)
        · exact within_poolFailed _ _
      | some r =>
        obtain ⟨hs, e⟩ := r
        exact ((hgot hs e rfl).trans (within_chargeBytes _ _ _ _)).trans (within_poolTouch _ _)

/-- An allocation writes the pools' own objects alone (R364 to R369). -/
theorem within_alloc (d : Dev) (u : PoolUse) (dom size n : Nat) (a x : Option Nat) :
    Within poolWritten d (d.alloc u dom size a n x).2 := by
  unfold Dev.alloc
  extract_lets row p
  split
  · exact within_allocFrom 6 p d
  · exact within_poolFailed _ _

end Sys2Proof.Machine
end

