-- ==== Sys2Proof/Laws/Access.lean ====
section
/-! SUPPORT. What a write of a command object comes to, once its access, type, range and form have passed: its effect, and the answer
that goes out. -/

namespace Sys2Proof.Machine

theorem octets_toNat_append (a : Octets) (x : Nat) : Octets.toNat (a ++ [x]) = Octets.toNat a * 256 + x := by
  simp [Octets.toNat]

@[simp] theorem natToOctets_length (k n : Nat) : (natToOctets k n).length = k := by
  induction k generalizing n with
  | zero => rfl
  | succ k ih => simp [natToOctets, ih]

/-- The octets of a number spell it. -/
theorem octets_toNat_natToOctets (k n : Nat) : Octets.toNat (natToOctets k n) = n % 256 ^ k := by
  induction k generalizing n with
  | zero => simp [natToOctets, Octets.toNat, Nat.mod_one]
  | succ k ih =>
    rw [natToOctets, octets_toNat_append, ih, Nat.pow_succ, Nat.mul_comm (256 ^ k) 256, Nat.mod_mul]
    omega

/-- A write whose checks pass comes to its effect (R62, R64, R496, R497). -/
theorem writeKey_effect {d : Dev} {src : Src} {k : Key} {data : Octets} {v : Val} (hm : k.mayWrite src = .ok ())
    (hw : wrappedKey k.o = false) (hd : k.decode data = .ok v) (hr : k.o.row.range.check v = .ok v) (hf : k.form v = .ok ())
    (hi : (!decide (k.o.row.acc = .rwi) || d.ownerIdle k) = true) (hp : k.pdo = none) (hs : k.staged src = false)
    (hl : (decide (k.o.row.acc = .rws) || (d.lookWith k (k.kept v)).related k) = true) :
    d.writeKey src k data = d.effect src k v := by
  unfold Dev.writeKey
  rw [hm, hw, hd]
  simp only [Dev.orRefuse, hr, hf, hi, hp, hs, hl, Dev.need, if_true, bind, Except.bind, Bool.false_eq_true, if_false]

/-- The same of a wrapped key, which an alarm refuses first (R447). -/
theorem writeKey_wrapped {d : Dev} {src : Src} {k : Key} {data : Octets} {v : Val} (hm : k.mayWrite src = .ok ())
    (ha : d.alarmed = false) (hd : k.decode data = .ok v) (hr : k.o.row.range.check v = .ok v) (hf : k.form v = .ok ())
    (hi : (!decide (k.o.row.acc = .rwi) || d.ownerIdle k) = true) (hp : k.pdo = none) (hs : k.staged src = false)
    (hl : (decide (k.o.row.acc = .rws) || (d.lookWith k (k.kept v)).related k) = true) :
    d.writeKey src k data = d.effect src k v := by
  unfold Dev.writeKey
  rw [hm, hd]
  simp only [Dev.orRefuse, hr, hf, hi, hp, hs, hl, Dev.need, Dev.alarmCheck, ha, Bool.not_false, if_true, bind, Except.bind,
    Bool.false_eq_true, if_false, ite_self]

/-- An accepted write: counted, and answered 0 (R67). -/
theorem answerWrite_ok (src : Src) (k : Key) (e : Dev) :
    answerWrite src k (.ok e) = (e.bump .DICT_WRITES).emit (.answer src k.index k.sub 0) := rfl

/-- A refused write: counted, and answered with its code (R67). -/
theorem answerWrite_error (src : Src) (k : Key) (a : Abort) (e : Dev) :
    answerWrite src k (.error (a, e)) = (e.bump .DICT_ABORTS).emit (.answer src k.index k.sub a.code) := rfl

/-- Where the interface may write the object, its access code and class decide (R14, R65). -/
theorem mayWrite_ok {k : Key} {src : Src} (h : src = .can → canWritable k.index k.sub = true) (ha : decide (k.o.row.acc = .ro) = false)
    (hc : (decide (k.o.row.cls = .P) && !oneTime k.o) = false) : k.mayWrite src = .ok () := by
  simp only [decide_eq_false_iff_not] at ha
  simp only [Bool.and_eq_false_iff, decide_eq_false_iff_not, Bool.not_eq_false'] at hc
  unfold Key.mayWrite
  rw [if_neg (fun hx => by have := h hx.1; rw [this] at hx; exact absurd hx.2 (by decide)), if_neg ha, if_neg]
  rintro ⟨h1, h2⟩
  simp only [Bool.not_eq_true'] at h2
  rcases hc with hc | hc
  · exact hc h1
  · rw [hc] at h2; exact absurd h2 (by decide)

theorem spell_byte {k : Key} {n : Nat} (hb : k.bits = 8) (hn : n < 256) : k.spell n = [n] := by
  simp [Key.spell, hb, hn, natToOctets, Nat.mod_eq_of_lt hn]

theorem bits_of_u {k : Key} {w : Nat} (ht : k.o.row.ty = .u w) : k.bits = w := by simp [Key.bits, ht, Ty.bits]

theorem decode_byte {k : Key} {n : Nat} (ht : k.o.row.ty = .u 8) : k.decode [n] = .ok (.num n) := by
  simp [Key.decode, ht, bits_of_u ht, Octets.toNat]

/-- A write of a number to an object of one octet comes to its effect. -/
theorem writeNum_byte {d : Dev} {src : Src} {k : Key} {n : Nat} (hn : n < 256) (ht : k.o.row.ty = .u 8)
    (hm : k.mayWrite src = .ok ()) (hw : wrappedKey k.o = false)
    (hr : k.o.row.range.check (.num n) = .ok (.num n)) (hf : k.form (.num n) = .ok ())
    (hi : (!decide (k.o.row.acc = .rwi) || d.ownerIdle k) = true) (hp : k.pdo = none) (hs : k.staged src = false)
    (hl : (decide (k.o.row.acc = .rws) || (d.lookWith k (k.kept (.num n))).related k) = true) :
    d.writeNum src k n = answerWrite src k (d.effect src k (.num n)) := by
  unfold Dev.writeNum
  rw [spell_byte (bits_of_u ht) hn, writeKey_effect hm hw (decode_byte ht) hr hf hi hp hs hl]

/-- A write of a value in its range to STRIDE_COMMIT comes to its effect. -/
theorem writeNum_STRIDE_COMMIT (d : Dev) {src : Src} (u : Nat)
    (h : src = .can → canWritable (Key.index { o := .STRIDE_COMMIT, u := u }) (Key.sub { o := .STRIDE_COMMIT, u := u }) = true) {n : Nat} (hn : n = 0 ∨ n = 1) :
    d.writeNum src { o := .STRIDE_COMMIT, u := u } n =
      answerWrite src { o := .STRIDE_COMMIT, u := u } (d.effect src { o := .STRIDE_COMMIT, u := u } (.num n)) := by
  obtain rfl | rfl := hn <;>
    exact writeNum_byte (by decide) rfl (mayWrite_ok h rfl rfl) rfl rfl rfl rfl rfl rfl rfl

/-- A write of 1 to STAGE_DISCARD comes to its effect. -/
theorem writeNum_STAGE_DISCARD (d : Dev) {src : Src} (u : Nat)
    (h : src = .can → canWritable (Key.index { o := .STAGE_DISCARD, u := u }) (Key.sub { o := .STAGE_DISCARD, u := u }) = true) :
    d.writeNum src { o := .STAGE_DISCARD, u := u } 1 =
      answerWrite src { o := .STAGE_DISCARD, u := u } (d.effect src { o := .STAGE_DISCARD, u := u } (.num 1)) :=
  writeNum_byte (by decide) rfl (mayWrite_ok h rfl rfl) rfl rfl rfl rfl rfl rfl rfl

/-- A write of a value in its range to PULSE_MODE comes to its effect. -/
theorem writeNum_PULSE_MODE (d : Dev) {src : Src} (u : Nat)
    (h : src = .can → canWritable (Key.index { o := .PULSE_MODE, u := u }) (Key.sub { o := .PULSE_MODE, u := u }) = true) {n : Nat} (hn : n = 0 ∨ n = 1 ∨ n = 2) :
    d.writeNum src { o := .PULSE_MODE, u := u } n =
      answerWrite src { o := .PULSE_MODE, u := u } (d.effect src { o := .PULSE_MODE, u := u } (.num n)) := by
  obtain rfl | rfl | rfl := hn <;>
    exact writeNum_byte (by decide) rfl (mayWrite_ok h rfl rfl) rfl rfl rfl rfl rfl rfl rfl

/-- A write of 0 to ERROR_COUNT comes to its effect. -/
theorem writeNum_ERROR_COUNT (d : Dev) {src : Src} (u : Nat)
    (h : src = .can → canWritable (Key.index { o := .ERROR_COUNT, u := u }) (Key.sub { o := .ERROR_COUNT, u := u }) = true) :
    d.writeNum src { o := .ERROR_COUNT, u := u } 0 =
      answerWrite src { o := .ERROR_COUNT, u := u } (d.effect src { o := .ERROR_COUNT, u := u } (.num 0)) :=
  writeNum_byte (by decide) rfl (mayWrite_ok h rfl rfl) rfl rfl rfl rfl rfl rfl rfl

/-- A write of a value in its range to CONF_CMD comes to its effect. -/
theorem writeNum_CONF_CMD (d : Dev) {src : Src} (u : Nat)
    (h : src = .can → canWritable (Key.index { o := .CONF_CMD, u := u }) (Key.sub { o := .CONF_CMD, u := u }) = true) {n : Nat} (hn : n = 1 ∨ n = 2) :
    d.writeNum src { o := .CONF_CMD, u := u } n =
      answerWrite src { o := .CONF_CMD, u := u } (d.effect src { o := .CONF_CMD, u := u } (.num n)) := by
  obtain rfl | rfl := hn <;>
    exact writeNum_byte (by decide) rfl (mayWrite_ok h rfl rfl) rfl rfl rfl rfl rfl rfl rfl

/-- A write of a value in its range to LEG_CMD comes to its effect. -/
theorem writeNum_LEG_CMD (d : Dev) {src : Src} (u : Nat)
    (h : src = .can → canWritable (Key.index { o := .LEG_CMD, u := u }) (Key.sub { o := .LEG_CMD, u := u }) = true) {n : Nat} (hn : n = 1 ∨ n = 2 ∨ n = 3 ∨ n = 4 ∨ n = 5 ∨ n = 6 ∨ n = 7 ∨ n = 8 ∨ n = 9) :
    d.writeNum src { o := .LEG_CMD, u := u } n =
      answerWrite src { o := .LEG_CMD, u := u } (d.effect src { o := .LEG_CMD, u := u } (.num n)) := by
  obtain rfl | rfl | rfl | rfl | rfl | rfl | rfl | rfl | rfl := hn <;>
    exact writeNum_byte (by decide) rfl (mayWrite_ok h rfl rfl) rfl rfl rfl rfl rfl rfl rfl

/-- A write of 1 to LEG_SSRC_FLUSH comes to its effect. -/
theorem writeNum_LEG_SSRC_FLUSH (d : Dev) {src : Src} (u : Nat)
    (h : src = .can → canWritable (Key.index { o := .LEG_SSRC_FLUSH, u := u }) (Key.sub { o := .LEG_SSRC_FLUSH, u := u }) = true) :
    d.writeNum src { o := .LEG_SSRC_FLUSH, u := u } 1 =
      answerWrite src { o := .LEG_SSRC_FLUSH, u := u } (d.effect src { o := .LEG_SSRC_FLUSH, u := u } (.num 1)) :=
  writeNum_byte (by decide) rfl (mayWrite_ok h rfl rfl) rfl rfl rfl rfl rfl rfl rfl

/-- A write of a value in its range to CH_CMD comes to its effect. -/
theorem writeNum_CH_CMD (d : Dev) {src : Src} (u : Nat)
    (h : src = .can → canWritable (Key.index { o := .CH_CMD, u := u }) (Key.sub { o := .CH_CMD, u := u }) = true) {n : Nat} (hn : n = 1 ∨ n = 2) :
    d.writeNum src { o := .CH_CMD, u := u } n =
      answerWrite src { o := .CH_CMD, u := u } (d.effect src { o := .CH_CMD, u := u } (.num n)) := by
  obtain rfl | rfl := hn <;>
    exact writeNum_byte (by decide) rfl (mayWrite_ok h rfl rfl) rfl rfl rfl rfl rfl rfl rfl

/-- A write of 1 to LOG_CLEAR comes to its effect. -/
theorem writeNum_LOG_CLEAR (d : Dev) {src : Src} (u : Nat)
    (h : src = .can → canWritable (Key.index { o := .LOG_CLEAR, u := u }) (Key.sub { o := .LOG_CLEAR, u := u }) = true) :
    d.writeNum src { o := .LOG_CLEAR, u := u } 1 =
      answerWrite src { o := .LOG_CLEAR, u := u } (d.effect src { o := .LOG_CLEAR, u := u } (.num 1)) :=
  writeNum_byte (by decide) rfl (mayWrite_ok h rfl rfl) rfl rfl rfl rfl rfl rfl rfl

/-- A write of a value in its range to GOV_CMD comes to its effect. -/
theorem writeNum_GOV_CMD (d : Dev) {src : Src} (u : Nat)
    (h : src = .can → canWritable (Key.index { o := .GOV_CMD, u := u }) (Key.sub { o := .GOV_CMD, u := u }) = true) {n : Nat} (hn : n = 1 ∨ n = 2) :
    d.writeNum src { o := .GOV_CMD, u := u } n =
      answerWrite src { o := .GOV_CMD, u := u } (d.effect src { o := .GOV_CMD, u := u } (.num n)) := by
  obtain rfl | rfl := hn <;>
    exact writeNum_byte (by decide) rfl (mayWrite_ok h rfl rfl) rfl rfl rfl rfl rfl rfl rfl

/-- A write of a value in its range to SC_LOCK comes to its effect. -/
theorem writeNum_SC_LOCK (d : Dev) {src : Src} (u : Nat)
    (h : src = .can → canWritable (Key.index { o := .SC_LOCK, u := u }) (Key.sub { o := .SC_LOCK, u := u }) = true) {n : Nat} (hn : n = 0 ∨ n = 1) :
    d.writeNum src { o := .SC_LOCK, u := u } n =
      answerWrite src { o := .SC_LOCK, u := u } (d.effect src { o := .SC_LOCK, u := u } (.num n)) := by
  obtain rfl | rfl := hn <;>
    exact writeNum_byte (by decide) rfl (mayWrite_ok h rfl rfl) rfl rfl rfl rfl rfl rfl rfl

/-- A write of 1 to SC_CMD comes to its effect. -/
theorem writeNum_SC_CMD (d : Dev) {src : Src} (u : Nat)
    (h : src = .can → canWritable (Key.index { o := .SC_CMD, u := u }) (Key.sub { o := .SC_CMD, u := u }) = true) :
    d.writeNum src { o := .SC_CMD, u := u } 1 =
      answerWrite src { o := .SC_CMD, u := u } (d.effect src { o := .SC_CMD, u := u } (.num 1)) :=
  writeNum_byte (by decide) rfl (mayWrite_ok h rfl rfl) rfl rfl rfl rfl rfl rfl rfl

/-- A write of 1 to ALARM_CLEAR comes to its effect. -/
theorem writeNum_ALARM_CLEAR (d : Dev) {src : Src} (u : Nat)
    (h : src = .can → canWritable (Key.index { o := .ALARM_CLEAR, u := u }) (Key.sub { o := .ALARM_CLEAR, u := u }) = true) :
    d.writeNum src { o := .ALARM_CLEAR, u := u } 1 =
      answerWrite src { o := .ALARM_CLEAR, u := u } (d.effect src { o := .ALARM_CLEAR, u := u } (.num 1)) :=
  writeNum_byte (by decide) rfl (mayWrite_ok h rfl rfl) rfl rfl rfl rfl rfl rfl rfl

/-- A write of 1 to ATTEST_CMD comes to its effect. -/
theorem writeNum_ATTEST_CMD (d : Dev) {src : Src} (u : Nat)
    (h : src = .can → canWritable (Key.index { o := .ATTEST_CMD, u := u }) (Key.sub { o := .ATTEST_CMD, u := u }) = true) :
    d.writeNum src { o := .ATTEST_CMD, u := u } 1 =
      answerWrite src { o := .ATTEST_CMD, u := u } (d.effect src { o := .ATTEST_CMD, u := u } (.num 1)) :=
  writeNum_byte (by decide) rfl (mayWrite_ok h rfl rfl) rfl rfl rfl rfl rfl rfl rfl

/-- A write of 1 to SNAP_NOW comes to its effect. -/
theorem writeNum_SNAP_NOW (d : Dev) {src : Src} (u : Nat)
    (h : src = .can → canWritable (Key.index { o := .SNAP_NOW, u := u }) (Key.sub { o := .SNAP_NOW, u := u }) = true) :
    d.writeNum src { o := .SNAP_NOW, u := u } 1 =
      answerWrite src { o := .SNAP_NOW, u := u } (d.effect src { o := .SNAP_NOW, u := u } (.num 1)) :=
  writeNum_byte (by decide) rfl (mayWrite_ok h rfl rfl) rfl rfl rfl rfl rfl rfl rfl

/-- A write of 1 to SNAP_RELEASE comes to its effect. -/
theorem writeNum_SNAP_RELEASE (d : Dev) {src : Src} (u : Nat)
    (h : src = .can → canWritable (Key.index { o := .SNAP_RELEASE, u := u }) (Key.sub { o := .SNAP_RELEASE, u := u }) = true) :
    d.writeNum src { o := .SNAP_RELEASE, u := u } 1 =
      answerWrite src { o := .SNAP_RELEASE, u := u } (d.effect src { o := .SNAP_RELEASE, u := u } (.num 1)) :=
  writeNum_byte (by decide) rfl (mayWrite_ok h rfl rfl) rfl rfl rfl rfl rfl rfl rfl

/-- A write of 1 to TAP_CMD comes to its effect. -/
theorem writeNum_TAP_CMD (d : Dev) {src : Src} (u : Nat)
    (h : src = .can → canWritable (Key.index { o := .TAP_CMD, u := u }) (Key.sub { o := .TAP_CMD, u := u }) = true) :
    d.writeNum src { o := .TAP_CMD, u := u } 1 =
      answerWrite src { o := .TAP_CMD, u := u } (d.effect src { o := .TAP_CMD, u := u } (.num 1)) :=
  writeNum_byte (by decide) rfl (mayWrite_ok h rfl rfl) rfl rfl rfl rfl rfl rfl rfl

/-- A write of 1 to INJ_CMD comes to its effect. -/
theorem writeNum_INJ_CMD (d : Dev) {src : Src} (u : Nat)
    (h : src = .can → canWritable (Key.index { o := .INJ_CMD, u := u }) (Key.sub { o := .INJ_CMD, u := u }) = true) :
    d.writeNum src { o := .INJ_CMD, u := u } 1 =
      answerWrite src { o := .INJ_CMD, u := u } (d.effect src { o := .INJ_CMD, u := u } (.num 1)) :=
  writeNum_byte (by decide) rfl (mayWrite_ok h rfl rfl) rfl rfl rfl rfl rfl rfl rfl

/-- A row that is a write, from a sender that is heard. -/
theorem onWrite_heard {s : State} {src : Src} {o : Obj} {u c n : Nat} (hu : u < c) (h : s.dev.reaches src = true) :
    onWrite s src o u c n = .next { s with dev := (s.dev.writeNum src { o := o, u := u } n).settle } := by
  have e : s.dev.access src (fun d => d.writeNum src { o := o, u := u } n) = s.dev.writeNum src { o := o, u := u } n := if_pos h
  unfold onWrite onUnit onDev
  rw [if_pos hu]
  exact congrArg (fun x : Dev => Host.Outcome.next { s with dev := x.settle }) e

/-- The same of octets. -/
theorem onWriteBytes_heard {s : State} {src : Src} {o : Obj} {u c : Nat} {b : Octets} (hu : u < c) (h : s.dev.reaches src = true) :
    onWriteBytes s src o u c b = .next { s with dev := (s.dev.writeBytes src { o := o, u := u } b).settle } := by
  have e : s.dev.access src (fun d => d.writeBytes src { o := o, u := u } b) = s.dev.writeBytes src { o := o, u := u } b := if_pos h
  unfold onWriteBytes onUnit onDev
  rw [if_pos hu]
  exact congrArg (fun x : Dev => Host.Outcome.next { s with dev := x.settle }) e

/-- An accepted write from a quiet device, whose effect sends and logs nothing. -/
theorem accepted_close {d e : Dev} {src : Src} {k : Key} {os : List Obj} (hq : d.quiet) (hw : Within os d e) :
    (answerWrite src k (.ok e)).settle.acceptedBy d src k ∧
      (answerWrite src k (.ok e)).settle = (e.bump .DICT_WRITES).emit (.answer src k.index k.sub 0) := by
  have hs := settle_of_quiet (d := answerWrite src k (.ok e)) (hw.quiet hq)
  refine ⟨?_, hs⟩
  rw [hs]
  show e.out ++ _ = _
  rw [hw.out]
  rfl

/-- A refused write from a quiet device. -/
theorem refused_close {d e : Dev} {src : Src} {k : Key} {a : Abort} {os : List Obj} (hq : d.quiet) (hw : Within os d e) :
    (answerWrite src k (.error (a, e))).settle.refusedBy d src k a ∧
      (answerWrite src k (.error (a, e))).settle = (e.bump .DICT_ABORTS).emit (.answer src k.index k.sub a.code) := by
  have hs := settle_of_quiet (d := answerWrite src k (.error (a, e))) (hw.quiet hq)
  refine ⟨?_, hs⟩
  rw [hs]
  show e.out ++ _ = _
  rw [hw.out]
  rfl

end Sys2Proof.Machine
end

