-- ==== Sys2Proof/Laws/Memory.lean ====
section
/-! SUPPORT. The canonical form of the DRAM's bytes, and what its operations do to it and to a read. -/

namespace Sys2Proof.Machine

theorem Memory.ordered_mono {lo lo' : Nat} (h : lo' ≤ lo) :
    ∀ {m : List Host.Cell}, Memory.ordered lo m = true → Memory.ordered lo' m = true
  | [], _ => rfl
  | (a, b) :: r, hm => by
    simp only [Memory.ordered, Bool.and_eq_true, decide_eq_true_eq] at hm ⊢
    exact ⟨⟨by omega, hm.1.2⟩, hm.2⟩

theorem Memory.ordered_write {lo a : Nat} (h : lo ≤ a) (b : Byte) :
    ∀ {m : List Host.Cell}, Memory.ordered lo m = true → Memory.ordered lo (Memory.write m a b) = true
  | [], _ => by
    simp only [Memory.write]
    split <;> simp [Memory.ordered, *]
  | (k, v) :: r, hm => by
    simp only [Memory.ordered, Bool.and_eq_true, decide_eq_true_eq] at hm
    simp only [Memory.write]
    split
    · split
      · simp [Memory.ordered, hm]
      · rename_i hk hb
        have hka : a + 1 ≤ k := by omega
        simp [Memory.ordered, hm, h, hka, hb]
    · split
      · rename_i hk
        subst hk
        split
        · exact Memory.ordered_mono (by omega) hm.2
        · rename_i hb; simp [Memory.ordered, hm, hb]
      · have := Memory.ordered_write (lo := k + 1) (a := a) (by omega) b hm.2
        simp [Memory.ordered, hm, this]

/-- A store keeps the canonical form. -/
theorem Memory.wf_write {m : List Host.Cell} (a : Nat) (b : Byte) (h : Memory.wf m = true) :
    Memory.wf (Memory.write m a b) = true := Memory.ordered_write (Nat.zero_le a) b h

/-- A store of octets keeps the canonical form. -/
theorem Memory.wf_writeN (a : Nat) (bs : Octets) :
    ∀ {m : List Host.Cell}, Memory.wf m = true → Memory.wf (Memory.writeN m a bs) = true := by
  induction bs generalizing a with
  | nil => intro m h; exact h
  | cons b r ih => intro m h; exact ih _ (Memory.wf_write _ _ h)

theorem Memory.ordered_filter (p : Host.Cell → Bool) :
    ∀ {lo : Nat} {m : List Host.Cell}, Memory.ordered lo m = true → Memory.ordered lo (m.filter p) = true
  | _, [], _ => rfl
  | lo, (a, b) :: r, hm => by
    simp only [Memory.ordered, Bool.and_eq_true, decide_eq_true_eq] at hm
    simp only [List.filter_cons]
    split
    · simp [Memory.ordered, hm, Memory.ordered_filter p hm.2]
    · exact Memory.ordered_mono (by omega) (Memory.ordered_filter p hm.2)

/-- The clearing of a channel keeps the canonical form. -/
theorem Memory.wf_clear {m : List Host.Cell} (c : Nat) (h : Memory.wf m = true) : Memory.wf (Memory.clear m c) = true :=
  Memory.ordered_filter _ h

theorem Memory.read_below {lo a : Nat} (h : a < lo) :
    ∀ {m : List Host.Cell}, Memory.ordered lo m = true → Memory.read m a = unlisted
  | [], _ => rfl
  | (k, v) :: r, hm => by
    simp only [Memory.ordered, Bool.and_eq_true, decide_eq_true_eq] at hm
    have hk : ¬ a = k := by omega
    simp only [Memory.read, hk, if_false]
    exact Memory.read_below (lo := k + 1) (by omega) hm.2

theorem Memory.read_write_ordered {lo : Nat} (a : Nat) (b : Byte) (x : Nat) :
    ∀ {m : List Host.Cell}, Memory.ordered lo m = true →
      Memory.read (Memory.write m a b) x = if x = a then b else Memory.read m x
  | [], _ => by
    simp only [Memory.write]
    split <;> simp [Memory.read, *]
  | (k, v) :: r, hm => by
    simp only [Memory.ordered, Bool.and_eq_true, decide_eq_true_eq] at hm
    simp only [Memory.write]
    split
    · rename_i hk
      split
      · rename_i hb
        by_cases hx : x = a
        · subst hx
          have hne : ¬ x = k := by omega
          simp only [Memory.read, hne, if_false, if_true, hb]
          exact Memory.read_below (lo := k + 1) (by omega) hm.2
        · simp [hx]
      · simp [Memory.read]
    · split
      · rename_i hk
        subst hk
        split
        · rename_i hb
          by_cases hx : x = a
          · subst hx
            simp only [if_true, hb]
            exact Memory.read_below (lo := x + 1) (by omega) hm.2
          · simp [hx, Memory.read]
        · by_cases hx : x = a <;> simp [Memory.read, hx]
      · rename_i h1 h2
        have ih := Memory.read_write_ordered (lo := k + 1) a b x hm.2
        simp only [Memory.read, ih]
        by_cases hx : x = a
        · subst hx; simp [h2]
        · simp [hx]

/-- A read after a store: the byte stored at its address, and every other byte as it was. -/
theorem Memory.read_write {m : List Host.Cell} (h : Memory.wf m = true) (a x : Nat) (b : Byte) :
    Memory.read (Memory.write m a b) x = if x = a then b else Memory.read m x := Memory.read_write_ordered (lo := 0) a b x h

/-- A store of octets leaves every byte outside them. -/
theorem Memory.read_writeN_other (bs : Octets) :
    ∀ {m : List Host.Cell} (a x : Nat), Memory.wf m = true → x < a ∨ a + bs.length ≤ x →
      Memory.read (Memory.writeN m a bs) x = Memory.read m x := by
  induction bs with
  | nil => intro m a x _ _; rfl
  | cons b r ih =>
    intro m a x hm hx
    simp only [List.length_cons] at hx
    have hne : x ≠ a := by omega
    rw [Memory.writeN, ih _ _ (Memory.wf_write _ _ hm) (by omega), Memory.read_write hm]
    simp [hne]

theorem Memory.read_filter (p : Host.Cell → Bool) (x : Nat) (hp : ∀ b, p (x, b) = true) :
    ∀ {m : List Host.Cell}, Memory.read (m.filter p) x = Memory.read m x
  | [] => rfl
  | (k, v) :: r => by
    by_cases hx : x = k
    · subst hx; simp [hp, Memory.read]
    · by_cases hq : p (k, v) = true <;> simp [hq, Memory.read, hx, Memory.read_filter p x hp]

/-- The clearing of a channel leaves the other channels' bytes. -/
theorem Memory.read_clear_other (m : List Host.Cell) {c x : Nat} (h : x / channelSpan ≠ c) :
    Memory.read (Memory.clear m c) x = Memory.read m x := Memory.read_filter _ _ (by simp [h])

end Sys2Proof.Machine
end

