-- ==== Sys2Proof/Tests/Slice0.lean ====
section
/-! SUPPORT. The model's own tests: terms that `Instr.wf` refuses, states that meet the hypotheses of the obligations, and
results worked by hand from the spec's text. -/

open Sys2Proof Sys2Proof.Machine

namespace Sys2Proof.Tests

set_option Elab.async false

/-- The management address of the tests, 10.0.0.2. -/
def mgmtIp : Octets := mapped 0x0A000002

/-- A device in full service with all released, an operational node and session 1 open. -/
def base : Dev :=
  { rst := { released := true, step := 9, handed := true, optDone := true }
    gen := { running := true }
    hdp := { sessions := [{ id := 1, key := [7] }] }
    can := { nmt := .operational } }

/-- It, with objects given as (object, unit, value), and changed by `f`. -/
def up (vs : List (Obj × Nat × Nat) := []) (f : Dev → Dev := id) : State :=
  { dev := f (vs.foldl (fun d v => d.setN v.1 v.2.1 v.2.2) ((base.setService .full).setN .MGMT_IPV4 0 0x0A000002)) }

/-- The sender of the tests: session 1. -/
abbrev s1 : Src := .hdp 1

/-- A datagram of session 1, under its key, at the management address. -/
def dgram (seq : Nat := 1) : HdpHdr := { session := 1, seq := seq, sealKey := [7], dst := mgmtIp }

/-! ### Ill-formed commands -/

theorem test_wf_refuses_dictionary_and_time :
    ([.dictWrite s1 65536 0 [], .dictWrite s1 0 256 [], .dictWrite s1 0x2000 4 [256], .tbTimeWrite s1 8 0, .servoSample 8 0 1,
      .holdoverEnter 8, .holdoverExpiry 8, .ptpMessageRx 4 ⟨.management, {}⟩, .ptpMessageDue 4 .sync, .ptpAnnounceTimeout 4,
      .pulseTargetReached 4, .pulseWidthEnd 4, .pulseTargetWrite s1 4 0, .pulseModeWrite s1 4 0, .captureEdge 2 true,
      .captureTimeRead s1 2] : List Instr).all (fun c => !c.wf) = true := by decide

theorem test_wf_refuses_hdp_and_can :
    ([.hdpOpen {} 1 [256] 0, .hdpRead {} 1 [⟨65536, 0, false⟩], .hdpRead {} 1 [⟨0, 256, false⟩], .hdpWrite {} 1 [⟨65536, 0, []⟩],
      .hdpWrite {} 1 [⟨0, 256, []⟩], .hdpWrite {} 1 [⟨0, 0, [300]⟩], .hdpSubscribe {} 1 0 1 [⟨65536, 0, false⟩],
      .hdpBulkData {} 1 0 [256], .hdpPuntTx {} 1 0 [256], .sdoDownloadInitiate 0 0 .expedited 1 [256],
      .sdoSegment false 0 [256] true true, .rpdoReceive 4 [], .rpdoReceive 0 [256], .tpdoEventTimer 4] : List Instr).all
      (fun c => !c.wf) = true := by decide

theorem test_wf_refuses_legs_and_conferences :
    ([.confOpen s1 1024, .confClose s1 1024, .confCloseComplete 1024, .configure s1 4096, .unconfigure s1 4096, .activate s1 4096,
      .hold s1 4096, .resume s1 4096, .rekey s1 4096, .rekeyDone s1 4096, .delete s1 4096, .readmitVideo s1 4096, .drainEnd 4096,
      .legRxTimeout 4096, .legSsrcFlush s1 4096, .legLowPriorityWrite s1 4096 true, .dtmfEventTimeout 4096,
      .legEventRead s1 4096] : List Instr).all (fun c => !c.wf) = true := by decide

theorem test_wf_refuses_ports_and_lines :
    ([.frameReceive 4 {}, .videoHoldExpiry 4096 0 0, .portLinkChange 4 1 0 0, .pairRevert 2, .pairForce s1 2 0, .srefclkLoss 2,
      .portFrameSelect ⟨4, 0, []⟩, .rtcpReportDue 4096 .senderReport, .fecKEvaluate 4096, .lineLoopItem 4096,
      .feedbackBuildItem 4096] : List Instr).all (fun c => !c.wf) = true := by decide

theorem test_wf_refuses_audio_and_cells :
    ([.itemPlacement 64, .itemStart 1024, .audioInputItem 4096 [], .mixItem 1024, .audioOutputItem 4096, .audioEncodeItem 4096 0,
      .checkItem 1024 0 0 true, .cellClockStop 1024, .arbiterGrant (.block 64) [] [],
      .arbiterGrant (.region 4) [] [], .debugSweep (.chip 4)] : List Instr).all (fun c => !c.wf) = true := by decide

theorem test_wf_refuses_video :
    ([.decodePictureComplete 4096 0 [], .encodeRowComplete (.composed 4096) 0 0 {}, .encodePictureComplete (.strip 1024) 0 0,
      .encodePictureComplete (.tile 4096 0) 0 0, .composerItemStart 4, .composerItemComplete 4 [] [],
      .spliceAssemble 4096 0, .keyframeRequestRepeat 4096 0] : List Instr).all (fun c => !c.wf) = true := by decide

theorem test_wf_refuses_memory_and_pools :
    ([.dramTrainingStep 4 true 0, .dramInitComplete 4, .dramWrite 0 0 [256], .scrubRead 4 0 [] [] [], .caParityAlert 4, .refreshDue 4 0,
      .neighbourRefresh 4 0 0 0, .pageIdleTimeout 4 0 0, .chRetrain s1 4, .chFail s1 4, .marginCmd s1 4 1, .marginScanComplete 4 [],
      .bufferAllocate 16 .rxPacket 1 none 1 none, .referenceAdd 16 0 1, .referenceDrop 16 0,
      .poolLowWaterRead s1 6 false] : List Instr).all (fun c => !c.wf) = true := by decide

theorem test_wf_refuses_faults_and_power :
    ([.cellFault 1024 .parity 0, .blockFault 64 .bus, .blockRejoin 64, .pairFault 16 0 false, .composerFault 4 false,
      .fabricRailError 4 {}, .regionFail 4 false, .chipUnitError (.region 4 0 false), .domainWakeComplete 50, .domainWakeTimeout 50,
      .domainIdleGate 50] : List Instr).all (fun c => !c.wf) = true := by decide

theorem test_wf_refuses_resets_and_keys :
    ([.tkProgram s1 [256], .slotWrap s1 0 [], .slotWrap s1 8 [], .slotWrap s1 1 [256], .hdpKey s1 4 [],
      .hdpKey s1 0 [256], .legTxKey s1 4096 [], .legTxKey s1 0 [256], .legRxKey s1 4096 [], .legRxKey s1 0 [256],
      .legSuiteWrite s1 4096 0, .supplyAlarm 8 0, .temperatureAlarm 16 0, .alarmSourceClear 4, .ownerProgram s1 256 [],
      .ownerProgram s1 0 [256]] : List Instr).all (fun c => !c.wf) = true := by decide

/-! ### States that meet the hypotheses of the statements

One theorem for each statement that has hypotheses, in the order of Certificates/Slice0/Obligations.lean. -/

theorem test_meets_StepRunsTheFrontCommand : ({ pending := [.snapInEdge] } : State).pending = .snapInEdge :: [] := rfl

theorem test_meets_IdleStepCountsOneCycle : State.reset.pending = [] := rfl

/-- A channel of one rank whose last training step passes, and which then lists nothing. -/
theorem test_meets_MemoryStaysCanonical :
    let s : State := { up [(.CH_STATE, 3, 1), (.DRAM_RANKS, 0, 1)] (·.setChan 3 { step := 8 }) with
      mem := Memory.write [] (3 * channelSpan) 5, pending := [.dramTrainingStep 3 true 1] }
    s.memOk ∧ (nextOf (step s)).map (fun t => (t.dev.nat .CH_STATE 3, t.mem.length)) = some (2, 0) := by decide +kernel

theorem test_meets_OnlyDramCommandsTouchMemory : ∀ c ∈ [Instr.snapInEdge, .remirrorCopy 0, .pornAssert], runs c (up []) := by
  unfold runs; decide +kernel

theorem test_meets_EveryCommandClosesItsRecords : runs (.wrstnAssert) (up []) ∧ runs .tamperAlarm (up []) := by
  unfold runs; decide +kernel

/-- P0 buffer 1,024, live: the first that DRAM holds. -/
def withP0 (d : Dev) : Dev := d.setDesc 0 1024 { allocated := true, gen := 1, owner := 1, refs := 1 }

theorem test_meets_WellFormedCommandsRun :
    let s := up [(.CH_STATE, 0, 3), (.DRAM_RANKS, 0, 1)] withP0
    (Instr.dramRead (mkHandle 0 1 1024) 255 [] [] []).wf = true ∧ s.dev.inBuffer (mkHandle 0 1 1024) (255 / 64 * 64) 64 = true ∧
      (Instr.dramWrite (mkHandle 0 1 1024) 192 (List.replicate 64 255)).wf = true ∧ s.dev.inBuffer (mkHandle 0 1 1024) 192 64 = true ∧
      (Instr.scrubRead 3 (2 ^ 34 - 1) [] [] []).wf = true ∧ 2 ^ 34 - 1 < s.dev.ranks * 2 ^ 34 ∧ (Instr.configure s1 4095).wf = true := by
  decide +kernel

theorem test_meets_NothingAnswersBeforeRelease :
    State.reset.dev.rst.released = false ∧ State.reset.dev.gen.running = false ∧ State.reset.dev.quiet ∧
      ∀ c ∈ [Instr.dictWrite .can 0x2000 4 [1], .warmupStart, .wrstnAssert], runs c State.reset := by
  unfold Dev.quiet runs; decide +kernel

theorem test_meets_StrideEdgeRunsItsActions :
    ∀ run ∈ [true, false], let s := up [] fun d => { d with gen := { d.gen with running := run } }
      s.dev.quiet ∧ s.dev.rst.released = true ∧ s.dev.rst.asks = [] ∧ s.dev.gen.running = run := by
  unfold Dev.quiet; decide +kernel

/-- No commit; one of an empty set; one of a set with a rule broken; and one of a set in order. -/
theorem test_meets_CommitTakesAllOrNothing :
    let due := fun (d : Dev) => ({ d with polOld := [] }.setN .STRIDE_COMMIT 0 0).setN .COMMIT_STRIDE 0 d.stride
    let asked := fun (st : List (Key × Val)) => (up [(.STRIDE_COMMIT, 0, 1)] fun d => { d with stage := st }).dev
    (up []).dev.nat .STRIDE_COMMIT = 0 ∧ (asked []).nat .STRIDE_COMMIT ≠ 0 ∧ (asked []).stage = [] ∧
      (due (asked [({ o := .LEG_MIN_RATE, u := 4095 }, .num 4000000)])).stageFault = some { o := .LEG_MIN_RATE, u := 4095 } ∧
      (due (asked [({ o := .STRIDE_TIMEBASE }, .num 7)])).stageFault = none := by
  decide +kernel

theorem test_meets_CommitIsRequestedAndWithdrawn :
    ∀ v ∈ [0, 1], let s := up [(.STRIDE_COMMIT, 0, v)]
      s.dev.quiet ∧ s.dev.hears s1 { o := .STRIDE_COMMIT } ∧ s.dev.hears .can { o := .STRIDE_COMMIT } ∧
        s.dev.nat .STRIDE_COMMIT = v := by
  unfold Dev.quiet Dev.hears; decide +kernel

theorem test_meets_StageDiscardObeysItsRule :
    ∀ v ∈ [0, 1], let s := up [(.STRIDE_COMMIT, 0, v)] fun d => { d with stage := [({ o := .STRIDE_TIMEBASE }, .num 7)] }
      s.dev.quiet ∧ s.dev.hears s1 { o := .STAGE_DISCARD } ∧ s.dev.inTurn ∧ s.dev.nat .STRIDE_COMMIT = v ∧
        ∀ w ∈ [0, 1, 255], w < 256 := by
  unfold Dev.quiet Dev.hears Dev.inTurn; decide +kernel

/-- Values at both ends of the range, one above it, and a set that is full. -/
theorem test_meets_DictWritesAreStaged :
    ∀ st ∈ [[], List.replicate 8192 (({ o := .LEG_MIN_RATE } : Key), Val.num 1)],
      let s := up [] fun d => { d with stage := st }
      s.dev.quiet ∧ s.dev.reaches s1 = true ∧ s.dev.inTurn ∧ ∀ data ∈ [[0], [7], [8], [], [1, 2]], Octets.ok data = true := by
  unfold Dev.quiet Dev.inTurn; decide +kernel

/-- A stride with no entry left, and one with a request that waits. -/
theorem test_meets_WritesWaitTheirTurn :
    ∀ x ∈ [(0, []), (128, [({ session := 1, req := 9 } : HdpReq)])],
      let s := up [] fun d => { d with hdp := { d.hdp with left := x.1, queue := x.2 } }
      s.dev.quiet ∧ s.dev.reaches s1 = true ∧ s.dev.reaches .can = true ∧ ¬s.dev.inTurn := by
  unfold Dev.quiet Dev.inTurn; decide +kernel

/-- A leg in each state, the last of them. -/
theorem test_meets_LegCommands :
    ∀ st ∈ [0, 1, 2, 3, 4, 5, 6], let s := up [(.LEG_STATE, 4095, st)]
      s.dev.quiet ∧ s.dev.hears s1 { o := .LEG_CMD, u := 4095 } ∧ (s.dev.legState 4095).num = st := by
  unfold Dev.quiet Dev.hears; decide +kernel

/-- A leg with all that CONFIGURE asks for. -/
def wholeLeg (n : Nat) : List (Obj × Nat × Nat) :=
  [(.LEG_SUITE, n, 1), (.LEG_CONFERENCE, n, 0), (.LEG_LOCAL_ADDR, n, 0), (.LEG_LOCAL_PORT, n, 5000), (.LEG_REMOTE_PORT, n, 4000), (.CONF_STATE, 0, 1),
    (.LEG_RX_CODEC, n, 1), (.LEG_TX_CODEC, n, 2), (.LEG_RX_PT, n, 2 ^ 31 + 352)]

/-- Its address and its keys. -/
def withKeys (n : Nat) (d : Dev) : Dev :=
  ((d.put .LEG_REMOTE_IP n 0 (.bytes (List.replicate 10 0 ++ [255, 255, 10, 0, 0, 9]))).put .ADDR_IP 0 0
    (.bytes (List.replicate 10 0 ++ [255, 255, 10, 0, 0, 1]))).setKeys n
    { tx := some (List.replicate 30 1), rx := some (List.replicate 30 2), suite := 1, txNew := true, rxNew := true }

theorem test_meets_ConfigureAsksForACompleteLeg :
    let s := up (wholeLeg 4095) (withKeys 4095)
    s.dev.quiet ∧ s.dev.hears s1 { o := .LEG_CMD, u := 4095 } ∧ s.dev.legState 4095 = .idle ∧ s.dev.complete 4095 = true ∧
      s.dev.legState 0 = .idle ∧ s.dev.complete 0 = false := by
  unfold Dev.quiet Dev.hears; decide +kernel

/-- Legs in the three states of the commands, whose checks pass, and whose conference is not open. -/
theorem test_meets_AdmissionFollowsItsChecks :
    ∀ x ∈ [(1, LegState.configured), (2, .active), (3, .held)], ∀ conf ∈ [0, 1],
      let s := up (wholeLeg 0 ++ [(.LEG_STATE, 0, x.1), (.CONF_STATE, 0, conf)]) (withKeys 0)
      s.dev.quiet ∧ s.dev.hears s1 { o := .LEG_CMD } ∧ s.dev.legState 0 = x.2 ∧ s.dev.service ≠ .doze ∧ s.dev.returned = false ∧
        (s.dev.decide110 s.dev 0 [2, 3, 4, 5, 6, 7, 8, 9, 10, 11, 12, 13, 14] false).toOption.isSome = decide (conf = 1) := by
  unfold Dev.quiet Dev.hears; decide +kernel

theorem test_meets_RekeyDoneReturnsTheLeg :
    ∀ was ∈ [1, 2, 3], let s := up [(.LEG_STATE, 4095, 4), (.LEG_PRIOR_STATE, 4095, was)] (withKeys 4095)
      s.dev.quiet ∧ s.dev.hears s1 { o := .LEG_CMD, u := 4095 } ∧ s.dev.legState 4095 = .rekey ∧
        ((s.dev.keysOf 4095).txNew && (s.dev.keysOf 4095).rxNew && !s.dev.alarmed) = true ∧ (s.dev.keysOf 0).txNew = false := by
  unfold Dev.quiet Dev.hears; decide +kernel

/-- A leg silent for its time, to the stride, and one a stride short of it. -/
theorem test_meets_LegsEndByThemselves :
    ∀ st ∈ [2, 5], ∀ x ∈ [(600, true), (599, false)],
      let s := up [(.LEG_STATE, 4095, st), (.LEG_RX_TIMEOUT, 4095, 1), (.STRIDE_COUNT, 0, x.1)]
      s.dev.quiet ∧ s.dev.gen.running = true ∧ (s.dev.legState 4095).num = st ∧ s.dev.nat .LEG_RX_TIMEOUT 4095 ≠ 0 ∧
        decide ((s.dev.lifeOf 4095).silentFrom + 600 * s.dev.nat .LEG_RX_TIMEOUT 4095 ≤ s.dev.stride) = x.2 := by
  unfold Dev.quiet; decide +kernel

theorem test_meets_ConferencesOpenAndClose :
    ∀ st ∈ [0, 1, 2], let s := up [(.CONF_STATE, 1023, st)]
      s.dev.quiet ∧ s.dev.hears s1 { o := .CONF_CMD, u := 1023 } ∧ s.dev.gen.running = true ∧ s.dev.nat .CONF_STATE 1023 = st ∧
        (s.dev.chooseHomeBlock 1023).isSome = true ∧ s.dev.confMembers 1023 = [] := by
  unfold Dev.quiet Dev.hears; decide +kernel

theorem test_meets_LegWritesTakeEffect :
    (up []).dev.quiet ∧ (up []).dev.hears s1 { o := .LEG_SSRC_FLUSH, u := 4095 } ∧
      (up []).dev.hears s1 { o := .LEG_LOW_PRIORITY, u := 4095 } := by
  unfold Dev.quiet Dev.hears; decide +kernel

/-! Time -/

theorem test_meets_TimeIsWrittenInFreeMode :
    ∀ mode ∈ [0, 1], let s := up [(.TB_MODE, 7, mode)]
      s.dev.quiet ∧ s.dev.hears s1 { o := .TB_TIME, u := 7 } ∧ s.dev.nat .TB_MODE 7 = mode ∧ 2 ^ 80 - 1 < 2 ^ 80 := by
  unfold Dev.quiet Dev.hears; decide +kernel

/-- A sample at the step threshold, and one above it; one at the lock threshold, and one above it. -/
theorem test_meets_ServoStepsOrSteers :
    ∀ mode ∈ [1, 2], let s := up [(.TB_MODE, 7, mode), (.TB_STEP_THRESHOLD, 7, 1000), (.TB_LOCK_THRESHOLD, 7, 100)]
      s.dev.quiet ∧ s.dev.gen.running = true ∧ s.dev.nat .TB_MODE 7 = mode ∧
        ¬s.dev.nat .TB_STEP_THRESHOLD 7 * 65536 < 1000 * 65536 ∧ s.dev.nat .TB_STEP_THRESHOLD 7 * 65536 < 1000 * 65536 + 1 ∧
        100 * 65536 ≤ s.dev.nat .TB_LOCK_THRESHOLD 7 * 65536 ∧ ¬100 * 65536 + 1 ≤ s.dev.nat .TB_LOCK_THRESHOLD 7 * 65536 := by
  unfold Dev.quiet; decide +kernel

theorem test_meets_HoldoverFreezesTheRate :
    ∀ mode ∈ [1, 2], ∀ hold ∈ [false, true],
      let s := up [(.TB_MODE, 7, mode)] fun d => d.setTb 7 { d.tbOf 7 with holdover := hold, valid := true }
      s.dev.quiet ∧ s.dev.gen.running = true ∧ s.dev.nat .TB_MODE 7 = mode ∧ (s.dev.tbOf 7).holdover = hold ∧
        (s.dev.tbOf 7).ended = false := by
  unfold Dev.quiet; decide +kernel

/-- A slave and a master, with the queues of port 3 one short of full, and a message of the master that the port has. -/
theorem test_meets_PtpPortsExchangeMessages :
    ∀ st ∈ [9, 6],
      let s := up [(.PTP_ROLE, 3, 1), (.PTP_PORT_STATE, 3, st), (.TB_MODE, 0, 1)] fun d =>
        (d.setPtp 3 { d.ptpOf 3 with best := some { sender := ⟨5, 2⟩ } }).setPort 3
          { d.portOf 3 with sys := [(0, List.replicate 63 (.arpReply 0 {})), (1, List.replicate 63 (.arpReply 0 {}))] }
      let h : PtpHdr := { domain := s.dev.nat .PTP_DOMAIN 0, src := ⟨5, 2⟩ }
      s.dev.quiet ∧ s.dev.gen.running = true ∧ s.dev.nat .PTP_ROLE 3 ≠ 0 ∧ s.dev.nat .PTP_PORT_STATE 3 = st ∧
        s.dev.nat .PTP_DELAY_MECH 3 = 0 ∧ (tget [] 0 (s.dev.portOf 3).sys).length < 64 ∧
        (tget [] 1 (s.dev.portOf 3).sys).length < 64 ∧ s.dev.nat .PTP_INSTANCE 3 = 0 ∧ s.dev.nat .TB_MODE 0 = 1 ∧
        s.dev.ptpMine 3 h = true ∧ s.dev.ptpParent 3 h.src = decide (st = 9) := by
  unfold Dev.quiet; decide +kernel

theorem test_meets_AnnounceTimeoutForgetsTheMaster :
    let s := up [(.PTP_ROLE, 3, 1), (.PORT_LINK, 3, 1)] fun d => d.setPtp 3 { d.ptpOf 3 with best := some {} }
    s.dev.quiet ∧ s.dev.gen.running = true ∧ s.dev.nat .PTP_ROLE 3 = 1 ∧ s.dev.nat .PORT_LINK 3 = 1 ∧
      s.dev.ptpPorts (s.dev.nat .PTP_INSTANCE 3) = [3] := by
  unfold Dev.quiet; decide +kernel

/-- A target reached just now and one reached the window less a tick ago; and both ends of the window of a write. -/
theorem test_meets_PulsesFireAtTheirTargets :
    (∀ mode ∈ [1, 2], ∀ late ∈ [0, 16 * 65536 - 1],
      let s := up [(.PULSE_MODE, 3, mode), (.PULSE_TARGET, 3, 0)] fun d =>
        { d.setTb (d.nat .PULSE_TIMEBASE 3 % 8) { t := late, valid := true } with pulses := [(3, { active := true, left := 9 })] }
      let tb := s.dev.nat .PULSE_TIMEBASE 3 % 8
      let by_ := timeDiff (s.dev.now tb) (s.dev.nat .PULSE_TARGET 3)
      s.dev.quiet ∧ s.dev.gen.running = true ∧ s.dev.nat .PULSE_MODE 3 ≠ 0 ∧ 0 ≤ by_ ∧ by_ < 16 * 65536 ∧ s.dev.tbValid tb = true ∧
        (tget {} 3 s.dev.pulses).active = true ∧ s.dev.hears s1 { o := .PULSE_TARGET, u := 3 } ∧
        s.dev.hears s1 { o := .PULSE_MODE, u := 3 }) ∧
      (∀ x ∈ [2000 * 65536, 2 ^ 40 * 65536], ((up []).dev.pulseWindow 3 1 x).toOption = some x ∧ ((up []).dev.pulseWindow 3 2 x).toOption = some x) ∧
      ∀ x ∈ [2000 * 65536 - 1, (2 ^ 40 + 1) * 65536], ((up []).dev.pulseWindow 3 1 x).toOption = none := by
  unfold Dev.quiet Dev.hears; decide +kernel

/-- A queue one short of full, and a full one. -/
theorem test_meets_CapturesQueueAndAreRead :
    ∀ n ∈ [15, 16], let s := up [(.CAPTURE_EDGE, 1, 3)] fun d => d.setCap 1 { fifo := List.replicate n {} }
      s.dev.quiet ∧ s.dev.gen.running = true ∧ s.dev.reaches s1 = true ∧ s.dev.nat .CAPTURE_EDGE 1 = 3 ∧
        (s.dev.capOf 1).fifo = {} :: List.replicate (n - 1) {} := by
  unfold Dev.quiet; decide +kernel

/-! HDP -/

theorem test_meets_OpenMakesASession :
    ∀ y ∈ [(6, [(3, 5)]), (2 ^ 63 - 1, [(3, 5)]), (0, [])],
      let s := up [(.HDP_ENABLE, 0, 1)] fun d => { d with
        sec := { d.sec with hdpKeys := [(3, [9])] }, hdp := { d.hdp with openSeq := y.2 } }
      let h : HdpHdr := { keySlot := 3, seq := y.1, sealKey := [9], dst := mgmtIp }
      s.dev.quiet ∧ s.dev.gen.running = true ∧ s.dev.isMgmt h.port h.vlan h.dst = true ∧ hdpFormed h true = true ∧ h.parses = true ∧
        h.short = false ∧ h.listed = true ∧ h.session = 0 ∧ h.keySlot ≤ 3 ∧ tfind h.keySlot s.dev.sec.hdpKeys = some [9] ∧
        h.sealKey = [9] ∧ h.seq < 2 ^ 63 ∧ (∀ q ∈ tfind h.keySlot s.dev.hdp.openSeq, q < h.seq) ∧
        ∀ timeout ∈ [0, 4, 600], s.dev.openRefusal timeout = none := by
  unfold Dev.quiet; decide +kernel

/-- A session that has accepted 100: the least number of its window, the one below, the highest again, and the next. -/
theorem test_meets_ReplaysAreDiscarded :
    ∀ y ∈ [(37, true), (36, false), (100, false), (101, true)],
      let x : Session := { id := 1, key := [7], high := 100, seen := [100] }
      let d := (up [] (·.setSession x)).dev
      let h := dgram y.1
      hdpFormed h false = true ∧ d.sessionOf h.session = some x ∧ h.sealKey = x.key ∧ h.seq < 2 ^ 63 ∧
        decide (h.seq ∉ x.seen ∧ x.high < h.seq + 64) = y.2 := by
  decide +kernel

/-- The state of the statements about a session's requests: session 1, and request 5, which it has not seen. -/
def sessionUp (x : Session) (vs : List (Obj × Nat × Nat) := []) : State := up vs (·.setSession x)

theorem test_meets_SessionsClose :
    ∀ y ∈ [(600, true), (599, false)],
      let x : Session := { id := 1, key := [7], timeout := 1 }
      let s := sessionUp x [(.STRIDE_COUNT, 0, y.1)]
      s.dev.quiet ∧ s.dev.gen.running = true ∧ s.dev.sessionOf x.id = some x ∧ (dgram 1).session = x.id ∧
        s.dev.takesRequest (dgram 1) 5 x ∧ decide (x.heard + 600 * x.timeout ≤ s.dev.stride) = y.2 := by
  unfold Dev.quiet Dev.takesRequest; decide +kernel

theorem test_meets_KeepaliveIsAnswered :
    let x : Session := { id := 1, key := [7], high := 63, seen := [63] }
    (sessionUp x).dev.quiet ∧ (sessionUp x).dev.gen.running = true ∧ (sessionUp x).dev.takesRequest (dgram 0) 5 x := by
  unfold Dev.quiet Dev.takesRequest; decide +kernel

/-- A stride with as many entries left as a request has, and one fewer; a queue with one place, and a full one. -/
theorem test_meets_RequestsRunOrWait :
    ∀ left ∈ [64, 63], ∀ waiting ∈ [0, 63, 64],
      let x : Session := { id := 1, key := [7] }
      let s := up [] fun d =>
        let e := d.setSession x
        { e with hdp := { e.hdp with left := left, queue := List.replicate waiting { session := 1, req := 9, body := .read [] } } }
      s.dev.quiet ∧ s.dev.gen.running = true ∧ s.dev.takesRequest (dgram 1) 5 x ∧ s.dev.hdp.left = left ∧
        (s.dev.hdp.queue.filter (·.body.ofHdp)).length = waiting ∧ (List.replicate 64 (⟨0x2000, 4, false⟩ : RdEntry)).length ≤ 64 ∧
        (List.replicate 64 (⟨0x2000, 4, [1]⟩ : WrEntry)).length ≤ 64 := by
  unfold Dev.quiet Dev.takesRequest; decide +kernel

/-- A request that has waited its 4 laps, and an open transfer that has. -/
theorem test_meets_WaitingWorkEnds :
    let q : HdpReq := { session := 1, req := 9, body := .read [⟨0x2000, 4, false⟩] }
    let x : Session := { id := 1, key := [7], bulk := some {} }
    let s := up [(.STRIDE_COUNT, 0, 2400)] fun d =>
      let e := d.setSession x
      { e with hdp := { e.hdp with left := 1, queue := [q] } }
    s.dev.quiet ∧ s.dev.gen.running = true ∧ s.dev.hdp.queue = q :: [] ∧ q.body.entries ≤ s.dev.hdp.left ∧ q ∈ s.dev.hdp.queue ∧
      q.body = .read [⟨0x2000, 4, false⟩] ∧ (∀ y ∈ s.dev.hdp.queue, y.session = q.session → y.req = q.req → y = q) ∧
      q.accepted + 2400 ≤ s.dev.stride ∧ (s.dev.sessionOf q.session).isSome = true ∧ s.dev.sessionOf x.id = some x ∧
      x.bulk = some {} ∧ ({} : Bulk).opened + 2400 ≤ s.dev.stride := by
  unfold Dev.quiet; decide +kernel

/-- The numbers 0, 15 and 0xFF, each with both ends of its period and of its count. -/
theorem test_meets_SubscriptionsStandAndGo :
    let x : Session := { id := 1, key := [7], subs := [(0, {}), (15, {})], errMask := some 3 }
    (sessionUp x).dev.quiet ∧ (sessionUp x).dev.gen.running = true ∧ (sessionUp x).dev.takesRequest (dgram 1) 5 x ∧
      (∀ y ∈ [(0, 0, 1), (0, 600, 32), (15, 600, 32), (0xFF, 0, 0), (0xFF, 15, 0)], subscribeRefusal y.1 y.2.1 y.2.2 = none) ∧
      ∀ number ∈ [0, 15, 0xFF], (if number = 0xFF then x.errMask.isSome else thas number x.subs) = true := by
  unfold Dev.quiet Dev.takesRequest; decide +kernel

theorem test_meets_BulkTransfersMoveValues :
    (∀ load ∈ [true, false], ∀ parts ∈ [[], [(0, [1, 2])]],
      let b : Bulk := { load := load, total := 4, parts := parts }
      let x : Session := { id := 1, key := [7], bulk := some b }
      let s := sessionUp x
      s.dev.quiet ∧ s.dev.gen.running = true ∧ s.dev.takesRequest (dgram 1) 5 x ∧ s.dev.inTurn ∧ x.bulk = some b ∧ b.load = load ∧
        (List.range b.total).find? (fun i => (b.byteAt i).isNone) = some (if parts = [] then 0 else 2) ∧
        ([1] : Octets) ≠ [] ∧ (List.replicate 1024 1 : Octets).length ≤ 1024) ∧
      let x : Session := { id := 1, key := [7] }
      let s := up [(.CH_STATE, 1, 3)] fun d =>
        let e := d.setSession x
        { e with pool := { e.pool with lists := [((4, 1), { stack := [1] })] } }
      let room := fun (d : Dev) (n : Nat) =>
        decide ((d.alloc .bulk 2 bulkBuffer none ((n + bulkBuffer - 1) / bulkBuffer)).1.length = (n + bulkBuffer - 1) / bulkBuffer)
      s.dev.takesRequest (dgram 1) 5 x ∧ s.dev.inTurn ∧ x.bulk = none ∧
        let acc := (s.dev.hdpAccept (dgram 1)).2.spent
        ((acc.bulkTarget 1 0x2000 4 true 1).toOption.any fun r => decide (r.1 = []) && room r.2 1) = true ∧
          ((acc.readAt 0x2000 4).toOption.any fun r => room r.2 r.1.length) = true := by
  unfold Dev.quiet Dev.takesRequest Dev.inTurn
  exact ⟨by decide +kernel, by decide +kernel⟩

/-- A load whose octets are all there. -/
theorem test_meets_BulkTransfersMoveValues_whole :
    let b : Bulk := { load := true, total := 1, parts := [(0, [5])] }
    let x : Session := { id := 1, key := [7], bulk := some b }
    let s := sessionUp x
    s.dev.takesRequest (dgram 1) 5 x ∧ s.dev.inTurn ∧ (List.range b.total).map b.byteAt = ([5] : Octets).map some ∧
      ((s.dev.hdpAccept (dgram 1)).2.spent.sessionOf x.id).isSome = true := by
  unfold Dev.takesRequest Dev.inTurn; decide +kernel

theorem test_meets_PuntsAreOwnedAndSent :
    ∀ st ∈ [0, 2], let x : Session := { id := 1, key := [7] }
      let s := sessionUp x [(.LEG_STATE, 4095, st)]
      s.dev.quiet ∧ s.dev.gen.running = true ∧ s.dev.takesRequest (dgram 1) 5 x ∧ (s.dev.legState 4095).num = st ∧
        (List.replicate 1340 0 : Octets).length ≤ 1340 := by
  unfold Dev.quiet Dev.takesRequest; decide +kernel

/-! CAN -/

theorem test_meets_NmtMovesTheNode :
    let s := up []
    s.dev.quiet ∧ s.dev.nodeRuns = true ∧ s.dev.can.node = 127 ∧ ∀ node ∈ [0, 127], node = 0 ∨ node = s.dev.can.node := by
  unfold Dev.quiet; decide +kernel

theorem test_meets_SdoServesTransfers :
    (up []).dev.quiet ∧ (up []).dev.nodeRuns = true ∧ (up []).dev.sdoRuns = true ∧ (up []).dev.can.sdo = none ∧ (up []).dev.inTurn ∧
      (∀ size ∈ [1, sdoMost], 0 < size ∧ size ≤ sdoMost) ∧
      (((up []).dev.spent.readAt 0x2000 0x10).toOption.any fun r => decide ((canOrder 0x2000 0x10 r.1).length ≤ 4)) = true ∧
      let x : SdoXfer := { download := false, data := List.replicate 8 1 }
      let s := up [] fun d => { d with can := { d.can with sdo := some x } }
      s.dev.quiet ∧ s.dev.sdoRuns = true ∧ s.dev.can.sdo = some x ∧ x.kind = .segmented ∧ x.download = false ∧ false = x.toggle ∧
        7 < x.data.length := by
  unfold Dev.quiet Dev.inTurn; decide +kernel

/-- An RPDO with one entry of an octet, with data of its length and one short of it; a TPDO whose inhibit time is over. -/
theorem test_meets_PdosCarryMappedObjects :
    let s := up [(.RPDO_COB_ID, 3, 0x200), (.RPDO_MAP, 3, 1), (.TPDO_COB_ID, 3, 0x180), (.TPDO_EVENT, 3, 1)] fun d =>
      d.put .RPDO_MAP 3 1 (.num 0x20000408)
    let length := (s.dev.mapping .RPDO_MAP 3).foldl (fun a e => a + e.2.2 / 8) 0
    s.dev.quiet ∧ s.dev.nodeRuns = true ∧ s.dev.pdoOn .RPDO_COB_ID 3 = true ∧ ([] : Octets).length < length ∧
      ¬([1] : Octets).length < length ∧ s.dev.hdp.queue = [] ∧ (s.dev.mapping .RPDO_MAP 3).length ≤ s.dev.hdp.left ∧ s.dev.pdoOn .TPDO_COB_ID 3 = true ∧ s.dev.flag .TPDO_EVENT 3 = true ∧ s.dev.tpdoFree 3 = true := by
  unfold Dev.quiet; decide +kernel

theorem test_meets_CanReportsItsBus :
    ∀ st ∈ [0, 1, 2], let s := up [(.CAN_STATUS, 0, st), (.PRODUCER_HEARTBEAT_TIME, 0, 100)] fun d =>
        { d with can := { d.can with commBit := true } }
      s.dev.quiet ∧ s.dev.nodeRuns = true ∧ s.dev.flag .PRODUCER_HEARTBEAT_TIME = true ∧ s.dev.nat .CAN_STATUS = st ∧
        s.dev.can.commBit = true := by
  unfold Dev.quiet; decide +kernel

theorem test_meets_ErrorFieldIsCleared :
    let s := up [(.ERROR_COUNT, 0, 8)]
    s.dev.quiet ∧ s.dev.hears s1 { o := .ERROR_COUNT } ∧ s.dev.hears .can { o := .ERROR_COUNT } := by
  unfold Dev.quiet Dev.hears; decide +kernel

/-! Ports and the line -/

/-- A port that is off, one with no link, and one that receives a short frame, one of unknown type, and an ARP request for its address. -/
theorem test_meets_FramesAreCountedAndFiltered :
    let ip := [10, 0, 0, 1]
    let v4 := List.replicate 10 0 ++ [0xFF, 0xFF] ++ ip
    let s := up [(.PORT_MODE, 3, 1), (.PORT_LINK, 3, 1), (.PORT_MODE, 2, 1), (.PORT_SYS_POLICER, 3, 0xFF), (.ADDR_PORTS, 0, 8),
      (.ADDR_FLAGS, 0, 1)] fun d => (d.put .ADDR_IP 0 0 (.bytes v4)).put .PORT_MAC 3 0 (.bytes [2, 0, 0, 0, 0, 1])
    let short : Frame := { len := 63, body := .arp true ip [] }
    let odd : Frame := { etherType := 0x1234 }
    let arp : Frame := { etherType := 0x0806, dstMac := List.replicate 6 255, body := .arp true ip [10, 0, 0, 2] }
    let e := fun (f : Frame) => (s.dev.bump .PORT_RX_FRAMES 3).add .PORT_RX_BYTES 3 0 f.len
    s.dev.quiet ∧ s.dev.gen.running = true ∧ s.dev.service ≠ .boot ∧ s.dev.nat .PORT_MODE 0 = 0 ∧ s.dev.nat .PORT_LINK 2 ≠ 1 ∧
      s.dev.nat .PORT_MODE 3 ≠ 0 ∧ s.dev.nat .PORT_LINK 3 = 1 ∧ (e short).dropReason 3 short = some 0 ∧
      ((e odd).dropReason 3 odd).isSome = true ∧ (e arp).dropReason 3 arp = none ∧ ip.length = 4 ∧
      s.dev.nat .PORT_SYS_POLICER 3 = 0xFF ∧ (e arp).answersFor 3 (vlanOf arp) v4 = true ∧
      (tget [] 2 (s.dev.portOf 3).sys).length < 64 := by
  unfold Dev.quiet; decide +kernel

theorem test_meets_HeldFramesAreReleased :
    let s := up [] fun d => d.setRx 4095 { d.rxOf 4095 with hold := [{ ssrc := 1, ts := 2 }, { ssrc := 1, ts := 3 }] }
    s.dev.quiet ∧ s.dev.gen.running = true ∧ (s.dev.rxOf 4095).hold.length = 2 := by
  unfold Dev.quiet; decide +kernel

/-- A pair in mode 2 on its upper port, whose lower port has been up its time, and one a stride short; forces that each check meets. -/
theorem test_meets_LinksPairsAndReferences :
    ∀ y ∈ [(599, true), (598, false)],
      let s := up [(.PAIR_MODE, 0, 0), (.PAIR_MODE, 1, 2), (.PAIR_ACTIVE, 1, 3), (.PORT_MODE, 2, 1), (.PORT_LINK, 2, 1),
        (.PAIR_REVERT_LAPS, 1, 1), (.STRIDE_COUNT, 0, y.1)]
      s.dev.quiet ∧ s.dev.gen.running = true ∧ s.dev.hears s1 { o := .PAIR_FORCE, u := 1 } ∧ s.dev.hears s1 { o := .PAIR_FORCE } ∧
        s.dev.nat .PORT_MODE 0 = 0 ∧ s.dev.nat .PORT_MODE 2 ≠ 0 ∧ s.dev.nat .PAIR_MODE 0 = 0 ∧ s.dev.portFailed 3 = true ∧
        decide (s.dev.nat .PAIR_MODE 1 = 2 ∧ s.dev.nat .PAIR_ACTIVE 1 = 2 * 1 + 1 ∧ s.dev.portFailed (2 * 1) = false ∧
          (s.dev.portOf (2 * 1)).upSince + 600 * s.dev.nat .PAIR_REVERT_LAPS 1 ≤ s.dev.stride + 1) = y.2 := by
  unfold Dev.quiet Dev.hears; decide +kernel

theorem test_meets_SystemFramesGoFirst :
    ∀ q ∈ [0, 7],
      let x : NetOut := if q = 0 then .ptp 0 1 { type := 0, hdr := {} } else .arpReply 0 {}
      let s := up [(.PORT_LINK, 3, 1)] fun d => (d.setPort 3 { d.portOf 3 with sys := [(q, [x])] }).put .PORT_MAC 3 0
        (.bytes [2, 0, 0, 0, 0, 1])
      s.dev.quiet ∧ s.dev.gen.running = true ∧ s.dev.nat .PORT_LINK 2 ≠ 1 ∧ s.dev.nat .PORT_LINK 3 = 1 ∧
        (s.dev.bytes .PORT_MAC 3).all (· == 0) = false ∧ s.dev.hdp.punt = [] ∧
        (∀ j, j < q → tget [] j (s.dev.portOf 3).sys = []) ∧ tget [] q (s.dev.portOf 3).sys = x :: [] ∧
        (tget [] 1 (s.dev.portOf 3).sys).length < 64 := by
  unfold Dev.quiet; decide +kernel

/-- A leg of the port whose oldest audio packet stands in a buffer of one placement. -/
theorem test_meets_SystemFramesGoFirst_unread :
    let h := mkHandle 0 1 1024
    let q : QPkt := { buf := some h }
    let s := up [(.CH_STATE, 0, 3), (.PORT_LINK, 0, 1), (.LEG_STATE, 4095, 2), (.LEG_LOCAL_ADDR, 4095, 31),
      (.ADDR_PORTS, 31, 1)] fun d =>
      ((d.setDesc 0 1024 { allocated := true, gen := 1, owner := 1, refs := 1, primary := 1024, mirror := 1024 }).setTx 4095
        { d.txOf 4095 with audio := [q] }).put .PORT_MAC 0 0 (.bytes [2, 0, 0, 0, 0, 1])
    s.dev.quiet ∧ s.dev.gen.running = true ∧ s.dev.hdp.punt = [] ∧ s.dev.nat .PORT_LINK 0 = 1 ∧
      (s.dev.bytes .PORT_MAC 0).all (· == 0) = false ∧ s.dev.legs.contains 4095 = true ∧ s.dev.legPort 4095 = some 0 ∧
      (s.dev.txOf 4095).audio = q :: [] ∧ s.dev.readsSingle h = true := by
  unfold Dev.quiet; decide +kernel

/-- A leg whose loop runs, with the widest bounds and with a TMMBR bound, and legs for which it does not. -/
theorem test_meets_LineLoopEstimates :
    let s := up [] fun d => ((d.setLife 0 { d.lifeOf 0 with media := 2 }).setLife 4095 { d.lifeOf 0 with media := 2 }).setLoop 4095
      { d.loopOf 4095 with ran := true }
    s.dev.quiet ∧ s.dev.gen.running = true ∧ (s.dev.lifeOf 0).media = 2 ∧ (s.dev.lifeOf 0).suspended = false ∧
      (s.dev.loopOf 0).ran = false ∧ (s.dev.loopOf 0).tmmbr = [] ∧ s.dev.nat .LEG_MIN_RATE 0 ≤ s.dev.nat .LEG_MAX_RATE 0 ∧
      s.dev.itemFailed .loop 0 = false ∧ (s.dev.loopOf 4095).ran = true ∧ (s.dev.lifeOf 1).media ≠ 2 := by
  unfold Dev.quiet; decide +kernel

/-- The losses at which the group changes, and those just below. -/
theorem test_meets_FecFollowsTheLoss :
    ∀ y ∈ [(327, 4), (328, 5), (1310, 19), (1311, 20), (3276, 49), (3277, 50), (6553, 99), (6554, 100), (65535, 999)],
      let s := up [(.LINE_LOSS, 4095, y.1)]
      s.dev.quiet ∧ s.dev.gen.running = true ∧ s.dev.nat .LINE_LOSS 4095 * 1000 / 65536 = y.2 := by
  unfold Dev.quiet; decide +kernel

theorem test_meets_FeedbackLeavesInOrder :
    let s := up [(.LEG_ADMIT_BLOCK, 4095, 63), (.LEG_FB_MODE, 4095, 1), (.LEG_FB_MODE, 0, 2)] fun d =>
      (d.setLife 4095 { d.lifeOf 4095 with media := 2 }).setBlk 63 { d.blkOf 63 with order := [(4095, (0, .unfinished))], nextSeq := 1 }
    s.dev.quiet ∧ s.dev.gen.running = true ∧ s.dev.nat .LEG_ADMIT_BLOCK 4095 < 64 ∧ s.dev.nat .LEG_FB_MODE 4095 = 1 ∧
      s.dev.nat .LEG_FB_MODE 0 = 2 ∧ 2 ≤ (s.dev.lifeOf 4095).media ∧ (s.dev.lifeOf 4095).media ≤ 4 ∧
      (s.dev.lifeOf 4095).suspended = false ∧ s.dev.feedbackSeq 63 4095 = some 0 := by
  unfold Dev.quiet; decide +kernel

/-! Audio -/

/-- A leg whose item waits, one whose is done, and one with none. -/
theorem test_meets_InputItemsMeterTheirLeg :
    let s := up [] fun d => (d.setAudio 4095 { d.audioOf 4095 with want := true }).setAudio 0 { d.audioOf 0 with want := true, done := true }
    s.dev.quiet ∧ s.dev.gen.running = true ∧ (s.dev.audioOf 4095).want = true ∧ (s.dev.audioOf 4095).done = false ∧
      (s.dev.audioOf 0).done = true ∧ (s.dev.audioOf 1).want = false := by
  unfold Dev.quiet; decide +kernel

/-- A packet in a buffer of one placement, in a channel that serves. -/
theorem test_meets_InputItemsMeterTheirLeg_unread :
    let s := up [(.CH_STATE, 0, 3)] fun d =>
      (d.setDesc 0 1024 { allocated := true, gen := 1, owner := 1, refs := 1, primary := 1024, mirror := 1024 }).setAudio 4095
        { d.audioOf 4095 with want := true }
    s.dev.quiet ∧ s.dev.gen.running = true ∧ (s.dev.audioOf 4095).want = true ∧ s.dev.readsSingle (mkHandle 0 1 1024) = true := by
  unfold Dev.quiet; decide +kernel

/-- A mix that waits for a member, one that does not, and one that is done. -/
theorem test_meets_MixesAddTheirContributors :
    ∀ done ∈ [true, false], ∀ mixed ∈ [true, false],
      let s := up [(.LEG_STATE, 0, 2), (.LEG_CONFERENCE, 0, 1023)] fun d =>
        (d.setAudio 0 { d.audioOf 0 with want := true, done := done }).setMix 1023 { d.mixOf 1023 with want := true, mixed := mixed }
      s.dev.quiet ∧ s.dev.gen.running = true ∧ (s.dev.mixOf 1023).want = true ∧ (s.dev.mixOf 1023).mixed = mixed ∧
        s.dev.itemFailed .mix 1023 = false ∧ decide (∃ n ∈ s.dev.confMembers 1023, (s.dev.audioOf n).want = true ∧ (s.dev.audioOf n).done = false) = !done := by
  unfold Dev.quiet; decide +kernel

theorem test_meets_OutputsStayWithinTheirRange :
    ∀ cut ∈ [true, false],
      let s := up [(.LEG_CONFERENCE, 4095, 0)] fun d =>
        (d.setAudio 4095 { d.audioOf 4095 with want := true, outCut := cut }).setMix 0 { d.mixOf 0 with mixed := true }
      s.dev.quiet ∧ s.dev.gen.running = true ∧ (s.dev.audioOf 4095).want = true ∧ (s.dev.audioOf 4095).outDone = false ∧
        (s.dev.mixOf (s.dev.nat .LEG_CONFERENCE 4095)).mixed = true ∧ (s.dev.audioOf 4095).outCut = cut := by
  unfold Dev.quiet; decide +kernel

/-- A leg with a whole frame, and one with no frame. -/
theorem test_meets_EncodedFramesAreQueued :
    let s := up [(.LEG_TX_CODEC, 0, 2), (.LEG_LOCAL_ADDR, 0, 31), (.CH_STATE, 0, 3)] fun d =>
      let d := d.put .ADDR_NEXTHOP_MAC 31 0 (.bytes [2, 0, 0, 0, 0, 1])
      let e := d.setAudio 0 { d.audioOf 0 with ready := some [1, 2] }
      let e := ((e.setLife 0 { e.lifeOf 0 with media := 2 }).setKeys 0 { tx := some [1] }).setTx 0
        { e.txOf 0 with audioSeq := 65535, rtpIndex := [(0, 2 ^ 48 - 2 ^ 16 - 2)] }
      { e with pool := { e.pool with lists := [((0, 0), { stack := [1024] })] } }
    let x := s.dev.txOf 0
    let c := encodeFrame s.dev.warmAudio (s.dev.nat .LEG_TX_CODEC 0) (s.dev.audioOf 0).enc [1, 2]
    s.dev.quiet ∧ s.dev.gen.running = true ∧ (s.dev.audioOf 0).ready = some [1, 2] ∧ (s.dev.audioOf 0).readyTs ≠ 1 ∧ (s.dev.audioOf 2).ready = none ∧
      c.1.isSome = true ∧ s.dev.sendsAudio 0 = true ∧ s.dev.alarmed = false ∧ (s.dev.keysOf 0).tx.isSome = true ∧
      x.sendIndex x.audioSsrc x.audioSeq < 2 ^ 48 - 2 ^ 16 ∧ s.dev.hasNexthop 0 = true ∧
      x.audio.length < s.dev.nat .TC_AUDIO_LIMIT (s.dev.tc 0) ∧
      (s.dev.sendBuffer 0 .audio (s.dev.rtpLen 0 ((c.1.getD []).length))).1.isSome = true := by
  unfold Dev.quiet; decide +kernel

/-- A queue one short of full and a full one, with an event open; and a queue with none. -/
theorem test_meets_EventsEndAndAreRead :
    ∀ n ∈ [0, 15, 16],
      let o : OpenEvent := { code := 5 }
      let s := up [(.STRIDE_COUNT, 0, 60)] fun d => d.setAudio 4095 { d.audioOf 4095 with openEv := [o], events := List.replicate n {} }
      s.dev.quiet ∧ s.dev.gen.running = true ∧ s.dev.reaches s1 = true ∧ s.dev.service ≠ .minimum ∧
        (s.dev.audioOf 4095).openEv = [o] ∧ o.heard + 60 ≤ s.dev.stride ∧ o.ended = false ∧ (s.dev.audioOf 4095).events.length = n := by
  unfold Dev.quiet; decide +kernel

/-- A tap of an active leg, of one that is not, and of none; and one that runs. -/
theorem test_meets_TapsCapture :
    ∀ leg ∈ [4095, 0, 0xFFFF], ∀ st ∈ [0, 1],
      let s := up [(.TAP_LEG, 0, leg), (.LEG_STATE, 4095, 2), (.TAP_STATE, 0, st)]
      s.dev.quiet ∧ s.dev.hears s1 { o := .TAP_CMD } ∧ s.dev.gen.running = true ∧ s.dev.nat .TAP_STATE = st ∧
        decide (s.dev.nat .TAP_LEG < 4096 ∧ s.dev.legState (s.dev.nat .TAP_LEG) = .active) = decide (leg = 4095) := by
  unfold Dev.quiet Dev.hears; decide +kernel

/-! Cells, blocks and arbiters -/

/-- An item that can be placed, and one that no longer fits the stride. -/
theorem test_meets_ItemsArePlacedInOrder :
    let s := up [] fun d => (d.setBlk 63 { d.blkOf 63 with ready := [{ kind := .mix }] }).setBlk 0
      { d.blkOf 0 with ready := [{ kind := .check, est := 10 ^ 9 }] }
    s.dev.quiet ∧ s.dev.regionRuns (63 / 16) = true ∧ s.dev.regionRuns 0 = true ∧
      (∃ i ∈ (s.dev.blkOf 63).ready, s.dev.placeAt 63 i ≠ none) ∧ ∀ i ∈ (s.dev.blkOf 0).ready, s.dev.placeAt 0 i = none := by
  unfold Dev.quiet; decide +kernel

/-- A busy cell, a free one with an item that fits, one with an item that fits to the cycle and one with an item a cycle too long. -/
theorem test_meets_ItemsStartOrAreDeferred :
    let left := (up []).dev.cyclesLeft 63
    let item := fun (n : Nat) => ({ kind := .check, est := n } : Item)
    let s := up [] fun d => ((d.setCell 1023 { d.cellOf 1023 with slots := [item left] }).setCell 1022
      { d.cellOf 1022 with slots := [item (left + 1)] }).setCell 1021 { d.cellOf 1021 with running := some (item 1) }
    s.dev.quiet ∧ s.dev.regionRuns (1023 / 256) = true ∧ (s.dev.cellOf 1023).running = none ∧
      (s.dev.cellOf 1023).slots = item left :: [] ∧ (s.dev.cellOf 1022).running = none ∧ (s.dev.cellOf 1022).slots = item (left + 1) :: [] ∧
      0 < kindClass .check ∧ ¬s.dev.cyclesLeft 63 < left ∧ s.dev.cyclesLeft 63 < left + 1 ∧ (s.dev.cellOf 1021).running ≠ none ∧
      (s.dev.cellOf 1020).slots = [] := by
  unfold Dev.quiet; decide +kernel

theorem test_meets_CellsAreCheckedAndStopped :
    let s := up [] fun d => d.setCell 1023 { d.cellOf 1023 with running := some { kind := .check } }
    s.dev.quiet ∧ s.dev.regionRuns (1023 / 256) = true ∧ s.dev.nat .CELL_STATE 1023 ≠ 3 ∧
      (s.dev.cellOf 1023).running = some { kind := .check } ∧ (s.dev.cellOf 1022).running = none ∧ (s.dev.cellOf 1022).slots = [] ∧
      (s.dev.cellOf 1022).stopped = none := by
  unfold Dev.quiet; decide +kernel

theorem test_meets_ArbitersGrantInRotation :
    ∀ a ∈ [Arb.block 63, .region 3, .chip 3], ∀ was ∈ [none, some 2],
      let s := up [(.CH_STATE, 3, 3)] fun d => { d with arb := [(a, { interrupted := was, recent := [true, true, true] })] }
      (arbUnit a).1 < (arbUnit a).2 ∧ s.dev.quiet ∧ s.dev.arbRuns a = true ∧ (s.dev.arbOf a).interrupted = was ∧
        (s.dev.arbOf a).recent.take 3 = [true, true, true] ∧ (∀ r ∈ [1, 3], r ∈ rotation a) ∧
        ((s.dev.arbOf a).interrupted = none → (nextOf (exec (.arbiterGrant a [1, 3] [1]) s)).map (fun t => (t.dev.arbOf a).current) =
          some (some (if a = .chip 3 then 3 else 1))) := by
  unfold Dev.quiet; decide +kernel

/-! Video -/

theorem test_meets_KeyframeRequestsRepeat :
    let r : KfReq := { consumers := [0x10000], sent := true }
    let s := up [(.LEG_STATE, 4095, 2), (.DEC_CTRL, 4095, 2 ^ 27), (.LEG_LOCAL_ADDR, 4095, 31), (.STRIDE_COUNT, 0, 144),
        (.CH_STATE, 0, 3)] fun d =>
      let d := d.put .ADDR_NEXTHOP_MAC 31 0 (.bytes [2, 0, 0, 0, 0, 1])
      let d := (d.setLife 4095 { d.lifeOf 4095 with media := 2 }).setFsrc 4095 { d.fsrcOf 4095 with ssrcs := [(2, 77)], reqs := [(2, r)] }
      { d with pool := { d.pool with lists := [((0, 0), { stack := [1024] })] } }
    let parts := s.dev.rtcpLead 4095 [] ++ [.pli 77]
    s.dev.quiet ∧ s.dev.gen.running = true ∧ s.dev.reqOf 4095 2 = r ∧ r.consumers ≠ [] ∧ r.sent = true ∧ s.dev.mediaActive 4095 = true ∧
      tfind 2 (s.dev.fsrcOf 4095).ssrcs = some 77 ∧ s.dev.kfMessage 4095 r (r.repeats + 1) = some false ∧ s.dev.hasNexthop 4095 = true ∧
      r.lastSent + max 30 (ceilDiv (2 * s.dev.nat .LINE_RTT 4095 * 600) 1000000) ≤ s.dev.stride ∧
      (s.dev.sendBuffer 4095 .control (s.dev.ipLenOf 4095 { rtcp := parts })).1.isSome = true ∧
      (s.dev.txOf 4095).control.length < s.dev.nat .TC_CONTROL_LIMIT (s.dev.tc 4095) ∧ (s.dev.reqOf 4095 3).consumers = [] := by
  unfold Dev.quiet; decide +kernel

/-- A slot with a picture in a context and its last packet in hand, and one with none. -/
theorem test_meets_LastPacketsCompleteTheirPicture :
    let j : DecItem := { ts := 9, ctx := true }
    let pkt : CouplePkt := { ctx := ⟨4095, 3, 9⟩, mark := .pictureEnd, last := true }
    let s := up [] fun d => ((d.put .DEC_PAIR 4095 3 (.num 15)).setDec 4095 3 { d.decOf 4095 3 with active := [j] }).setPairx 15
      { d.pairxOf 15 with ring := [pkt] }
    s.dev.quiet ∧ s.dev.gen.running = true ∧ (s.dev.decOf 4095 3).active.find? (·.ctx) = some j ∧ s.dev.itemPair 4095 3 j = 15 ∧
      s.dev.pairWorks 15 = true ∧ (s.dev.pairxOf 15).ring = pkt :: [] ∧ pkt.last = true ∧ pkt.mark ≠ .abandon ∧
      s.dev.itemOf pkt.ctx = some j ∧ (s.dev.decOf 4095 2).active = [] := by
  unfold Dev.quiet; decide +kernel

/-- A sequence of a profile that the codec lacks, in a slot with none in force. -/
theorem test_meets_DecodedPicturesAreCounted :
    let q : SeqParams := { profile := 9 }
    let i : DecItem := { ts := 9, parts := [{ seq := some q }] }
    let d := (up []).dev
    i.seq = some q ∧ (d.decOf 4095 3).seq = none ∧ d.outsideBy 4095 3 (d.decCodec 4095 3 % 16) q ≠ 0 ∧
      d.decOutsideNow 4095 3 = false := by decide +kernel

/-- A buffer with 8 lines free, and one with 7; the longest row before its cut. -/
theorem test_meets_RecordsFitTheCouplingBuffer :
    let x := fun (lines : Nat) => ({ on := some ⟨0, 0, 0⟩, open_ := 2047, ring := [{ ctx := ⟨0, 0, 0⟩, lines := lines }] } : PairX)
    2047 + 2041 + 8 = 4096 ∧ (x 2041).on ≠ none ∧ (x 2041).open_ < 2048 ∧ 2048 ≤ 2048 ∧
      (((up [] (·.setPairx 0 (x 2041))).dev.coupleRecord 0 2048).pairxOf 0).open_ = 2047 + 8 - 2048 ∧
      (((up [] (·.setPairx 0 (x 2042))).dev.coupleRecord 0 2048).pairxOf 0).open_ = 2047 := by decide +kernel

/-- A picture with a row to come, one with none, and one in no context; of a leg and of a strip. -/
theorem test_meets_EncodedPicturesCountTheirBits :
    ∀ e ∈ [EncId.composed 4095, .tile 4095 3, .strip 1023], ∀ bits ∈ [[], [5, 6]], ∀ ctx ∈ [true, false],
      let c : EncPic := { rows := 2, bits := bits, qps := [30, 31], ctx := ctx, intra := true }
      let s := up [] fun d => d.setEnc e { d.encOf e with cur := [c] }
      s.dev.quiet ∧ s.dev.gen.running = true ∧ (encUnit e).1 < (encUnit e).2 ∧ (s.dev.encOf e).cur = c :: [] ∧ c.ctx = ctx ∧
        decide (c.bits.length < c.rows) = decide (bits = []) ∧ c.qps ≠ [] ∧ (s.dev.encOf (.composed 0)).cur = [] := by
  unfold Dev.quiet; decide +kernel

/-- The plan of one indicator over a picture of 2 by 2. -/
def indicated : DrawPlan := { w := 2, h := 2, layers := [{ layer := 5, kind := 4, right := 2, bottom := 2 }] }

theorem test_meets_ComposersWithholdWhatFailed :
    ∀ started ∈ [true, false],
      let i : CompItem := { id := .strip 0, plan := indicated, started := started }
      let s := up [] fun d => d.setComp 3 { d.compOf 3 with items := [i] }
      let good : IndRegion := { layer := 5, blendCrc := i.plan.indCrc (indicated.layers.headD {}), backCrc := 0 }
      let bad : IndRegion := { good with blendCrc := good.blendCrc + 1 }
      let crc := fun (r : IndRegion) => tfind r.layer ((i.plan.layers.filter fun y => y.kind = 4).map fun y => (y.layer, i.plan.indCrc y))
      s.dev.quiet ∧ s.dev.regionRuns 3 = true ∧ s.dev.nat .COMPOSER_STATE 3 = 0 ∧ (s.dev.compOf 3).halted = false ∧
        (∃ i ∈ (s.dev.compOf 3).items, i.earliest ≤ s.dev.stride ∧ i.cutoff ≤ s.dev.stride) ∧
        ((∀ i ∈ (s.dev.compOf 3).items, i.started = false) ↔ started = false) ∧
        (s.dev.compOf 3).items.find? (fun i => i.started && !i.finished) = (if started then some i else none) ∧
        crc good = some good.blendCrc ∧ (crc bad).isSome = true ∧ crc bad ≠ some bad.blendCrc ∧
        crc bad ≠ some bad.backCrc := by
  unfold Dev.quiet; decide +kernel

theorem test_meets_SplicesFollowThePattern :
    let s := up [(.LEG_STATE, 4095, 2), (.VIEW_LAYOUT, 4095, 1023), (.LAYOUT_KIND, 1023, 2), (.VIEW_CTRL, 4095, 2 ^ 31),
      (.STRIDE_COUNT, 0, 640)] fun d => d.setLife 4095 { d.lifeOf 4095 with media := 2, videoIn := true }
    let l := s.dev.nat .VIEW_LAYOUT 4095
    let per := period (s.dev.encFpsSet (.strip l))
    s.dev.quiet ∧ s.dev.gen.running = true ∧ s.dev.spliceOn 4095 = true ∧ s.dev.spliceOn 0 = false ∧ 640 % per = 0 ∧ 641 % per ≠ 0 ∧
      640 ≤ s.dev.stride ∧ s.dev.stride < 641 ∧ (s.dev.viewOf 4095).lastPeriod = none ∧ (s.dev.viewOf 4095).active = false ∧
      positionOf 640 per (s.dev.encLayers (.strip l)) = 0 ∧ s.dev.settled (.strip l) 640 = true := by
  unfold Dev.quiet; decide +kernel

/-- In that state no tile is encoded, so every tile of the period is settled. -/
theorem test_meets_SplicesFollowThePattern_tiles (d : Dev) (h : d.enc = []) (m c p : Nat) : d.settled (.tile m c) p = true := by
  simp [Dev.settled, Dev.encOf, h, tget]

/-! DRAM -/

theorem test_meets_OneDeviceIsCorrected :
    let data : Octets := List.replicate 64 0xA5
    let vs : List Nat := [0, 255, 1, 0, 128, 0, 0, 7]
    data.length = 64 ∧ data.ok = true ∧ vs.length = 8 ∧ (∀ v ∈ vs, v < 256) ∧ (∃ v ∈ vs, v ≠ 0) ∧ (0 : Nat) < 10 ∧ (9 : Nat) < 10 ∧
      (0 : Nat) ≠ 9 := by decide +kernel

theorem test_meets_TrainingBringsAChannelUp :
    ∀ st ∈ [1, 2, 3], ∀ step ∈ [0, 7, 8], let s := up [(.CH_STATE, 3, st)] fun d => d.setChan 3 { d.chanOf 3 with step := step }
      s.dev.quiet ∧ s.dev.rst.released = true ∧ s.dev.nat .CH_STATE 3 = st ∧ decide ((s.dev.chanOf 3).step + 1 < 9) = decide (step ≠ 8) ∧
        decide ((s.dev.chanOf 3).step + 1 = 9) = decide (step = 8) := by
  unfold Dev.quiet; decide +kernel

/-- A buffer in one place and a mirrored one, with channels that serve and that do not; the last byte of a buffer. -/
theorem test_meets_DramWritesReachBothPlacements :
    ∀ mirrored ∈ [true, false], ∀ st ∈ [3, 6],
      let s := up [(.CH_STATE, 0, st), (.CH_STATE, 1, 3), (.DRAM_RANKS, 0, 1)] fun d => d.setDesc 0 1024
        { allocated := true, gen := 1, owner := 1, refs := 1, mirrored := mirrored, primary := 1024, mirror := 1025 }
      let x := s.dev.descOf 0 1024
      s.memOk ∧ s.dev.quiet ∧ s.dev.inBuffer (mkHandle 0 1 1024) 255 1 = true ∧ Octets.ok [255] = true ∧ x.mirrored = mirrored ∧
        s.dev.chServes (listOf 0 x.primary) = decide (st = 3 ∨ listOf 0 1024 = 1) := by
  unfold Dev.quiet; decide +kernel

theorem test_meets_DramReadsAnswerThePrimary :
    ∀ st ∈ [2, 3, 4, 5, 6],
      let s := up [(.CH_STATE, listOf 0 1024, st), (.DRAM_RANKS, 0, 1)] fun d => d.setDesc 0 1024
        { allocated := true, gen := 1, owner := 1, refs := 1, primary := 1024, mirror := 1024 }
      s.dev.quiet ∧ s.dev.inBuffer (mkHandle 0 1 1024) (255 / 64 * 64) 64 = true ∧ s.dev.faults.injected = [] ∧
        s.dev.chServes (listOf 0 (s.dev.descOf 0 1024).primary) = decide (st ≤ 4) := by
  unfold Dev.quiet; decide +kernel

theorem test_meets_ScrubsAndCopiesKeepData :
    ∀ st ∈ [3, 6],
      let s := up [(.CH_STATE, 3, st), (.DRAM_RANKS, 0, 1)] fun d => (d.setDesc 0 1024
        { allocated := true, gen := 1, copying := true, primary := 1024, mirror := 1025, use := .context }).setDesc 0 1026
        { allocated := true, gen := 1, copying := true, primary := 1026, mirror := 1027, use := .rxPacket }
      s.memOk ∧ s.dev.quiet ∧ s.dev.rst.released = true ∧ 2 ^ 34 - 1 < s.dev.nat .DRAM_RANKS * 2 ^ 34 ∧ s.dev.faults.injected = [] ∧
        s.dev.chServes 3 = decide (st = 3) ∧ (s.dev.descOf 0 1024).allocated = true ∧ (s.dev.descOf 0 1024).copying = true ∧
        (s.dev.descOf 0 1024).gen = handleGen (mkHandle 0 1 1024) ∧
        (∀ kv ∈ s.dev.pool.descs, kv.2.copying = true → copyRank (s.dev.descOf 0 1024).use ≤ copyRank kv.2.use) ∧
        ∃ kv ∈ s.dev.pool.descs, kv.2.copying = true ∧ ¬copyRank (s.dev.descOf 0 1026).use ≤ copyRank kv.2.use := by
  unfold Dev.quiet; decide +kernel

/-- Four alerts, and a fifth; a refresh postponed four times; the sweep before a pause and that of one; a port at its level and beside it. -/
theorem test_meets_ChannelsRefreshAndPanic :
    ∀ alerts ∈ [[28, 27, 26], [29, 28, 27, 26]], ∀ due ∈ [3, 4], ∀ sweeps ∈ [0, 1],
      let s := up [(.CH_STATE, 3, 3), (.STRIDE_COUNT, 0, 30), (.DRAM_RETRAIN_EVERY, 0, 2)] fun d =>
        { d.setChan 3 { d.chanOf 3 with alerts := alerts, due := due, sweeps := sweeps } with panic := [.egress] }
      let level := s.dev.panicLevel .egress
      let seen := (s.dev.stride :: (s.dev.chanOf 3).alerts.filter fun a => decide (s.dev.stride < a + 16)).eraseDups
      s.dev.quiet ∧ s.dev.rst.released = true ∧ s.dev.chServes 3 = true ∧ s.dev.gen.running = true ∧
        decide (4 < seen.length) = decide (alerts.length = 4) ∧ s.dev.panic ≠ [] ∧ (up []).dev.panic = [] ∧
        decide ((s.dev.chanOf 3).due < 4) = decide (due = 3) ∧
        decide ((s.dev.chanOf 3).sweeps + 1 < s.dev.nat .DRAM_RETRAIN_EVERY) = decide (sweeps = 0) ∧
        (∀ mode ∈ [0, 1, 2], ∀ hot ∈ [false, true],
          let e := (up [(.DRAM_REFRESH_MODE, 0, mode)] fun d => { d with gov := { d.gov with dramHot := hot } }).dev
          decide (e.nat .DRAM_REFRESH_MODE = 2 ∨ e.nat .DRAM_REFRESH_MODE ≠ 1 ∧ e.gov.dramHot = true) =
            decide (mode = 2 ∨ mode = 0 ∧ hot = true)) ∧
        (up []).dev.nat .DRAM_NBR_DISTANCE = 1 ∧ level - 1 < level ∧ level ≤ 2 * level ∧ 2 * level < 2 * level + 1 := by
  unfold Dev.quiet; decide +kernel

theorem test_meets_ChannelCommandsTakeEffect :
    ∀ st ∈ [3, 4, 6], ∀ other ∈ [3, 6], ∀ scanning ∈ [0, 1],
      let s := up [(.CH_STATE, 3, st), (.CH_STATE, 0, other), (.MARGIN_STATE, 3, scanning), (.DRAM_RANKS, 0, 1)] fun d =>
        d.setChan 3 { d.chanOf 3 with scan := some 1 }
      s.dev.quiet ∧ s.dev.hears s1 { o := .CH_CMD, u := 3 } ∧ s.dev.hears s1 { o := .MARGIN_CMD, u := 3 } ∧ s.dev.rst.released = true ∧
        s.dev.nat .CH_STATE 3 = st ∧ decide (∃ k ∈ List.range 4, k ≠ 3 ∧ s.dev.nat .CH_STATE k = 6) = decide (other = 6) ∧
        (s.dev.chanOf 3).scan = some 1 ∧ s.dev.nat .MARGIN_STATE 3 = scanning ∧
        (∀ v ∈ [1, 3], ¬(v % 4 = 0 ∨ v / 4 % 4 ≠ 0 ∨ 32 ≤ v ∨ max 1 (s.dev.nat .DRAM_RANKS) ≤ v / 16)) ∧
        ∀ v ∈ [0, 4, 5, 17, 255], v % 4 = 0 ∨ v / 4 % 4 ≠ 0 ∨ 32 ≤ v ∨ max 1 (s.dev.nat .DRAM_RANKS) ≤ v / 16 := by
  unfold Dev.quiet Dev.hears; decide +kernel

/-! Pools -/

/-- A domain with room for just one buffer, and one with none; a list that holds one; sizes at the bounds. -/
theorem test_meets_BuffersAreAllocated :
    ∀ used ∈ [768, 769],
      let s := up [(.CH_STATE, 0, 3), (.DOM_QUOTA, 15, 1)] fun d =>
        { d with pool := { d.pool with lists := [((0, 0), { stack := [1024] })], dom := [(15, used)] } }
      s.dev.quiet ∧ s.dev.gen.running = true ∧ 16384 < 16385 ∧ 256 ≤ 256 ∧
        decide (s.dev.nat .DOM_QUOTA 15 ≠ 0xFFFFFFFF ∧ s.dev.nat .DOM_QUOTA 15 * 1024 < tget 0 15 s.dev.pool.dom + 256) =
          decide (used = 769) ∧
        s.dev.service ≠ .warmup ∧ s.dev.reserveOf 0 + 1 ≤ s.dev.poolFree 0 ∧ s.dev.fullest 0 none = some 0 ∧
        linkHolds (s.dev.headHandle 0 0) (s.dev.linkOf 0 0) = true ∧
        linkHolds (s.dev.headHandle 0 0) (List.replicate 16 0) = false := by
  unfold Dev.quiet; decide +kernel

/-- A live buffer with one reference and with two; a handle of an old generation; the least and the greatest addition. -/
theorem test_meets_ReferencesAreCounted :
    ∀ refs ∈ [1, 2],
      let s := up [(.DRAM_RANKS, 0, 1), (.POOL_SHARE, 0, 2)] fun d => d.setDesc 0 1024 { allocated := true, gen := 1, owner := 15, share := 2 ^ 15, refs := refs }
      s.dev.quiet ∧ s.dev.gen.running = true ∧ s.dev.refCheck 15 (mkHandle 0 1 1024) 0 = none ∧
        (s.dev.refCheck 15 (mkHandle 0 2 1024) 0).isSome = true ∧
        (∀ n ∈ [1, 4096], 1 ≤ n ∧ n ≤ 4096 ∧ s.dev.refCheck 15 (mkHandle 0 1 1024) n = none ∧
          (s.dev.refCheck 15 (mkHandle 0 2 1024) n).isSome = true) ∧
        (∀ n ∈ [0, 4097], n < 1 ∨ 4096 < n) ∧ decide (1 < (s.dev.descOf 0 1024).refs) = decide (refs = 2) := by
  unfold Dev.quiet; decide +kernel

theorem test_meets_LowWaterReadsBeginAgain :
    let s := up [] withP0
    s.dev.quiet ∧ s.dev.reaches s1 = true ∧ s.dev.reaches .can = true ∧ s.dev.pool.descs.length = 1 := by
  unfold Dev.quiet; decide +kernel

/-! Faults -/

/-- A corrected record that the lap has seen, one that it has not, and a record for a slot that is taken. -/
theorem test_meets_RecordsEnterTheRing :
    let s := up [(.LOG_NEXT_SEQ, 0, 4096)] fun d => { d with faults := { d.faults with seen := [(5, 9)], slots := [(0, {})] } }
    let r := fun (u : Nat) => ({ cls := .corrected, code := 5, unit := u } : Rec)
    s.dev.quiet ∧ s.dev.hears s1 { o := .LOG_CLEAR } ∧ (r 9).cls = .corrected ∧ ((r 9).code, (r 9).unit) ∈ s.dev.faults.seen ∧
      ((r 8).code, (r 8).unit) ∉ s.dev.faults.seen ∧ thas (s.dev.nat .LOG_NEXT_SEQ % 4096) s.dev.faults.slots = true ∧
      thas ((up []).dev.nat .LOG_NEXT_SEQ % 4096) (up []).dev.faults.slots = false := by
  unfold Dev.quiet Dev.hears; decide +kernel

theorem test_meets_CellAndBlockFaults :
    ∀ st ∈ [0, 3, 4],
      let s := up [(.CELL_STATE, 1023, st), (.BLK_STATE, 63, st)]
      s.dev.quiet ∧ s.dev.regionRuns (1023 / 256) = true ∧ s.dev.regionRuns (63 / 16) = true ∧
        decide (s.dev.nat .CELL_STATE 1023 = 3 ∨ s.dev.nat .CELL_STATE 1023 = 4) = decide (st ≠ 0) ∧
        decide (3 ≤ s.dev.nat .BLK_STATE 63) = decide (st ≠ 0) ∧ (1007 / 16 ≠ 63) := by
  unfold Dev.quiet; decide +kernel

theorem test_meets_UnitFaultsAreContained :
    ∀ st ∈ [0, 2],
      let s := up [(.COMPOSER_STATE, 3, st), (.LEG_STATE, 4095, 2), (.FAILED_RAILS, 0, 2)] fun d => d.put .PAIR_STATE 3 3 (.num st)
      s.dev.quiet ∧ s.dev.gen.running = true ∧ s.dev.regionRuns (15 / 4) = true ∧ s.dev.nat .PAIR_STATE (15 / 4) (15 % 4) = st ∧
        s.dev.nat .COMPOSER_STATE 3 = st ∧ bit (s.dev.nat .FAILED_RAILS) (2 * 3) = false ∧ bit (s.dev.nat .FAILED_RAILS) (2 * 3 + 1) = false ∧
        bit (s.dev.nat .FAILED_RAILS) 1 = true ∧ s.dev.legState 4095 = .active := by
  unfold Dev.quiet; decide +kernel

/-! Power -/

theorem test_meets_GovernorDozesAndWakes :
    (∀ legs ∈ [0, 1], let s := up [(.LEGS_ADMITTED, 0, legs)]
      s.dev.quiet ∧ s.dev.hears s1 { o := .GOV_CMD } ∧ s.dev.service = .full ∧ s.dev.nat .LEGS_ADMITTED = legs) ∧
      let s := up [(.SERVICE_STATE, 0, 4), (.CH_STATE, 3, 5), (.PD_STATE, 39, 2)] fun d => { d with gov := { d.gov with wake := true } }
      s.dev.quiet ∧ s.dev.hears s1 { o := .GOV_CMD } ∧ s.dev.gen.running = true ∧ s.dev.service = .doze ∧ s.dev.gov.wake = true ∧
        s.dev.chState 3 = 5 ∧ s.dev.nat .PD_STATE 39 = 2 := by
  unfold Dev.quiet Dev.hears; decide +kernel

/-- A quad and a pair that wake, and that stand idle under TRIM for long enough and for one edge less. -/
theorem test_meets_DomainsGateAndWake :
    ∀ dom ∈ [15, 16], ∀ waking ∈ [[], [dom]], ∀ idle ∈ [4, 5],
      let s := up [(.GOV_TRIM, 0, 1), (.GOV_TRIM_IDLE, 0, 5)] fun d => { d with waking := waking, gov := { d.gov with idle := [(dom, idle)] } }
      s.dev.quiet ∧ s.dev.gen.running = true ∧ decide (dom ∈ s.dev.waking) = decide (waking ≠ []) ∧ s.dev.flag .GOV_TRIM = true ∧
        s.dev.nat .PD_MODE dom = 0 ∧ s.dev.service = .full ∧ s.dev.domainIdle dom = true ∧ s.dev.nat .PD_STATE dom = 0 ∧
        decide (s.dev.nat .GOV_TRIM_IDLE ≤ tget 0 dom s.dev.gov.idle) = decide (idle = 5) ∧
        (∃ b ∈ List.range 64, b / 4 = 15 ∧ s.dev.nat .BLK_STATE b < 3) := by
  unfold Dev.quiet; decide +kernel

theorem test_meets_RegulatorTransactionsEnd :
    ∀ fails ∈ [0, 1, 2], let s := up [] fun d => { d with gov := { d.gov with avsFails := fails, avsOpen := some 880 } }
      s.dev.quiet ∧ s.dev.rst.released = true ∧ s.dev.gov.avsFails = fails := by
  unfold Dev.quiet; decide +kernel

/-! Reset -/

theorem test_meets_PornResetsColdly :
    State.reset.dev.quiet ∧ State.reset.dev.rst.released = false ∧ (up []).dev.quiet ∧ (up []).dev.rst.released = true := by
  unfold Dev.quiet; decide +kernel

/-- Each step of the release, with its PLL and without. -/
theorem test_meets_DomainsAreReleasedInOrder :
    ∀ step ∈ [2, 3, 4, 5, 8, 9], ∀ on ∈ [true, false],
      let s := up [(.SERVICE_STATE, 0, 0), (.DRAM_RANKS, 0, 1)] fun d => { d with
        rst := { released := true, step := step, optDone := on, ddrPll := on, packetPll := on, fabricPll := if on then [0, 3] else [] } }
      let r := s.dev.rst
      s.dev.quiet ∧ r.released = true ∧ s.dev.service = .boot ∧ r.inWarm = false ∧ r.step = step ∧ r.optDone = on ∧ r.ddrPll = on ∧
        r.packetPll = on ∧ decide (0 ∈ r.fabricPll ∧ 3 ∈ r.fabricPll) = on ∧ s.dev.nat .DRAM_RANKS = 1 ∧ s.dev.nat .BLK_STATE 0 < 3 := by
  unfold Dev.quiet; decide +kernel

/-- Copies of equal and of unequal sequences, with a half that does not answer, and with neither. -/
theorem test_meets_OptionBlockBoots :
    let s := up [(.SERVICE_STATE, 0, 0)] fun d => { d with rst := { released := true, step := 3 } }
    let a : OptCopy := { sequence := 3 }
    let bad : OptCopy := { answered := false }
    s.dev.quiet ∧ s.dev.rst.released = true ∧ ¬s.dev.rst.step < 3 ∧ s.dev.rst.optDone = false ∧ s.dev.rst.inWarm = false ∧
      s.dev.service ≠ .minimum ∧ s.dev.optResult a = 1 ∧ s.dev.optResult { a with sequence := 4 } = 1 ∧ s.dev.optResult bad ≠ 1 ∧
      (s.dev.chooseCopy a a).2 = some (0, a) ∧ (s.dev.chooseCopy bad bad).2 = none ∧ a.ptable = [] := by
  unfold Dev.quiet; decide +kernel

/-- Warm-up's beginning, the beginning of the handover, its edge and the edge before it, and a return. -/
theorem test_meets_WarmupHandsOver :
    let boot := up [(.SERVICE_STATE, 0, 0), (.STRIDE_IN_LAP, 0, 597)] fun d => { d with rst := { d.rst with step := 6, handed := false } }
    let warm := up [(.SERVICE_STATE, 0, 2), (.CH_STATE, 0, 3), (.CH_STATE, 1, 2), (.CH_STATE, 2, 6), (.CH_STATE, 3, 6)]
    let back := up [] fun d => { d with rst := { d.rst with returnDue := true } }
    (∀ s ∈ [boot, warm, back], s.dev.quiet ∧ s.dev.gen.running = true ∧ s.dev.nat .STRIDE_IN_LAP % 3 = 0) ∧
      boot.dev.service = .boot ∧ boot.dev.rst.handed = false ∧ 6 ≤ boot.dev.rst.step ∧ boot.dev.rst.standing = [] ∧
      warm.dev.service = .warmup ∧ warm.dev.handoverDue = true ∧ warm.dev.rst.handoverAt = none ∧
      (∀ n ∈ [9, 10], ∀ lap ∈ [0, 1],
        let s := up [(.SERVICE_STATE, 0, 2), (.STRIDE_COUNT, 0, n), (.STRIDE_IN_LAP, 0, lap)] fun d =>
          { d with rst := { d.rst with handoverAt := some 10 } }
        s.dev.quiet ∧ s.dev.service = .warmup ∧ s.dev.rst.handoverAt = some 10 ∧
          decide (s.dev.nat .STRIDE_IN_LAP % 3 = 0) = decide (lap = 0) ∧ decide (10 ≤ s.dev.nat .STRIDE_COUNT) = decide (n = 10)) ∧
      back.dev.rst.returnDue = true ∧ back.dev.service = .full := by
  unfold Dev.quiet; decide +kernel

theorem test_meets_WarmResetKeepsItsConfiguration :
    ∀ x ∈ [(1, true, false), (3, false, false), (3, true, false), (3, true, true)],
      let s := up [(.SERVICE_STATE, 0, x.1)] fun d => { d with rst := { d.rst with handed := x.2.1, inWarm := x.2.2 } }
      s.dev.quiet ∧ s.dev.rst.released = true ∧ (s.dev.service = .minimum ↔ x.1 = 1) ∧ s.dev.rst.handed = x.2.1 ∧
        s.dev.rst.inWarm = x.2.2 := by
  unfold Dev.quiet; decide +kernel

theorem test_meets_ResetsAreAskedFor :
    ∀ x ∈ [(1, 0), (2, 0), (3, 0), (3, 2)],
      let s := up [(.SERVICE_STATE, 0, x.1), (.RGN_STATE, 3, x.2), (.REVERTED_MASK, 0, 15)]
      s.dev.quiet ∧ s.dev.hears s1 { o := .RESET_CMD } ∧ s.dev.hears .can { o := .RESET_CMD } ∧ s.dev.hears s1 { o := .REVERTED_MASK } ∧
        (s.dev.service ≠ .minimum ↔ x.1 ≠ 1) ∧ (s.dev.service = .full ∧ s.dev.nat .RGN_STATE 3 ≠ 2 ↔ x = (3, 0)) := by
  unfold Dev.quiet Dev.hears; decide +kernel

/-- Images a sequence newer and as old as the booted copy, of either half, with no write in hand and with one in each state. -/
theorem test_meets_OptionImagesAreWritten :
    ∀ half ∈ [0, 1, 0xFF], ∀ st ∈ [0, 1, 2, 3, 4],
      let img : OptCopy := { sequence := 8 }
      let s := up [(.OPT_COPY, 0, half), (.OPT_SEQUENCE, 0, 7), (.OPT_WRITE_STATE, 0, st)] fun d =>
        { d with rst := { d.rst with writing := some img } }
      let newer := fun (c : OptCopy) => s.dev.optResult c = 1 ∧ (s.dev.nat .OPT_COPY = 0xFF ∨ s.dev.nat .OPT_SEQUENCE < c.sequence)
      s.dev.quiet ∧ s.dev.hears s1 { o := .OPT_IMAGE } ∧ s.dev.rst.released = true ∧ newer img ∧
        (newer { img with sequence := 7 } ↔ half = 0xFF) ∧ s.dev.nat .OPT_WRITE_STATE = st ∧ s.dev.rst.writing = some img ∧
        s.dev.nat .OPT_COPY = half := by
  unfold Dev.quiet Dev.hears; decide +kernel

/-! Keys, the service cipher, alarms, owner slots and reports -/

/-- An unfused device and a fused one, with no alarm and with one; a leg in each state that takes keys, and in one that does not. -/
theorem test_meets_KeysAreLoadedUnderWraps :
    ∀ kcv ∈ [0, 5], ∀ latch ∈ [0, 1], ∀ st ∈ [0, 1, 2, 4],
      let s := up [(.TK_KCV, 0, kcv), (.ALARM_LATCH, 0, latch), (.LEG_STATE, 4095, st), (.LEG_SUITE, 4095, 1)]
      s.dev.quiet ∧ s.dev.hears .can { o := .TK_PROGRAM } ∧ s.dev.hears s1 { o := .SLOT_WRAP, u := 7 } ∧
        s.dev.hears s1 { o := .HDP_KEY, k := 3 } ∧ s.dev.hears s1 { o := .LEG_TX_KEY, u := 4095 } ∧
        s.dev.hears s1 { o := .LEG_RX_KEY, u := 4095 } ∧ s.dev.hears s1 { o := .LEG_SUITE, u := 4095 } ∧ s.dev.nat .TK_KCV = kcv ∧
        s.dev.alarmed = decide (latch = 1) ∧ (s.dev.legState 4095).num = st ∧ s.dev.nat .LEG_SUITE 4095 ≠ 0 ∧
        (List.replicate 32 0 : Octets).length = 32 ∧ (List.replicate 40 0 : Octets).length = 40 ∧
        s.dev.legIdle 4095 = decide (st ≤ 1) := by
  unfold Dev.quiet Dev.hears; decide +kernel

/-- The lock free, held by the sender, and held by another; a job in hand and none; a slot loaded and usable. -/
theorem test_meets_ServiceCipherRunsJobs :
    ∀ owner ∈ [0, 1, 2], ∀ job ∈ [none, some ({ output := [1] } : ScJob)], ∀ mode ∈ [1, 2, 3, 4, 5, 6, 7],
      let s := up [(.SC_LOCK, 0, if owner = 0 then 0 else 1), (.SC_LOCK_OWNER, 0, owner), (.SC_MODE, 0, mode), (.SC_KEY_SLOT, 0, 7),
          (.SLOT_USE, 7, 6)] fun d =>
        { d.put .SC_INPUT 0 0 (.bytes (List.replicate 32 0)) with
          sec := { d.sec with slots := [(7, List.replicate 16 0)], job := job } }
      s.dev.quiet ∧ s.dev.hears s1 { o := .SC_LOCK } ∧ s.dev.hears s1 { o := .SC_CMD } ∧ s.dev.gen.running = true ∧
        (s.dev.locked = false ∨ s.dev.nat .SC_LOCK_OWNER = 1 ↔ owner ≠ 2) ∧ s.dev.nat .SC_MODE = mode ∧ s.dev.sec.job = job ∧
        s.dev.holder s1 = decide (owner = 1) ∧
        scLengthOk mode (s.dev.bytes .SC_INPUT).length (s.dev.flag .SC_PAD) (s.dev.bytes .SC_AAD).length = true ∧
        s.dev.bitOf .SLOT_USE (s.dev.nat .SC_KEY_SLOT) 0 (if mode = 6 then 2 else 1) = true ∧
        (tfind (s.dev.nat .SC_KEY_SLOT) s.dev.sec.slots).isSome = true := by
  unfold Dev.quiet Dev.hears; decide +kernel

/-- Supplies and temperatures at their bounds and beyond; an erasure in hand and none; an alarm that may be cleared and one that may not. -/
theorem test_meets_AlarmsEraseTheKeys :
    (∀ erasing ∈ [true, false], ∀ active ∈ [0, 1],
      let s := up [(.ALARM_LATCH, 0, 1), (.ALARM_ACTIVE, 0, active), (.ALARM_ERASE_STATE, 0, 2)] fun d =>
        { d with sec := { d.sec with erasing := erasing } }
      s.dev.quiet ∧ s.dev.rst.released = true ∧ s.dev.hears s1 { o := .ALARM_CLEAR } ∧ s.dev.sec.erasing = erasing ∧
        (s.dev.nat .ALARM_LATCH = 0 ∨ (s.dev.nat .ALARM_ACTIVE = 0 ∧ s.dev.nat .ALARM_ERASE_STATE = 2) ↔ active = 0)) ∧
      (∀ n ∈ List.range 8, let r := supplyRange n
        ¬(r.1 < r.1 ∨ r.2 < r.1) ∧ ¬(r.2 < r.1 ∨ r.2 < r.2) ∧ (r.1 - 1 < r.1 ∨ r.2 < r.1 - 1) ∧ (r.2 + 1 < r.1 ∨ r.2 < r.2 + 1)) ∧
      (∀ t ∈ [(125 : Int), -50], ¬(125 < t ∨ t < -50)) ∧ ∀ t ∈ [(126 : Int), -51], 125 < t ∨ t < -50 := by
  unfold Dev.quiet Dev.hears; decide +kernel

/-- Slots fused and empty, live and revoked; a report asked for and none. -/
theorem test_meets_OwnersAndReports :
    ∀ st ∈ [0, 1],
      let s := up [(.OWNER_BOOT_SLOT, 0, 1), (.ATTEST_STATE, 0, st)] fun d =>
        { (d.put .OWNER_STATE 0 1 (.num 1)).put .OWNER_STATE 0 2 (.num 1) with sec := { d.sec with attestFields := some [1] } }
      s.dev.quiet ∧ s.dev.hears s1 { o := .OWNER_PROGRAM } ∧ s.dev.hears s1 { o := .OWNER_REVOKE } ∧ s.dev.hears s1 { o := .ATTEST_CMD } ∧
        s.dev.rst.released = true ∧ s.dev.nat .ATTEST_STATE = st ∧ s.dev.sec.attestFields = some [1] ∧ s.dev.nat .OWNER_BOOT_SLOT = 1 ∧
        s.dev.ownerFused 3 = false ∧ (List.replicate 32 0 : Octets).length = 32 := by
  unfold Dev.quiet Dev.hears; decide +kernel

/-! The photo finish -/

theorem test_meets_PhotoFinishLatchesOnce :
    ∀ st ∈ [0, 1, 2], ∀ level ∈ [Level.low, .high], ∀ sources ∈ [0, 2],
      let s := up [(.SNAP_STATE, 0, st), (.SNAP_SOURCES, 0, sources)] fun d => { d with pins := { d.pins with snapOut := level } }
      s.dev.quiet ∧ s.dev.gen.running = true ∧ s.dev.hears s1 { o := .SNAP_NOW } ∧ s.dev.hears s1 { o := .SNAP_RELEASE } ∧
        s.dev.nat .SNAP_STATE = st ∧ s.dev.bitOf .SNAP_SOURCES 0 0 1 = decide (sources = 2) ∧ s.dev.pins.snapOut = level := by
  unfold Dev.quiet Dev.hears; decide +kernel

/-- An edge that is past, that is now, and that is next. -/
theorem test_meets_SnapEdgeArmsALaterEdge :
    let s := up [(.STRIDE_COUNT, 0, 100), (.SNAP_SOURCES, 0, 1), (.SNAP_EDGE, 0, 101)]
    s.dev.quiet ∧ s.dev.hears s1 { o := .SNAP_EDGE } ∧ (up []).dev.flag .SNAP_EDGE = false ∧
      (∀ e ∈ [(0, true), (100, false), (101, true), (2 ^ 64 - 1, true)],
        e.1 < 2 ^ 64 ∧ decide (e.1 = 0 ∨ s.dev.nat .STRIDE_COUNT < e.1) = e.2) ∧
      s.dev.bitOf .SNAP_SOURCES 0 0 0 = true ∧ s.dev.nat .SNAP_STATE ≠ 2 ∧ s.dev.nat .STRIDE_COUNT + 1 < 2 ^ 64 ∧
      s.dev.nat .SNAP_EDGE = s.dev.nat .STRIDE_COUNT + 1 := by
  unfold Dev.quiet Dev.hears; decide +kernel

/-- A target of each kind that is in service, one that does not exist, and one that is out of service. -/
theorem test_meets_FaultsAreInjected :
    (∀ t ∈ [1023, 2 ^ 28 + 63, 2 * 2 ^ 28 + 15, 3 * 2 ^ 28 + 3, 4 * 2 ^ 28 + 7, 5 * 2 ^ 28 + 3],
      let s := up [(.INJ_TARGET, 0, t), (.CH_STATE, 3, 3)]
      s.dev.quiet ∧ s.dev.hears s1 { o := .INJ_CMD } ∧ s.dev.service ≠ .minimum ∧
        ((injNumber (s.dev.nat .INJ_TARGET / 2 ^ 28) (s.dev.nat .INJ_TARGET % 65536)).any
          fun n => s.dev.injectable (s.dev.nat .INJ_TARGET / 2 ^ 28) n) = true) ∧
      (∀ t ∈ [1024, 2 ^ 28 + 64, 6 * 2 ^ 28], injNumber (t / 2 ^ 28) (t % 65536) = none) ∧
      (up [(.CELL_STATE, 1023, 3)]).dev.injectable 0 1023 = false := by
  unfold Dev.quiet Dev.hears; decide +kernel

/-! ### Results worked by the spec

Each docstring names the example or the rule that gives the numbers. -/

/-- Chapter 15, a Thornbury ingress burst: handles 0x2C00_4A17 and 0x2E00_4A17 are pool 1, index 0x4A17, generations 6 and 7. -/
theorem test_handles_of_thornbury :
    mkHandle 1 6 0x4A17 = 0x2C004A17 ∧ mkHandle 1 7 0x4A17 = 0x2E004A17 ∧ handlePool 0x2C004A17 = 1 ∧ handleGen 0x2C004A17 = 6 ∧
      handleIndex 0x2C004A17 = 0x4A17 ∧ listOf 1 0x4A17 = 3 := by decide

/-- Chapter 15: a late drop is a DOUBLE_FREE while the index is free, and a STALE_FREE once it is allocated anew. -/
theorem test_late_drops_of_thornbury :
    let d := fun (live : Bool) (gen : Nat) => (up [(.DRAM_RANKS, 0, 1), (.POOL_SHARE, 1, 24)] fun d =>
      d.setDesc 1 0x4A17 { allocated := live, gen := gen, share := 0xFFFF, refs := 1 }).dev
    ((d false 6).refCheck 0 0x2C004A17 0).map (·.2) = some .POOL_DOUBLE_FREES ∧
      ((d true 7).refCheck 0 0x2C004A17 0).map (·.2) = some .POOL_STALE_FREES ∧ (d true 6).refCheck 0 0x2C004A17 0 = none := by
  decide +kernel

/-- Chapter 8, four legs of a Lindenrow conference: the returns of one sample. -/
theorem test_returns_of_lindenrow :
    1048576 * 16384 + -3000000 * 12288 + 5000001 * 20000 = (80315889184 : Int) ∧ rne 63136020000 14 = 3853517 ∧
      rne 117179889184 14 = 7152093 ∧ rne (-19684130816) 14 = -1201424 ∧ rne 80315889184 14 = 4902093 := by decide +kernel

/-- R176, Scope: `rne` rounds a half to the even side, and `sat` clamps. -/
theorem test_rounding : rne 1 1 = 0 ∧ rne 3 1 = 2 ∧ rne (-1) 1 = 0 ∧ rne (-3) 1 = -2 ∧ sat 8388608 24 = 8388607 ∧
    sat (-8388609) 24 = -8388608 := by decide +kernel

/-- Chapter 6, a Ravensgill keyframe: five packets green, five yellow, two red, and the buckets left. -/
theorem test_policer_of_ravensgill :
    let d := (up [(.POL_MODE, 7, 2), (.POL_CIR, 7, 2000), (.POL_PIR, 7, 3000), (.POL_CBS, 7, 6000), (.POL_EBS_PBS, 7, 12000)]).dev
    let run := (List.range 12).foldl (fun (x : List Colour × Bucket) i =>
      let r := (d.profile 7).police x.2 1200 0 (8000 * i)
      (x.1 ++ [r.1], r.2)) ([], {})
    run.1 = List.replicate 5 .green ++ List.replicate 5 .yellow ++ List.replicate 2 .red ∧ run.2.tc = 22 * 65536 ∧
      run.2.tx = 33 * 65536 := by decide +kernel

/-- Chapter 7, a Quarrybrook leg: an overuse cut at an acked rate of 5,600,000 bit/s leaves 4,760,034. -/
theorem test_cut_of_quarrybrook :
    let l : Loop := { e := 6056000, state := .overuse, rtt := 5243, lastCut := 0 }
    let p : LoopPar := ⟨1, 64000, 20000000, 0xD99A, 0, 1000, 65535, 1, 600⟩
    (l.estimate p 0 5600000 true).e = 4760034 := by decide +kernel

/-- Chapter 13, an Ashcombe block: a leg of Opus wideband mono with frames of 20 ms costs 185,500 cycles (R112). -/
theorem test_cycles_of_ashcombe :
    (up [(.LEG_TX_CODEC, 9, 4 + 2 * 2 ^ 11 + 2 * 2 ^ 14), (.LEG_RX_CODEC, 9, 4)]).dev.cycleDemand 9 = 185500 := by decide +kernel

/-- Chapter 10, a Tollmarsh layout: B is 44,000 bits at a carry of 6,000. -/
theorem test_budget_of_tollmarsh : (pictureBudget 1500000 20 [0] [1] 0 0 false 16 6000).1 = 44000 := by decide +kernel

/-- Chapter 2, Harrowmere pacing: 12 Mbit/s allow 2,500 bytes a stride; a lap's shares of a rate add up to it (R29). -/
theorem test_allowance_of_harrowmere : 12000000 / 8 / 600 = 2500 ∧
    ((List.range 600).map fun s => strideShare 1000 s).sum = 1000 := by decide +kernel

/-- Chapter 3, a Sandhollow cabinet: the forward step to 5.48 s counts the targets 5.3 and 5.4 as missed and leaves 5.5. -/
theorem test_pulse_of_sandhollow :
    let s := up [(.PULSE_MODE, 1, 2), (.PULSE_TIMEBASE, 1, 2), (.PULSE_PERIOD, 1, 100000000), (.PULSE_TARGET, 1, 5300000000 * 65536),
      (.PULSE_FIRED, 1, 3)] fun d => d.setTb 2 { t := 5480000000 * 65536, valid := true }
    (nextOf (exec (.pulseTargetReached 1) s)).map (fun t =>
      (t.dev.nat .PULSE_TARGET 1, t.dev.nat .PULSE_FIRED 1, t.dev.nat .PULSE_MISSED 1, t.dev.out)) =
      some (5500000000 * 65536, 3, 2, []) := by decide +kernel

/-- Scope, converting a lease: the lock of the service cipher is leased for 2 laps, 1,200 strides. -/
theorem test_lease_is_two_laps :
    (nextOf (exec (.scLockTake s1) (up [(.STRIDE_COUNT, 0, 7)]))).map (fun t => t.dev.sec.leaseEnd) = some 1207 := by decide +kernel

/-- R19: the strides of a lap begin at floor(n × 5,000,000 / 3) ns, so three of them last 1,666,666, 1,666,667 and 1,666,667 ns. -/
theorem test_grid_of_three_strides : 5000000 / 3 = 1666666 ∧ 2 * 5000000 / 3 - 5000000 / 3 = 1666667 ∧
    3 * 5000000 / 3 - 2 * 5000000 / 3 = 1666667 := by decide

/-- FIPS 197, appendix C.1, which R451 names: a block under AES-128. -/
theorem test_aes_of_fips197 :
    aesEncrypt (List.range 16) ((List.range 16).map (· * 17)) =
      [0x69, 0xC4, 0xE0, 0xD8, 0x6A, 0x7B, 0x04, 0x30, 0xD8, 0xCD, 0xB7, 0x80, 0x70, 0xB4, 0xC5, 0x5A] := by decide +kernel

/-- R338: two devices in error in one burst are found and not corrected. -/
theorem test_two_devices_are_detected :
    let data : Octets := List.replicate 64 0x3C
    decodeBurst none data (List.replicate 8 [1, 1]) = none ∧ decodeBurst (some 0) data (List.replicate 8 [9]) = some (data, some 0) := by
  decide +kernel

/-- R426: of two halves that do not answer, each is reported as 2, and nothing boots. -/
theorem test_silent_halves_boot_nothing :
    let silent : OptCopy := { answered := false }
    (up []).dev.chooseCopy silent silent = ((2, 2), none) := by decide +kernel

/-- A DRAM access outside a live buffer stops, and so does a command for a leg that is not there. -/
theorem test_dead_buffer_faults : nextOf (exec (.dramRead 0 0 [] [] []) State.reset) = none ∧
    nextOf (exec (.configure s1 4096) (up [])) = none := by decide +kernel

/-- The table gives no row bits, so no word spells a command. -/
theorem test_no_word_spells_a_command (n w : Nat) (s : State) : decodeTableWord n w = none ∧ s.withFetchWord n w = s := ⟨rfl, rfl⟩

end Sys2Proof.Tests
end

section
/-! PROOFS. What the counters hold, and the grid of stride edges (O8). -/

namespace Sys2Proof.Machine

/-! ### What a counter holds -/

/-- What a counter holds after it counted `n`: it wraps at its width. -/
@[simp] theorem Dev.nat_add (d : Dev) (o o' : Obj) (u u' k k' n : Nat) :
    (d.add o' u' k' n).nat o u k =
      if o = o' ∧ u = u' ∧ k = k' then (d.nat o' u' k' + n) % 2 ^ o'.row.ty.bits else d.nat o u k := by
  rw [Dev.add_eq, Dev.nat_put, Val.num_toInt, Int.toNat_natCast]

@[simp] theorem Dev.nat_bump (d : Dev) (o o' : Obj) (u u' k k' : Nat) :
    (d.bump o' u' k').nat o u k =
      if o = o' ∧ u = u' ∧ k = k' then (d.nat o' u' k' + 1) % 2 ^ o'.row.ty.bits else d.nat o u k := d.nat_add o o' u u' k k' 1

theorem Dev.int_bump_other (d : Dev) {o o' : Obj} (u u' k k' : Nat) (h : o ≠ o') : (d.bump o' u' k').int o u k = d.int o u k := by
  rw [Dev.bump_eq, Dev.int_put, if_neg (fun e => h e.1)]

/-! ### The grid of stride edges (R18, R19) -/

theorem clamp_mem {lo hi : Int} (h : lo ≤ hi) (x : Int) : lo ≤ clamp lo hi x ∧ clamp lo hi x ≤ hi := by
  unfold clamp
  split
  · omega
  · split <;> omega

/-- R19: whatever the offset, a stride keeps its bounds. -/
theorem strideLength_mem (len : Nat) (offset : Int) : 1666000 ≤ strideLength len offset ∧ strideLength len offset ≤ 1667334 :=
  clamp_mem (by decide) _

/-- The time of a grid edge, given by its lap and its number in the lap, in ns (R18). -/
def gridTime (g : Int × Nat) : Int := g.1 * 1000000000 + (gridStart g.2 : Nat)

/-- A place in a lap lies in a stride of the grid, which is no longer than 1,666,667 ns (R18). -/
theorem gridStart_brackets {x : Nat} (hx : x < 1000000000) :
    ∃ s, (if gridStart (x * 3 / 5000000 + 1) ≤ x then x * 3 / 5000000 + 1 else x * 3 / 5000000) = s ∧
      s < 600 ∧ gridStart s ≤ x ∧ x < gridStart (s + 1) ∧ gridStart (s + 1) ≤ gridStart s + 1666667 := by
  refine ⟨_, rfl, ?_⟩
  unfold gridStart
  split <;> omega

/-- The nearest grid edge is one of a lap's 600 and lies within half a stride (R19). -/
theorem nearestGrid_near (t : Int) :
    (nearestGrid t).2 < 600 ∧ 2 * (t - gridTime (nearestGrid t)).natAbs ≤ 1666667 := by
  obtain ⟨lap, hlap⟩ : ∃ lap, t / 1000000000 = lap := ⟨_, rfl⟩
  obtain ⟨x, hx⟩ : ∃ x, (t % 1000000000).toNat = x := ⟨_, rfl⟩
  have ht : t = lap * 1000000000 + x ∧ x < 1000000000 := by omega
  obtain ⟨s, hs, h600, hlo, hhi, hlen⟩ := gridStart_brackets ht.2
  have hend : gridStart 600 = 1000000000 := by decide
  have h0 : gridStart 0 = 0 := by decide
  by_cases h : s + 1 = 600
  · rw [h] at hhi hlen
    rw [gridTime, nearestGrid, hlap, hx, hs]
    simp only [if_pos h]
    split <;> dsimp only <;> omega
  · rw [gridTime, nearestGrid, hlap, hx, hs]
    simp only [if_neg h]
    split <;> dsimp only <;> omega

/-! ### The count of an edge (R25, step 3) -/

/-- The counters of the stride that begins at grid edge `g` of a lap, and the offset still to be closed (R18, R19). -/
def Dev.counted (d : Dev) (g : Nat) (offset : Int) : Dev :=
  let e := ((d.bump .STRIDE_COUNT).setN .STRIDE_IN_LAP 0 g).setI .STRIDE_OFFSET 0 0 offset
  if g = 0 then e.bump .LAP_COUNT else e

theorem counted_gen (d : Dev) (g : Nat) (offset : Int) : (d.counted g offset).gen = d.gen := by
  unfold Dev.counted
  split <;> rfl

theorem counted_within (d : Dev) (g : Nat) (offset : Int) :
    Within [.STRIDE_COUNT, .STRIDE_IN_LAP, .STRIDE_OFFSET, .LAP_COUNT] d (d.counted g offset) := by
  have h : Within [.STRIDE_COUNT, .STRIDE_IN_LAP, .STRIDE_OFFSET, .LAP_COUNT] d
      (((d.bump .STRIDE_COUNT).setN .STRIDE_IN_LAP 0 g).setI .STRIDE_OFFSET 0 0 offset) :=
    (((Within.refl _ d).put (by decide) _ _ _).put (by decide) _ _ _).put (by decide) _ _ _
  unfold Dev.counted
  split
  · exact h.put (by decide) _ _ _
  · exact h

theorem counted_nat (d : Dev) (g : Nat) (offset : Int) :
    let e := d.counted g offset
    e.nat .STRIDE_COUNT = (d.nat .STRIDE_COUNT + 1) % 2 ^ 64 ∧ e.nat .STRIDE_IN_LAP = g ∧ e.int .STRIDE_OFFSET = offset ∧
      e.nat .LAP_COUNT = if g = 0 then (d.nat .LAP_COUNT + 1) % 2 ^ 32 else d.nat .LAP_COUNT := by
  have h64 : (Obj.STRIDE_COUNT).row.ty.bits = 64 := rfl
  have h32 : (Obj.LAP_COUNT).row.ty.bits = 32 := rfl
  unfold Dev.counted
  split <;> simp [Dev.setI_eq, Dev.setN_eq, Dev.int_bump_other, h64, h32]

/-- The plan of a stride of `len` ns from the edge in hand. -/
def Dev.planned (d : Dev) (len : Int) : Dev :=
  { d with gen := { d.gen with edge := d.gen.edge + len * 65536, cycle := 0, start := d.gen.edge } }

theorem planned_within (os : List Obj) (d : Dev) (len : Int) : Within os d (d.planned len) :=
  (Within.refl os d).parts rfl rfl rfl rfl

theorem planned_get (d : Dev) (len : Int) (o : Obj) (u k : Nat) : (d.planned len).get o u k = d.get o u k := rfl

theorem planned_edge (d : Dev) (len : Int) : (d.planned len).gen.edge = d.gen.edge + len * 65536 := rfl

/-- The grid edge that an edge is paired with lies within half a stride of it (R19). -/
theorem pairing_near (d : Dev) : d.pairing.2 < 600 ∧ 2 * (d.gen.edge / 65536 - gridTime d.pairing).natAbs ≤ 1666667 :=
  nearestGrid_near _

/-- An edge counts, and plans the next one within the bounds of a stride. -/
theorem countEdge_eq (d : Dev) : ∃ len : Int, 1666000 ≤ len ∧ len ≤ 1667334 ∧
    d.countEdge = (d.counted d.pairing.2 (d.gen.edge / 65536 - gridTime d.pairing)).planned len := by
  obtain ⟨hlo, hhi⟩ := strideLength_mem (gridLen d.pairing.2) (d.gen.edge / 65536 - gridTime d.pairing)
  exact ⟨_, hlo, hhi, rfl⟩

/-- Settles O8: the pairing is `nearestGrid_near`, the counters are `counted_nat`, and the bounds are those of `strideLength_mem`. -/
theorem edgesFollowTheGrid : Obligations.EdgesFollowTheGrid := by
  intro d
  obtain ⟨len, hlo, hhi, he⟩ := countEdge_eq d
  obtain ⟨h600, hnear⟩ := pairing_near d
  rw [he]
  generalize d.pairing = g at *
  generalize hoff : d.gen.edge / 65536 - gridTime g = offset at *
  obtain ⟨hcount, hin, hoffset, hlap⟩ := counted_nat d g.2 offset
  have hget := planned_get (d.counted g.2 offset) len
  rw [← Dev.nat_eq_of_get (hget _ _ _)] at hcount hin hlap
  rw [← Dev.int_eq_of_get (hget _ _ _)] at hoffset
  have hkeeps := ((counted_within d g.2 offset).trans (planned_within _ _ len)).obj
  have hedge := planned_edge (d.counted g.2 offset) len
  rw [counted_gen] at hedge
  generalize (d.counted g.2 offset).planned len = e at *
  dsimp only
  rw [hin, hoffset, hedge]
  refine ⟨h600, hcount, hlap, ⟨g.1, ?_⟩, hnear, by omega, by omega, hkeeps⟩
  rw [← hoff]
  exact ((Int.add_comm _ _).trans (Int.sub_add_cancel _ _)).symm

end Sys2Proof.Machine
end

section
/-! PROOFS. The commit's request and its withdrawal (O10): the rule fails for a number below 0 in STRIDE_COMMIT,
and holds for every other. -/

namespace Sys2Proof.Machine

/-! ### Writes of STRIDE_COMMIT -/

/-- A commit that is pending is not requested again. -/
theorem writeCommit_one_pending {d : Dev} (h : d.flag .STRIDE_COMMIT = true) : d.writeCommit 1 = d := by
  simp [Dev.writeCommit, h]

theorem writeCommit_one_idle {d : Dev} (h : d.flag .STRIDE_COMMIT = false) :
    d.writeCommit 1 = ({ d with resultBefore := d.nat .COMMIT_STATUS }.setN .STRIDE_COMMIT 0 1).setN .COMMIT_STATUS 0 4 := by
  simp [Dev.writeCommit, h]

theorem writeCommit_zero_pending {d : Dev} (h : d.flag .STRIDE_COMMIT = true) :
    d.writeCommit 0 = (d.setN .STRIDE_COMMIT 0 0).setN .COMMIT_STATUS 0 d.resultBefore := by
  simp [Dev.writeCommit, h]

theorem writeCommit_zero_idle {d : Dev} (h : d.flag .STRIDE_COMMIT = false) : d.writeCommit 0 = d := by
  simp [Dev.writeCommit, h]

theorem writeCommit_within (d : Dev) (n : Nat) : Within [.STRIDE_COMMIT, .COMMIT_STATUS] d (d.writeCommit n) := by
  have h : Within [.STRIDE_COMMIT, .COMMIT_STATUS] d { d with resultBefore := d.nat .COMMIT_STATUS } :=
    (Within.refl _ d).parts rfl rfl rfl rfl
  unfold Dev.writeCommit
  extract_lets status pending
  split
  · split
    · exact Within.refl _ _
    · exact (h.put (by decide) _ _ _).put (by decide) _ _ _
  · split
    · exact ((Within.refl _ d).put (by decide) _ _ _).put (by decide) _ _ _
    · exact Within.refl _ _

theorem writeCommit_stage (d : Dev) (n : Nat) : (d.writeCommit n).stage = d.stage := by
  unfold Dev.writeCommit
  extract_lets status pending
  split <;> split <;> rfl

/-- A write to STRIDE_COMMIT from a sender that is heard comes to its effect and its answer. -/
theorem onWrite_STRIDE_COMMIT {s : State} {src : Src} {n : Nat} (h : s.dev.hears src { o := .STRIDE_COMMIT }) (hn : n = 0 ∨ n = 1) :
    onWrite s src .STRIDE_COMMIT 0 1 n =
      .next { s with dev := (answerWrite src { o := .STRIDE_COMMIT } (.ok (s.dev.writeCommit n))).settle } := by
  obtain ⟨hr, hc⟩ := h
  rw [onWrite_heard (Nat.zero_lt_one) hr, writeNum_STRIDE_COMMIT _ _ hc hn]
  rfl

/-! ### The rule -/

/-- What O10 states of one state and one sender. -/
def CommitRule (s : State) (src : Src) : Prop :=
  let d := s.dev
  let status := d.nat .COMMIT_STATUS
  let taken := fun (t : State) => t.dev.acceptedBy d src { o := .STRIDE_COMMIT } ∧ t.dev.stage = d.stage ∧ keepsRest s t
  (d.nat .STRIDE_COMMIT = 0 →
    (completes (.strideCommit src) s fun t => taken t ∧ t.dev.nat .STRIDE_COMMIT = 1 ∧
      t.dev.nat .COMMIT_STATUS = 4 ∧ t.dev.resultBefore = status ∧
      keepsBut d t.dev [.STRIDE_COMMIT, .COMMIT_STATUS, .DICT_WRITES]) ∧
    (completes (.commitWithdraw src) s fun t => taken t ∧ keepsBut d t.dev [.DICT_WRITES])) ∧
  (d.nat .STRIDE_COMMIT = 1 →
    (completes (.strideCommit src) s fun t => taken t ∧ keepsBut d t.dev [.DICT_WRITES]) ∧
    (completes (.commitWithdraw src) s fun t => taken t ∧ t.dev.nat .STRIDE_COMMIT = 0 ∧
      t.dev.nat .COMMIT_STATUS = d.resultBefore ∧
      keepsBut d t.dev [.STRIDE_COMMIT, .COMMIT_STATUS, .DICT_WRITES]))

theorem commitIsRequestedAndWithdrawn_iff : Obligations.CommitIsRequestedAndWithdrawn ↔
    ∀ s src, s.dev.quiet → s.dev.hears src { o := .STRIDE_COMMIT } → CommitRule s src := Iff.rfl

/-- The write `n` of STRIDE_COMMIT is accepted, and leaves what its effect left, one more write counted. -/
theorem strideCommit_taken {s : State} {src : Src} {n : Nat} {os : List Obj} (hq : s.dev.quiet)
    (hh : s.dev.hears src { o := .STRIDE_COMMIT }) (hn : n = 0 ∨ n = 1) (hw : Within os s.dev (s.dev.writeCommit n)) :
    ∃ t, onWrite s src .STRIDE_COMMIT 0 1 n = .next t ∧
      (t.dev.acceptedBy s.dev src { o := .STRIDE_COMMIT } ∧ t.dev.stage = s.dev.stage ∧ keepsRest s t) ∧
      (t.dev.resultBefore = (s.dev.writeCommit n).resultBefore ∧
        ∀ o ≠ Obj.DICT_WRITES, t.dev.nat o = (s.dev.writeCommit n).nat o) ∧
      keepsBut s.dev t.dev (os ++ [.DICT_WRITES]) := by
  obtain ⟨hacc, hset⟩ := accepted_close (src := src) (k := { o := .STRIDE_COMMIT }) hq hw
  have hb : Within (os ++ [.DICT_WRITES]) s.dev ((s.dev.writeCommit n).bump .DICT_WRITES) :=
    (hw.mono (List.subset_append_left _ _)).put (by simp) _ _ _
  refine ⟨_, onWrite_STRIDE_COMMIT hh hn, ⟨hacc, ?_, rfl, rfl⟩, ⟨?_, fun o ho => ?_⟩, fun o u k ho => ?_⟩
  · rw [settle_stage]
    exact writeCommit_stage _ _
  · rw [settle_resultBefore]
    rfl
  · rw [hset]
    simp [Dev.bump_eq, ho]
  · rw [hset, Dev.emit_get]
    exact hb.obj o u k ho

/-- The rule holds wherever STRIDE_COMMIT holds no number below 0, as every write of it leaves it. -/
theorem commitRule_of_nonneg {s : State} {src : Src} (hq : s.dev.quiet) (hh : s.dev.hears src { o := .STRIDE_COMMIT })
    (hpos : 0 ≤ s.dev.int .STRIDE_COMMIT) : CommitRule s src := by
  have hw := writeCommit_within s.dev
  refine ⟨fun h0 => ?_, fun h1 => ?_⟩
  · have hf : s.dev.flag .STRIDE_COMMIT = false := by
      have : s.dev.int .STRIDE_COMMIT = 0 := by unfold Dev.nat at h0; omega
      simp [Dev.flag, this]
    obtain ⟨t, ht, htaken, ⟨hres, hnat⟩, hk⟩ := strideCommit_taken hq hh (.inr rfl) (hw 1)
    have hw0 : Within [] s.dev (s.dev.writeCommit 0) := by rw [writeCommit_zero_idle hf]; exact Within.refl _ _
    obtain ⟨t', ht', htaken', -, hk'⟩ := strideCommit_taken hq hh (.inl rfl) hw0
    rw [writeCommit_one_idle hf] at hnat hres
    exact ⟨⟨t, ht, htaken, by simp [hnat, Dev.setN_eq], by simp [hnat, Dev.setN_eq], hres, hk⟩, t', ht', htaken', hk'⟩
  · have hf : s.dev.flag .STRIDE_COMMIT = true := by
      have : s.dev.int .STRIDE_COMMIT = 1 := by unfold Dev.nat at h1; omega
      simp [Dev.flag, this]
    have hw1 : Within [] s.dev (s.dev.writeCommit 1) := by rw [writeCommit_one_pending hf]; exact Within.refl _ _
    obtain ⟨t, ht, htaken, -, hk⟩ := strideCommit_taken hq hh (.inr rfl) hw1
    obtain ⟨t', ht', htaken', ⟨-, hnat⟩, hk'⟩ := strideCommit_taken hq hh (.inl rfl) (hw 0)
    rw [writeCommit_zero_pending hf] at hnat
    exact ⟨⟨t, ht, htaken, hk⟩, t', ht', htaken', by simp [hnat, Dev.setN_eq], by simp [hnat, Dev.setN_eq], hk'⟩

/-! ### Where it fails -/

/-- PORn released and the boot reader's accesses arriving, with a number below 0 in STRIDE_COMMIT: `nat` reads it as 0, `flag` as set. -/
def negativeCommit : State :=
  { dev := { dict := [({ o := .STRIDE_COMMIT }, .num (-1))], rst := { released := true, step := 3 } } }

theorem negativeCommit_hears : negativeCommit.dev.hears .boot { o := .STRIDE_COMMIT } := ⟨by decide, by decide⟩

/-- Refutes O10: in a state whose STRIDE_COMMIT holds -1 a write of 1 finds a commit pending and changes nothing, though the object reads
as 0, so no request is shown. Where the object holds no number below 0 the rule holds (`commitRule_of_nonneg`). -/
theorem not_commitIsRequestedAndWithdrawn : ¬ Obligations.CommitIsRequestedAndWithdrawn := by
  rw [commitIsRequestedAndWithdrawn_iff]
  intro h
  have hzero : negativeCommit.dev.nat .STRIDE_COMMIT = 0 := by decide
  have hpending : negativeCommit.dev.flag .STRIDE_COMMIT = true := by decide
  obtain ⟨⟨t, ht, -, hone, -⟩, -⟩ := (h negativeCommit .boot ⟨rfl, rfl⟩ negativeCommit_hears).1 hzero
  obtain ⟨t', ht', -, ⟨-, hnat⟩, -⟩ := strideCommit_taken ⟨rfl, rfl⟩ negativeCommit_hears (.inr rfl) (writeCommit_within _ 1)
  obtain rfl : t' = t := Host.Outcome.next.inj (ht'.symm.trans ht)
  rw [hnat _ (by decide), writeCommit_one_pending hpending, hzero] at hone
  exact absurd hone (by decide)

end Sys2Proof.Machine
end

section
/-! PROOFS. The scheduler's operations: sorting, the placement of items, the load of a cell and its start. -/

namespace Sys2Proof.Machine

/-! ### Sorting by a measure -/

theorem insertAsc_perm {α : Type} (f : α → Nat) (a : α) (l : List α) : (insertAsc f a l).Perm (a :: l) := by
  induction l with
  | nil => exact List.Perm.refl _
  | cons b r ih =>
    rw [insertAsc]
    split
    · exact List.Perm.refl _
    · exact (ih.cons b).trans (List.Perm.swap a b r)

theorem insertAsc_pairwise {α : Type} (f : α → Nat) (a : α) {l : List α} (h : l.Pairwise fun x y => f x ≤ f y) :
    (insertAsc f a l).Pairwise fun x y => f x ≤ f y := by
  induction l with
  | nil => exact List.pairwise_singleton _ _
  | cons b r ih =>
    obtain ⟨hb, hr⟩ := List.pairwise_cons.mp h
    rw [insertAsc]
    split
    · rename_i hab
      refine List.pairwise_cons.mpr ⟨fun y hy => ?_, h⟩
      obtain rfl | hy := List.mem_cons.mp hy
      · exact hab
      · exact Nat.le_trans hab (hb y hy)
    · rename_i hab
      refine List.pairwise_cons.mpr ⟨fun y hy => ?_, ih hr⟩
      obtain rfl | hy := List.mem_cons.mp ((insertAsc_perm f a r).mem_iff.mp hy)
      · omega
      · exact hb y hy

theorem sortAsc_perm {α : Type} (f : α → Nat) (l : List α) : (sortAsc f l).Perm l := by
  induction l with
  | nil => exact List.Perm.refl _
  | cons a r ih => exact (insertAsc_perm f a _).trans (ih.cons a)

theorem sortAsc_pairwise {α : Type} (f : α → Nat) (l : List α) : (sortAsc f l).Pairwise fun x y => f x ≤ f y := by
  induction l with
  | nil => exact List.Pairwise.nil
  | cons a r ih => exact insertAsc_pairwise f a ih

/-! ### Rows of a region -/

/-- A row of a running region leaves what its operation leaves, closed. -/
theorem inRegion_next {s : State} {n count g : Nat} {f : Dev → Dev} (hn : n < count) (hr : s.dev.regionRuns g = true) :
    onUnit s n count (fun d => d.inRegion g f) = .next { s with dev := (f s.dev).settle } := by
  have hf : s.dev.inRegion g f = f s.dev := if_pos hr
  rw [← hf]
  exact if_pos hn

/-- Where the operation logs nothing, there is nothing to close. -/
theorem inRegion_completes {s : State} {n count g : Nat} {f : Dev → Dev} {os : List Obj} {P : State → Prop} (hn : n < count)
    (hq : s.dev.quiet) (hr : s.dev.regionRuns g = true) (hw : Within os s.dev (f s.dev)) (hP : P { s with dev := f s.dev }) :
    ∃ t, onUnit s n count (fun d => d.inRegion g f) = .next t ∧ P t :=
  ⟨_, inRegion_next hn hr, by rw [settle_of_quiet (hw.quiet hq)]; exact hP⟩

/-! ### Blocks and cells beyond their objects -/

@[simp] theorem Dev.blkOf_setBlk (d : Dev) (n m : Nat) (x : Blk) : (d.setBlk n x).blkOf m = if m = n then x else d.blkOf m := by
  unfold Dev.blkOf Dev.setBlk
  split
  · rename_i h; subst h; simp
  · rename_i h; exact tget_tput_other _ _ _ h _

@[simp] theorem Dev.cellOf_setCell (d : Dev) (n m : Nat) (x : Cell) : (d.setCell n x).cellOf m = if m = n then x else d.cellOf m := by
  unfold Dev.cellOf Dev.setCell
  split
  · rename_i h; subst h; simp
  · rename_i h; exact tget_tput_other _ _ _ h _

@[simp] theorem Dev.cellOf_setBlk (d : Dev) (n m : Nat) (x : Blk) : (d.setBlk n x).cellOf m = d.cellOf m := rfl
@[simp] theorem Dev.blkOf_setCell (d : Dev) (n m : Nat) (x : Cell) : (d.setCell n x).blkOf m = d.blkOf m := rfl
@[simp] theorem Dev.cellOf_add (d : Dev) (o : Obj) (u k n m : Nat) : (d.add o u k n).cellOf m = d.cellOf m := rfl
@[simp] theorem Dev.cellOf_bump (d : Dev) (o : Obj) (u k m : Nat) : (d.bump o u k).cellOf m = d.cellOf m := rfl
@[simp] theorem Dev.blkOf_add (d : Dev) (o : Obj) (u k n m : Nat) : (d.add o u k n).blkOf m = d.blkOf m := rfl
@[simp] theorem Dev.nat_setBlk (d : Dev) (n : Nat) (x : Blk) (o : Obj) (u k : Nat) : (d.setBlk n x).nat o u k = d.nat o u k := rfl
@[simp] theorem Dev.nat_setCell (d : Dev) (n : Nat) (x : Cell) (o : Obj) (u k : Nat) : (d.setCell n x).nat o u k = d.nat o u k := rfl

theorem Within.setBlk {os : List Obj} {d e : Dev} (h : Within os d e) (n : Nat) (x : Blk) : Within os d (e.setBlk n x) :=
  h.parts rfl rfl rfl rfl

theorem Within.setCell {os : List Obj} {d e : Dev} (h : Within os d e) (n : Nat) (x : Cell) : Within os d (e.setCell n x) :=
  h.parts rfl rfl rfl rfl

/-! ### Stopped clocks (R328) -/

theorem within_gatedTime (d : Dev) (c : Nat) : Within [.CELL_GATED] d (d.gatedTime c) := by
  unfold Dev.gatedTime
  extract_lets x
  split
  · exact Within.refl _ _
  · exact ((Within.refl _ d).setCell _ _).put (by decide) _ _ _

theorem blkOf_gatedTime (d : Dev) (c b : Nat) : (d.gatedTime c).blkOf b = d.blkOf b := by
  unfold Dev.gatedTime
  extract_lets x
  split <;> rfl

/-- The stopped time of a cell leaves its slots, and the other cells. -/
theorem cellOf_gatedTime (d : Dev) (c : Nat) :
    ((d.gatedTime c).cellOf c).slots = (d.cellOf c).slots ∧ ∀ c' ≠ c, (d.gatedTime c).cellOf c' = d.cellOf c' := by
  unfold Dev.gatedTime
  extract_lets x
  split
  · exact ⟨rfl, fun _ _ => rfl⟩
  · exact ⟨by simp [x], fun c' h => by simp [h]⟩

/-! ### Placement (R28, R320, R321) -/

/-- A cell found among those of a block is one of its own. -/
theorem findCell_some {b c : Nat} {p : Nat → Bool} (h : ((List.range 16).map (16 * b + ·)).find? p = some c) :
    c / 16 = b ∧ p c = true := by
  obtain ⟨j, hj, rfl⟩ := List.mem_map.mp (List.mem_of_find?_eq_some h)
  have := List.mem_range.mp hj
  exact ⟨by omega, List.find?_some h⟩

/-- The cell of block `b` for an item that its affinity places nowhere: the first empty one, or else the first with room (R321). -/
def Dev.freeCell (d : Dev) (b : Nat) : Option Nat :=
  match ((List.range 16).map (16 * b + ·)).find? fun c => d.usable c && d.cellEmpty c with
  | some c => some c
  | none => ((List.range 16).map (16 * b + ·)).find? fun c => d.usable c && decide ((d.cellOf c).slots.length < 2)

theorem freeCell_room {d : Dev} {b c : Nat} (h : d.freeCell b = some c) :
    c / 16 = b ∧ d.usable c = true ∧ (d.cellOf c).slots.length < 2 := by
  unfold Dev.freeCell at h
  split at h
  · rename_i c' hfound
    obtain rfl := Option.some.inj h
    obtain ⟨hb, hp⟩ := findCell_some hfound
    simp only [Dev.cellEmpty, Bool.and_eq_true, List.isEmpty_iff] at hp
    obtain ⟨hu, -, hs⟩ := hp
    exact ⟨hb, hu, by simp [hs]⟩
  · obtain ⟨hb, hp⟩ := findCell_some h
    exact ⟨hb, by simpa using hp⟩

/-- An item is placed at a usable cell of its block that has room (R321). -/
theorem placeAt_room {d : Dev} {b : Nat} {i : Item} {c : Nat} (h : d.placeAt b i = some c) :
    c / 16 = b ∧ d.usable c = true ∧ (d.cellOf c).slots.length < 2 := by
  unfold Dev.placeAt at h
  extract_lets cells room x ordered at h
  split at h
  · exact absurd h (by simp)
  · split at h
    · split at h
      · rename_i hroom
        obtain rfl := Option.some.inj h
        simp only [room, Bool.and_eq_true, decide_eq_true_eq] at hroom
        exact ⟨hroom.2, hroom.1⟩
      · exact freeCell_room h
    · exact freeCell_room h

/-- The items among them that are deferred: they are marked as counted, and those that were not are counted (R28). -/
def Dev.deferLate (d : Dev) (b : Nat) (late : List Item) : Dev :=
  (d.countDeferred b late).setBlk b { d.blkOf b with
    ready := (d.blkOf b).ready.map fun i => if late.contains i then { i with counted := true } else i }

theorem within_countDeferred (d : Dev) (b : Nat) (items : List Item) :
    Within [.ITEMS_DEFERRED, .BLK_DEFERRED] d (d.countDeferred b items) :=
  ((Within.refl _ d).put (by decide) _ _ _).put (by decide) _ _ _

theorem takeWhile_until {α : Type} [DecidableEq α] {l r : List α} {a : α} (h : a ∉ l) :
    (l ++ a :: r).takeWhile (· ≠ a) = l := by
  rw [List.takeWhile_append_of_pos (by intro x hx; simp; rintro rfl; exact h hx)]
  simp

/-- A block places the first item in order that can be placed, and defers those before it that are too long; where none can be placed it
defers all that are. -/
theorem placement_cases (d : Dev) (b : Nat) :
    (∀ i ∈ (d.blkOf b).ready, d.placeAt b i = none) ∧
        d.placement b = d.deferLate b ((sortAsc d.orderKey (d.blkOf b).ready).filter (d.tooLong b)) ∨
      ∃ before i after c, sortAsc d.orderKey (d.blkOf b).ready = before ++ i :: after ∧ (∀ j ∈ before, d.placeAt b j = none) ∧
        d.placeAt b i = some c ∧ d.placement b = (d.deferLate b (before.filter (d.tooLong b))).place b c i := by
  unfold Dev.placement
  generalize hitems : sortAsc d.orderKey (d.blkOf b).ready = items
  have hmem : ∀ i, i ∈ (d.blkOf b).ready ↔ i ∈ items := fun i => hitems ▸ (sortAsc_perm _ _).mem_iff.symm
  cases hp : items.findSome? fun i => (d.placeAt b i).map fun c => (i, c) with
  | none =>
    refine .inl ⟨fun i hi => ?_, ?_⟩
    · simpa using List.findSome?_eq_none_iff.mp hp i ((hmem i).mp hi)
    · dsimp only
      rw [hp]
      rfl
  | some ic =>
    obtain ⟨before, i, after, rfl, hi, hbefore⟩ := List.findSome?_eq_some_iff.mp hp
    obtain ⟨c, hc, rfl⟩ := Option.map_eq_some_iff.mp hi
    have hnone : ∀ j ∈ before, d.placeAt b j = none := fun j hj => by simpa using hbefore j hj
    have hnot : i ∉ before := fun hb => by simp [hnone i hb] at hc
    refine .inr ⟨before, i, after, c, rfl, hnone, hc, ?_⟩
    dsimp only
    rw [hp]
    show (d.deferLate b (((before ++ i :: after).takeWhile (· ≠ i)).filter (d.tooLong b))).place b c i = _
    rw [takeWhile_until hnot]

theorem deferLate_blk (d : Dev) (b : Nat) (late : List Item) :
    (d.deferLate b late).blkOf b = { d.blkOf b with
      ready := (d.blkOf b).ready.map fun i => if late.contains i then { i with counted := true } else i } := by
  simp [Dev.deferLate]

theorem within_deferLate (d : Dev) (b : Nat) (late : List Item) :
    Within [.ITEMS_DEFERRED, .BLK_DEFERRED] d (d.deferLate b late) := (within_countDeferred d b late).setBlk _ _

theorem countDeferred_nat (d : Dev) (b : Nat) (items : List Item) :
    (d.countDeferred b items).nat .ITEMS_DEFERRED = (d.nat .ITEMS_DEFERRED + (items.filter (!·.counted)).length) % 2 ^ 32 ∧
      (d.countDeferred b items).nat .BLK_DEFERRED b = (d.nat .BLK_DEFERRED b + (items.filter (!·.counted)).length) % 2 ^ 32 := by
  have h32 : (Obj.ITEMS_DEFERRED).row.ty.bits = 32 ∧ (Obj.BLK_DEFERRED).row.ty.bits = 32 := ⟨rfl, rfl⟩
  unfold Dev.countDeferred
  simp [h32]

theorem deferLate_nat (d : Dev) (b : Nat) (late : List Item) :
    (d.deferLate b late).nat .ITEMS_DEFERRED = (d.nat .ITEMS_DEFERRED + (late.filter (!·.counted)).length) % 2 ^ 32 := by
  rw [Dev.deferLate, Dev.nat_setBlk]
  exact (countDeferred_nat d b late).1

/-- What a placement leaves: the item gone from the ready list, and last in a slot of its cell, whose clock runs (R322, R328). -/
theorem place_spec (d : Dev) (b c : Nat) (i : Item) :
    ((d.place b c i).blkOf b).ready = (d.blkOf b).ready.erase i ∧
      ((d.place b c i).cellOf c).slots = (d.cellOf c).slots ++ [i] ∧ ((d.place b c i).cellOf c).stopped = none ∧
      (∀ c' ≠ c, (d.place b c i).cellOf c' = d.cellOf c') ∧ Within [.CELL_GATED] d (d.place b c i) := by
  unfold Dev.place
  extract_lets x d1 y
  have hw : Within [.CELL_GATED] d d1 := ((Within.refl _ d).setBlk _ _).trans (within_gatedTime _ _)
  obtain ⟨hslots, hother⟩ := cellOf_gatedTime (d.setBlk b { x with ready := x.ready.erase i }) c
  refine ⟨?_, ?_, ?_, fun c' h => ?_, hw.setCell _ _⟩
  · simp [d1, blkOf_gatedTime, x]
  · simp [y, d1, hslots]
  · simp
  · rw [Dev.cellOf_setCell, if_neg h]
    exact hother c' h

theorem within_placement (d : Dev) (b : Nat) : Within [.CELL_GATED, .ITEMS_DEFERRED, .BLK_DEFERRED] d (d.placement b) := by
  obtain ⟨-, h⟩ | ⟨before, i, after, c, -, -, -, h⟩ := placement_cases d b <;> rw [h]
  · exact (within_deferLate d b _).mono (by decide)
  · obtain ⟨-, -, -, -, hw⟩ := place_spec (d.deferLate b (before.filter (d.tooLong b))) b c i
    exact ((within_deferLate d b _).mono (by decide)).trans (hw.mono (by decide))

/-- Where no item can be placed, each that is too long is deferred, and counted where it was not (R28). -/
theorem placement_none {d : Dev} {b : Nat} (hnone : ∀ i ∈ (d.blkOf b).ready, d.placeAt b i = none) :
    ((d.placement b).blkOf b).ready = ((d.blkOf b).ready.map fun i => if d.tooLong b i then { i with counted := true } else i) ∧
      (∀ c, (d.placement b).cellOf c = d.cellOf c) ∧
      (d.placement b).nat .ITEMS_DEFERRED =
        (d.nat .ITEMS_DEFERRED + ((d.blkOf b).ready.filter fun i => d.tooLong b i && !i.counted).length) % 2 ^ 32 := by
  have hperm := sortAsc_perm d.orderKey (d.blkOf b).ready
  obtain ⟨-, h⟩ | ⟨before, i, after, c, hitems, -, hc, -⟩ := placement_cases d b
  · rw [h, deferLate_blk]
    refine ⟨List.map_congr_left fun i hi => ?_, fun c => rfl, ?_⟩
    · simp [hperm.mem_iff, hi]
    · have hlen := (hperm.filter fun i => d.tooLong b i && !i.counted).length_eq
      rw [← hlen, deferLate_nat]
      simp only [List.filter_filter, Bool.and_comm]
  · have hi : i ∈ (d.blkOf b).ready := hperm.mem_iff.mp (by simp [hitems])
    simp [hnone i hi] at hc

/-- The first part of O35, assembled from `placement_cases`, `placeAt_room` and `place_spec`. -/
theorem itemsArePlacedInOrder : Sys2Proof.Claim.ItemsArePlacedInOrder := by
  intro s b hb hq hr
  have hw := within_placement s.dev b
  refine inRegion_completes hb hq hr hw ⟨⟨rfl, rfl⟩, hw.out, hw.obj, placement_none, fun ⟨i₀, hi₀, hplace⟩ => ?_⟩
  obtain ⟨hnone, -⟩ | ⟨before, i, after, c, hitems, hbefore, hc, h⟩ := placement_cases s.dev b
  · exact absurd (hnone i₀ hi₀) hplace
  have hmem : ∀ j, j ∈ (s.dev.blkOf b).ready ↔ j ∈ before ∨ j = i ∨ j ∈ after := fun j => by
    rw [← (sortAsc_perm s.dev.orderKey _).mem_iff, hitems]
    simp
  have hsorted := sortAsc_pairwise s.dev.orderKey (s.dev.blkOf b).ready
  rw [hitems] at hsorted
  obtain ⟨-, hafter, hbi⟩ := List.pairwise_append.mp hsorted
  obtain ⟨hroom, hus, hlen⟩ := placeAt_room hc
  obtain ⟨hready, hslots, hstop, hother, -⟩ := place_spec (s.dev.deferLate b (before.filter (s.dev.tooLong b))) b c i
  rw [deferLate_blk] at hready
  refine ⟨i, c, (before.filter (s.dev.tooLong b)).contains, (hmem i).mpr (by simp), hc, fun j hj hlt => ?_,
    fun j hj hlate => ?_, hroom, hus, hlen, ?_, ?_, ?_, ?_⟩
  · have hjb : j ∈ before := by
      obtain hjb | rfl | hja := (hmem j).mp hj
      · exact hjb
      · omega
      · have := List.rel_of_pairwise_cons hafter hja
        omega
    exact ⟨hbefore j hjb, by simp [hjb]⟩
  · simp only [List.contains_iff_mem, List.mem_filter] at hlate
    exact ⟨hlate.2, hbi j hlate.1 i (by simp)⟩
  all_goals rw [h]; assumption

/-! ### What a cell loads (R313, R314) -/

theorem keepRoom_sum (room : Nat) (l : List ((ItemKind × Nat) × List Nat)) :
    ((keepRoom room l).map fun k => 64 * k.2.length).sum ≤ room := by
  induction l generalizing room with
  | nil => simp [keepRoom]
  | cons x r ih =>
    unfold keepRoom
    split
    · have := ih (room - 64 * x.2.length)
      simp only [List.map_cons, List.sum_cons]
      omega
    · simp

theorem keepRoom_subset (room : Nat) (l : List ((ItemKind × Nat) × List Nat)) : keepRoom room l ⊆ l := by
  induction l generalizing room with
  | nil => simp [keepRoom]
  | cons x r ih =>
    unfold keepRoom
    split
    · exact List.cons_subset_cons x (ih _)
    · simp

theorem runCode_tags (tags : List Nat) (part : Nat × (Nat × Nat)) : (runCode tags part).2.length ≤ max 8 tags.length := by
  unfold runCode
  extract_lets lines
  split
  · rw [List.length_take]
    omega
  · exact Nat.le_max_right _ _

/-- What a load leaves of its cell: its fetches stay few, and what its local memory keeps fits (R313, R314). -/
theorem loadCell_spec (d : Dev) (c : Nat) (i : Item) :
    let x := d.cellOf c
    let y := (d.loadCell c i).cellOf c
    y.running = x.running ∧ y.slots = x.slots ∧ y.began = x.began ∧ y.tags.length ≤ max 8 x.tags.length ∧
      (∀ k ∈ y.kept, k.1 = i.flow ∨ k ∈ x.kept) ∧ (y.kept.map fun k => 64 * k.2.length).sum ≤ Config.localRoom := by
  unfold Dev.loadCell
  extract_lets x q r lines kept y
  have hy : y = { x with tags := r.2, kept := kept } := by simp [y]
  rw [hy]
  refine ⟨rfl, rfl, rfl, ?_, fun k hk => ?_, keepRoom_sum _ _⟩
  · refine foldl_keeps (P := fun a : Nat × List Nat => a.2.length ≤ max 8 x.tags.length) (fun a part ha => ?_) _ (Nat.le_max_right _ _)
    have := runCode_tags a.2 part
    dsimp only
    omega
  · obtain rfl | hk := List.mem_cons.mp (keepRoom_subset _ _ hk)
    · exact .inl rfl
    · exact .inr ((List.mem_filter.mp hk).1)

theorem within_loadCell (d : Dev) (c : Nat) (i : Item) : Within [.CELL_LOOP_MISSES] d (d.loadCell c i) :=
  ((Within.refl _ d).setCell _ _).put (by decide) _ _ _

end Sys2Proof.Machine
end

section
/-! PROOFS. The start of items, checks, retired cells and stopped clocks (O35). -/

namespace Sys2Proof.Machine

/-! ### The start of an item (R28, R322) -/

/-- A busy cell, or one with nothing to start, starts nothing. -/
theorem startItem_idle {d : Dev} {c : Nat} (h : (d.cellOf c).running ≠ none ∨ (d.cellOf c).slots = []) : d.startItem c = d := by
  unfold Dev.startItem
  extract_lets x b
  split
  · rename_i hr hs
    obtain h | h := h
    · exact absurd hr h
    · exact absurd (hs.symm.trans h) (List.cons_ne_nil _ _)
  · rfl

/-- An item that no longer fits the stride leaves its slot for the ready list, as deferred. -/
theorem startItem_late {d : Dev} {c : Nat} {i : Item} {rest : List Item} (hr : (d.cellOf c).running = none)
    (hs : (d.cellOf c).slots = i :: rest) (hlate : d.tooLong (c / 16) i = true) :
    d.startItem c = ((d.setCell c { d.cellOf c with slots := rest }).setBlk (c / 16)
      { d.blkOf (c / 16) with ready := (d.blkOf (c / 16)).ready ++ [{ i with counted := true }] }).countDeferred (c / 16) [i] := by
  unfold Dev.startItem
  dsimp only
  rw [hr, hs]
  dsimp only
  rw [if_pos hlate]

/-- The cell runs the item and has loaded it; a run at another cell than the flow's last is counted apart. -/
def Dev.started (d : Dev) (c : Nat) (i : Item) (rest : List Item) : Dev :=
  ((d.setCell c { d.cellOf c with running := some i, slots := rest, began := d.gen.total }).loadCell c i).bump .CELL_ITEMS c

theorem startItem_runs {d : Dev} {c : Nat} {i : Item} {rest : List Item} (hr : (d.cellOf c).running = none)
    (hs : (d.cellOf c).slots = i :: rest) (hfits : d.tooLong (c / 16) i = false) :
    ∃ e, (e = d.started c i rest ∨ e = (d.started c i rest).bump .CELL_AFFINITY_HITS c ∨
        e = (d.started c i rest).bump .BLK_MIGRATIONS (c / 16)) ∧
      d.startItem c = { e with flows := tset i.flow c e.flows } := by
  unfold Dev.startItem
  dsimp only
  rw [hr, hs]
  dsimp only
  rw [if_neg (by simp [hfits])]
  refine ⟨_, ?_, rfl⟩
  split
  · split
    · exact .inr (.inl rfl)
    · exact .inr (.inr rfl)
  · exact .inl rfl

theorem started_cellItems (d : Dev) (c : Nat) (i : Item) (rest : List Item) :
    (d.started c i rest).nat .CELL_ITEMS c = (d.nat .CELL_ITEMS c + 1) % 2 ^ 32 := by
  have h32 : (Obj.CELL_ITEMS).row.ty.bits = 32 := rfl
  rw [Dev.started, Dev.nat_bump, if_pos ⟨rfl, rfl, rfl⟩, h32, (within_loadCell _ _ _).nat (by decide), Dev.nat_setCell]

theorem within_started (d : Dev) (c : Nat) (i : Item) (rest : List Item) :
    Within [.CELL_ITEMS, .CELL_LOOP_MISSES, .CELL_AFFINITY_HITS, .BLK_MIGRATIONS] d (d.started c i rest) :=
  (((Within.refl _ d).setCell _ _).trans ((within_loadCell _ _ _).mono (by decide))).put (by decide) _ _ _

/-- What the start of an item that fits leaves (R313, R322). -/
theorem startItem_fits {d : Dev} {c : Nat} {i : Item} {rest : List Item} (hr : (d.cellOf c).running = none)
    (hs : (d.cellOf c).slots = i :: rest) (hfits : d.tooLong (c / 16) i = false) :
    (d.startItem c).cellOf c = (d.started c i rest).cellOf c ∧ tfind i.flow (d.startItem c).flows = some c ∧
      (d.startItem c).nat .CELL_ITEMS c = (d.nat .CELL_ITEMS c + 1) % 2 ^ 32 ∧
      Within [.CELL_ITEMS, .CELL_LOOP_MISSES, .CELL_AFFINITY_HITS, .BLK_MIGRATIONS] d (d.startItem c) := by
  obtain ⟨e, he, h⟩ := startItem_runs hr hs hfits
  have hw := within_started d c i rest
  have hcell : e.cellOf c = (d.started c i rest).cellOf c := by
    obtain rfl | rfl | rfl := he <;> simp
  have hitems : e.nat .CELL_ITEMS c = (d.started c i rest).nat .CELL_ITEMS c := by
    obtain rfl | rfl | rfl := he <;> simp
  have hwe : Within [.CELL_ITEMS, .CELL_LOOP_MISSES, .CELL_AFFINITY_HITS, .BLK_MIGRATIONS] d e := by
    obtain rfl | rfl | rfl := he
    · exact hw
    · exact hw.put (by decide) _ _ _
    · exact hw.put (by decide) _ _ _
  rw [h]
  exact ⟨hcell, tfind_tset_same _ _ _, hitems.trans (started_cellItems d c i rest), hwe.parts rfl rfl rfl rfl⟩

/-- What the deferral of an item that no longer fits leaves (R28). -/
theorem startItem_defers {d : Dev} {c : Nat} {i : Item} {rest : List Item} (hr : (d.cellOf c).running = none)
    (hs : (d.cellOf c).slots = i :: rest) (hlate : d.tooLong (c / 16) i = true) :
    (d.startItem c).cellOf c = { d.cellOf c with slots := rest } ∧
      ((d.startItem c).blkOf (c / 16)).ready = (d.blkOf (c / 16)).ready ++ [{ i with counted := true }] ∧
      (d.startItem c).nat .ITEMS_DEFERRED = (d.nat .ITEMS_DEFERRED + if i.counted then 0 else 1) % 2 ^ 32 ∧
      (d.startItem c).nat .BLK_DEFERRED (c / 16) = (d.nat .BLK_DEFERRED (c / 16) + if i.counted then 0 else 1) % 2 ^ 32 ∧
      Within [.ITEMS_DEFERRED, .BLK_DEFERRED] d (d.startItem c) := by
  have hn : ([i].filter (!·.counted)).length = if i.counted then 0 else 1 := by
    cases h : i.counted <;> simp [h]
  rw [startItem_late hr hs hlate]
  generalize hd1 : (d.setCell c { d.cellOf c with slots := rest }).setBlk (c / 16)
      { d.blkOf (c / 16) with ready := (d.blkOf (c / 16)).ready ++ [{ i with counted := true }] } = d1
  have hw : Within [.ITEMS_DEFERRED, .BLK_DEFERRED] d d1 := hd1 ▸ ((Within.refl _ d).setCell _ _).setBlk _ _
  have hnat : ∀ o u, d1.nat o u = d.nat o u := fun o u => by rw [← hd1, Dev.nat_setBlk, Dev.nat_setCell]
  have hcell : d1.cellOf c = { d.cellOf c with slots := rest } := by simp [← hd1]
  have hblk : (d1.blkOf (c / 16)).ready = (d.blkOf (c / 16)).ready ++ [{ i with counted := true }] := by simp [← hd1]
  obtain ⟨hall, hown⟩ := countDeferred_nat d1 (c / 16) [i]
  rw [hn, hnat] at hall hown
  exact ⟨hcell, hblk, hall, hown, hw.trans (within_countDeferred d1 _ _)⟩

/-- The second part of O35: an idle cell, an item that is deferred, and one that starts. -/
theorem itemsStartOrAreDeferred : Sys2Proof.Claim.ItemsStartOrAreDeferred := by
  intro s c hc hq hr
  refine ⟨fun hidle => ?_, fun i rest hrun hslots => ?_⟩
  · have h := startItem_idle hidle
    exact inRegion_completes (os := []) hc hq hr (by rw [h]; exact Within.refl _ _) (by rw [h])
  · cases hlate : s.dev.tooLong (c / 16) i with
    | true =>
      obtain ⟨hcell, hready, hall, hown, hw⟩ := startItem_defers hrun hslots hlate
      have hcond : 0 < kindClass i.kind ∧ s.dev.cyclesLeft (c / 16) < i.est := by simpa [Dev.tooLong] using hlate
      refine inRegion_completes hc hq hr hw ⟨⟨rfl, rfl⟩, hw.out, ?_⟩
      dsimp only
      rw [if_pos hcond, hcell]
      exact ⟨rfl, hrun, hready, hall, hown, hw.obj⟩
    | false =>
      obtain ⟨hcell, hflow, hitems, hw⟩ := startItem_fits hrun hslots hlate
      have hcond : ¬(0 < kindClass i.kind ∧ s.dev.cyclesLeft (c / 16) < i.est) := by simpa [Dev.tooLong] using hlate
      obtain ⟨hrunning, hrest, hbegan, htags, hkept, hsum⟩ :=
        loadCell_spec (s.dev.setCell c { s.dev.cellOf c with running := some i, slots := rest, began := s.dev.gen.total }) c i
      rw [Dev.cellOf_setCell, if_pos rfl] at hrunning hrest hbegan htags hkept
      refine inRegion_completes hc hq hr hw ⟨⟨rfl, rfl⟩, hw.out, ?_⟩
      dsimp only
      rw [if_neg hcond, hcell, Dev.started, Dev.cellOf_bump]
      exact ⟨hrest, hrunning, hbegan, hflow, htags, hkept, hsum, hitems, hw.obj⟩

/-! ### Checks and stopped clocks (R317, R326, R328, R376) -/

/-- A cell after its check item: free of it, where it ran one. -/
def Dev.checked (d : Dev) (c : Nat) : Dev :=
  match (d.cellOf c).running with
  | some i => if i.kind = .check then d.setCell c { d.cellOf c with running := none } else d
  | none => d

theorem checkDone_false (d : Dev) (c item word : Nat) :
    ∃ r, d.checkDone c item word false = ((d.checked c).logRec r).retireCell c := ⟨_, rfl⟩

theorem within_checked (d : Dev) (c : Nat) : Within [] d (d.checked c) := by
  unfold Dev.checked
  split
  · split
    · exact (Within.refl _ d).setCell _ _
    · exact Within.refl _ _
  · exact Within.refl _ _

theorem checked_running {d : Dev} {c : Nat} {i : Item} (h : (d.cellOf c).running = some i) :
    ((d.checked c).cellOf c).running = if i.kind = .check then none else some i := by
  unfold Dev.checked
  rw [h]
  dsimp only
  split
  · simp
  · exact h

/-- The homes of cell `c` go to the spare cell `r`, which enters service (R326). -/
def Dev.moveHomes (d : Dev) (c r : Nat) : Dev :=
  let e : Dev := { d with homes := d.homes.map fun h => if h.2 = c then (h.1, r) else h }
  ((e.setLoad r (tget 0 r d.loads + tget 0 c d.loads)).setLoad c 0).setN .CELL_STATE r 0

theorem within_moveHomes (d : Dev) (c r : Nat) : Within [.CELL_HOME_LOAD, .BLK_HOME_LOAD, .CELL_STATE] d (d.moveHomes c r) := by
  have h : Within [.CELL_HOME_LOAD, .BLK_HOME_LOAD] d { d with homes := d.homes.map fun h => if h.2 = c then (h.1, r) else h } :=
    (Within.refl _ d).parts rfl rfl rfl rfl
  exact (((h.trans (within_setLoad _ _ _)).trans (within_setLoad _ _ _)).mono (by decide)).put (by decide) _ _ _

/-- A home that moves leaves the state of every other cell. -/
theorem moveHomes_state (d : Dev) {c r n : Nat} (h : n ≠ r) : (d.moveHomes c r).nat .CELL_STATE n = d.nat .CELL_STATE n := by
  unfold Dev.moveHomes
  extract_lets e
  rw [Dev.setN_eq, Dev.nat_put, if_neg (fun hk => h hk.2.1), (within_setLoad _ _ _).nat (by decide), (within_setLoad _ _ _).nat (by decide)]
  rfl

/-- Block `b` loses its reserve cell: it admits 14 cells' cycles at most, and names another reserve later (R326). -/
def Dev.loseReserve (d : Dev) (b : Nat) : Dev :=
  let cap := d.nat .BLK_CAPACITY b
  let e := (d.sub .ADMIT_CYCLES_CAP 0 (cap - 14 * 1995100)).setN .BLK_CAPACITY b (min cap (14 * 1995100))
  (e.setN .BLK_RESERVE_CELL b 0xFFFF).setBlk b { e.blkOf b with renameReserve := true }

theorem within_loseReserve (d : Dev) (b : Nat) :
    Within [.ADMIT_CYCLES_CAP, .BLK_CAPACITY, .BLK_RESERVE_CELL] d (d.loseReserve b) :=
  ((((Within.refl _ d).put (by decide) _ _ _).put (by decide) _ _ _).put (by decide) _ _ _).setBlk _ _

theorem loseReserve_reserve (d : Dev) (b : Nat) : (d.loseReserve b).nat .BLK_RESERVE_CELL b = 0xFFFF := by
  rw [Dev.loseReserve, Dev.nat_setBlk, Dev.nat_setN]

theorem loseReserve_capacity (d : Dev) (b : Nat) : (d.loseReserve b).nat .BLK_CAPACITY b = min (d.nat .BLK_CAPACITY b) 27931400 := by
  rw [Dev.loseReserve, Dev.nat_setBlk, Dev.nat_setN_other _ _ _ _ _ (by decide), Dev.nat_setN]

/-- Cell `c` counts as retired. -/
def Dev.countRetired (d : Dev) (c : Nat) : Dev := (d.setN .CELL_STATE c 3).setN .RETIRED_CELLS 0 (d.nat .RETIRED_CELLS + 1)

/-- A cell that is retired is counted, its homes go to its block's reserve cell where that is another one, and the block loses it. -/
theorem retireCell_eq {d : Dev} {c : Nat} (h : d.nat .CELL_STATE c ≠ 3) :
    ∃ e r, (e = d.countRetired c ∨ ∃ n, c ≠ n ∧ e = (d.countRetired c).moveHomes c n) ∧
      d.retireCell c = (e.loseReserve (c / 16)).logRec r := by
  unfold Dev.retireCell
  rw [if_neg h]
  dsimp only
  generalize hspare : ((List.range 16).map (16 * (c / 16) + ·)).find? (fun x => decide (d.nat .CELL_STATE x = 1)) = spare
  generalize hown : decide (d.nat .CELL_STATE c = 1) = own
  cases own with
  | true => exact ⟨_, _, .inl rfl, rfl⟩
  | false =>
    cases spare with
    | none => exact ⟨_, _, .inl rfl, rfl⟩
    | some n =>
      refine ⟨_, _, .inr ⟨n, ?_, rfl⟩, rfl⟩
      rintro rfl
      exact absurd ((findCell_some hspare).2.symm.trans hown) (by decide)

/-- A cell that is retired: its block keeps 14 cells' cycles at most, and no reserve (R326, R376). -/
theorem retireCell_spec {d : Dev} {c : Nat} (h : d.nat .CELL_STATE c ≠ 3) :
    (d.retireCell c).nat .CELL_STATE c = 3 ∧ (d.retireCell c).nat .RETIRED_CELLS = d.nat .RETIRED_CELLS + 1 ∧
      (d.retireCell c).nat .BLK_RESERVE_CELL (c / 16) = 0xFFFF ∧
      (d.retireCell c).nat .BLK_CAPACITY (c / 16) = min (d.nat .BLK_CAPACITY (c / 16)) 27931400 := by
  obtain ⟨e, r, he, heq⟩ := retireCell_eq h
  have hcount : (d.countRetired c).nat .CELL_STATE c = 3 ∧ (d.countRetired c).nat .RETIRED_CELLS = d.nat .RETIRED_CELLS + 1 ∧
      (d.countRetired c).nat .BLK_CAPACITY (c / 16) = d.nat .BLK_CAPACITY (c / 16) := by
    simp [Dev.countRetired, Dev.setN_eq]
  obtain ⟨hstate, hretired, hcap⟩ : e.nat .CELL_STATE c = 3 ∧ e.nat .RETIRED_CELLS = d.nat .RETIRED_CELLS + 1 ∧
      e.nat .BLK_CAPACITY (c / 16) = d.nat .BLK_CAPACITY (c / 16) := by
    obtain rfl | ⟨n, hn, rfl⟩ := he
    · exact hcount
    · rw [moveHomes_state _ hn, (within_moveHomes _ _ _).nat (by decide), (within_moveHomes _ _ _).nat (by decide)]
      exact hcount
  have hw := within_loseReserve e (c / 16)
  rw [heq, Dev.logRec_nat, Dev.logRec_nat, Dev.logRec_nat, Dev.logRec_nat]
  exact ⟨(hw.nat (by decide) _ _).trans hstate, (hw.nat (by decide) _ _).trans hretired, loseReserve_reserve _ _,
    hcap ▸ loseReserve_capacity _ _⟩

theorem stopClock_spec (d : Dev) (c : Nat) :
    Within [] d (d.stopClock c) ∧ ((d.stopClock c).cellOf c).stopped =
      if (d.cellOf c).running = none ∧ (d.cellOf c).slots = [] ∧ (d.cellOf c).stopped = none then some d.gen.total
      else (d.cellOf c).stopped := by
  have hiff : (d.cellEmpty c = true ∧ (d.cellOf c).stopped.isNone = true) ↔
      (d.cellOf c).running = none ∧ (d.cellOf c).slots = [] ∧ (d.cellOf c).stopped = none := by
    simp [Dev.cellEmpty, and_assoc]
  unfold Dev.stopClock
  extract_lets x
  simp only [x, hiff]
  split
  · exact ⟨(Within.refl _ d).setCell _ _, by simp⟩
  · exact ⟨Within.refl _ _, rfl⟩

/-- The third part of O35. A failed check logs a record, and the close of the command leaves the cell's and the block's objects. -/
theorem cellsAreCheckedAndStopped : Sys2Proof.Claim.CellsAreCheckedAndStopped := by
  intro s c hc hq hr
  refine ⟨fun item word => ?_, fun item word hstate => ?_, ?_⟩
  · have hw := within_checked s.dev c
    exact inRegion_completes hc hq hr hw ⟨⟨rfl, rfl⟩, hw.obj, hw.out, fun i hi => checked_running hi⟩
  · obtain ⟨r, hdone⟩ := checkDone_false s.dev c item word
    have hw := within_checked s.dev c
    have hlog : ∀ o u, ((s.dev.checked c).logRec r).nat o u = s.dev.nat o u := fun o u => by
      rw [Dev.logRec_nat, hw.nat (by simp)]
    obtain ⟨hthree, hretired, hreserve, hcap⟩ := retireCell_spec (d := (s.dev.checked c).logRec r) (c := c) (by rw [hlog]; exact hstate)
    rw [← hdone] at hthree hretired hreserve hcap
    rw [hlog] at hretired hcap
    refine ⟨_, inRegion_next hc hr, ⟨rfl, rfl⟩, ?_, ?_, ?_, ?_⟩ <;> rw [settle_nat _ (by decide)] <;> assumption
  · obtain ⟨hw, hstopped⟩ := stopClock_spec s.dev c
    exact inRegion_completes hc hq hr hw ⟨⟨rfl, rfl⟩, hw.obj, hw.out, hstopped⟩

/-- Settles O35: placement, start, and checks and stopped clocks. -/
theorem itemsRunOnTheirCells : Obligations.ItemsRunOnTheirCells :=
  ⟨itemsArePlacedInOrder, itemsStartOrAreDeferred, cellsAreCheckedAndStopped⟩

end Sys2Proof.Machine
end

section
/-! PROOFS. Rows of the packet engine, and what a write of a TIME80 object comes to. -/

namespace Sys2Proof.Machine

/-! ### Rows of a unit -/

/-- A row of a unit whose operation leaves nothing to close leaves what the operation leaves. -/
theorem onUnit_completes {s : State} {n count : Nat} {f : Dev → Dev} {e : Dev} {P : State → Prop} (hn : n < count)
    (he : f s.dev = e) (hq : e.quiet) (hP : P { s with dev := e }) : ∃ t, onUnit s n count f = .next t ∧ P t := by
  have hnext : onUnit s n count f = .next { s with dev := (f s.dev).settle } := if_pos hn
  rw [he, settle_of_quiet hq] at hnext
  exact ⟨_, hnext, hP⟩

/-- The same of a row that acts while the packet engine runs. -/
theorem engine_completes {s : State} {n count : Nat} {f : Dev → Dev} {e : Dev} {P : State → Prop} (hn : n < count)
    (hr : s.dev.gen.running = true) (he : f s.dev = e) (hq : e.quiet) (hP : P { s with dev := e }) :
    ∃ t, onUnit s n count (fun d => d.engine f) = .next t ∧ P t :=
  onUnit_completes hn ((if_pos hr).trans he) hq hP

/-- The same of a row that is an access of a sender whose accesses arrive. -/
theorem access_completes {s : State} {src : Src} {n count : Nat} {f : Dev → Dev} {e : Dev} {P : State → Prop} (hn : n < count)
    (hr : s.dev.reaches src = true) (he : f s.dev = e) (hq : e.quiet) (hP : P { s with dev := e }) :
    ∃ t, onUnit s n count (fun d => d.access src f) = .next t ∧ P t :=
  onUnit_completes hn ((if_pos hr).trans he) hq hP

/-- The same of a row that is a write. -/
theorem onWrite_completes {s : State} {src : Src} {o : Obj} {u count n : Nat} {e : Dev} {P : State → Prop} (hu : u < count)
    (hr : s.dev.reaches src = true) (hw : s.dev.writeNum src { o := o, u := u } n = e) (hq : e.quiet)
    (hP : P { s with dev := e }) : ∃ t, onWrite s src o u count n = .next t ∧ P t :=
  access_completes hu hr hw hq hP

/-! ### Answers to writes (R67) -/

theorem answerWrite_ok_keeps {d e : Dev} {os : List Obj} (src : Src) (k : Key) (h : keepsBut d e os) :
    keepsBut d (answerWrite src k (.ok e)) (os ++ [.DICT_WRITES]) := by
  intro o u p ho
  simp only [List.mem_append, List.mem_singleton, not_or] at ho
  rw [answerWrite_ok, Dev.emit_get, Dev.bump_eq, Dev.get_put, if_neg (fun hk => ho.2 hk.1)]
  exact h o u p ho.1

theorem answerWrite_error_keeps (d : Dev) (src : Src) (k : Key) (a : Abort) :
    keepsBut d (answerWrite src k (.error (a, d))) [.DICT_ABORTS] := by
  intro o u p ho
  rw [List.mem_singleton] at ho
  rw [answerWrite_error, Dev.emit_get, Dev.bump_eq, Dev.get_put, if_neg (fun hk => ho hk.1)]

theorem answerWrite_ok_nat (src : Src) (k : Key) (e : Dev) {o : Obj} (u p : Nat) (h : o ≠ .DICT_WRITES) :
    (answerWrite src k (.ok e)).nat o u p = e.nat o u p := by
  rw [answerWrite_ok, Dev.emit_nat, Dev.nat_bump, if_neg (fun hk => h hk.1)]

theorem answerWrite_ok_accepted {d e : Dev} (src : Src) (k : Key) (h : e.out = d.out) :
    (answerWrite src k (.ok e)).acceptedBy d src k := congrArg (· ++ _) h

theorem answerWrite_ok_onlyDict {d e : Dev} (src : Src) (k : Key) (h : onlyDict d e) :
    onlyDict d (answerWrite src k (.ok e)) := (h.put _ _ _ _).emit _

/-- What a refusal leaves, its answer apart: one more abort is counted (R67). -/
theorem answerWrite_error_spec (d : Dev) (src : Src) (k : Key) (a : Abort) :
    (answerWrite src k (.error (a, d))).refusedBy d src k a ∧
      keepsBut d (answerWrite src k (.error (a, d))) [.DICT_ABORTS] ∧ onlyDict d (answerWrite src k (.error (a, d))) :=
  ⟨rfl, answerWrite_error_keeps d src k a, ((onlyDict_refl d).put _ _ _ _).emit _⟩

/-! ### TIME80 objects (R62) -/

theorem decode_spell_time80 {k : Key} {n : Nat} (ht : k.o.row.ty = .time80) (hn : n < 2 ^ 80) :
    k.decode (k.spell n) = .ok (.num n) := by
  have hb : k.bits = 80 := by simp [Key.bits, ht, Ty.bits]
  have hlen : (k.spell n).length = 10 := by rw [Key.spell, hb, if_pos hn, natToOctets_length]
  have hval : Octets.toNat (k.spell n) = n := by
    have h256 : (256 : Nat) ^ 10 = 2 ^ 80 := by decide
    rw [Key.spell, hb, if_pos hn, octets_toNat_natToOctets, h256]
    exact Nat.mod_eq_of_lt hn
  simp [Key.decode, ht, hb, hlen, hval]

/-- A read of a time gives its octets. -/
theorem encode_time80 {k : Key} (ht : k.o.row.ty = .time80) (n : Nat) : k.encode (.num n) = natToOctets 10 (n % 2 ^ 80) := by
  have hb : k.bits = 80 := by simp [Key.bits, ht, Ty.bits]
  have hword : toWord 80 n = n % 2 ^ 80 := by
    unfold toWord
    omega
  rw [Key.encode, hb, hword]

/-- A write of a time to an object that takes any comes to its effect. -/
theorem writeNum_time80 {d : Dev} {src : Src} {k : Key} {n : Nat} (hn : n < 2 ^ 80) (ht : k.o.row.ty = .time80)
    (hm : k.mayWrite src = .ok ()) (hw : wrappedKey k.o = false)
    (hr : k.o.row.range.check (.num n) = .ok (.num n)) (hf : k.form (.num n) = .ok ())
    (hi : (!decide (k.o.row.acc = .rwi) || d.ownerIdle k) = true) (hp : k.pdo = none) (hs : k.staged src = false)
    (hl : (decide (k.o.row.acc = .rws) || (d.lookWith k (k.kept (.num n))).related k) = true) :
    d.writeNum src k n = answerWrite src k (d.effect src k (.num n)) := by
  unfold Dev.writeNum
  rw [writeKey_effect hm hw (decode_spell_time80 ht hn) hr hf hi hp hs hl]

theorem writeNum_TB_TIME (d : Dev) {src : Src} {n t : Nat}
    (h : src = .can → canWritable (Key.index { o := .TB_TIME, u := n }) (Key.sub { o := .TB_TIME, u := n }) = true)
    (ht : t < 2 ^ 80) :
    d.writeNum src { o := .TB_TIME, u := n } t = answerWrite src { o := .TB_TIME, u := n } (d.orRefuse (d.writeTbTime n t)) :=
  writeNum_time80 ht rfl (mayWrite_ok h rfl rfl) rfl rfl rfl rfl rfl rfl rfl

theorem writeNum_PULSE_TARGET (d : Dev) {src : Src} {k t : Nat}
    (h : src = .can → canWritable (Key.index { o := .PULSE_TARGET, u := k }) (Key.sub { o := .PULSE_TARGET, u := k }) = true)
    (ht : t < 2 ^ 80) :
    d.writeNum src { o := .PULSE_TARGET, u := k } t =
      answerWrite src { o := .PULSE_TARGET, u := k } (d.orRefuse (d.writePulseTarget k t)) :=
  writeNum_time80 ht rfl (mayWrite_ok h rfl rfl) rfl rfl rfl rfl rfl rfl rfl

end Sys2Proof.Machine
end

section
/-! PROOFS. The time bases: writes of TB_TIME, the servo, and holdover (O18). -/

namespace Sys2Proof.Machine

/-! ### Steps and writes (R43, R46) -/

theorem Within.setTb {os : List Obj} {d e : Dev} (h : Within os d e) (n : Nat) (x : TimeBase) : Within os d (e.setTb n x) :=
  h.parts rfl rfl rfl rfl

@[simp] theorem Dev.tbOf_bump (d : Dev) (o : Obj) (u k m : Nat) : (d.bump o u k).tbOf m = d.tbOf m := rfl
@[simp] theorem Dev.tbOf_put (d : Dev) (o : Obj) (u k : Nat) (v : Val) (m : Nat) : (d.put o u k v).tbOf m = d.tbOf m := rfl
@[simp] theorem Dev.tbOf_logRec (d : Dev) (r : Rec) (a : Option Nat) (m : Nat) : (d.logRec r a).tbOf m = d.tbOf m := rfl
@[simp] theorem settle_tbOf (d : Dev) (m : Nat) : d.settle.tbOf m = d.tbOf m := by
  rw [Dev.tbOf, settle_tb, Dev.tbOf]
@[simp] theorem Dev.stepTb_ptp (d : Dev) (n t : Nat) : (d.stepTb n t).ptp = d.ptp := rfl
@[simp] theorem Dev.stepTb_caps (d : Dev) (n t : Nat) : (d.stepTb n t).caps = d.caps := rfl
@[simp] theorem Dev.stepTb_nat (d : Dev) (n t : Nat) (o : Obj) (u k : Nat) : (d.stepTb n t).nat o u k = d.nat o u k := rfl

/-- A step moves the time of its base alone. -/
@[simp] theorem Dev.tbOf_stepTb (d : Dev) (n t m : Nat) :
    (d.stepTb n t).tbOf m = if m = n then { d.tbOf n with t := t % timeMod } else d.tbOf m := d.tbOf_setTb n m _

theorem within_stepTb (os : List Obj) (d : Dev) (n t : Nat) : Within os d (d.stepTb n t) :=
  (Within.refl os d).parts rfl rfl rfl rfl

theorem writeTbTime_refused {d : Dev} {n : Nat} (h : d.nat .TB_MODE n ≠ 0) (t : Nat) : d.writeTbTime n t = .error .deviceState :=
  if_pos h

/-- What a write of TB_TIME in FREE mode leaves (R46). -/
theorem writeTbTime_free {d : Dev} {n t : Nat} (h : d.nat .TB_MODE n = 0) (ht : t < 2 ^ 80) :
    ∃ e, d.writeTbTime n t = .ok e ∧ e.tbOf n = { d.tbOf n with t := t, valid := true, written := true } ∧
      (∀ m, m ≠ n → e.tbOf m = d.tbOf m) ∧ e.nat .TB_STEPS n = (d.nat .TB_STEPS n + 1) % 2 ^ 32 ∧ Within [.TB_STEPS] d e := by
  have h32 : (Obj.TB_STEPS).row.ty.bits = 32 := rfl
  have hmod : t % timeMod = t := Nat.mod_eq_of_lt ht
  refine ⟨_, if_neg (not_not_intro h), ?_, fun m hm => ?_, ?_, ?_⟩
  · simp [hmod]
  · simp [hm]
  · simp [h32]
  · exact ((within_stepTb _ d n t).setTb _ _).put (by decide) _ _ _

/-- The first part of O18. -/
theorem timeIsWrittenInFreeMode : Sys2Proof.Claim.TimeIsWrittenInFreeMode := by
  intro s src n time hn ht hq hh
  obtain ⟨hr, hc⟩ := hh
  have hw := writeNum_TB_TIME s.dev hc ht
  by_cases hm : s.dev.nat .TB_MODE n = 0
  · obtain ⟨e, he, htb, hother, hsteps, hwe⟩ := writeTbTime_free hm ht
    rw [he] at hw
    refine onWrite_completes hn hr hw (hwe.quiet hq) ?_
    dsimp only
    rw [if_pos hm]
    exact ⟨htb, (answerWrite_ok_nat _ _ _ _ _ (by decide)).trans hsteps, hother, answerWrite_ok_accepted _ _ hwe.out,
      answerWrite_ok_keeps _ _ hwe.obj, rfl, rfl⟩
  · rw [writeTbTime_refused hm] at hw
    refine onWrite_completes hn hr hw hq ?_
    dsimp only
    rw [if_neg hm]
    obtain ⟨hrefused, hkeeps, honly⟩ := answerWrite_error_spec s.dev src { o := .TB_TIME, u := n } .deviceState
    exact ⟨hrefused, hkeeps, honly, rfl, rfl⟩

/-! ### The servo (R43) -/

/-- Does time base `n` follow a servo: is it in PTP or TIN mode? -/
def Dev.disciplined (d : Dev) (n : Nat) : Prop := d.nat .TB_MODE n = 1 ∨ d.nat .TB_MODE n = 2

theorem servo_undisciplined {d : Dev} {n : Nat} (h : ¬ d.disciplined n) (o : Int) (t : Nat) : d.servo n o t = d :=
  if_pos (not_or.mp h)

/-- A time base that a sample has come to: it has a source, and is in holdover no more (R44). -/
def Dev.sampledTb (d : Dev) (n : Nat) (o : Int) (t : Nat) : TimeBase :=
  { d.tbOf n with holdover := false, ended := false, source := true, sample := some (o, t) }

/-- A sample beyond the step threshold: the base is stepped by it. -/
def Dev.servoStep (d : Dev) (n : Nat) (o : Int) (t : Nat) : Dev :=
  let b := d.sampledTb n o t
  let e := (d.setTb n b).stepTb n (((b.t : Int) + o) % (2 : Int) ^ 80).toNat
  (e.setTb n { e.tbOf n with integ := 0, valid := false, locked := false, lockCount := 0 }).bump .TB_STEPS n

/-- The integrator after a frequency error `f`. -/
def Dev.servoInteg (d : Dev) (n : Nat) (f : Int) : Int :=
  clamp (-rateLimit) rateLimit ((d.tbOf n).integ + asr f (d.nat .TB_SERVO_KI n))

/-- LOCK_COUNT after an offset sample `o`. -/
def Dev.servoLock (d : Dev) (n : Nat) (o : Int) : Nat :=
  if o.natAbs ≤ d.nat .TB_LOCK_THRESHOLD n * 65536 then min ((d.tbOf n).lockCount + 1) 16 else 0

/-- A sample within the step threshold: it steers the base. -/
def Dev.servoSteer (d : Dev) (n : Nat) (o : Int) (t : Nat) : Dev :=
  let b := d.sampledTb n o t
  let f := tdiv (o * 65536) t
  let lc := d.servoLock n o
  ((d.setTb n b).setTb n { b with
    integ := d.servoInteg n f, lockCount := lc
    valid := b.valid || decide (lc = 16), locked := b.locked || decide (lc = 16) }).setI .TB_RATE_ADJ n 0
      (clamp (-rateLimit) rateLimit (d.servoInteg n f + asr f (d.nat .TB_SERVO_KP n)))

theorem servo_disciplined {d : Dev} {n : Nat} (h : d.disciplined n) (o : Int) (t : Nat) :
    d.servo n o t =
      if d.nat .TB_STEP_THRESHOLD n * 65536 < o.natAbs then d.servoStep n o t else d.servoSteer n o t := by
  have hm : ¬(d.nat .TB_MODE n ≠ 1 ∧ d.nat .TB_MODE n ≠ 2) := fun hx => h.elim hx.1 hx.2
  unfold Dev.servo
  simp only [if_neg hm]
  rfl

theorem within_servoStep (d : Dev) (n : Nat) (o : Int) (t : Nat) : Within [.TB_STEPS] d (d.servoStep n o t) :=
  ((((Within.refl _ d).setTb _ _).trans (within_stepTb _ _ _ _)).setTb _ _).put (by decide) _ _ _

theorem within_servoSteer (d : Dev) (n : Nat) (o : Int) (t : Nat) : Within [.TB_RATE_ADJ] d (d.servoSteer n o t) :=
  (((Within.refl _ d).setTb _ _).setTb _ _).put (by decide) _ _ _

/-- What a step leaves of its base. -/
theorem servoStep_spec (d : Dev) (n : Nat) (o : Int) (t : Nat) :
    (d.servoStep n o t).tbOf n = { d.sampledTb n o t with
      t := (((d.tbOf n).t + o) % (2 : Int) ^ 80).toNat, integ := 0, valid := false, locked := false, lockCount := 0 } ∧
    (d.servoStep n o t).nat .TB_STEPS n = (d.nat .TB_STEPS n + 1) % 2 ^ 32 := by
  have h32 : (Obj.TB_STEPS).row.ty.bits = 32 := rfl
  have hmod : (((d.tbOf n).t + o) % (2 : Int) ^ 80).toNat % timeMod = (((d.tbOf n).t + o) % (2 : Int) ^ 80).toNat := by
    unfold timeMod
    omega
  constructor
  · simp only [Dev.servoStep, Dev.tbOf_bump, Dev.tbOf_setTb, Dev.tbOf_stepTb, if_true, Dev.sampledTb, hmod]
  · simp [Dev.servoStep, h32]

/-- What a sample leaves of a base that it steers. -/
theorem servoSteer_spec (d : Dev) (n : Nat) (o : Int) (t : Nat) :
    (d.servoSteer n o t).tbOf n = { d.sampledTb n o t with
      integ := d.servoInteg n (tdiv (o * 65536) t), lockCount := d.servoLock n o
      valid := (d.tbOf n).valid || decide (d.servoLock n o = 16), locked := (d.tbOf n).locked || decide (d.servoLock n o = 16) } ∧
    (d.servoSteer n o t).int .TB_RATE_ADJ n =
      clamp (-rateLimit) rateLimit
        (d.servoInteg n (tdiv (o * 65536) t) + asr (tdiv (o * 65536) t) (d.nat .TB_SERVO_KP n)) := by
  constructor
  · simp [Dev.servoSteer, Dev.setI_eq, Dev.sampledTb]
  · simp [Dev.servoSteer, Dev.setI_eq]

/-- A choice is one of its two sides. -/
theorem ite_either {α : Type} (c : Prop) [Decidable c] (a b : α) : (if c then a else b) = a ∨ (if c then a else b) = b := by
  split
  · exact .inl rfl
  · exact .inr rfl

/-- A servo that runs steps its base or steers it. -/
theorem servo_cases {d : Dev} {n : Nat} (h : d.disciplined n) (o : Int) (t : Nat) :
    d.servo n o t = d.servoStep n o t ∨ d.servo n o t = d.servoSteer n o t := by
  rw [servo_disciplined h]
  exact ite_either _ _ _

/-- Whatever the mode, a sample leaves all objects but the base's count of steps and its rate, and every part but the base and the edge
that is planned on it. -/
theorem servo_frame (d : Dev) (n : Nat) (o : Int) (t : Nat) :
    Within [.TB_STEPS, .TB_RATE_ADJ] d (d.servo n o t) ∧ (∀ m, m ≠ n → (d.servo n o t).tbOf m = d.tbOf m) ∧
      (d.servo n o t).ptp = d.ptp ∧ (d.servo n o t).caps = d.caps := by
  by_cases h : d.disciplined n
  · obtain hs | hs := servo_cases h o t <;> rw [hs]
    · exact ⟨(within_servoStep d n o t).mono (by decide), fun m hm => by simp [Dev.servoStep, hm],
        by simp [Dev.servoStep, Dev.bump_eq], by simp [Dev.servoStep, Dev.bump_eq]⟩
    · exact ⟨(within_servoSteer d n o t).mono (by decide), fun m hm => by simp [Dev.servoSteer, Dev.setI_eq, hm],
        by simp [Dev.servoSteer, Dev.setI_eq], by simp [Dev.servoSteer, Dev.setI_eq]⟩
  · rw [servo_undisciplined h]
    exact ⟨Within.refl _ _, fun _ _ => rfl, rfl, rfl⟩

/-- A base whose servo runs keeps its last sample, and has a source. -/
theorem servo_sampled {d : Dev} {n : Nat} (h : d.disciplined n) (o : Int) (t : Nat) :
    ((d.servo n o t).tbOf n).sample = some (o, t) ∧ ((d.servo n o t).tbOf n).source = true := by
  obtain hs | hs := servo_cases h o t <;> rw [hs]
  · rw [(servoStep_spec d n o t).1]
    exact ⟨rfl, rfl⟩
  · rw [(servoSteer_spec d n o t).1]
    exact ⟨rfl, rfl⟩

/-- The sixteenth offset in a row within the lock threshold fills LOCK_COUNT. -/
theorem servoLock_full (d : Dev) (n : Nat) (o : Int) :
    decide (d.servoLock n o = 16) =
      (decide (o.natAbs ≤ d.nat .TB_LOCK_THRESHOLD n * 65536) && decide (16 ≤ (d.tbOf n).lockCount + 1)) := by
  rw [← Bool.decide_and, decide_eq_decide, Dev.servoLock]
  split <;> omega

/-- The second part of O18. -/
theorem servoStepsOrSteers : Sys2Proof.Claim.ServoStepsOrSteers := by
  intro s n o dt hn hq hr hmode
  have hd : s.dev.disciplined n := hmode
  obtain ⟨hw, hother, -⟩ := servo_frame s.dev n o dt
  refine engine_completes hn hr rfl (hw.quiet hq) ⟨⟨rfl, rfl⟩, hw.obj, hother, ?_⟩
  dsimp only
  rw [servo_disciplined hd]
  split
  · obtain ⟨htb, hsteps⟩ := servoStep_spec s.dev n o dt
    rw [htb]
    exact ⟨rfl, rfl, rfl, hsteps⟩
  · obtain ⟨htb, hadj⟩ := servoSteer_spec s.dev n o dt
    rw [htb, servoLock_full]
    refine ⟨rfl, rfl, hadj, ?_, rfl⟩
    simp [Dev.servoLock]

/-! ### Holdover (R44, R45) -/

theorem holdoverEnter_enters {d : Dev} {n : Nat} (h : d.disciplined n) (hh : (d.tbOf n).holdover = false) :
    d.holdoverEnter n =
      (d.setTb n { d.tbOf n with holdover := true, source := false }).setI .TB_RATE_ADJ n 0 (d.tbOf n).integ :=
  if_pos ⟨h, by simp [hh]⟩

/-- Whether it enters or not, a loss of the source leaves all objects but the rate, and every part but the bases. -/
theorem holdoverEnter_frame (d : Dev) (n : Nat) :
    Within [.TB_RATE_ADJ] d (d.holdoverEnter n) ∧ (∀ m, m ≠ n → (d.holdoverEnter n).tbOf m = d.tbOf m) ∧
      (d.holdoverEnter n).ptp = d.ptp := by
  unfold Dev.holdoverEnter
  extract_lets mode b
  split
  · exact ⟨((Within.refl _ d).setTb _ _).put (by decide) _ _ _, fun m hm => by simp [Dev.setI_eq, hm], rfl⟩
  · exact ⟨Within.refl _ _, fun _ _ => rfl, rfl⟩

/-- The expiry of a holdover ends it once, where it is limited; it touches no base otherwise. -/
theorem holdoverExpiry_tbOf {d : Dev} {n : Nat} (hh : (d.tbOf n).holdover = true) (he : (d.tbOf n).ended = false) :
    (d.holdoverExpiry n).tbOf n = if d.nat .TB_HOLDOVER_LAPS n = 0 then d.tbOf n
      else { d.tbOf n with valid := false, locked := false, ended := true } := by
  unfold Dev.holdoverExpiry
  by_cases hl : d.nat .TB_HOLDOVER_LAPS n = 0
  · simp [hl]
  · simp [hl, hh, he]

/-- The third part of O18. An expiry logs a record, whose close leaves the bases as they are. -/
theorem holdoverFreezesTheRate : Sys2Proof.Claim.HoldoverFreezesTheRate := by
  intro s n hn hq hr
  refine ⟨fun hmode hh => ?_, fun hh he => ?_⟩
  · obtain ⟨hw, hother, -⟩ := holdoverEnter_frame s.dev n
    refine engine_completes hn hr rfl (hw.quiet hq) ⟨?_, ?_, hw.obj, hother, hw.out, rfl, rfl⟩ <;>
      simp [holdoverEnter_enters hmode hh, Dev.setI_eq]
  · have hnext : exec (.holdoverExpiry n) s = .next { s with dev := (s.dev.engine (·.holdoverExpiry n)).settle } := if_pos hn
    have hrun : s.dev.engine (·.holdoverExpiry n) = s.dev.holdoverExpiry n := if_pos hr
    exact ⟨_, hnext, ⟨rfl, rfl⟩, by rw [hrun, settle_tbOf, holdoverExpiry_tbOf hh he]⟩

/-- Settles O18: the write of TB_TIME, the servo, and holdover. -/
theorem timeBasesAreDisciplined : Obligations.TimeBasesAreDisciplined :=
  ⟨timeIsWrittenInFreeMode, servoStepsOrSteers, holdoverFreezesTheRate⟩

end Sys2Proof.Machine
end

section
/-! PROOFS. PTP: the messages of a port, the evaluation of its masters, and the timeout (O19). -/

namespace Sys2Proof.Machine

/-! ### PTP ports and system queues -/

@[simp] theorem Dev.ptpOf_setPtp (d : Dev) (p q : Nat) (x : PtpPort) : (d.setPtp p x).ptpOf q = if q = p then x else d.ptpOf q := by
  unfold Dev.ptpOf Dev.setPtp
  split
  · rename_i h; subst h; simp
  · rename_i h; exact tget_tput_other _ _ _ h _

@[simp] theorem Dev.ptpOf_put (d : Dev) (o : Obj) (u k : Nat) (v : Val) (p : Nat) : (d.put o u k v).ptpOf p = d.ptpOf p := rfl

theorem Dev.ptpOf_eq_of_ptp {d e : Dev} (h : e.ptp = d.ptp) (p : Nat) : e.ptpOf p = d.ptpOf p := by
  rw [Dev.ptpOf, h, Dev.ptpOf]

theorem Within.setPtp {os : List Obj} {d e : Dev} (h : Within os d e) (p : Nat) (x : PtpPort) : Within os d (e.setPtp p x) :=
  h.parts rfl rfl rfl rfl

/-- What waits in system queue `q` of port `p`. -/
def Dev.sysQueue (d : Dev) (p q : Nat) : List NetOut := tget [] q (d.portOf p).sys

/-- The queue that a PTP message of a type takes: event messages the first, general ones the second (R165). -/
def ptpQueue (type : Nat) : Nat := if type ≤ 3 then 0 else 1

/-- A PTP queue with room takes a packet at its end, and nothing else changes. -/
theorem sysEnqueue_room {d : Dev} {p q : Nat} (x : NetOut) (hq : q < 2) (hroom : (d.sysQueue p q).length < 64) :
    (d.sysEnqueue p q x).sysQueue p q = d.sysQueue p q ++ [x] ∧ Within [] d (d.sysEnqueue p q x) ∧
      (d.sysEnqueue p q x).ptp = d.ptp := by
  have hown : ¬(2 ≤ q ∧ d.nat .PAIR_MODE (p / 2) ≠ 0) := fun h => by omega
  have heq : d.sysEnqueue p q x = d.setPort p { d.portOf p with sys := tset q (d.sysQueue p q ++ [x]) (d.portOf p).sys } := by
    unfold Dev.sysEnqueue
    simp only [if_neg hown]
    exact if_pos hroom
  rw [heq]
  exact ⟨by simp [Dev.sysQueue], (Within.refl _ d).parts rfl rfl rfl rfl, rfl⟩

/-- A message of a port with room in its queue enters it, under the port's own identity and the domain of its time base. -/
theorem ptpSend_room {d : Dev} {p type : Nat} (seq : Nat) (m : PtpTx) (hroom : (d.sysQueue p (ptpQueue type)).length < 64) :
    (d.ptpSend p type seq m).sysQueue p (ptpQueue type) = d.sysQueue p (ptpQueue type) ++
      [.ptp (d.nat .PTP_INSTANCE p) (d.nat .PTP_TRANSPORT p) { m with
        type := type
        hdr := { m.hdr with domain := d.nat .PTP_DOMAIN (d.nat .PTP_INSTANCE p), src := d.ptpSelf p, seq := seq } }] ∧
      Within [] d (d.ptpSend p type seq m) ∧ ∀ q, (d.ptpSend p type seq m).ptpOf q = d.ptpOf q := by
  have htwo : ptpQueue type < 2 := show (if type ≤ 3 then 0 else 1) < 2 by split <;> decide
  obtain ⟨hqueue, hw, hptp⟩ := sysEnqueue_room (.ptp (d.nat .PTP_INSTANCE p) (d.nat .PTP_TRANSPORT p) { m with
    type := type
    hdr := { m.hdr with domain := d.nat .PTP_DOMAIN (d.nat .PTP_INSTANCE p), src := d.ptpSelf p, seq := seq } }) htwo hroom
  exact ⟨hqueue, hw, Dev.ptpOf_eq_of_ptp hptp⟩

/-! ### Messages received (R43, R47) -/

/-- A one-step Sync of the port's master leaves its stamps, and is a sample of the servo. -/
theorem ptpRx_sync_oneStep {d : Dev} {p : Nat} {h : PtpHdr} (hm : d.ptpMine p h = true) (hp : d.ptpParent p h.src = true)
    (origin : Nat) (pcs : PcsPos) :
    d.ptpRx p (.sync h false origin) pcs =
      (d.setPtp p { d.ptpOf p with
        t1 := some (corrected origin h.correction), lastSync := some (d.rxStamp p (d.nat .PTP_INSTANCE p) pcs), syncRx := none }).ptpSample
        (d.nat .PTP_INSTANCE p) p (corrected origin h.correction) (d.rxStamp p (d.nat .PTP_INSTANCE p) pcs) :=
  if_pos (by simp [hm, hp])

/-- A two-step Sync leaves its stamp for the Follow_Up. -/
theorem ptpRx_sync_twoStep {d : Dev} {p : Nat} {h : PtpHdr} (hm : d.ptpMine p h = true) (hp : d.ptpParent p h.src = true)
    (origin : Nat) (pcs : PcsPos) :
    d.ptpRx p (.sync h true origin) pcs =
      d.setPtp p { d.ptpOf p with
        syncSeq := h.seq, syncRx := some (d.rxStamp p (d.nat .PTP_INSTANCE p) pcs), syncCorr := h.correction } :=
  if_pos (by simp [hm, hp])

/-- A MASTER of the end-to-end mechanism answers a Delay_Req. -/
theorem ptpRx_delayReq {d : Dev} {p : Nat} {h : PtpHdr} (hm : d.ptpMine p h = true) (hs : d.nat .PTP_PORT_STATE p = 6)
    (hd : d.nat .PTP_DELAY_MECH p = 0) (pcs : PcsPos) :
    d.ptpRx p (.delayReq h) pcs = d.ptpSend p 9 h.seq
      { type := 9, hdr := { correction := h.correction }, time := d.rxStamp p (d.nat .PTP_INSTANCE p) pcs, dest := some h.src } :=
  if_pos (by simp [hm, hs, hd])

/-- A sample from a Sync in PTP mode, as the servo takes it. -/
theorem ptpSample_ptpMode {d : Dev} {n : Nat} (hm : d.nat .TB_MODE n = 1) (p t1 t2 : Nat) :
    ((d.ptpSample n p t1 t2).tbOf n).sample =
        some (timeDiff t1 t2 + d.int .PTP_PATH_DELAY p, logInterval (d.int .PTP_LOG_SYNC p)) ∧
      ((d.ptpSample n p t1 t2).tbOf n).source = true ∧ Within [.TB_STEPS, .TB_RATE_ADJ] d (d.ptpSample n p t1 t2) ∧
      (d.ptpSample n p t1 t2).ptp = d.ptp := by
  rw [Dev.ptpSample, if_pos hm]
  obtain ⟨hsample, hsource⟩ := servo_sampled (.inl hm) (timeDiff t1 t2 + d.int .PTP_PATH_DELAY p) (logInterval (d.int .PTP_LOG_SYNC p))
  obtain ⟨hw, -, hptp, -⟩ := servo_frame d n (timeDiff t1 t2 + d.int .PTP_PATH_DELAY p) (logInterval (d.int .PTP_LOG_SYNC p))
  exact ⟨hsample, hsource, hw, hptp⟩

/-! ### Messages sent (R47) -/

/-- The sequence number of the next message of port `p`. -/
def Dev.ptpSeq (d : Dev) (p : Nat) : Nat := ((d.ptpOf p).txSeq + 1) % 65536

/-- The port with its next sequence number taken. -/
def Dev.nextSeq (d : Dev) (p : Nat) : Dev := d.setPtp p { d.ptpOf p with txSeq := d.ptpSeq p }

/-- The same, where the message is a Delay_Req whose answer is awaited. -/
def Dev.nextDelay (d : Dev) (p : Nat) : Dev :=
  (d.nextSeq p).setPtp p { (d.nextSeq p).ptpOf p with delaySeq := d.ptpSeq p, delayTx := none }

theorem nextSeq_spec (d : Dev) (p : Nat) :
    Within [] d (d.nextSeq p) ∧ (d.nextSeq p).ptpOf p = { d.ptpOf p with txSeq := d.ptpSeq p } :=
  ⟨(Within.refl _ d).setPtp _ _, by simp [Dev.nextSeq]⟩

theorem nextDelay_spec (d : Dev) (p : Nat) :
    Within [] d (d.nextDelay p) ∧
      (d.nextDelay p).ptpOf p = { d.ptpOf p with txSeq := d.ptpSeq p, delaySeq := d.ptpSeq p, delayTx := none } := by
  obtain ⟨hw, hport⟩ := nextSeq_spec d p
  exact ⟨hw.setPtp _ _, by simp [Dev.nextDelay, hport]⟩

theorem ptpDue_sync {d : Dev} {p : Nat} (hr : d.nat .PTP_ROLE p ≠ 0) (hs : d.nat .PTP_PORT_STATE p = 6) :
    d.ptpDue p .sync = (d.nextSeq p).ptpSend p 0 (d.ptpSeq p) :=
  (if_neg hr).trans (if_pos hs)

theorem ptpDue_announce {d : Dev} {p : Nat} (hr : d.nat .PTP_ROLE p ≠ 0) (hs : d.nat .PTP_PORT_STATE p = 6) :
    d.ptpDue p .announce = (d.nextSeq p).ptpSend p 11 (d.ptpSeq p)
      { type := 11, data := some (d.ptpAnnounced (d.nat .PTP_INSTANCE p)) } :=
  (if_neg hr).trans (if_pos hs)

theorem ptpDue_delayReq {d : Dev} {p : Nat} (hr : d.nat .PTP_ROLE p ≠ 0) (hs : d.nat .PTP_PORT_STATE p = 9)
    (hd : d.nat .PTP_DELAY_MECH p = 0) :
    d.ptpDue p .delayReq = (d.nextDelay p).ptpSend p 1 (d.ptpSeq p) :=
  (if_neg hr).trans (if_pos ⟨hs, hd⟩)

/-- The first part of O19: each message's operation, and the queue that takes what it sends. -/
theorem ptpPortsExchangeMessages : Sys2Proof.Claim.PtpPortsExchangeMessages := by
  intro s p hp hq hr hrole d n queued old tx seq hdr
  obtain ⟨hnext, hseq⟩ := nextSeq_spec d p
  refine ⟨fun h origin pcs hm hpar => ⟨fun hmode => ?oneStep, ?twoStep⟩, fun h pcs hm hst hmech hroom => ?delayReq,
    fun hst hroom0 hroom1 => ⟨?sync, ?announce⟩, fun hst hmech hroom => ?delayReqDue⟩
  case oneStep =>
    have heq := ptpRx_sync_oneStep hm hpar origin pcs
    generalize hd1 : d.setPtp p { d.ptpOf p with
      t1 := some (corrected origin h.correction), lastSync := some (d.rxStamp p n pcs), syncRx := none } = d1 at heq
    have hw1 : Within [.TB_STEPS, .TB_RATE_ADJ] d d1 := hd1 ▸ (Within.refl _ d).setPtp _ _
    obtain ⟨hsample, hsource, hw, hptp⟩ := ptpSample_ptpMode (d := d1) (n := n) (hd1 ▸ hmode) p (corrected origin h.correction)
      (d.rxStamp p n pcs)
    have hkept := hw1.trans hw
    refine engine_completes hp hr heq (hkept.quiet hq) ⟨?_, hsource, ?_, ?_, hkept.obj, hkept.out, rfl, rfl⟩
    · rw [hsample, ← hd1]
      rfl
    all_goals rw [Dev.ptpOf_eq_of_ptp hptp, ← hd1, Dev.ptpOf_setPtp, if_pos rfl]
  case twoStep => exact engine_completes hp hr (ptpRx_sync_twoStep hm hpar origin pcs) hq ⟨rfl, rfl, rfl⟩
  case delayReq =>
    obtain ⟨hqueue, hw, -⟩ := ptpSend_room (d := d) (p := p) (type := 9) h.seq
      { type := 9, hdr := { correction := h.correction }, time := d.rxStamp p n pcs, dest := some h.src } hroom
    exact engine_completes hp hr (ptpRx_delayReq hm hst hmech pcs) (hw.quiet hq) ⟨hqueue, hw.obj, rfl, rfl⟩
  case sync =>
    obtain ⟨hqueue, hw, hport⟩ := ptpSend_room (d := d.nextSeq p) (p := p) (type := 0) seq { type := 0 } hroom0
    exact engine_completes hp hr (ptpDue_sync hrole hst) ((hnext.trans hw).quiet hq)
      ⟨hqueue, congrArg PtpPort.txSeq ((hport p).trans hseq), (hnext.trans hw).obj, rfl, rfl⟩
  case announce =>
    obtain ⟨hqueue, hw, hport⟩ := ptpSend_room (d := d.nextSeq p) (p := p) (type := 11) seq
      { type := 11, data := some (d.ptpAnnounced n) } hroom1
    exact engine_completes hp hr (ptpDue_announce hrole hst) ((hnext.trans hw).quiet hq)
      ⟨hqueue, congrArg PtpPort.txSeq ((hport p).trans hseq), (hnext.trans hw).obj, rfl, rfl⟩
  case delayReqDue =>
    obtain ⟨hdelay, hasked⟩ := nextDelay_spec d p
    obtain ⟨hqueue, hw, hport⟩ := ptpSend_room (d := d.nextDelay p) (p := p) (type := 1) seq { type := 1 } hroom
    exact engine_completes hp hr (ptpDue_delayReq hrole hst hmech) ((hdelay.trans hw).quiet hq)
      ⟨hqueue, congrArg PtpPort.delayTx ((hport p).trans hasked), congrArg PtpPort.delaySeq ((hport p).trans hasked),
        (hdelay.trans hw).obj, rfl, rfl⟩

/-! ### The evaluation of the masters (R47, R49) -/

/-- The best master that the ports of time base `n` hear, and the port that hears it. -/
def Dev.bestMaster (d : Dev) (n : Nat) : Option (Nat × PtpData) :=
  ((d.ptpPorts n).filterMap fun p => (d.ptpErbest p).map fun x => (p, x)).foldl (fun (b : Option (Nat × PtpData)) x =>
    match b with
    | none => some x
    | some y => if ptpBetter x.2 x.1 y.2 y.1 then some x else some y) none

/-- The states that an evaluation gives the ports of time base `n`. -/
def Dev.bmcaStates (d : Dev) (n : Nat) (expired : Option Nat) : List (Nat × Nat) :=
  (d.ptpPorts n).map fun p => (p, d.ptpDecide n (d.bestMaster n) (decide (expired = some p)) p)

/-- A port takes the state that an evaluation gives it, with its own best master; `steps` is how far the grandmaster is. -/
def Dev.takeState (steps : Nat) (d : Dev) (x : Nat × Nat) : Dev :=
  let q := d.ptpOf x.1
  let new := decide (x.2 = 5) && decide (d.nat .PTP_PORT_STATE x.1 ≠ 5)
  (d.setPtp x.1 { q with best := d.ptpErbest x.1, qualify := if new then steps + 2 else q.qualify }).setN .PTP_PORT_STATE x.1 x.2

theorem within_takeState (steps : Nat) (d : Dev) (x : Nat × Nat) : Within [.PTP_PORT_STATE] d (d.takeState steps x) :=
  ((Within.refl _ d).setPtp _ _).put (by decide) _ _ _

/-- The ports of time base `n` after they have taken the states of an evaluation. -/
def Dev.statesTaken (d : Dev) (n : Nat) (expired : Option Nat) : Dev :=
  (d.bmcaStates n expired).foldl (Dev.takeState (((d.bestMaster n).map (·.2.steps)).getD 0)) d

/-- An evaluation gives each port its state, gives the base its UTC offset, and may begin a holdover. -/
theorem bmca_cases (d : Dev) (n : Nat) (expired : Option Nat) :
    ∃ x, d.bmca n expired = (d.statesTaken n expired).setTb n x ∨
      d.bmca n expired = ((d.statesTaken n expired).setTb n x).holdoverEnter n :=
  ⟨_, (ite_either _ _ _).symm⟩

/-- An evaluation leaves the ports as the taking of their states does, and all objects but those states and the rate. -/
theorem bmca_frame (d : Dev) (n : Nat) (expired : Option Nat) :
    Within [.PTP_PORT_STATE, .TB_RATE_ADJ] d (d.bmca n expired) ∧ (d.bmca n expired).ptp = (d.statesTaken n expired).ptp ∧
      ∀ p, (d.bmca n expired).nat .PTP_PORT_STATE p = (d.statesTaken n expired).nat .PTP_PORT_STATE p := by
  have hw : Within [.PTP_PORT_STATE] d (d.statesTaken n expired) := Within.fold (within_takeState _) _ (Within.refl _ d)
  obtain ⟨x, h⟩ := bmca_cases d n expired
  have hset : Within [.PTP_PORT_STATE, .TB_RATE_ADJ] d ((d.statesTaken n expired).setTb n x) := (hw.mono (by decide)).setTb _ _
  obtain h | h := h <;> rw [h]
  · exact ⟨hset, Dev.setTb_ptp _ _ _, fun p => Dev.setTb_nat _ _ _ _ _ _⟩
  · obtain ⟨hhold, -, hptp⟩ := holdoverEnter_frame ((d.statesTaken n expired).setTb n x) n
    exact ⟨hset.trans (hhold.mono (by decide)), hptp.trans (Dev.setTb_ptp _ _ _),
      fun p => (hhold.nat (by decide) _ _).trans (Dev.setTb_nat _ _ _ _ _ _)⟩

/-- A port that hears no master. -/
def Dev.deaf (d : Dev) (p : Nat) : Prop := (d.ptpOf p).foreign = [] ∧ (d.ptpOf p).best = none

theorem ptpErbest_of_no_foreign {d : Dev} {p : Nat} (h : (d.ptpOf p).foreign = []) : d.ptpErbest p = none := by
  rw [Dev.ptpErbest, h]
  exact ite_self _

/-- A port that hears no master hears none after states are taken. -/
theorem takeState_deaf {d : Dev} {p : Nat} (h : d.deaf p) (steps : Nat) (x : Nat × Nat) : (d.takeState steps x).deaf p := by
  unfold Dev.deaf Dev.takeState
  extract_lets q new
  rw [Dev.setN_eq, Dev.ptpOf_put, Dev.ptpOf_setPtp]
  obtain ⟨hforeign, hbest⟩ := h
  split
  · rename_i hx
    subst hx
    exact ⟨hforeign, ptpErbest_of_no_foreign hforeign⟩
  · exact ⟨hforeign, hbest⟩

theorem bmca_deaf {d : Dev} {p : Nat} (h : d.deaf p) (n : Nat) (expired : Option Nat) : (d.bmca n expired).deaf p := by
  obtain ⟨-, hptp, -⟩ := bmca_frame d n expired
  unfold Dev.deaf
  rw [Dev.ptpOf_eq_of_ptp hptp]
  exact foldl_keeps (P := fun e : Dev => e.deaf p) (fun e x he => takeState_deaf he _ x) (d.bmcaStates n expired) h

/-- A lone port of role 1 whose link is up and whose timeout has run out becomes MASTER. -/
theorem bmca_lone_master {d : Dev} {n p : Nat} (hports : d.ptpPorts n = [p]) (h : d.deaf p) (hlink : d.nat .PORT_LINK p = 1)
    (hrole : d.nat .PTP_ROLE p = 1) : (d.bmca n (some p)).nat .PTP_PORT_STATE p = 6 := by
  obtain ⟨hforeign, -⟩ := h
  have hbest : d.bestMaster n = none := by simp [Dev.bestMaster, hports, ptpErbest_of_no_foreign hforeign]
  have hstates : d.bmcaStates n (some p) = [(p, 6)] := by simp [Dev.bmcaStates, hports, hbest, Dev.ptpDecide, hlink, hrole]
  obtain ⟨-, -, hnat⟩ := bmca_frame d n (some p)
  rw [hnat, Dev.statesTaken, hstates]
  exact Dev.nat_setN _ _ _ _

/-- The second part of O19. -/
theorem announceTimeoutForgetsTheMaster : Sys2Proof.Claim.AnnounceTimeoutForgetsTheMaster := by
  intro s p hp hq hr hrole
  have heq : s.dev.ptpTimeout p = _ := if_neg hrole
  generalize hd1 : s.dev.setPtp p { s.dev.ptpOf p with best := none, foreign := [] } = d1 at heq
  have hw1 : Within [.PTP_PORT_STATE, .TB_RATE_ADJ] s.dev d1 := hd1 ▸ (Within.refl _ s.dev).setPtp _ _
  have hdeaf : d1.deaf p := by simp [← hd1, Dev.deaf]
  obtain ⟨hw, -, -⟩ := bmca_frame d1 (s.dev.nat .PTP_INSTANCE p) (some p)
  obtain ⟨-, hbest⟩ := bmca_deaf hdeaf (s.dev.nat .PTP_INSTANCE p) (some p)
  have hkept := hw1.trans hw
  refine engine_completes hp hr heq (hkept.quiet hq) ⟨hbest, ⟨rfl, rfl⟩, hkept.obj, fun hports hlink hone => ?_⟩
  exact bmca_lone_master (by rw [← hports, ← hd1]; rfl) hdeaf (by rw [← hlink, ← hd1]; rfl) (by rw [← hone, ← hd1]; rfl)

/-- Settles O19: the messages that a port exchanges, and its timeout. -/
theorem ptpFollowsItsMaster : Obligations.PtpFollowsItsMaster := ⟨ptpPortsExchangeMessages, announceTimeoutForgetsTheMaster⟩

end Sys2Proof.Machine
end

section
/-! PROOFS. Pulse outputs and capture inputs (O20). -/

namespace Sys2Proof.Machine

/-! ### Time and other parts -/

/-- The root of a time base depends on the dictionary alone (R40). -/
theorem rootOf_of_dict {d e : Dev} (h : e.dict = d.dict) (fuel n : Nat) : e.rootOf fuel n = d.rootOf fuel n := by
  have hget : ∀ o u k, e.get o u k = d.get o u k := fun o u k => by rw [Dev.get, h, Dev.get]
  induction fuel generalizing n with
  | zero => rfl
  | succ f ih => simp only [Dev.rootOf, ih, Dev.nat_eq_of_get (hget _ _ _), Dev.int_eq_of_get (hget _ _ _)]

/-- What a time base shows depends on the dictionary and the bases alone (R40). -/
theorem now_of_dict_tb {d e : Dev} (hd : e.dict = d.dict) (ht : e.tb = d.tb) (n : Nat) : e.now n = d.now n := by
  simp only [Dev.now, rootOf_of_dict hd, Dev.tbOf, ht]

theorem Within.setCap {os : List Obj} {d e : Dev} (h : Within os d e) (j : Nat) (x : CaptureIn) : Within os d (e.setCap j x) :=
  h.parts rfl rfl rfl rfl

@[simp] theorem Dev.capOf_put (d : Dev) (o : Obj) (u k : Nat) (v : Val) (j : Nat) : (d.put o u k v).capOf j = d.capOf j := rfl
@[simp] theorem Dev.capOf_bump (d : Dev) (o : Obj) (u k j : Nat) : (d.bump o u k).capOf j = d.capOf j := rfl

/-! ### Pulse outputs (R52 to R54) -/

/-- Pulse output `k`. -/
def Dev.pulseOf (d : Dev) (k : Nat) : Pulse := tget {} k d.pulses

/-- Pulse output `k` takes the level `x`, which its pin shows as `high`. -/
def Dev.setPulse (d : Dev) (k : Nat) (x : Pulse) (high : Bool) : Dev :=
  { d with pulses := tput {} k x d.pulses }.emit (.pulse k x.active high)

theorem setPulse_spec (d : Dev) (k : Nat) (x : Pulse) (high : Bool) :
    (d.setPulse k x high).pulseOf k = x ∧ (d.setPulse k x high).out = d.out ++ [.pulse k x.active high] :=
  ⟨tget_tput_same _ _ _ _, rfl⟩

/-- An output that fires: a PERIODIC one has its next target, another is OFF, and the pulse is counted. -/
def Dev.advancePulse (d : Dev) (k : Nat) : Dev :=
  (if d.nat .PULSE_MODE k = 2 then
    d.setN .PULSE_TARGET k ((d.nat .PULSE_TARGET k + d.nat .PULSE_PERIOD k * 65536) % timeMod)
  else d.setN .PULSE_MODE k 0).bump .PULSE_FIRED k

theorem advancePulse_spec (d : Dev) (k : Nat) :
    (d.advancePulse k).nat .PULSE_FIRED k = (d.nat .PULSE_FIRED k + 1) % 2 ^ 32 ∧
      (if d.nat .PULSE_MODE k = 2 then (d.advancePulse k).nat .PULSE_MODE k = 2 ∧
          (d.advancePulse k).nat .PULSE_TARGET k = (d.nat .PULSE_TARGET k + d.nat .PULSE_PERIOD k * 65536) % timeMod
        else (d.advancePulse k).nat .PULSE_MODE k = 0 ∧ (d.advancePulse k).nat .PULSE_TARGET k = d.nat .PULSE_TARGET k) ∧
      Within [.PULSE_FIRED, .PULSE_MODE, .PULSE_TARGET] d (d.advancePulse k) := by
  have h32 : (Obj.PULSE_FIRED).row.ty.bits = 32 := rfl
  unfold Dev.advancePulse
  split
  · rename_i hm
    exact ⟨by simp [Dev.nat_setN_other, h32], by simp [Dev.nat_setN, Dev.nat_setN_other, hm],
      ((Within.refl _ d).put (by decide) _ _ _).put (by decide) _ _ _⟩
  · exact ⟨by simp [Dev.nat_setN_other, h32], by simp [Dev.nat_setN, Dev.nat_setN_other],
      ((Within.refl _ d).put (by decide) _ _ _).put (by decide) _ _ _⟩

/-- A target reached within the window on a VALID base fires (R53). -/
theorem pulseTarget_fires {d : Dev} {k : Nat} (hm : d.nat .PULSE_MODE k ≠ 0)
    (h0 : 0 ≤ timeDiff (d.now (d.nat .PULSE_TIMEBASE k % 8)) (d.nat .PULSE_TARGET k))
    (h16 : timeDiff (d.now (d.nat .PULSE_TIMEBASE k % 8)) (d.nat .PULSE_TARGET k) < 16 * 65536)
    (hv : d.tbValid (d.nat .PULSE_TIMEBASE k % 8) = true) :
    d.pulseTarget k = (d.advancePulse k).setPulse k ⟨true, widthCycles (d.nat .PULSE_WIDTH k)⟩
      (decide (d.nat .PULSE_POLARITY k = 0)) := by
  obtain ⟨-, -, hw⟩ := advancePulse_spec d k
  rw [← hw.nat (o := .PULSE_WIDTH) (by decide), ← hw.nat (o := .PULSE_POLARITY) (by decide)]
  have hnot : ¬(d.nat .PULSE_MODE k = 0 ∨ timeDiff (d.now (d.nat .PULSE_TIMEBASE k % 8)) (d.nat .PULSE_TARGET k) < 0) := by omega
  unfold Dev.pulseTarget
  simp only [if_neg hnot, h16, hv, true_or, if_true, decide_true, Bool.and_self, Nat.one_mul]
  rfl

/-- The end of an active level (R53, R54). -/
theorem pulseEnd_active {d : Dev} {k : Nat} (h : (d.pulseOf k).active = true) :
    d.pulseEnd k = d.setPulse k {} (decide (d.nat .PULSE_POLARITY k = 1)) := if_pos h

theorem pulseEnd_spec (d : Dev) (k : Nat) :
    ((d.pulseEnd k).pulseOf k).active = false ∧ (∀ o u p, (d.pulseEnd k).get o u p = d.get o u p) ∧
      (d.quiet → (d.pulseEnd k).quiet) := by
  cases h : (d.pulseOf k).active with
  | true =>
    rw [pulseEnd_active h, (setPulse_spec d k {} _).1]
    exact ⟨rfl, fun _ _ _ => rfl, id⟩
  | false =>
    have heq : d.pulseEnd k = d := if_neg (by rw [Dev.pulseOf] at h; simp [h])
    rw [heq]
    exact ⟨h, fun _ _ _ => rfl, id⟩

/-- A write of a target comes to the target that the window of R52 gives. -/
theorem writePulseTarget_ok {d : Dev} {k t x : Nat} (h : d.pulseWindow k (d.nat .PULSE_MODE k) t = .ok x) :
    d.orRefuse (d.writePulseTarget k t) = .ok (d.setN .PULSE_TARGET k x) := by
  unfold Dev.writePulseTarget
  rw [h]
  rfl

/-- A target outside the window is refused. -/
theorem writePulseTarget_error {d : Dev} {k t : Nat} {a : Abort} (h : d.pulseWindow k (d.nat .PULSE_MODE k) t = .error a) :
    d.orRefuse (d.writePulseTarget k t) = .error (a, d) := by
  unfold Dev.writePulseTarget
  rw [h]
  rfl

/-- Output `k` in a mode with a target. -/
def Dev.setMode (d : Dev) (k mode t : Nat) : Dev := (d.setN .PULSE_TARGET k t).setN .PULSE_MODE k mode

theorem setMode_spec (d : Dev) (k mode t : Nat) :
    (d.setMode k mode t).nat .PULSE_MODE k = mode ∧ (d.setMode k mode t).nat .PULSE_TARGET k = t ∧
      Within [.PULSE_MODE, .PULSE_TARGET] d (d.setMode k mode t) ∧ onlyDict d (d.setMode k mode t) :=
  ⟨Dev.nat_setN _ _ _ _, (Dev.nat_setN_other _ _ _ _ _ (by decide)).trans (Dev.nat_setN _ _ _ _),
    ((Within.refl _ d).put (by decide) _ _ _).put (by decide) _ _ _, ((onlyDict_refl d).put _ _ _ _).put _ _ _ _⟩

/-- A write of a mode whose window takes the target. -/
theorem writePulseMode_ok {d : Dev} {k mode x : Nat} (h : d.pulseWindow k mode (d.nat .PULSE_TARGET k) = .ok x) :
    d.orRefuse (d.writePulseMode k mode) =
      .ok (if mode = 0 then (d.setMode k mode x).pulseEnd k else d.setMode k mode x) := by
  unfold Dev.writePulseMode
  rw [h]
  rfl

/-- The first part of O20. -/
theorem pulsesFireAtTheirTargets : Sys2Proof.Claim.PulsesFireAtTheirTargets := by
  intro s k hk hq d tb late
  refine ⟨fun hr hm h0 h16 hv => ?fires, fun hr ha => ?ends, fun src time ⟨hreach, hcan⟩ ht => ?target,
    fun src ⟨hreach, hcan⟩ => ?off, fun src mode ⟨hreach, hcan⟩ hmode x hx => ?mode⟩
  case fires =>
    obtain ⟨hfired, hnext, hw⟩ := advancePulse_spec d k
    obtain ⟨hpulse, hout⟩ := setPulse_spec (d.advancePulse k) k ⟨true, widthCycles (d.nat .PULSE_WIDTH k)⟩
      (decide (d.nat .PULSE_POLARITY k = 0))
    exact engine_completes hk hr (pulseTarget_fires hm h0 h16 hv) (hw.quiet hq)
      ⟨hpulse, hfired, hw.out ▸ hout, hnext, hw.obj, rfl, rfl⟩
  case ends =>
    obtain ⟨hpulse, hout⟩ := setPulse_spec d k {} (decide (d.nat .PULSE_POLARITY k = 1))
    exact engine_completes hk hr (pulseEnd_active ha) hq ⟨hpulse, hout, fun _ _ _ _ => rfl, rfl, rfl⟩
  case target =>
    have hw := writeNum_PULSE_TARGET d hcan ht
    cases hx : d.pulseWindow k (d.nat .PULSE_MODE k) time with
    | ok x =>
      have hset : Within [.PULSE_TARGET] d (d.setN .PULSE_TARGET k x) := (Within.refl _ d).put (by decide) _ _ _
      rw [writePulseTarget_ok hx] at hw
      exact onWrite_completes hk hreach hw hq ⟨⟨rfl, rfl⟩, (answerWrite_ok_nat _ _ _ _ _ (by decide)).trans (Dev.nat_setN _ _ _ _),
        answerWrite_ok_accepted _ _ rfl, answerWrite_ok_keeps _ _ hset.obj, answerWrite_ok_onlyDict _ _ ((onlyDict_refl d).put _ _ _ _)⟩
    | error a =>
      rw [writePulseTarget_error hx] at hw
      exact onWrite_completes hk hreach hw hq ⟨⟨rfl, rfl⟩, answerWrite_error_spec d src _ a⟩
  case off =>
    obtain ⟨hzero, -, hset, -⟩ := setMode_spec d k 0 (d.nat .PULSE_TARGET k)
    obtain ⟨hoff, hget, hquiet⟩ := pulseEnd_spec (d.setMode k 0 (d.nat .PULSE_TARGET k)) k
    have heq := writePulseMode_ok (d := d) (k := k) (mode := 0) rfl
    have hw := (writeNum_PULSE_MODE d k hcan (.inl rfl)).trans (congrArg (answerWrite src _) heq)
    exact onWrite_completes hk hreach hw (hquiet (hset.quiet hq))
      ⟨(answerWrite_ok_nat _ _ _ _ _ (by decide)).trans ((Dev.nat_eq_of_get (hget _ _ _)).trans hzero), hoff,
        answerWrite_ok_keeps _ _ fun o u p ho => (hget o u p).trans (hset.obj o u p ho), rfl, rfl⟩
  case mode =>
    obtain ⟨hmoded, htarget, hset, honly⟩ := setMode_spec d k mode x
    have heq := writePulseMode_ok hx
    rw [if_neg (by omega)] at heq
    have hw := (writeNum_PULSE_MODE d k hcan (.inr hmode)).trans (congrArg (answerWrite src _) heq)
    exact onWrite_completes hk hreach hw (hset.quiet hq)
      ⟨(answerWrite_ok_nat _ _ _ _ _ (by decide)).trans hmoded, (answerWrite_ok_nat _ _ _ _ _ (by decide)).trans htarget,
        answerWrite_ok_accepted _ _ hset.out, answerWrite_ok_onlyDict _ _ honly, answerWrite_ok_keeps _ _ hset.obj, rfl, rfl⟩

/-! ### Capture inputs (R55, R56) -/

/-- The capture that an edge on input `j` makes now. -/
def Dev.edgeCapture (d : Dev) (j : Nat) (rising : Bool) : Capture :=
  ⟨d.now (d.nat .CAPTURE_TIMEBASE j % 8), ((d.capOf j).seq + 1) % 65536, rising⟩

/-- A selected edge on input `j`, queued where the queue has room, and counted where it has none. -/
def Dev.captured (d : Dev) (j : Nat) (rising : Bool) : Dev :=
  let c := { d.capOf j with level := rising }
  let x := d.edgeCapture j rising
  if c.fifo.length < 16 then (d.setCap j c).setCap j { c with seq := x.seq, fifo := c.fifo ++ [x] }
  else ((d.setCap j c).setCap j { c with seq := x.seq }).bump .CAPTURE_OVERFLOWS j

/-- What a selected edge leaves of its input. -/
theorem captured_spec (d : Dev) (j : Nat) (rising : Bool) :
    ((d.captured j rising).capOf j).level = rising ∧ ((d.captured j rising).capOf j).seq = ((d.capOf j).seq + 1) % 65536 ∧
      (if (d.capOf j).fifo.length < 16 then ((d.captured j rising).capOf j).fifo = (d.capOf j).fifo ++ [d.edgeCapture j rising]
        else ((d.captured j rising).capOf j).fifo = (d.capOf j).fifo ∧
          (d.captured j rising).nat .CAPTURE_OVERFLOWS j = (d.nat .CAPTURE_OVERFLOWS j + 1) % 2 ^ 32) ∧
      Within [.CAPTURE_OVERFLOWS] d (d.captured j rising) := by
  have h32 : (Obj.CAPTURE_OVERFLOWS).row.ty.bits = 32 := rfl
  unfold Dev.captured
  dsimp only
  split
  · exact ⟨by simp, by simp [Dev.edgeCapture], by simp, ((Within.refl _ d).setCap _ _).setCap _ _⟩
  · exact ⟨by simp, by simp [Dev.edgeCapture], by simp [h32], (((Within.refl _ d).setCap _ _).setCap _ _).put (by decide) _ _ _⟩

/-- The time bases that rising edges on input `j` discipline. -/
def Dev.edgeUsers (d : Dev) (j : Nat) : List Nat :=
  (List.range 8).filter fun n => d.nat .TB_MODE n = 2 && d.nat .TB_SOURCE n % 2 = j

/-- Where both edges are selected, an edge is captured, and a rising one feeds the bases that it disciplines. -/
theorem captureEdge_both {d : Dev} {j : Nat} (h : d.nat .CAPTURE_EDGE j = 3) (rising : Bool) :
    d.captureEdge j rising =
      if rising then (d.edgeUsers j).foldl Dev.tinSample (d.captured j rising) else d.captured j rising := by
  have hstamp := now_of_dict_tb (d := d) (e := d.setCap j { d.capOf j with level := rising }) rfl rfl (d.nat .CAPTURE_TIMEBASE j % 8)
  unfold Dev.captureEdge Dev.captured Dev.edgeCapture
  rw [← hstamp]
  simp only [h, true_or, or_true, ite_self, if_true]
  rfl

/-- Samples of time bases leave the capture inputs. -/
theorem tinSamples_frame (l : List Nat) (d : Dev) :
    Within [.TB_STEPS, .TB_RATE_ADJ] d (l.foldl Dev.tinSample d) ∧ (l.foldl Dev.tinSample d).caps = d.caps := by
  refine foldl_keeps (P := fun e : Dev => Within [.TB_STEPS, .TB_RATE_ADJ] d e ∧ e.caps = d.caps) (fun e n ⟨hwe, hcapse⟩ => ?_) l
    ⟨Within.refl _ d, rfl⟩
  obtain ⟨hw, -, -, hcaps⟩ := servo_frame e n _ _
  exact ⟨hwe.trans hw, hcaps.trans hcapse⟩

/-- An edge leaves of its input what its capture leaves, whatever bases it feeds. -/
theorem captureEdge_frame {d : Dev} {j : Nat} (h : d.nat .CAPTURE_EDGE j = 3) (rising : Bool) :
    Within [.TB_STEPS, .TB_RATE_ADJ] (d.captured j rising) (d.captureEdge j rising) ∧
      (d.captureEdge j rising).capOf j = (d.captured j rising).capOf j := by
  rw [captureEdge_both h]
  split
  · obtain ⟨hw, hcaps⟩ := tinSamples_frame (d.edgeUsers j) (d.captured j rising)
    exact ⟨hw, by rw [Dev.capOf, hcaps, Dev.capOf]⟩
  · exact ⟨Within.refl _ _, rfl⟩

/-- Input `j` with capture `x` read, and `r` still queued. -/
def Dev.captureShown (d : Dev) (j : Nat) (x : Capture) (r : List Capture) : Dev :=
  (d.setCap j { d.capOf j with fifo := r, last := x }).setN .CAPTURE_INFO j (x.seq * 65536 + (if x.rising then 1 else 0))

theorem captureShown_spec (d : Dev) (j : Nat) (x : Capture) (r : List Capture) :
    ((d.captureShown j x r).capOf j).fifo = r ∧ ((d.captureShown j x r).capOf j).last = x ∧
      (d.captureShown j x r).nat .CAPTURE_INFO j = x.seq * 65536 + (if x.rising then 1 else 0) ∧
      Within [.CAPTURE_INFO] d (d.captureShown j x r) :=
  ⟨by simp [Dev.captureShown, Dev.setN_eq], by simp [Dev.captureShown, Dev.setN_eq], Dev.nat_setN _ _ _ _,
    ((Within.refl _ d).setCap _ _).put (by decide) _ _ _⟩

/-- A read of CAPTURE_TIME takes the oldest capture and shows it. -/
theorem readCapture_cons {d : Dev} {j : Nat} {x : Capture} {r : List Capture} (h : (d.capOf j).fifo = x :: r) :
    d.readCapture j = (x.time, d.captureShown j x r) := by
  unfold Dev.readCapture
  dsimp only
  rw [h]
  rfl

/-- The answer to a read of CAPTURE_TIME carries the time that it takes. -/
theorem answerRead_CAPTURE_TIME (d : Dev) (src : Src) {j : Nat} (hj : j < 2) :
    d.answerRead src { o := .CAPTURE_TIME, u := j } =
      (d.readCapture j).2.emit (.value src (0x2058 + j) 4 (natToOctets 10 ((d.readCapture j).1 % 2 ^ 80))) := by
  have hindex : Key.index { o := .CAPTURE_TIME, u := j } = 0x2058 + j := rfl
  have hread : d.mayRead { o := .CAPTURE_TIME, u := j } = .ok () := by
    unfold Dev.mayRead
    rw [hindex, if_neg (by omega)]
    rfl
  have hsnap : Key.snapped { o := .CAPTURE_TIME, u := j } = false := by
    unfold Key.snapped
    rw [hindex, Bool.and_eq_false_iff, decide_eq_false_iff_not]
    omega
  have htake : d.take { o := .CAPTURE_TIME, u := j } = .ok (.num (d.readCapture j).1, (d.readCapture j).2) := by
    unfold Dev.take
    rw [hread, hsnap]
    rfl
  unfold Dev.answerRead
  rw [htake, ← encode_time80 (k := { o := .CAPTURE_TIME, u := j }) rfl]
  rfl

/-- The second part of O20. -/
theorem capturesQueueAndAreRead : Sys2Proof.Claim.CapturesQueueAndAreRead := by
  intro s j hj hq d c stamp seq
  refine ⟨fun rising hr hedge => ?edge, fun src x r hreach hfifo => ?read⟩
  case edge =>
    obtain ⟨hlevel, hseq, hqueue, hcap⟩ := captured_spec d j rising
    obtain ⟨hfeed, heq⟩ := captureEdge_frame hedge rising
    have hw : Within [.CAPTURE_OVERFLOWS, .TB_STEPS, .TB_RATE_ADJ] d (d.captureEdge j rising) :=
      (hcap.mono (by decide)).trans (hfeed.mono (by decide))
    refine engine_completes hj hr rfl (hw.quiet hq) ⟨⟨rfl, rfl⟩, hw.obj, ?_⟩
    dsimp only
    rw [heq, hfeed.nat (by decide)]
    exact ⟨hlevel, hseq, hqueue⟩
  case read =>
    obtain ⟨hrest, hlast, hinfo, hw⟩ := captureShown_spec d j x r
    have hread := answerRead_CAPTURE_TIME d src hj
    rw [readCapture_cons hfifo] at hread
    exact access_completes hj hreach hread (hw.quiet hq) ⟨congrArg (· ++ _) hw.out, hrest, hlast, hinfo, hw.obj, rfl, rfl⟩

/-- Settles O20: the pulse outputs, and the capture inputs. -/
theorem pulsesAndCaptures : Obligations.PulsesAndCaptures := ⟨pulsesFireAtTheirTargets, capturesQueueAndAreRead⟩

end Sys2Proof.Machine
end

section
/-! PROOFS. The commands of a leg (R105): what a write of LEG_CMD comes to, and LEG_CMD in each state of a leg (O13). -/

namespace Sys2Proof.Machine

/-! ### Rows of LEG_CMD -/

theorem need_ok {α : Type} {d : Dev} {c : Bool} {a : Abort} {f : Unit → Except (Abort × Dev) α} (h : c = true) :
    (d.need c a >>= f) = f () := by
  subst h
  rfl

theorem need_error {α : Type} {d : Dev} {c : Bool} {a : Abort} {f : Unit → Except (Abort × Dev) α} (h : c = false) :
    (d.need c a >>= f) = .error (a, d) := by
  subst h
  rfl

/-- A row of LEG_CMD leaves what its command's answer leaves, closed. -/
theorem legCmd_completes {s : State} {src : Src} {n w : Nat} {r : Res} {P : State → Prop} (hn : n < 4096)
    (hh : s.dev.hears src { o := .LEG_CMD, u := n }) (hw : 1 ≤ w ∧ w ≤ 9) (hr : s.dev.writeLegCmd n w = r)
    (hP : P { s with dev := (answerWrite src { o := .LEG_CMD, u := n } r).settle }) :
    ∃ t, onWrite s src .LEG_CMD n 4096 w = .next t ∧ P t := by
  obtain ⟨hreach, hcan⟩ := hh
  subst hr
  have hwrite := writeNum_LEG_CMD s.dev n hcan (n := w) (by omega)
  have hnext := onWrite_heard (o := .LEG_CMD) (n := w) hn hreach
  rw [hwrite] at hnext
  exact ⟨_, hnext, hP⟩

/-- The same of a command that leaves nothing to close. -/
theorem legCmd_completes_quiet {s : State} {src : Src} {n w : Nat} {r : Res} {P : State → Prop} (hn : n < 4096)
    (hh : s.dev.hears src { o := .LEG_CMD, u := n }) (hw : 1 ≤ w ∧ w ≤ 9) (hr : s.dev.writeLegCmd n w = r)
    (hq : (answerWrite src { o := .LEG_CMD, u := n } r).quiet)
    (hP : P { s with dev := answerWrite src { o := .LEG_CMD, u := n } r }) :
    ∃ t, onWrite s src .LEG_CMD n 4096 w = .next t ∧ P t :=
  legCmd_completes hn hh hw hr (by rwa [settle_of_quiet hq])

/-- An accepted write leaves no more to close than its effect does. -/
theorem answerWrite_ok_quiet {e : Dev} (src : Src) (k : Key) (h : e.quiet) : (answerWrite src k (.ok e)).quiet := h

/-- A row of LEG_CMD that is accepted, with an effect that leaves nothing to close. -/
theorem legCmd_accepted {s : State} {src : Src} {n w : Nat} {e : Dev} {os : List Obj} {P : State → Prop} (hn : n < 4096)
    (hq : s.dev.quiet) (hh : s.dev.hears src { o := .LEG_CMD, u := n }) (hw : 1 ≤ w ∧ w ≤ 9) (hr : s.dev.writeLegCmd n w = .ok e)
    (he : Within os s.dev e) (hP : P { s with dev := answerWrite src { o := .LEG_CMD, u := n } (.ok e) }) :
    ∃ t, onWrite s src .LEG_CMD n 4096 w = .next t ∧ P t :=
  legCmd_completes_quiet hn hh hw hr (answerWrite_ok_quiet src _ (he.quiet hq)) hP

/-! ### A leg moved to another state (R105) -/

/-- `e` is `d` with leg `n` moved to a state in this stride, beside parts that are not objects. -/
structure Moves (d e : Dev) (n v : Nat) : Prop where
  state : e.nat .LEG_STATE n = v
  stride : e.nat .LEG_STATE_STRIDE n = d.stride
  others : keepsOther d e .LEG_STATE n
  otherStrides : keepsOther d e .LEG_STATE_STRIDE n
  within : Within [.LEG_STATE, .LEG_STATE_STRIDE, .LEG_PRIOR_STATE, .CONF_LEG_COUNT, .CONF_PIXEL_USE] d e

theorem moves_setLegState (d : Dev) (n : Nat) (s : LegState) : Moves d (d.setLegState n s) n s.num where
  state := setLegState_state d n s
  stride := setLegState_stride d n s
  others _ k hu := setLegState_other d hu s k (by decide)
  otherStrides _ k hu := setLegState_other d hu s k (by decide)
  within := (within_setLegState d n s).mono (by decide)

/-- A set of LEG_PRIOR_STATE before the move belongs to it. -/
theorem Moves.after {d d' e : Dev} {n v : Nat} (m : Moves d' e n v) (h : Within [.LEG_PRIOR_STATE] d d') : Moves d e n v where
  state := m.state
  stride := m.stride.trans (h.nat (by decide) 0 0)
  others u k hu := (m.others u k hu).trans (h.obj _ u k (by decide))
  otherStrides u k hu := (m.otherStrides u k hu).trans (h.obj _ u k (by decide))
  within := (h.mono (by decide)).trans m.within

theorem Moves.setLife {d e : Dev} {n v : Nat} (m : Moves d e n v) (u : Nat) (x : LegLife) : Moves d (e.setLife u x) n v where
  state := m.state
  stride := m.stride
  others := m.others
  otherStrides := m.otherStrides
  within := m.within.parts rfl rfl rfl rfl

theorem Within.setKeys {os : List Obj} {d e : Dev} (h : Within os d e) (n : Nat) (x : LegKeys) : Within os d (e.setKeys n x) :=
  h.parts rfl rfl rfl rfl

theorem moves_enterRekey (d : Dev) (n : Nat) : Moves d (d.enterRekey n) n 4 :=
  (moves_setLegState _ n .rekey).after (((Within.refl _ d).put (by decide) _ _ _).setKeys n _)

/-- R108: LEG_PRIOR_STATE keeps the state that the leg left. -/
theorem enterRekey_prior (d : Dev) (n : Nat) : (d.enterRekey n).nat .LEG_PRIOR_STATE n = d.nat .LEG_STATE n := by
  unfold Dev.enterRekey
  rw [(within_setLegState _ n .rekey).nat (by decide), Dev.setKeys_nat, Dev.nat_setN]

theorem moves_startDrain (d : Dev) (n : Nat) : Moves d (d.startDrain n) n 5 := (moves_setLegState d n .draining).setLife n _

/-- R109: the drain ends after LEG_DRAIN_STRIDES strides, and after one where the leg is suspended (R437). -/
theorem startDrain_drainEnd (d : Dev) (n : Nat) : ((d.startDrain n).lifeOf n).drainEnd =
    some (d.stride + (if (d.lifeOf n).suspended then 1 else d.nat .LEG_DRAIN_STRIDES n)) := by
  have hw := within_setLegState d n .draining
  have hstride : (d.setLegState n .draining).stride = d.stride := hw.nat (by decide) 0 0
  unfold Dev.startDrain
  simp only [Dev.lifeOf_setLife, if_true, hstride, hw.nat (o := .LEG_DRAIN_STRIDES) (by decide)]

/-! ### LEG_CMD in the states of its rows -/

theorem writeLegCmd_unconfigure {d : Dev} {n : Nat} (h : d.legState n = .configured) :
    d.writeLegCmd n 2 = .ok (d.setLegState n .idle) := need_ok (by simp [h])

theorem writeLegCmd_hold {d : Dev} {n : Nat} (h : d.legState n = .active) :
    d.writeLegCmd n 4 = .ok (d.setLegState n .held) := need_ok (by simp [h])

theorem writeLegCmd_rekey {d : Dev} {n : Nat} (h : d.legState n = .active ∨ d.legState n = .held) :
    d.writeLegCmd n 6 = .ok (d.enterRekey n) := need_ok (by simpa using h)

theorem writeLegCmd_delete {d : Dev} {n : Nat}
    (h : d.legState n = .active ∨ d.legState n = .held ∨ d.legState n = .rekey ∨ d.legState n = .failed) :
    d.writeLegCmd n 8 = .ok (d.startDrain n) := need_ok (by simpa [or_assoc] using h)

/-- The first part of O13. -/
theorem legCommandsMoveTheirLeg : Sys2Proof.Claim.LegCommandsMoveTheirLeg := by
  intro s src n hn hq hh d moved
  let k : Key := { o := .LEG_CMD, u := n }
  have hmoved : ∀ {v : Nat} {e : Dev}, Moves d e n v → moved v { s with dev := answerWrite src k (.ok e) } := by
    intro v e m
    have hother : ∀ o, o ≠ .DICT_WRITES → keepsOther d e o n → keepsOther d (answerWrite src k (.ok e)) o n := by
      intro o ho h u p hu
      rw [answerWrite_ok, Dev.emit_get, Dev.bump_eq, Dev.get_put, if_neg (fun hk => ho hk.1)]
      exact h u p hu
    exact ⟨(answerWrite_ok_nat src k e n 0 (by decide)).trans m.state, (answerWrite_ok_nat src k e n 0 (by decide)).trans m.stride,
      answerWrite_ok_accepted src k m.within.out, ⟨rfl, rfl⟩, hother _ (by decide) m.others, hother _ (by decide) m.otherStrides,
      answerWrite_ok_keeps src k m.within.obj⟩
  have hset : ∀ st : LegState, st ≠ .active → onlyDict d (answerWrite src k (.ok (d.setLegState n st))) ∧
      (answerWrite src k (.ok (d.setLegState n st))).nat .LEG_PRIOR_STATE n = d.nat .LEG_PRIOR_STATE n := fun st hst =>
    ⟨answerWrite_ok_onlyDict src k (setLegState_onlyDict d n hst),
      (answerWrite_ok_nat src k _ n 0 (by decide)).trans ((within_setLegState d n st).nat (by decide) n 0)⟩
  refine ⟨fun h => ?unconfigure, fun h => ?hold, fun h => ?rekey, fun h => ?delete⟩
  case unconfigure =>
    have m := moves_setLegState d n .idle
    exact legCmd_accepted hn hq hh (by decide) (writeLegCmd_unconfigure h) m.within ⟨hmoved m, hset .idle (by decide)⟩
  case hold =>
    have m := moves_setLegState d n .held
    exact legCmd_accepted hn hq hh (by decide) (writeLegCmd_hold h) m.within ⟨hmoved m, hset .held (by decide)⟩
  case rekey =>
    have m := moves_enterRekey d n
    exact legCmd_accepted hn hq hh (by decide) (writeLegCmd_rekey h) m.within
      ⟨hmoved m, (answerWrite_ok_nat src k _ n 0 (by decide)).trans (enterRekey_prior d n)⟩
  case delete =>
    have m := moves_startDrain d n
    exact legCmd_accepted hn hq hh (by decide) (writeLegCmd_delete h) m.within ⟨hmoved m, startDrain_drainEnd d n⟩

/-! ### LEG_CMD in the other states -/

/-- A row of LEG_CMD refused with the device as it was. -/
theorem legCmd_refused {s : State} {src : Src} {n w : Nat} {a : Abort} (hn : n < 4096) (hq : s.dev.quiet)
    (hh : s.dev.hears src { o := .LEG_CMD, u := n }) (hw : 1 ≤ w ∧ w ≤ 9) (hr : s.dev.writeLegCmd n w = .error (a, s.dev)) :
    ∃ t, onWrite s src .LEG_CMD n 4096 w = .next t ∧ t.dev.refusedBy s.dev src { o := .LEG_CMD, u := n } a ∧
      keepsBut s.dev t.dev [.DICT_ABORTS] ∧ onlyDict s.dev t.dev ∧ keepsRest s t := by
  obtain ⟨hrefused, hkeeps, honly⟩ := answerWrite_error_spec s.dev src { o := .LEG_CMD, u := n } a
  exact legCmd_completes_quiet hn hh hw hr (honly.quiet hq) ⟨hrefused, hkeeps, honly, rfl, rfl⟩

/-- The second part of O13: the first check of each command is that of the leg's state. -/
theorem legCommandsKeepTheirStates : Sys2Proof.Claim.LegCommandsKeepTheirStates := by
  intro s src n hn hq hh row hrow hst
  simp only [List.mem_cons, List.not_mem_nil, or_false] at hrow
  obtain rfl | rfl | rfl | rfl | rfl | rfl | rfl | rfl | rfl := hrow
  all_goals
    simp only [List.mem_cons, List.not_mem_nil, or_false, not_or] at hst
    exact legCmd_refused hn hq hh (by decide) (need_error (by simp [hst]))

/-- Settles O13: the states of the rows, and the others. -/
theorem legCommandsFollowTheirTable : Obligations.LegCommandsFollowTheirTable := ⟨legCommandsMoveTheirLeg, legCommandsKeepTheirStates⟩

end Sys2Proof.Machine
end

section
/-! PROOFS. CONFIGURE and REKEY_DONE (O15). -/

namespace Sys2Proof.Machine

/-! ### Refusals that LEG_REFUSAL names (R105) -/

/-- The objects that a refusal of a leg command writes. -/
def refusalWritten (counted : Bool) : List Obj :=
  if counted then [.LEG_REFUSAL, .ADMIT_REFUSALS, .DICT_ABORTS] else [.LEG_REFUSAL, .DICT_ABORTS]

theorem refuseLeg_refusal (d : Dev) (n v : Nat) (counted : Bool) : (d.refuseLeg n v counted).2.nat .LEG_REFUSAL n = v := by
  cases counted <;> simp [Dev.refuseLeg, Dev.setN_eq]

theorem within_refuseLeg (d : Dev) (n v : Nat) (counted : Bool) :
    Within (refusalWritten counted) d (d.refuseLeg n v counted).2 := by
  have hset := (Within.refl (refusalWritten counted) d).put (o := .LEG_REFUSAL) (by cases counted <;> decide) n 0 (.num v)
  cases counted with
  | false => exact hset
  | true => exact hset.put (o := .ADMIT_REFUSALS) (by decide) 0 0 _

theorem refuseLeg_onlyDict (d : Dev) (n v : Nat) (counted : Bool) : onlyDict d (d.refuseLeg n v counted).2 := by
  cases counted with
  | false => exact (onlyDict_refl d).put .LEG_REFUSAL n 0 _
  | true => exact ((onlyDict_refl d).put .LEG_REFUSAL n 0 _).put .ADMIT_REFUSALS 0 0 _

/-- A row of LEG_CMD refused with a value of LEG_REFUSAL. -/
theorem legCmd_refusal {s : State} {src : Src} {n w v : Nat} {counted : Bool} {P : State → Prop} (hn : n < 4096) (hq : s.dev.quiet)
    (hh : s.dev.hears src { o := .LEG_CMD, u := n }) (hw : 1 ≤ w ∧ w ≤ 9)
    (hr : s.dev.writeLegCmd n w = .error (s.dev.refuseLeg n v counted))
    (hP : ∀ t, t.dev.nat .LEG_REFUSAL n = v → t.dev.refusedBy s.dev src { o := .LEG_CMD, u := n } .deviceState →
      keepsBut s.dev t.dev (refusalWritten counted) → onlyDict s.dev t.dev → keepsRest s t → P t) :
    ∃ t, onWrite s src .LEG_CMD n 4096 w = .next t ∧ P t := by
  let k : Key := { o := .LEG_CMD, u := n }
  let e := (s.dev.refuseLeg n v counted).2
  have he : onlyDict s.dev e := refuseLeg_onlyDict s.dev n v counted
  have hwithin : Within (refusalWritten counted) s.dev e := within_refuseLeg s.dev n v counted
  have hkeeps : keepsBut s.dev (e.bump .DICT_ABORTS) (refusalWritten counted) :=
    (hwithin.put (o := .DICT_ABORTS) (by cases counted <;> decide) 0 0 _).obj
  have hvalue : (e.bump .DICT_ABORTS).nat .LEG_REFUSAL n = v := by
    rw [Dev.nat_bump, if_neg (by simp)]
    exact refuseLeg_refusal s.dev n v counted
  have honly : onlyDict s.dev (answerWrite src k (.error (.deviceState, e))) := (he.put _ _ _ _).emit _
  exact legCmd_completes_quiet hn hh hw hr (honly.quiet hq)
    (hP _ hvalue (congrArg (· ++ _) hwithin.out) hkeeps honly ⟨rfl, rfl⟩)

/-! ### CONFIGURE (R105, R106) -/

theorem writeLegCmd_configure_complete {d : Dev} {n : Nat} (h : d.legState n = .idle) (hc : d.complete n = true) :
    d.writeLegCmd n 1 = .ok ((d.setN .LEG_BUFFER_NEED n (d.bufferNeed n)).setLegState n .configured) :=
  (need_ok (by simp [h])).trans (if_pos hc)

theorem writeLegCmd_configure_incomplete {d : Dev} {n : Nat} (h : d.legState n = .idle) (hc : d.complete n ≠ true) :
    d.writeLegCmd n 1 = .error (d.refuseLeg n 1 true) := (need_ok (by simp [h])).trans (if_neg hc)

/-- The first part of O15. -/
theorem configureAsksForACompleteLeg : Sys2Proof.Claim.ConfigureAsksForACompleteLeg := by
  intro s src n hn hq hh hst
  let d := s.dev
  by_cases hc : d.complete n = true
  · let d' := d.setN .LEG_BUFFER_NEED n (d.bufferNeed n)
    have hmove := within_setLegState d' n .configured
    have hwithin : Within [.LEG_STATE, .LEG_STATE_STRIDE, .LEG_BUFFER_NEED, .CONF_LEG_COUNT, .CONF_PIXEL_USE] d
        (d'.setLegState n .configured) := ((Within.refl _ d).put (by decide) n 0 _).trans (hmove.mono (by decide))
    have hstate : (d'.setLegState n .configured).nat .LEG_STATE n = 1 := setLegState_state d' n .configured
    have hneed : (d'.setLegState n .configured).nat .LEG_BUFFER_NEED n = d.bufferNeed n :=
      (hmove.nat (by decide) n 0).trans (d.nat_setN ..)
    have honly : onlyDict d (d'.setLegState n .configured) := by
      obtain ⟨t, x, h⟩ := setLegState_onlyDict d' n (s := .configured) (by decide)
      exact ⟨t, x, h⟩
    refine legCmd_accepted hn hq hh (by decide) (writeLegCmd_configure_complete hst hc) hwithin ?_
    rw [if_pos hc]
    exact ⟨(answerWrite_ok_nat src _ _ n 0 (by decide)).trans hstate, (answerWrite_ok_nat src _ _ n 0 (by decide)).trans hneed,
      answerWrite_ok_accepted src _ hwithin.out, answerWrite_ok_onlyDict src _ honly, ⟨rfl, rfl⟩,
      answerWrite_ok_keeps src _ hwithin.obj⟩
  · refine legCmd_refusal hn hq hh (by decide) (writeLegCmd_configure_incomplete hst hc) ?_
    intro t hvalue hrefused hkeeps honly hrest
    rw [if_neg hc]
    exact ⟨hvalue, hrefused, honly, hrest, hkeeps⟩

/-! ### REKEY_DONE (R105, R108, R450) -/

/-- Both keys of leg `n` were written anew and no alarm is latched: what REKEY_DONE asks for. -/
def Dev.rekeyed (d : Dev) (n : Nat) : Bool := (d.keysOf n).txNew && (d.keysOf n).rxNew && !d.alarmed

/-- The state that a leg in REKEY returns to (R108). -/
def Dev.priorState (d : Dev) (n : Nat) : LegState :=
  match d.nat .LEG_PRIOR_STATE n with
  | 1 => .configured
  | 3 => .held
  | _ => .active

theorem priorState_num (d : Dev) (n : Nat) : (d.priorState n).num =
    if d.nat .LEG_PRIOR_STATE n = 1 then 1 else if d.nat .LEG_PRIOR_STATE n = 3 then 3 else 2 := by
  unfold Dev.priorState
  split
  case h_1 h => rw [if_pos h]; rfl
  case h_2 h => rw [h]; rfl
  case h_3 h1 h3 => rw [if_neg h1, if_neg h3]; rfl

/-- REKEY_DONE accepted: the keys are to be installed, and the leg returns. -/
def Dev.rekeyReturn (d : Dev) (n : Nat) : Dev :=
  (d.setKeys n { d.keysOf n with install := true }).setLegState n (d.priorState n)

theorem writeLegCmd_rekeyDone {d : Dev} {n : Nat} (h : d.legState n = .rekey) :
    d.writeLegCmd n 7 = if d.rekeyed n then .ok (d.rekeyReturn n) else .error (d.refuseLeg n 15 false) :=
  need_ok (by simp [h])

theorem Dev.keysOf_confRecount (d : Dev) (k m : Nat) : (d.confRecount k).keysOf m = d.keysOf m := by
  unfold Dev.confRecount
  split <;> rfl

theorem setLegState_keysOf (d : Dev) (n : Nat) (s : LegState) (m : Nat) : (d.setLegState n s).keysOf m = d.keysOf m := by
  unfold Dev.setLegState
  rw [Dev.keysOf_confRecount]
  split <;> rfl

theorem rekeyReturn_keysOf (d : Dev) (n : Nat) : (d.rekeyReturn n).keysOf n = { d.keysOf n with install := true } := by
  unfold Dev.rekeyReturn
  rw [setLegState_keysOf, Dev.keysOf_setKeys, if_pos rfl]

/-- The second part of O15. -/
theorem rekeyDoneReturnsTheLeg : Sys2Proof.Claim.RekeyDoneReturnsTheLeg := by
  intro s src n hn hq hh hst
  let d := s.dev
  have hcmd := writeLegCmd_rekeyDone hst
  by_cases hk : d.rekeyed n = true
  · have hwithin : Within [.LEG_STATE, .LEG_STATE_STRIDE, .CONF_LEG_COUNT, .CONF_PIXEL_USE] d (d.rekeyReturn n) :=
      ((Within.refl _ d).setKeys n _).trans (within_setLegState _ n _)
    have hstate : (d.rekeyReturn n).nat .LEG_STATE n = (d.priorState n).num := setLegState_state _ n _
    rw [if_pos hk] at hcmd
    refine legCmd_accepted hn hq hh (by decide) hcmd hwithin ?_
    exact (if_pos hk).mpr ⟨((answerWrite_ok_nat src _ _ n 0 (by decide)).trans hstate).trans (priorState_num d n), rekeyReturn_keysOf d n,
      answerWrite_ok_accepted src _ hwithin.out, ⟨rfl, rfl⟩, answerWrite_ok_keeps src _ hwithin.obj⟩
  · rw [if_neg hk] at hcmd
    refine legCmd_refusal hn hq hh (by decide) hcmd ?_
    intro t hvalue hrefused hkeeps honly hrest
    exact (if_neg hk).mpr ⟨hvalue, hrefused, honly, hrest, hkeeps⟩

/-- Settles O15: CONFIGURE and REKEY_DONE. -/
theorem configureAndRekeyAskForTheirKeys : Obligations.ConfigureAndRekeyAskForTheirKeys :=
  ⟨configureAsksForACompleteLeg, rekeyDoneReturnsTheLeg⟩

end Sys2Proof.Machine
end

section
/-! PROOFS. Admission: ACTIVATE, RESUME and READMIT_VIDEO (O14). -/

namespace Sys2Proof.Machine

/-! ### Rows that ask for admission (R105, R110, R111) -/

/-- The answer to a command that asks for admission: refused with the value of a check, or what the admission makes. -/
def Dev.answerDecision (d : Dev) (n : Nat) (r : Except Nat (Nat × Ask)) (f : Nat × Ask → Dev) : Res :=
  match r with
  | .error v => .error (d.refuseLeg n v true)
  | .ok a => .ok (f a)

/-- A row of LEG_CMD that asks for admission leaves what its decision says. -/
theorem legCmd_decided {s : State} {src : Src} {n w : Nat} {r : Except Nat (Nat × Ask)} {f : Nat × Ask → Dev} (hn : n < 4096)
    (hq : s.dev.quiet) (hh : s.dev.hears src { o := .LEG_CMD, u := n }) (hw : 1 ≤ w ∧ w ≤ 9)
    (hr : s.dev.writeLegCmd n w = s.dev.answerDecision n r f) :
    ∃ t, onWrite s src .LEG_CMD n 4096 w = .next t ∧ keepsRest s t ∧
      (∀ a, r = .ok a → t.dev = (answerWrite src { o := .LEG_CMD, u := n } (.ok (f a))).settle) ∧
      ∀ v, r = .error v → t.dev.nat .LEG_REFUSAL n = v ∧ t.dev.refusedBy s.dev src { o := .LEG_CMD, u := n } .deviceState ∧
        keepsBut s.dev t.dev [.LEG_REFUSAL, .ADMIT_REFUSALS, .DICT_ABORTS] ∧ onlyDict s.dev t.dev ∧ keepsRest s t := by
  cases r with
  | ok a =>
    have haccept : s.dev.writeLegCmd n w = .ok (f a) := hr
    refine legCmd_completes hn hh hw haccept ⟨⟨rfl, rfl⟩, fun b hb => ?_, fun _ h => nomatch h⟩
    rw [Except.ok.inj hb]
  | error v =>
    have hrefuse : s.dev.writeLegCmd n w = .error (s.dev.refuseLeg n v true) := hr
    refine legCmd_refusal hn hq hh hw hrefuse ?_
    intro t hvalue hrefused hkeeps honly hrest
    refine ⟨hrest, fun _ h => (nomatch h), fun x hx => ?_⟩
    exact ⟨hvalue.trans (Except.error.inj hx), hrefused, hkeeps, honly, hrest⟩

/-- An accepted write and the close of its command leave the objects that neither writes. -/
theorem answerWrite_ok_settle_nat (src : Src) (k : Key) (e : Dev) {o : Obj} (u p : Nat) (h : o ≠ .DICT_WRITES)
    (hc : closeObj o = false) : (answerWrite src k (.ok e)).settle.nat o u p = e.nat o u p :=
  (settle_nat _ hc u p).trans (answerWrite_ok_nat src k e u p h)

/-- What an admission gave stands in LEG_REFUSAL, and counts as a refusal where it is not 0 (R111). -/
def Dev.noteAdmission (d : Dev) (n v : Nat) : Dev :=
  let e := d.setN .LEG_REFUSAL n v
  if v = 0 then e else e.bump .ADMIT_REFUSALS

theorem noteAdmission_refusal (d : Dev) (n v : Nat) : (d.noteAdmission n v).nat .LEG_REFUSAL n = v := by
  unfold Dev.noteAdmission
  dsimp only
  split
  · exact d.nat_setN ..
  · rw [Dev.nat_bump, if_neg (by simp), Dev.nat_setN]

/-! ### ACTIVATE (R105, R107, R110) -/

theorem Dev.drawSsrc_dict (d : Dev) (o : Obj) (u k : Nat) : (d.drawSsrc o u k).2.dict = d.dict := by
  unfold Dev.drawSsrc
  dsimp only
  split <;> rfl

/-- The identities that ACTIVATE draws are not objects (R201, R237, R276, R302). -/
theorem drawStreams_dict (d : Dev) (n : Nat) : (d.drawStreams n).dict = d.dict := by
  unfold Dev.drawStreams
  extract_lets q1 t1 s1 x1 d1 q2 t2 s2 e2 f2 x2 d2 q3 t3 s3 e3 f3 x3 d3
  have h1 : d1.dict = d.dict := Dev.drawSsrc_dict t1.2 .LEG_TX_AUDIO_SSRC n 0
  have h2 : d2.dict = d1.dict := Dev.drawSsrc_dict t2.2 .ENC_SSRC n 0
  have h3 : d3.dict = d2.dict := Dev.drawSsrc_dict t3.2 .VIEW_SSRC n 0
  generalize List.range 16 = js
  refine foldl_keeps (P := fun e : Dev => e.dict = d.dict) (fun e j he => ?_) js (h3.trans (h2.trans h1))
  exact (Dev.drawSsrc_dict e .FWD_OUT_SSRC n j).trans he

theorem enterActive_nat (d : Dev) (n : Nat) (o : Obj) (u k : Nat) :
    (d.enterActive n).nat o u k = ((d.setRx n { d.rxOf n with bucket := {} }).setLegState n .active).nat o u k := by
  simp only [Dev.enterActive, Dev.nat, Dev.int, Dev.get, drawStreams_dict]

theorem enterActive_state (d : Dev) (n : Nat) : (d.enterActive n).nat .LEG_STATE n = 2 :=
  (enterActive_nat ..).trans (setLegState_state _ n .active)

theorem enterActive_refusal (d : Dev) (n : Nat) : (d.enterActive n).nat .LEG_REFUSAL n = d.nat .LEG_REFUSAL n :=
  (enterActive_nat ..).trans ((within_setLegState _ n .active).nat (by decide) n 0)

/-- The checks of ACTIVATE's row (R110). -/
def activateChecks : List Nat := [2, 3, 4, 5, 6, 7, 8, 9, 10, 11, 12, 13, 14]

theorem writeLegCmd_activate {d : Dev} {n : Nat} (h : d.legState n = .configured) (hd : d.service ≠ .doze) :
    d.writeLegCmd n 3 = d.answerDecision n (d.decide110 d n activateChecks (d.flag .LEG_AUDIO_ONLY_FALLBACK n)) fun a =>
      ((d.reserveLeg n ((d.blockFor d n a.2).getD 0) a.2 []).noteAdmission n a.1).enterActive n := by
  refine (need_ok (decide_eq_true h)).trans ((need_ok (decide_eq_true hd)).trans ?_)
  unfold Dev.answerDecision activateChecks
  split
  case h_1 hdec => rw [hdec]
  case h_2 hdec => rw [hdec]; rfl

/-! ### RESUME (R105, R107) -/

/-- The device without what leg `n` holds, its state homes apart: what RESUME is admitted against (R107). -/
def Dev.resumeBase (d : Dev) (n : Nat) : Dev :=
  let base := (d.setLife n { d.lifeOf n with homes := [] }).releaseLeg n
  (base.setLife n { base.lifeOf n with homes := (d.lifeOf n).homes }).setN .LEG_BUFFER_NEED n (d.bufferNeed n)

/-- The checks of RESUME's row (R110). -/
def resumeChecks : List Nat := [2, 3, 5, 6, 7, 8, 9, 10, 11, 12, 13, 14]

theorem writeLegCmd_resume {d : Dev} {n : Nat} (h : d.legState n = .held) (hr : d.returned = false) :
    d.writeLegCmd n 5 = d.answerDecision n (d.decide110 (d.resumeBase n) n resumeChecks (d.flag .LEG_AUDIO_ONLY_FALLBACK n)) fun a =>
      (((d.resumeBase n).reserveLeg n ((d.blockFor (d.resumeBase n) n a.2).getD 0) a.2 (d.lifeOf n).charges).noteAdmission n
        a.1).setLegState n .active := by
  refine (need_ok (decide_eq_true h)).trans ((need_ok (congrArg not hr)).trans ?_)
  unfold Dev.answerDecision resumeChecks Dev.resumeBase
  extract_lets homes base base'
  split
  case h_1 hdec => rw [hdec]
  case h_2 hdec => rw [hdec]; rfl

/-! ### What the video of a leg gives up (R114, R259, R265) -/

/-- The objects that give up the reservation of a leg's video. -/
def videoReleased : List Obj :=
  [.PAIR_ADMIT_PIXELS, .ADMIT_PIXELS_USE, .COMPOSER_ADMIT_PIXELS, .LEG_ADMIT_PIXELS, .CONF_LEG_COUNT, .CONF_PIXEL_USE, .LAYOUT_PAIR]

theorem within_chargePair (d : Dev) (p : Nat) (px kbps : Int) : Within [.PAIR_ADMIT_PIXELS] d (d.chargePair p px kbps) :=
  ((Within.refl _ d).put (by decide) _ _ _).parts rfl rfl rfl rfl

/-- A leg's life and its share of the pixels, with the counts of its conference. -/
theorem within_setShare (d : Dev) (m : Nat) (x : LegLife) (v k : Nat) :
    Within videoReleased d (((d.setLife m x).setN .LEG_ADMIT_PIXELS m v).confRecount k) := by
  have hlife : Within videoReleased d (d.setLife m x) := (Within.refl _ d).parts rfl rfl rfl rfl
  exact (hlife.put (o := .LEG_ADMIT_PIXELS) (by decide) m 0 _).trans ((within_confRecount _ k).mono (by decide))

theorem within_releaseVideo (d : Dev) (n : Nat) : Within videoReleased d (d.releaseVideo n) := by
  have hset : ∀ (e : Dev) (o : Obj) (u k : Nat) (v : Val), o ∈ videoReleased → Within videoReleased e (e.put o u k v) :=
    fun e o u k v ho => (Within.refl _ e).put ho u k v
  have hcharge : ∀ (e : Dev) (c : Nat × (Nat × (Nat × Nat))),
      Within videoReleased e (e.chargePair c.2.1 (-(c.2.2.1 : Int)) (-(c.2.2.2 : Int))) := fun e c =>
    (within_chargePair e c.2.1 _ _).mono (by decide)
  unfold Dev.releaseVideo
  extract_lets l heir stripPx gone px d1 d2 kept d3 d4 own d5
  have h1 : Within videoReleased d d1 := Within.fold hcharge gone (Within.refl _ d)
  have h2 : Within videoReleased d1 d2 := hset d1 .ADMIT_PIXELS_USE 0 0 _ (by decide)
  clear_value d2
  have h3 : Within videoReleased d2 d3 := by
    unfold d3
    split
    · exact hset d2 .COMPOSER_ADMIT_PIXELS _ 0 _ (by decide)
    · exact Within.refl _ _
  clear_value d3 stripPx heir l
  have h4 : Within videoReleased d3 d4 := by
    unfold d4
    split
    · exact within_setShare d3 ..
    · split
      · exact hset d3 .LAYOUT_PAIR _ 0 _ (by decide)
      · exact Within.refl _ _
  clear_value d4
  exact ((h1.trans h2).trans (h3.trans h4)).trans (within_setShare d4 ..)

theorem releaseVideo_pixels (d : Dev) (n : Nat) : (d.releaseVideo n).nat .LEG_ADMIT_PIXELS n = 0 :=
  ((within_confRecount _ _).nat (by decide) n 0).trans (Dev.nat_setN ..)

/-- With pairs for its streams the video demand is the leg's share; without, the leg keeps the share it had. -/
theorem reserveVideo_pixels (base : Dev) (n : Nat) (q : Ask) (held : List (Nat × (Nat × (Nat × Nat)))) :
    (base.reserveVideo n q held).nat .LEG_ADMIT_PIXELS n =
      if (base.keepStreams (base.confRegion (base.nat .LEG_CONFERENCE n)) held q.streams).isNone then base.nat .LEG_ADMIT_PIXELS n
      else q.px := by
  unfold Dev.reserveVideo
  extract_lets region
  cases base.keepStreams region held q.streams with
  | none => rfl
  | some r => exact ((within_confRecount _ _).nat (by decide) n 0).trans (Dev.nat_setN ..)

/-! ### READMIT_VIDEO (R105, R111) -/

/-- Without the fallback an ask is admitted only where none of its checks fails (R110). -/
theorem decide110_strict {d base : Dev} {n : Nat} {checks : List Nat} {a : Nat × Ask}
    (h : d.decide110 base n checks false = .ok a) : ∀ c ∈ checks, d.checkFails base n a.2 c = false := by
  unfold Dev.decide110 at h
  dsimp only at h
  split at h
  case h_1 hnone =>
    rw [← Except.ok.inj h]
    simpa using hnone
  case h_2 => simp at h

/-- The checks of READMIT_VIDEO's row (R111). -/
def readmitChecks : List Nat := [6, 9, 10, 11, 13, 14]

/-- READMIT_VIDEO accepted: the video is reserved anew. -/
def Dev.readmitted (d : Dev) (n : Nat) (q : Ask) : Dev :=
  ((d.releaseVideo n).reserveVideo n q (d.lifeOf n).charges).setN .LEG_REFUSAL n 0

theorem releaseVideo_confRegion (d : Dev) (n : Nat) :
    (d.releaseVideo n).confRegion ((d.releaseVideo n).nat .LEG_CONFERENCE n) = d.confRegion (d.nat .LEG_CONFERENCE n) := by
  have hw := within_releaseVideo d n
  unfold Dev.confRegion
  rw [hw.nat (o := .LEG_CONFERENCE) (by decide), hw.nat (o := .CONF_HOME_BLOCK) (by decide)]

/-- A video that passes check 10 has pairs for its streams (R114), and one that asks for no pixels needs none. -/
theorem readmitted_pixels {d : Dev} {n : Nat} {a : Nat × Ask}
    (h : d.decide110 (d.releaseVideo n) n readmitChecks false = .ok a) : (d.readmitted n a.2).nat .LEG_ADMIT_PIXELS n = a.2.px := by
  have hpairs : (decide (0 < a.2.px) && ((d.releaseVideo n).keepStreams (d.confRegion (d.nat .LEG_CONFERENCE n))
      (d.lifeOf n).charges a.2.streams).isNone) = false := decide110_strict h 10 (by decide)
  unfold Dev.readmitted
  rw [Dev.nat_setN_other _ _ _ _ _ (by decide), reserveVideo_pixels, releaseVideo_confRegion, releaseVideo_pixels]
  split
  case isTrue hnone =>
    rw [hnone, Bool.and_true, decide_eq_false_iff_not] at hpairs
    omega
  case isFalse => rfl

theorem writeLegCmd_readmit {d : Dev} {n : Nat} (h : d.legState n = .active) (hr : d.returned = false) :
    d.writeLegCmd n 9 = d.answerDecision n (d.decide110 (d.releaseVideo n) n readmitChecks false) fun a => d.readmitted n a.2 := by
  refine (need_ok (decide_eq_true h)).trans ((need_ok (congrArg not hr)).trans ?_)
  unfold Dev.answerDecision readmitChecks
  extract_lets base
  split
  case h_1 hdec => rw [hdec]
  case h_2 hdec => rw [hdec]; rfl

/-- Settles O14: each command answers as its checks decide. -/
theorem admissionFollowsItsChecks : Obligations.AdmissionFollowsItsChecks := by
  intro s src n hn hq hh d given refused fallback
  let k : Key := { o := .LEG_CMD, u := n }
  have hreads : ∀ (e : Dev) (o : Obj), o ≠ .DICT_WRITES → closeObj o = false →
      (answerWrite src k (.ok e)).settle.nat o n = e.nat o n := fun e o ho hc => answerWrite_ok_settle_nat src k e n 0 ho hc
  have hgiven : ∀ {e : Dev} {v : Nat} {t : State}, t.dev = (answerWrite src k (.ok e)).settle → keepsRest s t →
      e.nat .LEG_STATE n = 2 → e.nat .LEG_REFUSAL n = v → given v t := by
    intro e v t ht hrest hstate hvalue
    have h1 := (hreads e .LEG_STATE (by decide) rfl).trans hstate
    have h2 := (hreads e .LEG_REFUSAL (by decide) rfl).trans hvalue
    rw [← ht] at h1 h2
    exact ⟨h1, h2, hrest⟩
  refine ⟨fun hst hdoze => ?activate, fun hst hret => ?resume, fun hst hret => ?readmit⟩
  case activate =>
    obtain ⟨t, hnext, hrest, hok, herror⟩ := legCmd_decided hn hq hh (by decide) (writeLegCmd_activate hst hdoze)
    refine ⟨t, hnext, ?_⟩
    split
    case h_1 hdec =>
      exact hgiven (hok _ hdec) hrest (enterActive_state ..) ((enterActive_refusal ..).trans (noteAdmission_refusal ..))
    case h_2 hdec => exact herror _ hdec
  case resume =>
    obtain ⟨t, hnext, hrest, hok, herror⟩ := legCmd_decided hn hq hh (by decide) (writeLegCmd_resume hst hret)
    refine ⟨t, hnext, ?_⟩
    dsimp only
    split
    case h_1 hdec =>
      exact hgiven (hok _ hdec) hrest (setLegState_state _ n .active)
        (((within_setLegState _ n .active).nat (by decide) n 0).trans (noteAdmission_refusal ..))
    case h_2 hdec => exact herror _ hdec
  case readmit =>
    obtain ⟨t, hnext, hrest, hok, herror⟩ := legCmd_decided hn hq hh (by decide) (writeLegCmd_readmit hst hret)
    refine ⟨t, hnext, ?_⟩
    split
    case h_1 q hdec =>
      have hpixels : (d.readmitted n q).nat .LEG_ADMIT_PIXELS n = q.px := readmitted_pixels hdec
      rw [hok _ hdec]
      exact ⟨(hreads (d.readmitted n q) .LEG_REFUSAL (by decide) rfl).trans (Dev.nat_setN ..),
        (hreads (d.readmitted n q) .LEG_ADMIT_PIXELS (by decide) rfl).trans hpixels, hrest⟩
    case h_2 hdec => exact herror _ hdec

end Sys2Proof.Machine
end

section
/-! PROOFS. What the pools, the queues of a leg and the end of an item leave as they were. -/

namespace Sys2Proof.Machine

/-! ### Objects and pools alone -/

/-- `e` differs from `d` in its dictionary and its buffer pools alone. -/
def onlyPools (d e : Dev) : Prop := ∃ dict pool, e = { d with dict := dict, pool := pool }

theorem onlyPools_refl (d : Dev) : onlyPools d d := ⟨d.dict, d.pool, rfl⟩

theorem onlyPools.trans {d e f : Dev} (h : onlyPools d e) (g : onlyPools e f) : onlyPools d f := by
  obtain ⟨t, x, rfl⟩ := h
  obtain ⟨t', x', rfl⟩ := g
  exact ⟨t', x', rfl⟩

theorem onlyPools.put {d e : Dev} (h : onlyPools d e) (o : Obj) (u k : Nat) (v : Val) : onlyPools d (e.put o u k v) :=
  h.trans ⟨_, _, rfl⟩

theorem onlyPools.pool {d e : Dev} (h : onlyPools d e) (x : Pool) : onlyPools d { e with pool := x } := h.trans ⟨_, _, rfl⟩

theorem onlyPools.setDesc {d e : Dev} (h : onlyPools d e) (p i : Nat) (x : Desc) : onlyPools d (e.setDesc p i x) := h.pool _

theorem onlyPools.setList {d e : Dev} (h : onlyPools d e) (p c : Nat) (l : PoolList) : onlyPools d (e.setList p c l) := h.pool _

theorem onlyPools_chargeBytes (d : Dev) (dom : Nat) (a : Option Nat) (b : Int) : onlyPools d (d.chargeBytes dom a b) := by
  unfold Dev.chargeBytes
  cases a with
  | none => exact ((onlyPools_refl d).pool _).put _ _ _ _
  | some k => exact ((((onlyPools_refl d).pool _).put _ _ _ _).pool _).put _ _ _ _

theorem onlyPools_poolTouch (d : Dev) (p : Nat) : onlyPools d (d.poolTouch p) := by
  unfold Dev.poolTouch
  extract_lets n e
  have he : onlyPools d e := (onlyPools_refl d).put _ _ _ _
  split
  · exact he.put _ _ _ _
  · exact he

theorem onlyPools_poolFailed (d : Dev) (p : Nat) : onlyPools d (d.poolFailed p) := ((onlyPools_refl d).put _ _ _ _).pool _

theorem onlyPools_giveBack (d : Dev) (p i : Nat) : onlyPools d (d.giveBack p i) := by
  unfold Dev.giveBack
  extract_lets c l
  split
  · exact onlyPools_refl d
  · exact (onlyPools_refl d).setList _ _ _

/-! ### Allocation and release (R364 to R367) -/

theorem onlyPools_takeOne {d e : Dev} {p dom h : Nat} {u : PoolUse} {row : UseRow} {a x : Option Nat}
    (ht : d.takeOne p u row dom a x = some (h, e)) : onlyPools d e := by
  unfold Dev.takeOne at ht
  split at ht
  · exact absurd ht (by simp)
  split at ht
  · exact absurd ht (by simp)
  rename_i c _ _ i l _
  extract_lets old d1 gen desc d2 at ht
  have h2 : onlyPools d d2 := by
    have h1 : onlyPools d d1 := (onlyPools_refl d).setList _ _ _
    unfold d2
    split
    · exact h1.put _ _ _ _
    · exact h1
  split at ht
  · split at ht
    · exact absurd ht (by simp)
    · split at ht
      · exact absurd ht (by simp)
      · obtain ⟨_, rfl⟩ := Prod.mk.inj (Option.some.inj ht)
        exact ((h2.setList _ _ _).setDesc _ _ _).setDesc _ _ _
  · obtain ⟨_, rfl⟩ := Prod.mk.inj (Option.some.inj ht)
    exact h2.setDesc _ _ _

theorem onlyPools_takeMany {p dom : Nat} {u : PoolUse} {row : UseRow} {a x : Option Nat} (n : Nat) {d e : Dev} {hs : List Nat}
    (h : d.takeMany p u row dom a x n = some (hs, e)) : onlyPools d e := by
  induction n generalizing d hs with
  | zero =>
    obtain ⟨_, rfl⟩ := Prod.mk.inj (Option.some.inj h)
    exact onlyPools_refl d
  | succ n ih =>
    rw [Dev.takeMany] at h
    split at h
    · exact absurd h (by simp)
    · rename_i h₁ e₁ hone
      obtain ⟨⟨hs', e'⟩, hmany, heq⟩ := Option.map_eq_some_iff.mp h
      obtain ⟨_, rfl⟩ := Prod.mk.inj heq
      exact (onlyPools_takeOne hone).trans (ih hmany)

theorem onlyPools_allocFrom {u : PoolUse} {row : UseRow} {dom n first : Nat} {a x : Option Nat} (fuel p : Nat) (d : Dev) :
    onlyPools d (d.allocFrom u row dom a n first x fuel p).2 := by
  induction fuel generalizing d p x with
  | zero => exact onlyPools_refl d
  | succ fuel ih =>
    unfold Dev.allocFrom
    extract_lets placements bytes confBlocks enough got
    split
    · exact (onlyPools_refl d).put _ _ _ _
    have hgot : ∀ hs e, got = some (hs, e) → onlyPools d e := fun hs e h => by
      unfold got at h
      split at h
      · exact onlyPools_takeMany n h
      · exact absurd h (by simp)
    clear_value got
    cases got with
    | some r => exact ((hgot r.1 r.2 rfl).trans (onlyPools_chargeBytes _ _ _ _)).trans (onlyPools_poolTouch _ _)
    | none =>
      dsimp only
      split
      · exact ((onlyPools_refl d).put _ _ _ _).trans (ih (p + 1) _)
      · exact onlyPools_poolFailed d first

theorem onlyPools_allocKept (d : Dev) (u : PoolUse) (dom size : Nat) (a : Option Nat) :
    onlyPools d (d.allocKept u dom size a).2 := by
  have halloc : onlyPools d (d.alloc u dom size a 1).2 := by
    unfold Dev.alloc
    extract_lets row p
    split
    · exact onlyPools_allocFrom 6 p d
    · exact onlyPools_poolFailed d p
  exact halloc.pool _

theorem onlyPools_freeDesc (d : Dev) (p i : Nat) : onlyPools d (d.freeDesc p i) := by
  unfold Dev.freeDesc
  extract_lets x shadows bytes d1 live x' d2 d3 d4
  have h1 : onlyPools d d1 := by
    unfold d1
    split
    · exact (onlyPools_refl d).put _ _ _ _
    · exact onlyPools_refl d
  clear_value d1
  have h2 : onlyPools d1 d2 := by
    unfold d2
    split
    · exact (onlyPools_refl d1).setDesc _ _ _
    · split <;> exact ((onlyPools_refl d1).setDesc _ _ _).trans (onlyPools_giveBack _ _ _)
  clear_value d2
  have h3 : onlyPools d2 d3 := by
    unfold d3
    split
    · exact ((onlyPools_refl d2).put _ _ _ _).put _ _ _ _
    · exact onlyPools_refl d2
  clear_value d3
  have h4 : onlyPools d3 d4 := by
    refine foldl_keeps (P := onlyPools d3) (fun e j he => ?_) shadows (onlyPools_refl d3)
    dsimp only
    split
    · exact he.setDesc _ _ _
    · exact (he.setDesc _ _ _).trans (onlyPools_giveBack _ _ _)
  exact ((((h1.trans h2).trans h3).trans h4).trans (onlyPools_chargeBytes _ _ _ _)).trans (onlyPools_poolTouch _ _)

theorem onlyPools_sweepOne (d : Dev) (held : List Nat) (h was : Nat) : onlyPools d (d.sweepOne held h was) := by
  unfold Dev.sweepOne
  extract_lets p i x n keep refs e
  have hkeep : ∀ e, onlyPools e (keep e) := fun e => (onlyPools_refl e).pool _
  have he : onlyPools d e := (onlyPools_refl d).setDesc _ _ _
  split
  · exact onlyPools_refl d
  split
  · exact hkeep d
  split
  · exact he.trans (onlyPools_freeDesc _ _ _)
  · refine onlyPools.trans ?_ (hkeep _)
    split
    · exact he.put _ _ _ _
    · exact he

/-- The sweep that follows a command of the packet path or of a coder brings the references up to date, and nothing else (R367). -/
theorem onlyPools_bufferSweep (d : Dev) : onlyPools d d.bufferSweep :=
  foldl_keeps (P := onlyPools d) (fun e x he => he.trans (onlyPools_sweepOne e d.holders x.1 x.2)) d.pool.managed
    ((onlyPools_refl d).pool _)

/-! ### The end of an item -/

/-- `e` differs from `d` in its cells and the homes of its flows alone. -/
def onlyCells (d e : Dev) : Prop := ∃ cell homes, e = { d with cell := cell, flowHomes := homes }

theorem onlyCells_refl (d : Dev) : onlyCells d d := ⟨d.cell, d.flowHomes, rfl⟩

theorem onlyCells.trans {d e f : Dev} (h : onlyCells d e) (g : onlyCells e f) : onlyCells d f := by
  obtain ⟨c, x, rfl⟩ := h
  obtain ⟨c', x', rfl⟩ := g
  exact ⟨c', x', rfl⟩

theorem onlyCells.setCell {d e : Dev} (h : onlyCells d e) (c : Nat) (x : Cell) : onlyCells d (e.setCell c x) :=
  h.trans ⟨_, _, rfl⟩

theorem onlyCells_spendCell (d : Dev) (c : Nat) : onlyCells d (d.spendCell c) := by
  unfold Dev.spendCell
  extract_lets x
  split
  · exact onlyCells_refl d
  · exact (onlyCells_refl d).setCell _ _

theorem onlyCells_writeLines (d : Dev) (k : ItemKind) (u : Nat) : onlyCells d (d.writeLines k u) := ⟨_, _, rfl⟩

/-- `e` differs from `d` in its cells, the homes of its flows and what its blocks hold ready: the results keep their order. -/
structure EndsItem (d e : Dev) : Prop where
  parts : ∃ cell homes blk, e = { d with cell := cell, flowHomes := homes, blk := blk }
  order : ∀ b, (e.blkOf b).order = (d.blkOf b).order

theorem onlyCells.endsItem {d e : Dev} (h : onlyCells d e) : EndsItem d e := by
  obtain ⟨c, x, rfl⟩ := h
  exact ⟨⟨c, x, _, rfl⟩, fun _ => rfl⟩

theorem EndsItem.setBlk {d e : Dev} (h : EndsItem d e) {b : Nat} {x : Blk} (hx : x.order = (e.blkOf b).order) :
    EndsItem d (e.setBlk b x) := by
  refine ⟨?_, fun b' => ?_⟩
  · obtain ⟨c, y, blk, rfl⟩ := h.parts
    exact ⟨c, y, _, rfl⟩
  · rw [Dev.blkOf_setBlk]
    split
    · rename_i hb
      rw [hx, hb]
      exact h.order b
    · exact h.order b'

theorem endItem_endsItem (d : Dev) (k : ItemKind) (u : Nat) : EndsItem d (d.endItem k u) := by
  unfold Dev.endItem
  extract_lets b is far cells d1 d2 x
  split
  · exact (onlyCells_refl d).endsItem
  have h1 : onlyCells d d1 := by
    refine foldl_keeps (P := onlyCells d) (fun e c he => ?_) cells (onlyCells_refl d)
    dsimp only
    split
    · split
      · exact (he.trans (onlyCells_spendCell _ _)).setCell _ _
      · split
        · exact he.setCell _ _
        · exact he
    · split
      · exact he.setCell _ _
      · exact he
  exact (h1.trans (onlyCells_writeLines d1 k u)).endsItem.setBlk rfl

theorem EndsItem.within {d e : Dev} (h : EndsItem d e) (os : List Obj) : Within os d e := by
  obtain ⟨c, y, blk, rfl⟩ := h.parts
  exact (Within.refl os d).parts rfl rfl rfl rfl

theorem EndsItem.loopOf {d e : Dev} (h : EndsItem d e) (n : Nat) : e.loopOf n = d.loopOf n := by
  obtain ⟨c, y, blk, rfl⟩ := h.parts
  rfl

theorem EndsItem.txOf {d e : Dev} (h : EndsItem d e) (n : Nat) : e.txOf n = d.txOf n := by
  obtain ⟨c, y, blk, rfl⟩ := h.parts
  rfl

end Sys2Proof.Machine
end

section
/-! PROOFS. The line's loop and its FEC (R158, R159, R162), of O31. -/

namespace Sys2Proof.Machine

/-! ### The bounds of an estimate (R159) -/

/-- The loop with its estimate brought within its rates and below each bound of a TMMBR. -/
def Loop.clamped (l : Loop) (p : LoopPar) : Loop :=
  { l with e := (l.tmmbr.map (·.2)).foldl min (min (max l.e p.minRate) p.maxRate) }

theorem clamped_e (l : Loop) (p : LoopPar) :
    let e := min (max l.e p.minRate) p.maxRate
    (l.clamped p).e = min e ((l.tmmbr.map (·.2)).min?.getD e) := List.foldl_min

theorem clamped_le_maxRate (l : Loop) (p : LoopPar) : (l.clamped p).e ≤ p.maxRate := by
  rw [clamped_e]
  exact Nat.le_trans (Nat.min_le_left _ _) (Nat.min_le_right _ _)

theorem clamped_le_bound {l : Loop} {p : LoopPar} {x : (Nat × (Nat × Bool)) × Nat} (hx : x ∈ (l.clamped p).tmmbr) :
    (l.clamped p).e ≤ x.2 := by
  rw [clamped_e]
  exact Nat.le_trans (Nat.min_le_right _ _) (List.min?_getD_le_of_mem (List.mem_map_of_mem hx))

theorem minRate_le_clamped {l : Loop} {p : LoopPar} (hfree : (l.clamped p).tmmbr = []) (hp : p.minRate ≤ p.maxRate) :
    p.minRate ≤ (l.clamped p).e := by
  have htmmbr : l.tmmbr = [] := hfree
  have he : (l.clamped p).e = min (max l.e p.minRate) p.maxRate := by
    simp only [Loop.clamped, htmmbr, List.map_nil, List.foldl_nil]
  omega

/-- Whatever the mode, the estimate that R159 forms is brought within its bounds at the end. -/
theorem estimate_clamped (l : Loop) (p : LoopPar) (loss r : Nat) (measured : Bool) :
    ∃ l', l.estimate p loss r measured = Loop.clamped l' p := by
  unfold Loop.estimate
  extract_lets clampE
  split
  · exact ⟨_, rfl⟩
  split
  · exact ⟨_, rfl⟩
  · exact ⟨_, rfl⟩

/-! ### The loop item (R158) -/

theorem Within.setLoop {os : List Obj} {d e : Dev} (h : Within os d e) (n : Nat) (x : Loop) : Within os d (e.setLoop n x) :=
  h.parts rfl rfl rfl rfl

theorem Within.setTx {os : List Obj} {d e : Dev} (h : Within os d e) (n : Nat) (x : Tx) : Within os d (e.setTx n x) :=
  h.parts rfl rfl rfl rfl

theorem within_takeFeedback (os : List Obj) (d : Dev) (n : Nat) (f : Feedback) : Within os d (d.takeFeedback n f) := by
  cases f with
  | rr loss rtt => exact (Within.refl os d).setLoop n _
  | report packets => exact ((Within.refl os d).setTx n _).setLoop n _

/-- The loop after its item: its estimate within its bounds, and a target for the next edge. -/
def Loop.runTo (l : Loop) (p : LoopPar) (target : Nat) : Loop := { l.clamped p with pending := some target, ran := true }

/-- Does the loop item of leg `n` do nothing: no media, suspended, run already, or ended by a fault? -/
def Dev.loopRests (d : Dev) (n : Nat) : Prop :=
  (d.lifeOf n).media ≠ 2 ∨ (d.lifeOf n).suspended = true ∨ (d.loopOf n).ran = true ∨ d.itemFailed .loop n = true

/-- The loop of leg `n` becomes `l`, and the objects of the line show it with its loss, its acked rate and its gradient. -/
def Dev.showLine (d : Dev) (n : Nat) (l : Loop) (loss rate : Nat) (gradient : Int) : Dev :=
  (((((d.setLoop n l).setN .LINE_ESTIMATE n (l.e / 1000)).setN .LINE_STATE n l.state.num).setN .LINE_LOSS n loss).setN
    .LINE_ACKED_RATE n rate).setI .LINE_GRADIENT n 0 gradient

/-- The objects that the loop item writes. -/
def lineShown : List Obj := [.LINE_ESTIMATE, .LINE_STATE, .LINE_LOSS, .LINE_ACKED_RATE, .LINE_GRADIENT]

theorem within_showLine (d : Dev) (n : Nat) (l : Loop) (loss rate : Nat) (gradient : Int) :
    Within lineShown d (d.showLine n l loss rate gradient) := by
  have hloop : Within lineShown d (d.setLoop n l) := (Within.refl _ d).setLoop n l
  exact ((((hloop.put (o := .LINE_ESTIMATE) (by decide) _ _ _).put (o := .LINE_STATE) (by decide) _ _ _).put
    (o := .LINE_LOSS) (by decide) _ _ _).put (o := .LINE_ACKED_RATE) (by decide) _ _ _).put (o := .LINE_GRADIENT) (by decide) _ _ _

@[simp] theorem Dev.loopOf_put (d : Dev) (o : Obj) (u k : Nat) (v : Val) (n : Nat) : (d.put o u k v).loopOf n = d.loopOf n := rfl

theorem showLine_loopOf (d : Dev) (n : Nat) (l : Loop) (loss rate : Nat) (gradient : Int) :
    (d.showLine n l loss rate gradient).loopOf n = l := by
  simp [Dev.showLine, Dev.setN_eq, Dev.setI_eq]

theorem showLine_nat (d : Dev) (n : Nat) (l : Loop) (loss rate : Nat) (gradient : Int) :
    (d.showLine n l loss rate gradient).nat .LINE_ESTIMATE n = l.e / 1000 ∧
      (d.showLine n l loss rate gradient).nat .LINE_STATE n = l.state.num := by
  simp [Dev.showLine, Dev.setI_eq, Dev.nat_setN, Dev.nat_setN_other]

theorem lineLoop_rests {d : Dev} {n : Nat} (h : d.loopRests n) : d.lineLoop n = d := if_pos h

/-- The loop item of a leg that does not rest takes its feedback, which sets no object, and shows the estimate that it forms. -/
theorem lineLoop_runs {d : Dev} {n : Nat} (h : ¬d.loopRests n) :
    ∃ (e : Dev) (l : Loop) (p : LoopPar) (target loss rate : Nat) (gradient : Int), Within [] d e ∧
      p.minRate = d.nat .LEG_MIN_RATE n * 1000 ∧ p.maxRate = d.nat .LEG_MAX_RATE n * 1000 ∧
      d.lineLoop n = (e.showLine n (l.runTo p target) loss rate gradient).endItem .loop n := by
  unfold Dev.lineLoop
  rw [if_neg (show ¬(_ ∨ _ ∨ _ ∨ _) from h)]
  extract_lets t l now fb window use d1 d2 l2 mode par loss r l3 u l4
  have h1 : Within [] d d1 := (Within.refl _ d).setLoop n _
  have h2 : Within [] d d2 := Within.fold (fun e x => within_takeFeedback [] e n x.2) use h1
  obtain ⟨l', hl⟩ := estimate_clamped l2 par loss r.1 r.2
  refine ⟨d2, l', par, l3.e - u, loss, r.1 / 1000, l4.gradient window, h2, ?_, ?_, ?_⟩
  · exact congrArg (· * 1000) (h2.nat (by simp) n 0)
  · exact congrArg (· * 1000) (h2.nat (by simp) n 0)
  · rw [Loop.runTo, ← hl]
    rfl

/-- The first part of O31: the bounds are those of `Loop.clamped`. -/
theorem lineLoopEstimates : Sys2Proof.Claim.LineLoopEstimates := by
  intro s n hn hq hr d
  by_cases h : d.loopRests n
  · exact engine_completes hn hr (lineLoop_rests h) hq ⟨⟨rfl, rfl⟩, (if_pos h).mpr rfl⟩
  obtain ⟨e, l, p, target, loss, rate, gradient, he, hmin, hmax, heq⟩ := lineLoop_runs h
  have hend := endItem_endsItem (e.showLine n (l.runTo p target) loss rate gradient) .loop n
  have hloop := (hend.loopOf n).trans (showLine_loopOf ..)
  have hw : Within lineShown d (d.lineLoop n) := by
    rw [heq]
    exact ((he.mono (by simp)).trans (within_showLine ..)).trans (hend.within _)
  rw [← heq] at hloop hend
  obtain ⟨hestimate, hstate⟩ := showLine_nat e n (l.runTo p target) loss rate gradient
  refine engine_completes hn hr rfl (hw.quiet hq) ⟨⟨rfl, rfl⟩, (if_neg h).mpr ?_⟩
  dsimp only
  rw [hloop, ← hmin, ← hmax]
  exact ⟨rfl, rfl, clamped_le_maxRate l p, fun x hx => clamped_le_bound hx,
    fun hfree hle => minRate_le_clamped hfree (by omega), ((hend.within []).nat (by simp) n 0).trans hestimate,
    ((hend.within []).nat (by simp) n 0).trans hstate, hw.out, hw.obj⟩

/-! ### The FEC group (R162) -/

/-- The group size by the loss in whole per mille. -/
theorem fecFromLoss_perMille (loss : Nat) :
    fecFromLoss loss =
      if loss * 1000 / 65536 < 5 then 0 else if loss * 1000 / 65536 < 20 then 16 else if loss * 1000 / 65536 < 50 then 8
      else if loss * 1000 / 65536 < 100 then 4 else 2 := by
  simp only [fecFromLoss, Nat.div_lt_iff_lt_mul (show 0 < 65536 by decide)]

/-- The size in force: 0 where FEC is off, LEG_FEC_K in mode 2, and in mode 1 the size last evaluated. -/
theorem fecSize_eq (d : Dev) (n : Nat) :
    d.fecSize n = if 127 < d.nat .VTX_FEC_PT n ∨ d.nat .LEG_FEC_MODE n = 0 then 0
      else if d.nat .LEG_FEC_MODE n = 2 then d.nat .LEG_FEC_K n else (d.txOf n).fecK := by
  have hoff : (!d.fecOn n) = true ↔ 127 < d.nat .VTX_FEC_PT n ∨ d.nat .LEG_FEC_MODE n = 0 := by
    simp [Dev.fecOn]
  simp only [Dev.fecSize, hoff]

theorem fecEvaluate_eq (d : Dev) (n : Nat) :
    d.fecEvaluate n =
      let e := d.setTx n { d.txOf n with fecK := fecFromLoss (d.nat .LINE_LOSS n) }
      e.setN .LINE_FEC_K n (e.fecSize n) := rfl

/-- The second part of O31. -/
theorem fecFollowsTheLoss : Sys2Proof.Claim.FecFollowsTheLoss := by
  intro s n hn hq hr d perMille k
  have hk : fecFromLoss (d.nat .LINE_LOSS n) = k := fecFromLoss_perMille _
  let e := d.setTx n { d.txOf n with fecK := k }
  have he : Within [.LINE_FEC_K] d e := (Within.refl _ d).setTx n _
  have hw : Within [.LINE_FEC_K] d (e.setN .LINE_FEC_K n (e.fecSize n)) := he.put (by decide) _ _ _
  have htx : e.txOf n = { d.txOf n with fecK := k } := (d.txOf_setTx n n _).trans (if_pos rfl)
  have heq : d.fecEvaluate n = e.setN .LINE_FEC_K n (e.fecSize n) := by
    rw [fecEvaluate_eq, hk]
  refine engine_completes hn hr heq (hw.quiet hq) ⟨htx, rfl, ⟨rfl, rfl⟩, hw.obj, fun u p hu => ?_, ?_⟩
  · exact (Dev.get_put_other e _ fun hkey => hu hkey.2.1).trans rfl
  · rw [Dev.nat_setN, fecSize_eq, htx]
    rfl

end Sys2Proof.Machine
end

section
/-! PROOFS. Feedback in the order of its numbers (R163, R325), and O31. -/

namespace Sys2Proof.Machine

/-! ### A report that falls due (R163) -/

/-- Does a report of kind `k` of leg `n` make a feedback item: the leg's feedback asks for it, and the leg has media and a block? -/
def Dev.reportWanted (d : Dev) (n : Nat) (k : ReportKind) : Prop :=
  (k = .senderReport ∨ (k = .rfc8888 ∧ d.nat .LEG_FB_MODE n = 1) ∨ (k = .transportWide ∧ d.nat .LEG_FB_MODE n = 2)) ∧
    (2 ≤ (d.lifeOf n).media ∧ (d.lifeOf n).media ≤ 4 ∧ (d.lifeOf n).suspended = false) ∧ d.nat .LEG_ADMIT_BLOCK n < 64

theorem reportDue_unwanted {d : Dev} {n : Nat} {k : ReportKind} (h : ¬d.reportWanted n k) : d.reportDue n k = d := by
  refine if_neg fun hon => h ?_
  unfold Dev.reportWanted
  cases k <;> simpa [and_assoc, and_left_comm] using hon

theorem reportDue_wanted {d : Dev} {n : Nat} {k : ReportKind} (h : d.reportWanted n k) :
    d.reportDue n k = (d.setTx n { d.txOf n with
      due := (d.txOf n).due ++ [((d.blkOf (d.nat .LEG_ADMIT_BLOCK n)).nextSeq, k)] }).addFeedback n := by
  refine if_pos ?_
  unfold Dev.reportWanted at h
  cases k <;> simpa [and_assoc, and_left_comm] using h

/-- A feedback item is ready in the leg's block, with a place in its order under the block's next number (R325). -/
theorem addFeedback_spec {d : Dev} {n : Nat} (hb : d.nat .LEG_ADMIT_BLOCK n < 64) :
    let b := d.nat .LEG_ADMIT_BLOCK n
    let x := d.blkOf b
    let y := (d.addFeedback n).blkOf b
    y.nextSeq = x.nextSeq + 1 ∧ y.order = x.order ++ [(n, (x.nextSeq, .unfinished))] ∧
      ∃ i : Item, i.kind = .feedback ∧ i.unit = n ∧ i.seq = x.nextSeq ∧ y.ready = x.ready ++ [i] := by
  intro b x y
  let e := d.setBlk b { x with nextSeq := x.nextSeq + 1, order := x.order ++ [(n, (x.nextSeq, .unfinished))] }
  let i : Item := ⟨.feedback, n, d.gen.total, false, false, e.estimate .feedback n, x.nextSeq⟩
  have hadd : d.addFeedback n = e.addItem .feedback n x.nextSeq := if_neg (Nat.not_le.mpr hb)
  have hitem : e.addItem .feedback n x.nextSeq = e.setBlk b { e.blkOf b with ready := (e.blkOf b).ready ++ [i] } :=
    if_neg (Nat.not_le.mpr hb)
  have he : e.blkOf b = { x with nextSeq := x.nextSeq + 1, order := x.order ++ [(n, (x.nextSeq, .unfinished))] } :=
    (d.blkOf_setBlk b b _).trans (if_pos rfl)
  have hy : y = { x with
      nextSeq := x.nextSeq + 1, order := x.order ++ [(n, (x.nextSeq, .unfinished))], ready := x.ready ++ [i] } := by
    show (d.addFeedback n).blkOf b = _
    rw [hadd, hitem, Dev.blkOf_setBlk, if_pos rfl, he]
  rw [hy]
  exact ⟨rfl, rfl, i, rfl, rfl, rfl, rfl⟩

theorem addFeedback_onlyBlk (d : Dev) (n : Nat) : ∃ blk, d.addFeedback n = { d with blk := blk } := by
  unfold Dev.addFeedback
  extract_lets b x e
  split
  · exact ⟨_, rfl⟩
  · unfold Dev.addItem
    dsimp only
    split <;> exact ⟨_, rfl⟩

/-- What a report of leg `n` that falls due leaves beyond the leg's block. -/
theorem reportDue_frame {d : Dev} {n : Nat} {k : ReportKind} (h : d.reportWanted n k) :
    Within [] d (d.reportDue n k) ∧
      ((d.reportDue n k).txOf n).due = (d.txOf n).due ++ [((d.blkOf (d.nat .LEG_ADMIT_BLOCK n)).nextSeq, k)] := by
  rw [reportDue_wanted h]
  generalize (d.blkOf (d.nat .LEG_ADMIT_BLOCK n)).nextSeq = seq
  obtain ⟨blk, hblk⟩ := addFeedback_onlyBlk (d.setTx n { d.txOf n with due := (d.txOf n).due ++ [(seq, k)] }) n
  rw [hblk]
  refine ⟨(Within.refl _ d).parts rfl rfl rfl rfl, ?_⟩
  have htx := d.txOf_setTx n n { d.txOf n with due := (d.txOf n).due ++ [(seq, k)] }
  rw [if_pos rfl] at htx
  exact congrArg Tx.due htx

/-- A report that falls due becomes a feedback item, or nothing where it is not wanted. -/
theorem dueReportsBecomeItems (s : State) (n : Nat) (kind : ReportKind) (hn : n < 4096) (hq : s.dev.quiet)
    (hr : s.dev.gen.running = true) :
    let d := s.dev
    let b := d.nat .LEG_ADMIT_BLOCK n
    let seq := (d.blkOf b).nextSeq
    completes (.rtcpReportDue n kind) s fun t => keepsRest s t ∧ (¬d.reportWanted n kind → t.dev = d) ∧
      (d.reportWanted n kind → keepsBut d t.dev [] ∧ t.dev.out = d.out ∧ (t.dev.txOf n).due = (d.txOf n).due ++ [(seq, kind)] ∧
        (t.dev.blkOf b).nextSeq = seq + 1 ∧ (t.dev.blkOf b).order = (d.blkOf b).order ++ [(n, (seq, .unfinished))] ∧
        ∃ i : Item, i.kind = .feedback ∧ i.unit = n ∧ i.seq = seq ∧ (t.dev.blkOf b).ready = (d.blkOf b).ready ++ [i]) := by
  intro d b seq
  by_cases h : d.reportWanted n kind
  · obtain ⟨hw, hdue⟩ := reportDue_frame h
    have hitem := addFeedback_spec (d := d.setTx n { d.txOf n with due := (d.txOf n).due ++ [(seq, kind)] }) (n := n) h.2.2
    rw [← reportDue_wanted h] at hitem
    exact engine_completes hn hr rfl (hw.quiet hq) ⟨⟨rfl, rfl⟩, fun hnot => absurd h hnot, fun _ => ⟨hw.obj, hw.out, hdue, hitem⟩⟩
  · exact engine_completes hn hr (reportDue_unwanted h) hq ⟨⟨rfl, rfl⟩, fun _ => rfl, fun hyes => absurd hyes h⟩

/-! ### Results leave in order (R325) -/

/-- Behind a result that is unfinished none of the leg leaves. -/
theorem releaseOrder_blocked (n : Nat) (order : List (Nat × (Nat × OrderSlot))) : releaseOrder n false order = ([], order) := by
  induction order with
  | nil => rfl
  | cons o r ih =>
    obtain ⟨l, q, slot⟩ := o
    simp [releaseOrder, ih]

theorem releaseOrder_otherLeg {n l : Nat} (h : l ≠ n) (q : Nat) (slot : OrderSlot) (r : List (Nat × (Nat × OrderSlot))) :
    releaseOrder n true ((l, (q, slot)) :: r) = ((releaseOrder n true r).1, (l, (q, slot)) :: (releaseOrder n true r).2) := by
  simp [releaseOrder, h]

theorem releaseOrder_unfinished (n q : Nat) (r : List (Nat × (Nat × OrderSlot))) :
    releaseOrder n true ((n, (q, .unfinished)) :: r) = ([], (n, (q, .unfinished)) :: r) := by
  simp [releaseOrder, releaseOrder_blocked]

theorem releaseOrder_held (n q : Nat) (parts : List RtcpTx) (r : List (Nat × (Nat × OrderSlot))) :
    releaseOrder n true ((n, (q, .held parts)) :: r) = (parts :: (releaseOrder n true r).1, (releaseOrder n true r).2) := by
  simp [releaseOrder]

theorem releaseOrder_void (n q : Nat) (r : List (Nat × (Nat × OrderSlot))) :
    releaseOrder n true ((n, (q, .void)) :: r) = releaseOrder n true r := by
  simp [releaseOrder]

/-- What a finished result sends: its parts, and nothing where a fault has ended it. -/
def OrderSlot.parts : OrderSlot → Option (List RtcpTx)
  | .held p => some p
  | _ => none

/-- The results of a leg leave up to its first unfinished one; the rest stay, and so do those of the other legs. -/
theorem releaseOrder_spec (n : Nat) (order : List (Nat × (Nat × OrderSlot))) :
    let mine := order.filter fun o => o.1 = n
    let done := fun (o : Nat × (Nat × OrderSlot)) => decide (o.2.2 ≠ .unfinished)
    (releaseOrder n true order).1 = (mine.takeWhile done).filterMap (fun o => o.2.2.parts) ∧
      ((releaseOrder n true order).2.filter fun o => o.1 = n) = mine.dropWhile done ∧
      ((releaseOrder n true order).2.filter fun o => o.1 ≠ n) = order.filter fun o => o.1 ≠ n := by
  induction order with
  | nil => exact ⟨rfl, rfl, rfl⟩
  | cons o r ih =>
    obtain ⟨l, q, slot⟩ := o
    by_cases hl : l = n
    · subst hl
      cases slot with
      | unfinished =>
        rw [releaseOrder_unfinished]
        simp
      | held parts =>
        rw [releaseOrder_held]
        simpa [OrderSlot.parts] using ih
      | void =>
        rw [releaseOrder_void]
        simpa [OrderSlot.parts] using ih
    · rw [releaseOrder_otherLeg hl]
      simpa [hl] using ih

theorem releaseOrder_subset (n : Nat) (free : Bool) (order : List (Nat × (Nat × OrderSlot))) : (releaseOrder n free order).2 ⊆ order := by
  cases free with
  | false => rw [releaseOrder_blocked]; exact List.Subset.refl _
  | true =>
    induction order with
    | nil => exact List.Subset.refl _
    | cons o r ih =>
      obtain ⟨l, q, slot⟩ := o
      by_cases hl : l = n
      · subst hl
        cases slot with
        | unfinished => rw [releaseOrder_unfinished]; exact List.Subset.refl _
        | held parts => rw [releaseOrder_held]; exact List.subset_cons_of_subset _ ih
        | void => rw [releaseOrder_void]; exact List.subset_cons_of_subset _ ih
      · rw [releaseOrder_otherLeg hl]
        exact List.cons_subset_cons _ ih

/-! ### A result that is finished (R163, R325) -/

/-- `e` has sent and logged nothing more than `d`. -/
structure Silent (d e : Dev) : Prop where
  out : e.out = d.out
  faults : e.faults = d.faults
  trig : e.trig = d.trig

theorem Silent.trans {d e f : Dev} (h : Silent d e) (g : Silent e f) : Silent d f :=
  ⟨g.out.trans h.out, g.faults.trans h.faults, g.trig.trans h.trig⟩

theorem Within.silent {os : List Obj} {d e : Dev} (h : Within os d e) : Silent d e := ⟨h.out, h.faults, h.trig⟩

theorem Silent.quiet {d e : Dev} (h : Silent d e) (hq : d.quiet) : e.quiet := by
  unfold Dev.quiet
  rw [h.faults, h.trig]
  exact hq

/-- `e` keeps leg `n`'s due reports and the blocks of `d`, and has sent and logged nothing more. -/
structure KeepsDue (n : Nat) (d e : Dev) : Prop where
  due : (e.txOf n).due = (d.txOf n).due
  blk : e.blk = d.blk
  silent : Silent d e

theorem KeepsDue.refl (n : Nat) (d : Dev) : KeepsDue n d d := ⟨rfl, rfl, rfl, rfl, rfl⟩

theorem KeepsDue.trans {n : Nat} {d e f : Dev} (h : KeepsDue n d e) (g : KeepsDue n e f) : KeepsDue n d f :=
  ⟨g.due.trans h.due, g.blk.trans h.blk, h.silent.trans g.silent⟩

theorem KeepsDue.order {n : Nat} {d e : Dev} (h : KeepsDue n d e) (b : Nat) : (e.blkOf b).order = (d.blkOf b).order := by
  unfold Dev.blkOf
  rw [h.blk]

theorem onlyPools.keepsDue {d e : Dev} (h : onlyPools d e) (n : Nat) : KeepsDue n d e := by
  obtain ⟨t, x, rfl⟩ := h
  exact ⟨rfl, rfl, rfl, rfl, rfl⟩

theorem keepsDue_setTx {d : Dev} {n : Nat} {x : Tx} (hx : x.due = (d.txOf n).due) : KeepsDue n d (d.setTx n x) := by
  refine ⟨?_, rfl, rfl, rfl, rfl⟩
  rw [Dev.txOf_setTx, if_pos rfl]
  exact hx

theorem keepsDue_setRx (d : Dev) (n m : Nat) (x : Rx) : KeepsDue n d (d.setRx m x) := ⟨rfl, rfl, rfl, rfl, rfl⟩

theorem keepsDue_enqueue_control (d : Dev) (n : Nat) (q : QPkt) : KeepsDue n d (d.enqueue n .control q) := by
  unfold Dev.enqueue
  extract_lets q' x t
  split
  · exact ((onlyPools_refl d).put _ _ _ _).keepsDue n
  dsimp only
  split
  · unfold Dev.enqueueWith
    split
    · exact keepsDue_setTx rfl
    · extract_lets r
      have hr : KeepsDue n d r.2 := (onlyPools_allocKept d _ _ _ _).keepsDue n
      split
      · exact hr.trans (keepsDue_setTx rfl)
      · exact hr
  · exact ((onlyPools_refl d).put _ _ _ _).keepsDue n

theorem keepsDue_buildReport (d : Dev) (n : Nat) (k : ReportKind) : KeepsDue n d (d.buildReport n k).2 := by
  cases k with
  | senderReport => exact keepsDue_setRx d n n _
  | rfc8888 => exact keepsDue_setRx d n n _
  | transportWide => exact (keepsDue_setRx d n n _).trans (keepsDue_setTx (x := { d.txOf n with fbCount := _ }) rfl)

/-- A result that takes its outcome leaves the leg's due reports, and of the block's order no place but its own differs. -/
theorem orderResult_spec (d : Dev) (b n seq : Nat) (slot : OrderSlot) {e : Dev} (h : (d.orderResult b n seq slot).2 = e) :
    (e.txOf n).due = (d.txOf n).due ∧ Silent d e ∧ ∀ o ∈ (e.blkOf b).order, o ∈ (d.blkOf b).order ∨ o.1 = n ∧ o.2.1 = seq := by
  subst h
  unfold Dev.orderResult
  extract_lets x order r d1 waits
  have h1 : (d1.blkOf b).order = r.2 := by
    rw [Dev.blkOf_setBlk, if_pos rfl]
  have hplaces : ∀ o ∈ (d1.blkOf b).order, o ∈ x.order ∨ o.1 = n ∧ o.2.1 = seq := fun o ho => by
    rw [h1] at ho
    obtain ⟨o', ho', rfl⟩ := List.mem_map.mp (releaseOrder_subset n true order ho)
    split
    · exact .inr ⟨rfl, rfl⟩
    · exact .inl ho'
  cases waits <;> exact ⟨rfl, ⟨rfl, rfl, rfl⟩, hplaces⟩

/-- The results of leg `n` that are free to go enter its control queue. -/
def Dev.sendResults (d : Dev) (n : Nat) (results : List (List RtcpTx)) : Dev :=
  results.foldl (fun d parts => d.enqueue n .control { rtcp := parts }) d

theorem keepsDue_sendResults (d : Dev) (n : Nat) (results : List (List RtcpTx)) : KeepsDue n d (d.sendResults n results) :=
  foldl_keeps (P := KeepsDue n d) (fun e parts he => he.trans (keepsDue_enqueue_control e n { rtcp := parts })) results
    (KeepsDue.refl n d)

/-- The report of number `seq` is no longer due. -/
def Dev.takeDue (d : Dev) (n seq : Nat) : Dev := d.setTx n { d.txOf n with due := tdel seq (d.txOf n).due }

theorem takeDue_due (d : Dev) (n seq : Nat) : ((d.takeDue n seq).txOf n).due = tdel seq (d.txOf n).due := by
  rw [Dev.takeDue, Dev.txOf_setTx, if_pos rfl]

theorem feedbackBuilt_eq {d : Dev} {n b seq : Nat} (hn : d.nat .LEG_ADMIT_BLOCK n = b) (hb : b < 64)
    (hseq : d.feedbackSeq b n = some seq) :
    d.feedbackBuilt n =
      let p := (d.takeDue n seq).buildReport n (tget .senderReport seq (d.txOf n).due)
      let r := p.2.orderResult b n seq (.held p.1)
      (r.2.sendResults n r.1).endItem .feedback n := by
  simp only [Dev.feedbackBuilt, hn, if_neg (Nat.not_le.mpr hb), hseq]
  rfl

/-- A feedback item that completes takes its report off those due, and its result takes its place in the order. -/
theorem feedbackBuilt_spec {d : Dev} {n b seq : Nat} (hn : d.nat .LEG_ADMIT_BLOCK n = b) (hb : b < 64)
    (hseq : d.feedbackSeq b n = some seq) :
    ((d.feedbackBuilt n).txOf n).due = tdel seq (d.txOf n).due ∧ Silent d (d.feedbackBuilt n) ∧
      ∀ o ∈ ((d.feedbackBuilt n).blkOf b).order, o ∈ (d.blkOf b).order ∨ o.1 = n ∧ o.2.1 = seq := by
  rw [feedbackBuilt_eq hn hb hseq]
  extract_lets p r
  have htaken : Silent d (d.takeDue n seq) := ⟨rfl, rfl, rfl⟩
  have hreport : KeepsDue n (d.takeDue n seq) p.2 := keepsDue_buildReport _ n _
  obtain ⟨hresult, hsilent, hplaces⟩ := orderResult_spec p.2 b n seq (.held p.1) (e := r.2) rfl
  have hsent : KeepsDue n r.2 (r.2.sendResults n r.1) := keepsDue_sendResults r.2 n r.1
  have hend := endItem_endsItem (r.2.sendResults n r.1) .feedback n
  refine ⟨?_, ?_, fun o ho => ?_⟩
  · rw [hend.txOf, hsent.due, hresult, hreport.due, takeDue_due]
  · exact ((htaken.trans hreport.silent).trans hsilent).trans (hsent.silent.trans (hend.within []).silent)
  · rw [hend.order, hsent.order] at ho
    have hmine := hplaces o ho
    rwa [hreport.order] at hmine

/-- A feedback item that completes: its report is due no longer, and its result waits or has left in its order. -/
theorem builtFeedbackLeavesItsPlace (s : State) (n seq : Nat) (hn : n < 4096) (hq : s.dev.quiet) (hr : s.dev.gen.running = true)
    (hb : s.dev.nat .LEG_ADMIT_BLOCK n < 64) (hseq : s.dev.feedbackSeq (s.dev.nat .LEG_ADMIT_BLOCK n) n = some seq) :
    completes (.feedbackBuildItem n) s fun t => keepsRest s t ∧ t.dev.out = s.dev.out ∧
      (t.dev.txOf n).due = tdel seq (s.dev.txOf n).due ∧
      ∀ o ∈ (t.dev.blkOf (s.dev.nat .LEG_ADMIT_BLOCK n)).order,
        o ∈ (s.dev.blkOf (s.dev.nat .LEG_ADMIT_BLOCK n)).order ∨ o.1 = n ∧ o.2.1 = seq := by
  obtain ⟨hdue, hsilent, hplaces⟩ := feedbackBuilt_spec rfl hb hseq
  have hsweep : KeepsDue n (s.dev.feedbackBuilt n) (s.dev.feedbackBuilt n).bufferSweep := (onlyPools_bufferSweep _).keepsDue n
  rw [← hsweep.due] at hdue
  rw [← hsweep.order] at hplaces
  have hall := hsilent.trans hsweep.silent
  exact engine_completes hn hr rfl (hall.quiet hq) ⟨⟨rfl, rfl⟩, hall.out, hdue, hplaces⟩

/-- The third part of O31: what falls due, what is finished, and the order in which results leave. -/
theorem feedbackLeavesInOrder : Sys2Proof.Claim.FeedbackLeavesInOrder := by
  refine ⟨fun s n kind hn hq hr => ?_, builtFeedbackLeavesItsPlace, releaseOrder_spec⟩
  obtain ⟨t, hnext, hrest, hno, hyes⟩ := dueReportsBecomeItems s n kind hn hq hr
  exact ⟨t, hnext, hrest, hno, fun hw hm hb => hyes ⟨hw, hm, hb⟩⟩

/-- Settles O31: the loop's estimate, the FEC group by the loss, and the feedback in its order. -/
theorem linesAdaptToTheirLoss : Obligations.LinesAdaptToTheirLoss := ⟨lineLoopEstimates, fecFollowsTheLoss, feedbackLeavesInOrder⟩

end Sys2Proof.Machine
end

section
/-! PROOFS. The mix of a conference (R196 to R198), of O33. -/

namespace Sys2Proof.Machine

/-! ### Audio, mixes and the end of an item -/

theorem audioOf_setAudio_same (d : Dev) (n : Nat) (a : LegAudio) : (d.setAudio n a).audioOf n = a :=
  (d.audioOf_setAudio n n a).trans (if_pos rfl)

theorem EndsItem.audioOf {d e : Dev} (h : EndsItem d e) (n : Nat) : e.audioOf n = d.audioOf n := by
  obtain ⟨c, y, blk, rfl⟩ := h.parts
  rfl

theorem EndsItem.mixOf {d e : Dev} (h : EndsItem d e) (k : Nat) : e.mixOf k = d.mixOf k := by
  obtain ⟨c, y, blk, rfl⟩ := h.parts
  rfl

theorem EndsItem.nat {d e : Dev} (h : EndsItem d e) (o : Obj) (u k : Nat) : e.nat o u k = d.nat o u k := by
  obtain ⟨c, y, blk, rfl⟩ := h.parts
  rfl

theorem Within.setMix {os : List Obj} {d e : Dev} (h : Within os d e) (k : Nat) (x : ConfMix) : Within os d (e.setMix k x) :=
  h.parts rfl rfl rfl rfl

theorem Within.setAudio {os : List Obj} {d e : Dev} (h : Within os d e) (n : Nat) (x : LegAudio) :
    Within os d (e.setAudio n x) := h.parts rfl rfl rfl rfl

/-! ### What the objects say of a mix (R202, R203) -/

theorem onlyDict.fold {τ : Type} {f : Dev → τ → Dev} (hf : ∀ {d e : Dev} x, onlyDict d e → onlyDict d (f e x))
    (l : List τ) {d e : Dev} (h : onlyDict d e) : onlyDict d (l.foldl f e) :=
  foldl_keeps (P := onlyDict d) (fun _ x hs => hf x hs) l h

theorem onlyDict.mixOf {d e : Dev} (h : onlyDict d e) (k : Nat) : e.mixOf k = d.mixOf k := by
  obtain ⟨t, x, rfl⟩ := h
  rfl

/-- An object that is set to one value for each of a list of units holds it for all of them. -/
theorem nat_setEach (o : Obj) (v : Nat) {n : Nat} {l : List Nat} (hn : n ∈ l) (d : Dev) :
    (l.foldl (fun e m => e.setN o m v) d).nat o n = v := by
  obtain ⟨before, after, rfl⟩ := List.append_of_mem hn
  rw [List.foldl_append, List.foldl_cons]
  refine foldl_keeps (P := fun e : Dev => e.nat o n = v) (fun e m he => ?_) after (Dev.nat_setN _ o n v)
  rw [Dev.setN_eq, Dev.nat_put, he]
  exact ite_self v

/-- The objects that show a mix. -/
def mixShown : List Obj := [.LEG_IN_MIXED, .CONF_MIX_MEMBER, .CONF_MIX_COUNT]

/-- The legs that `showMix` has shown out of the mix, and those it has shown in it. -/
def Dev.showMixed (d : Dev) (k : Nat) (before : List Member) : Dev :=
  let now := (d.mixOf k).set.map (·.leg)
  now.foldl (fun e n => e.setN .LEG_IN_MIXED n 1)
    ((before.map (·.leg)).foldl (fun e n => if now.contains n then e else e.setN .LEG_IN_MIXED n 0) d)

theorem showMix_eq (d : Dev) (k : Nat) (before : List Member) :
    d.showMix k before =
      let e := d.showMixed k before
      let order := e.byActivity ((d.mixOf k).set.map (·.leg))
      ((List.range 32).foldl (fun e i => e.put .CONF_MIX_MEMBER k i (.num (order.getD i 0xFFFF : Nat))) e).setN .CONF_MIX_COUNT k
        ((d.mixOf k).set.map (·.leg)).length := rfl

theorem within_showMixed (d : Dev) (k : Nat) (before : List Member) : Within mixShown d (d.showMixed k before) := by
  refine Within.fold (fun e n => (Within.refl _ e).put (by decide) _ _ _) _ (Within.fold (fun e n => ?_) _ (Within.refl _ d))
  split
  · exact Within.refl _ e
  · exact (Within.refl _ e).put (by decide) _ _ _

theorem onlyDict_showMixed (d : Dev) (k : Nat) (before : List Member) : onlyDict d (d.showMixed k before) := by
  refine onlyDict.fold (fun n h => h.put _ _ _ _) _ (onlyDict.fold (fun n h => ?_) _ (onlyDict_refl d))
  split
  · exact h
  · exact h.put _ _ _ _

theorem within_showMix (d : Dev) (k : Nat) (before : List Member) : Within mixShown d (d.showMix k before) := by
  rw [showMix_eq]
  exact (Within.fold (fun e i => (Within.refl _ e).put (by decide) _ _ _) _ (within_showMixed d k before)).put (by decide) _ _ _

theorem onlyDict_showMix (d : Dev) (k : Nat) (before : List Member) : onlyDict d (d.showMix k before) := by
  rw [showMix_eq]
  exact (onlyDict.fold (fun i h => h.put _ _ _ _) _ (onlyDict_showMixed d k before)).put _ _ _ _

theorem showMix_count (d : Dev) (k : Nat) (before : List Member) :
    (d.showMix k before).nat .CONF_MIX_COUNT k = (d.mixOf k).set.length := by
  rw [showMix_eq]
  exact (Dev.nat_setN _ _ _ _).trans (List.length_map _)

/-- Every leg of the set shows that it is mixed. -/
theorem showMix_inMixed (d : Dev) (k : Nat) (before : List Member) {m : Member} (hm : m ∈ (d.mixOf k).set) :
    (d.showMix k before).nat .LEG_IN_MIXED m.leg = 1 := by
  have hset : (d.showMixed k before).nat .LEG_IN_MIXED m.leg = 1 := nat_setEach _ _ (List.mem_map_of_mem hm) _
  have hmembers : ∀ f : Nat → Val, Within [.CONF_MIX_MEMBER] (d.showMixed k before)
      ((List.range 32).foldl (fun e i => e.put .CONF_MIX_MEMBER k i (f i)) (d.showMixed k before)) := fun f =>
    Within.fold (fun e i => (Within.refl _ e).put (by decide) _ _ _) _ (Within.refl _ _)
  rw [showMix_eq, Dev.nat_setN_other _ _ _ _ _ (by decide)]
  exact ((hmembers _).nat (by decide) _ _).trans hset

/-! ### The mix item (R176, R196 to R198) -/

/-- Does the mix of conference `k` wait for an input of a member? -/
def Dev.mixWaits (d : Dev) (k : Nat) : Prop := ∃ n ∈ d.confMembers k, (d.audioOf n).want = true ∧ (d.audioOf n).done = false

/-- Does the mix item of conference `k` do nothing: not dispatched, mixed already, waiting, or ended by a fault? -/
def Dev.mixRests (d : Dev) (k : Nat) : Prop :=
  (d.mixOf k).want = false ∨ (d.mixOf k).mixed = true ∨ d.mixWaits k ∨ d.itemFailed .mix k = true

theorem mixRests_iff (d : Dev) (k : Nat) :
    (!(d.mixOf k).want || (d.mixOf k).mixed || !((d.confMembers k).all fun n => !(d.audioOf n).want || (d.audioOf n).done) ||
      d.itemFailed .mix k) = true ↔ d.mixRests k := by
  simp [Dev.mixRests, Dev.mixWaits, or_assoc]

theorem mixRun_rests {d : Dev} {k : Nat} (h : d.mixRests k) : d.mixRun k = d := if_pos ((mixRests_iff d k).mpr h)

/-- The contributions of a full mix add up to it, sample by sample. -/
theorem fullMix_sum (d : Dev) (x : ConfMix) :
    (d.fullMix x).2 = (List.range 80).map fun i => ((d.fullMix x).1.map fun c => c.2.getD i 0).sum := by
  unfold Dev.fullMix
  simp only [List.sum_eq_foldl, List.foldl_map]

/-- Conference `k` with the mix that its selection makes, and the entries counted. -/
def Dev.mixSelected (d : Dev) (k : Nat) : Dev :=
  let s := d.select k
  (d.setMix k { s.1 with w := (d.fullMix s.1).1, m := (d.fullMix s.1).2, mixed := true }).add .CONF_MIX_CHANGES k 0 s.2

theorem mixRun_runs {d : Dev} {k : Nat} (h : ¬d.mixRests k) :
    d.mixRun k = ((d.mixSelected k).showMix k (d.mixOf k).set).endItem .mix k :=
  if_neg (mt (mixRests_iff d k).mp h)

theorem mixSelected_mixOf (d : Dev) (k j : Nat) :
    (d.mixSelected k).mixOf j = if j = k then
      { (d.select k).1 with w := (d.fullMix (d.select k).1).1, m := (d.fullMix (d.select k).1).2, mixed := true }
    else d.mixOf j := Dev.mixOf_setMix d k j _

theorem within_mixSelected (d : Dev) (k : Nat) : Within (.CONF_MIX_CHANGES :: mixShown) d (d.mixSelected k) :=
  ((Within.refl _ d).setMix k _).put (o := .CONF_MIX_CHANGES) (by decide) _ _ _

/-- The first part of O33: the sum is that of `fullMix_sum`, and the set is shown by `showMix`. -/
theorem mixesAddTheirContributors : Sys2Proof.Claim.MixesAddTheirContributors := by
  intro s k hk hq hr d waits
  by_cases h : d.mixRests k
  · refine engine_completes hk hr (mixRun_rests h) hq
      ⟨⟨rfl, rfl⟩, fun _ => rfl, fun hwant hmixed (hwaits : ¬d.mixWaits k) hfailed => absurd h ?_⟩
    simpa [Dev.mixRests, hwant, hmixed, hfailed] using hwaits
  have hend := endItem_endsItem ((d.mixSelected k).showMix k (d.mixOf k).set) .mix k
  have hmix : ∀ j, (d.mixRun k).mixOf j = (d.mixSelected k).mixOf j := fun j => by
    rw [mixRun_runs h, hend.mixOf, (onlyDict_showMix ..).mixOf]
  have hw : Within (.CONF_MIX_CHANGES :: mixShown) d (d.mixRun k) := by
    rw [mixRun_runs h]
    exact ((within_mixSelected d k).trans ((within_showMix ..).mono (by decide))).trans (hend.within _)
  refine engine_completes hk hr rfl (hw.quiet hq) ⟨⟨rfl, rfl⟩, fun hrest => absurd hrest h, fun _ _ _ _ => ?_⟩
  dsimp only
  refine ⟨?mixed, ?sum, ?count, fun m hm => ?shown, hw.out, fun j hj => ?others, hw.obj⟩
  case mixed => rw [hmix, mixSelected_mixOf, if_pos rfl]
  case sum =>
    rw [hmix, mixSelected_mixOf, if_pos rfl]
    exact fullMix_sum d _
  case count => rw [hmix, mixRun_runs h, hend.nat, showMix_count]
  case shown =>
    rw [hmix] at hm
    rw [mixRun_runs h, hend.nat, showMix_inMixed _ _ _ hm]
  case others => rw [hmix, mixSelected_mixOf, if_neg hj]

end Sys2Proof.Machine
end

section
/-! PROOFS. The output of a leg (R176, R198 to R200), and O33. -/

namespace Sys2Proof.Machine

/-! ### Samples in their number and range -/

theorem sat_range (x : Int) (w : Nat) : -(2 : Int) ^ (w - 1) ≤ sat x w ∧ sat x w < (2 : Int) ^ (w - 1) := by
  have hpos : (0 : Int) < 2 ^ (w - 1) := Int.pow_pos (by decide)
  unfold sat clamp
  split
  · omega
  split <;> omega

theorem biquadRun_length (c : Nat → Int) (w : Nat) (b : Biquad) (xs : List Int) : (Biquad.run c w b xs).1.length = xs.length := by
  induction xs generalizing b with
  | nil => rfl
  | cons x r ih => exact congrArg (· + 1) (ih _)

/-- A filter profile gives as many samples as it takes. -/
theorem filterProfile_length (d : Dev) (e w : Nat) (bs : List Biquad) (xs : List Int) :
    (d.filterProfile e w bs xs).1.length = xs.length := by
  refine foldl_keeps (P := fun s : List Int × List Biquad => s.1.length = xs.length) (fun s i hs => ?_) _ rfl
  dsimp only
  split
  · exact (biquadRun_length _ _ _ _).trans hs
  · exact hs

/-- The limiter leaves as many samples as it takes, within 24 bits, with a least gain of at most one. -/
theorem limiterRun_spec (on : Bool) (thr rel : Nat) (l : Limiter) (xs : List Int) :
    (Limiter.run on thr rel l xs).1.1.length = xs.length ∧
      (∀ v ∈ (Limiter.run on thr rel l xs).1.1, -(2 : Int) ^ 23 ≤ v ∧ v < 2 ^ 23) ∧
      (Limiter.run on thr rel l xs).1.2.1 ≤ 0x8000 := by
  induction xs generalizing l with
  | nil => exact ⟨rfl, fun v hv => absurd hv List.not_mem_nil, Nat.le_refl _⟩
  | cons x r ih =>
    obtain ⟨hlength, hrange, hgain⟩ := ih (l.step on thr rel x).2
    exact ⟨congrArg (· + 1) hlength, List.forall_mem_cons.mpr ⟨sat_range _ 24, hrange⟩,
      Nat.le_trans (Nat.min_le_right _ _) hgain⟩

/-! ### Stages after the limiter -/

/-- `e` keeps leg `n`'s return of `d`: its stage-14 samples, and that its output item is done or not. -/
structure KeepsReturn (n : Nat) (d e : Dev) : Prop where
  last14 : (e.audioOf n).last14 = (d.audioOf n).last14
  outDone : (e.audioOf n).outDone = (d.audioOf n).outDone

theorem KeepsReturn.refl (n : Nat) (d : Dev) : KeepsReturn n d d := ⟨rfl, rfl⟩

theorem KeepsReturn.trans {n : Nat} {d e f : Dev} (h : KeepsReturn n d e) (g : KeepsReturn n e f) : KeepsReturn n d f :=
  ⟨g.last14.trans h.last14, g.outDone.trans h.outDone⟩

theorem KeepsReturn.setAudio {n : Nat} {d e : Dev} (h : KeepsReturn n d e) {a : LegAudio} (hy : a.last14 = (e.audioOf n).last14)
    (hdone : a.outDone = (e.audioOf n).outDone) : KeepsReturn n d (e.setAudio n a) := by
  refine h.trans ⟨?_, ?_⟩
  · rwa [audioOf_setAudio_same]
  · rwa [audioOf_setAudio_same]

theorem KeepsReturn.put {n : Nat} {d e : Dev} (h : KeepsReturn n d e) (o : Obj) (u k : Nat) (v : Val) :
    KeepsReturn n d (e.put o u k v) := ⟨h.last14, h.outDone⟩

theorem KeepsReturn.setTx {n : Nat} {d e : Dev} (h : KeepsReturn n d e) (m : Nat) (x : Tx) : KeepsReturn n d (e.setTx m x) :=
  ⟨h.last14, h.outDone⟩

theorem tap_spec (d : Dev) (n m point : Nat) (xs : List Int) :
    Within [.TAP_DATA] d (d.tap m point xs) ∧ KeepsReturn n d (d.tap m point xs) := by
  unfold Dev.tap
  split
  · exact ⟨(Within.refl _ d).put (by decide) _ _ _, (KeepsReturn.refl n d).put _ _ _ _⟩
  · exact ⟨Within.refl _ d, KeepsReturn.refl n d⟩

/-- Stage 15 shows the level of the return. -/
theorem outLevels_spec (d : Dev) (n : Nat) (y : List Int) :
    Within [.LEG_OUT_LEVEL, .LEG_OUT_PEAK] d (d.outLevels n y) ∧ KeepsReturn n d (d.outLevels n y) ∧
      (d.outLevels n y).nat .LEG_OUT_LEVEL n = levelCode (sumSquares y) := by
  unfold Dev.outLevels
  extract_lets a pk
  have ha : Within [.LEG_OUT_LEVEL, .LEG_OUT_PEAK] d (d.setAudio n { a with outPeakAge := pk.2 }) := (Within.refl _ d).setAudio n _
  have hkeeps : KeepsReturn n d (d.setAudio n { a with outPeakAge := pk.2 }) := (KeepsReturn.refl n d).setAudio rfl rfl
  refine ⟨(ha.put (o := .LEG_OUT_LEVEL) (by decide) _ _ _).put (o := .LEG_OUT_PEAK) (by decide) _ _ _,
    (hkeeps.put _ _ _ _).put _ _ _ _, ?_⟩
  rw [Dev.nat_setN_other _ _ _ _ _ (by decide), Dev.nat_setN]

/-- Stage 16 changes no object but what a tap takes, and not the return. -/
theorem toFrame_spec (d : Dev) (n : Nat) (y : List Int) :
    Within [.TAP_DATA] d (d.toFrame n y) ∧ KeepsReturn n d (d.toFrame n y) := by
  unfold Dev.toFrame Dev.toFrameAt
  extract_lets w rate a c d1 frame k a1 len t d2 cut
  split
  · exact ⟨Within.refl _ d, KeepsReturn.refl n d⟩
  obtain ⟨hw, hkeeps⟩ : Within [.TAP_DATA] d d1 ∧ KeepsReturn n d d1 := tap_spec d n n 4 _
  split
  · exact ⟨hw.setAudio n _, hkeeps.setAudio hkeeps.last14.symm hkeeps.outDone.symm⟩
  · exact ⟨(hw.setTx n _).setAudio n _, (hkeeps.setTx n _).setAudio hkeeps.last14.symm hkeeps.outDone.symm⟩

/-! ### The output item (R176, R198 to R200) -/

/-- The objects that an output item writes. -/
def outputShown : List Obj := [.LEG_OUT_CLIPS, .LEG_LIM_MIN_GAIN, .TAP_DATA, .LEG_OUT_LEVEL, .LEG_OUT_PEAK]

/-- The output item of leg `n` ends with audio `a`, these saturations counted and this least limiter gain. -/
def Dev.outputs (d : Dev) (n : Nat) (a : LegAudio) (clips gain : Nat) : Dev :=
  let e := ((d.setAudio n a).add .LEG_OUT_CLIPS n 0 clips).setN .LEG_LIM_MIN_GAIN n gain
  (((e.tap n 3 a.last14).outLevels n a.last14).toFrame n a.last14).endItem .output n

theorem outputs_spec (d : Dev) (n : Nat) (a : LegAudio) (clips gain : Nat) :
    let e := d.outputs n a clips gain
    Within outputShown d e ∧ (e.audioOf n).last14 = a.last14 ∧ (e.audioOf n).outDone = a.outDone ∧
      e.nat .LEG_OUT_LEVEL n = levelCode (sumSquares a.last14) ∧ e.nat .LEG_LIM_MIN_GAIN n = gain := by
  unfold Dev.outputs
  extract_lets e
  have he : Within outputShown d e :=
    (((Within.refl _ d).setAudio n a).put (o := .LEG_OUT_CLIPS) (by decide) _ _ _).put
      (o := .LEG_LIM_MIN_GAIN) (by decide) _ _ _
  have ha : e.audioOf n = a := audioOf_setAudio_same d n a
  have hgain : e.nat .LEG_LIM_MIN_GAIN n = gain := Dev.nat_setN _ _ _ _
  obtain ⟨hw3, hk3⟩ := tap_spec e n n 3 a.last14
  obtain ⟨hw15, hk15, hlevel⟩ := outLevels_spec (e.tap n 3 a.last14) n a.last14
  obtain ⟨hw16, hk16⟩ := toFrame_spec ((e.tap n 3 a.last14).outLevels n a.last14) n a.last14
  have hend := endItem_endsItem (((e.tap n 3 a.last14).outLevels n a.last14).toFrame n a.last14) .output n
  have hkeeps := (hk3.trans hk15).trans hk16
  refine ⟨?_, ?_, ?_, ?_, ?_⟩
  · exact (((he.trans (hw3.mono (by decide))).trans (hw15.mono (by decide))).trans (hw16.mono (by decide))).trans (hend.within _)
  · rw [hend.audioOf, hkeeps.last14, ha]
  · rw [hend.audioOf, hkeeps.outDone, ha]
  · rw [hend.nat, hw16.nat (by decide), hlevel]
  · rw [hend.nat, hw16.nat (by decide), hw15.nat (by decide), hw3.nat (by decide), hgain]

/-- Does the output item of leg `n` do nothing: not dispatched, done already, or its conference not mixed? -/
def Dev.outputRests (d : Dev) (n : Nat) : Prop :=
  (d.audioOf n).want = false ∨ (d.audioOf n).outDone = true ∨ (d.mixOf (d.nat .LEG_CONFERENCE n)).mixed = false

theorem outputRests_iff (d : Dev) (n : Nat) :
    (!(d.audioOf n).want || (d.audioOf n).outDone || !(d.mixOf (d.nat .LEG_CONFERENCE n)).mixed) = true ↔ d.outputRests n := by
  simp [Dev.outputRests, or_assoc]

theorem audioOutput_rests {d : Dev} {n : Nat} (h : d.outputRests n) : d.audioOutput n = d := if_pos ((outputRests_iff d n).mpr h)

/-- The output item of a leg that does not rest ends with the samples of the limiter, after a cut one joined to those before. -/
theorem audioOutput_runs {d : Dev} {n : Nat} (h : ¬d.outputRests n) :
    ∃ (a : LegAudio) (clips gain : Nat), d.audioOutput n = d.outputs n a clips gain ∧ a.outDone = true ∧ gain ≤ 0x8000 ∧
      ((d.audioOf n).outCut = false → a.last14.length = 80 ∧ ∀ v ∈ a.last14, -(2 : Int) ^ 23 ≤ v ∧ v < 2 ^ 23) := by
  unfold Dev.audioOutput
  rw [if_neg (mt (outputRests_iff d n).mp h)]
  extract_lets own q q' clips f l y a
  have hq : q'.length = 80 := by simp [q', q]
  have hf : f.1.length = 80 := by
    unfold f
    split
    · exact (filterProfile_length ..).trans hq
    · exact hq
  obtain ⟨hlength, hrange, hgain⟩ := limiterRun_spec (d.bitOf .LEG_PROC_ENABLE n 0 4) (d.nat .LEG_LIM_THRESHOLD n)
    (d.nat .LEG_LIM_RELEASE n) (d.audioOf n).lim f.1
  refine ⟨a, clips + l.1.2.2, l.1.2.1, rfl, rfl, hgain, fun hcut => ?_⟩
  have hy : a.last14 = l.1.1 := if_neg (by simp [hcut])
  rw [hy]
  exact ⟨hlength.trans hf, hrange⟩

/-- The second part of O33. -/
theorem outputsStayWithinTheirRange : Sys2Proof.Claim.OutputsStayWithinTheirRange := by
  intro s n hn hq hr d a
  by_cases h : d.outputRests n
  · exact engine_completes hn hr (audioOutput_rests h) hq ⟨⟨rfl, rfl⟩, (if_pos h).mpr rfl⟩
  obtain ⟨b, clips, gain, heq, hdone, hgain, hrange⟩ := audioOutput_runs h
  obtain ⟨hw, hlast, hout, hlevel, hleast⟩ := outputs_spec d n b clips gain
  refine engine_completes hn hr heq (hw.quiet hq) ⟨⟨rfl, rfl⟩, (if_neg h).mpr ?_⟩
  dsimp only
  rw [hlast, hout, hleast]
  exact ⟨hdone, hlevel, hgain, hw.out, hrange, hw.obj⟩

/-- Settles O33: the mixes, and the outputs made of them. -/
theorem mixesAndOutputs : Obligations.MixesAndOutputs := ⟨mixesAddTheirContributors, outputsStayWithinTheirRange⟩

end Sys2Proof.Machine
end

section
/-! PROOFS. The objects that show the pools, and allocation beside the parts that the pools do not read. -/

namespace Sys2Proof.Machine

/-! ### The objects that show the buffers in use (R364, R367, R372)

Allocations and sweeps write `poolObjs` alone: of `poolWritten` all but the counters of rejected operations (R368). -/

theorem Within.pool {os : List Obj} {d e : Dev} (h : Within os d e) (x : Pool) : Within os d { e with pool := x } :=
  h.parts rfl rfl rfl rfl

theorem Within.setDesc {os : List Obj} {d e : Dev} (h : Within os d e) (p i : Nat) (x : Desc) : Within os d (e.setDesc p i x) :=
  h.pool _

theorem Within.setList {os : List Obj} {d e : Dev} (h : Within os d e) (p c : Nat) (l : PoolList) :
    Within os d (e.setList p c l) := h.pool _

theorem poolObjs_chargeBytes (d : Dev) (dom : Nat) (a : Option Nat) (b : Int) : Within poolObjs d (d.chargeBytes dom a b) := by
  unfold Dev.chargeBytes
  have hdom := fun x => ((Within.refl poolObjs d).pool x).put (o := .DOM_USE) (by decide) dom 0
  cases a with
  | none => exact hdom _ _
  | some k => exact ((hdom _ _).pool _).put (o := .CONF_BUFFER_USE) (by decide) _ _ _

theorem poolObjs_poolTouch (d : Dev) (p : Nat) : Within poolObjs d (d.poolTouch p) := by
  unfold Dev.poolTouch
  extract_lets f e
  have he : Within poolObjs d e := (Within.refl _ d).put (by decide) _ _ _
  split
  · exact he.put (by decide) _ _ _
  · exact he

theorem poolObjs_poolFailed (d : Dev) (p : Nat) : Within poolObjs d (d.poolFailed p) :=
  ((Within.refl _ d).put (o := .POOL_EXHAUSTED) (by decide) _ _ _).pool _

theorem poolObjs_giveBack (d : Dev) (p i : Nat) : Within poolObjs d (d.giveBack p i) := by
  unfold Dev.giveBack
  extract_lets c l
  split
  · exact Within.refl _ d
  · exact (Within.refl _ d).setList _ _ _

theorem poolObjs_takeOne {d e : Dev} {p dom h : Nat} {u : PoolUse} {row : UseRow} {a x : Option Nat}
    (ht : d.takeOne p u row dom a x = some (h, e)) : Within poolObjs d e := by
  unfold Dev.takeOne at ht
  split at ht
  · exact absurd ht (by simp)
  split at ht
  · exact absurd ht (by simp)
  rename_i c _ _ i l _
  extract_lets old d1 gen desc d2 at ht
  have h2 : Within poolObjs d d2 := by
    have h1 : Within poolObjs d d1 := (Within.refl _ d).setList _ _ _
    unfold d2
    split
    · exact h1.put (by decide) _ _ _
    · exact h1
  split at ht
  · split at ht
    · exact absurd ht (by simp)
    split at ht
    · exact absurd ht (by simp)
    · obtain ⟨_, rfl⟩ := Prod.mk.inj (Option.some.inj ht)
      exact ((h2.setList _ _ _).setDesc _ _ _).setDesc _ _ _
  · obtain ⟨_, rfl⟩ := Prod.mk.inj (Option.some.inj ht)
    exact h2.setDesc _ _ _

theorem poolObjs_takeMany {p dom : Nat} {u : PoolUse} {row : UseRow} {a x : Option Nat} (n : Nat) {d e : Dev} {hs : List Nat}
    (h : d.takeMany p u row dom a x n = some (hs, e)) : Within poolObjs d e := by
  induction n generalizing d hs with
  | zero =>
    obtain ⟨_, rfl⟩ := Prod.mk.inj (Option.some.inj h)
    exact Within.refl _ d
  | succ n ih =>
    rw [Dev.takeMany] at h
    split at h
    · exact absurd h (by simp)
    · rename_i hone
      obtain ⟨⟨hs', e'⟩, hmany, heq⟩ := Option.map_eq_some_iff.mp h
      obtain ⟨_, rfl⟩ := Prod.mk.inj heq
      exact (poolObjs_takeOne hone).trans (ih hmany)

theorem poolObjs_allocFrom {u : PoolUse} {row : UseRow} {dom n first : Nat} {a x : Option Nat} (fuel p : Nat) (d : Dev) :
    Within poolObjs d (d.allocFrom u row dom a n first x fuel p).2 := by
  induction fuel generalizing d p x with
  | zero => exact Within.refl _ d
  | succ fuel ih =>
    unfold Dev.allocFrom
    extract_lets placements bytes confBlocks enough got
    split
    · exact (Within.refl _ d).put (by decide) _ _ _
    have hgot : ∀ hs e, got = some (hs, e) → Within poolObjs d e := fun hs e h => by
      unfold got at h
      split at h
      · exact poolObjs_takeMany n h
      · exact absurd h (by simp)
    clear_value got
    cases got with
    | some r => exact ((hgot r.1 r.2 rfl).trans (poolObjs_chargeBytes _ _ _ _)).trans (poolObjs_poolTouch _ _)
    | none =>
      dsimp only
      split
      · exact ((Within.refl _ d).put (o := .POOL_FALLBACKS) (by decide) _ _ _).trans (ih (p + 1) _)
      · exact poolObjs_poolFailed d first

theorem poolObjs_allocKept (d : Dev) (u : PoolUse) (dom size : Nat) (a : Option Nat) :
    Within poolObjs d (d.allocKept u dom size a).2 := by
  have halloc : Within poolObjs d (d.alloc u dom size a 1).2 := by
    unfold Dev.alloc
    extract_lets row p
    split
    · exact poolObjs_allocFrom 6 p d
    · exact poolObjs_poolFailed d p
  exact halloc.pool _

theorem poolObjs_freeDesc (d : Dev) (p i : Nat) : Within poolObjs d (d.freeDesc p i) := by
  unfold Dev.freeDesc
  extract_lets x shadows bytes d1 live x' d2 d3 d4
  have h1 : Within poolObjs d d1 := by
    unfold d1
    split
    · exact (Within.refl _ d).put (by decide) _ _ _
    · exact Within.refl _ d
  have h2 : Within poolObjs d1 d2 := by
    have hback : ∀ y, Within poolObjs d1 ((d1.setDesc p i y).giveBack p i) := fun y =>
      ((Within.refl _ d1).setDesc _ _ _).trans (poolObjs_giveBack _ _ _)
    unfold d2
    split
    · exact (Within.refl _ d1).setDesc _ _ _
    · split
      · exact hback _
      · exact hback _
  clear_value d2
  have h3 : Within poolObjs d2 d3 := by
    unfold d3
    split
    · exact ((Within.refl _ d2).put (o := .POOL_LOST) (by decide) _ _ _).put (o := .POOL_BUFFERS) (by decide) _ _ _
    · exact Within.refl _ d2
  clear_value d3
  have h4 : Within poolObjs d3 d4 := by
    refine Within.fold (fun e j => ?_) shadows (Within.refl _ d3)
    have he : ∀ y, Within poolObjs e (e.setDesc p j y) := (Within.refl _ e).setDesc p j
    dsimp only
    split
    · exact he _
    · exact (he _).trans (poolObjs_giveBack _ _ _)
  exact ((((h1.trans h2).trans h3).trans h4).trans (poolObjs_chargeBytes _ _ _ _)).trans (poolObjs_poolTouch _ _)

theorem poolObjs_sweepOne (d : Dev) (held : List Nat) (h was : Nat) : Within poolObjs d (d.sweepOne held h was) := by
  unfold Dev.sweepOne
  extract_lets p i x n keep refs e
  have hkeep : ∀ {e}, Within poolObjs d e → Within poolObjs d (keep e) := fun he => he.pool _
  have he : Within poolObjs d e := (Within.refl _ d).setDesc _ _ _
  split
  · exact Within.refl _ d
  split
  · exact hkeep (Within.refl _ d)
  split
  · exact he.trans (poolObjs_freeDesc _ _ _)
  · refine hkeep ?_
    split
    · exact he.put (by decide) _ _ _
    · exact he

/-- A sweep changes no object but those that show the pools. -/
theorem poolObjs_bufferSweep (d : Dev) : Within poolObjs d d.bufferSweep :=
  Within.fold (f := fun e x => e.sweepOne d.holders x.1 x.2) (fun e x => poolObjs_sweepOne e d.holders x.1 x.2)
    d.pool.managed ((Within.refl _ d).pool _)

/-! ### Parts that an allocation does not read -/

/-- The device with the send sides, the audio, the cells, the homes of flows and the blocks of `x`: parts that the pools do not
read. -/
def Dev.beside (d x : Dev) : Dev :=
  { d with tx := x.tx, audio := x.audio, cell := x.cell, flowHomes := x.flowHomes, blk := x.blk }

/-- `e` differs from `d` only in parts that the pools do not read. -/
def onlyBeside (d e : Dev) : Prop := ∃ x, e = d.beside x

theorem onlyBeside_refl (d : Dev) : onlyBeside d d := ⟨d, rfl⟩

theorem onlyBeside.trans {d e f : Dev} (h : onlyBeside d e) (g : onlyBeside e f) : onlyBeside d f := by
  obtain ⟨x, rfl⟩ := h
  obtain ⟨y, rfl⟩ := g
  exact ⟨y, rfl⟩

theorem onlyBeside.setTx {d e : Dev} (h : onlyBeside d e) (n : Nat) (x : Tx) : onlyBeside d (e.setTx n x) :=
  h.trans ⟨e.setTx n x, rfl⟩

theorem onlyBeside.setAudio {d e : Dev} (h : onlyBeside d e) (n : Nat) (a : LegAudio) : onlyBeside d (e.setAudio n a) :=
  h.trans ⟨e.setAudio n a, rfl⟩

theorem EndsItem.onlyBeside {d e : Dev} (h : EndsItem d e) : onlyBeside d e := by
  obtain ⟨c, y, blk, rfl⟩ := h.parts
  exact ⟨{ d with cell := c, flowHomes := y, blk := blk }, rfl⟩

theorem onlyBeside.within {d e : Dev} (h : onlyBeside d e) (os : List Obj) : Within os d e := by
  obtain ⟨x, rfl⟩ := h
  exact (Within.refl os d).parts rfl rfl rfl rfl

theorem beside_setList (d x : Dev) (p c : Nat) (l : PoolList) : (d.beside x).setList p c l = (d.setList p c l).beside x := rfl
theorem beside_setDesc (d x : Dev) (p i : Nat) (y : Desc) : (d.beside x).setDesc p i y = (d.setDesc p i y).beside x := rfl

theorem takeOne_beside (d x : Dev) (p dom : Nat) (u : PoolUse) (row : UseRow) (a ex : Option Nat) :
    (d.beside x).takeOne p u row dom a ex = (d.takeOne p u row dom a ex).map fun r => (r.1, r.2.beside x) := by
  have hfullest : (d.beside x).fullest p ex = d.fullest p ex := rfl
  have hlist : ∀ (e : Dev) c, (e.beside x).listAt p c = e.listAt p c := fun _ _ => rfl
  have hmirror : ∀ (e : Dev) c i, (e.beside x).mirrorChannel c i = e.mirrorChannel c i := fun _ _ _ => rfl
  have hpeak : ∀ e : Dev, (if (e.beside x).nat .POOL_PEAK_REFS p < 1 then (e.beside x).setN .POOL_PEAK_REFS p 1 else e.beside x) =
      (if e.nat .POOL_PEAK_REFS p < 1 then e.setN .POOL_PEAK_REFS p 1 else e).beside x := fun e =>
    (apply_ite (fun f : Dev => f.beside x) (e.nat .POOL_PEAK_REFS p < 1) (e.setN .POOL_PEAK_REFS p 1) e).symm
  unfold Dev.takeOne
  rw [hfullest]
  cases d.fullest p ex with
  | none => rfl
  | some c =>
    dsimp only
    rw [hlist]
    cases (d.listAt p c).take p c with
    | none => rfl
    | some r =>
      dsimp only
      rw [beside_setList, hpeak, hmirror]
      generalize (if (d.setList p c r.2).nat .POOL_PEAK_REFS p < 1 then _ else _ : Dev) = e
      simp only [hlist]
      split
      · cases e.mirrorChannel c r.1 with
        | none => rfl
        | some m =>
          dsimp only
          cases (e.listAt p m).take p m with
          | none => rfl
          | some s => rfl
      · rfl

theorem takeMany_beside (x : Dev) (p dom : Nat) (u : PoolUse) (row : UseRow) (a ex : Option Nat) (n : Nat) (d : Dev) :
    (d.beside x).takeMany p u row dom a ex n = (d.takeMany p u row dom a ex n).map fun r => (r.1, r.2.beside x) := by
  induction n generalizing d with
  | zero => rfl
  | succ n ih =>
    simp only [Dev.takeMany, takeOne_beside]
    cases d.takeOne p u row dom a ex with
    | none => rfl
    | some r =>
      simp only [Option.map_some, ih]
      cases r.2.takeMany p u row dom a ex n <;> rfl

theorem chargeBytes_beside (d x : Dev) (dom : Nat) (a : Option Nat) (b : Int) :
    (d.beside x).chargeBytes dom a b = (d.chargeBytes dom a b).beside x := by cases a <;> rfl

theorem poolTouch_beside (d x : Dev) (p : Nat) : (d.beside x).poolTouch p = (d.poolTouch p).beside x :=
  let e := d.setN .POOL_FREE p (d.poolFree p)
  (apply_ite (fun f : Dev => f.beside x) (d.poolFree p < e.nat .POOL_LOW_WATER p) (e.setN .POOL_LOW_WATER p (d.poolFree p)) e).symm

theorem allocFrom_beside (x : Dev) (u : PoolUse) (row : UseRow) (dom n first : Nat) (a ex : Option Nat) (fuel p : Nat) (d : Dev) :
    (d.beside x).allocFrom u row dom a n first ex fuel p =
      ((d.allocFrom u row dom a n first ex fuel p).1, (d.allocFrom u row dom a n first ex fuel p).2.beside x) := by
  induction fuel generalizing d p ex with
  | zero => rfl
  | succ fuel ih =>
    unfold Dev.allocFrom
    extract_lets placements bytes confBlocks enough got placements' bytes' confBlocks' enough' got'
    have hgot : got = got'.map fun r => (r.1, r.2.beside x) := by
      show (if enough' then _ else _) = Option.map _ (if enough' then _ else _)
      split
      · exact takeMany_beside ..
      · rfl
    clear_value got got'
    subst hgot
    have hquota : (quotaBlocks ((d.beside x).nat .DOM_QUOTA dom) (tget 0 dom (d.beside x).pool.dom) bytes || confBlocks) =
      (quotaBlocks (d.nat .DOM_QUOTA dom) (tget 0 dom d.pool.dom) bytes' || confBlocks') := rfl
    rw [hquota]
    by_cases hq : (quotaBlocks (d.nat .DOM_QUOTA dom) (tget 0 dom d.pool.dom) bytes' || confBlocks') = true
    · simp only [if_pos hq]
      rfl
    simp only [if_neg hq]
    cases got' with
    | some r =>
      simp only [Option.map_some, chargeBytes_beside, poolTouch_beside]
      rfl
    | none => 
      dsimp only [Option.map_none]
      by_cases hp : p < row.ceiling
      · simp only [if_pos hp]
        exact ih none (p + 1) (d.bump .POOL_FALLBACKS p)
      · simp only [if_neg hp]
        rfl

theorem allocKept_beside (d x : Dev) (u : PoolUse) (dom size : Nat) (a : Option Nat) :
    (d.beside x).allocKept u dom size a = ((d.allocKept u dom size a).1, (d.allocKept u dom size a).2.beside x) := by
  have halloc : (d.beside x).alloc u dom size a 1 = ((d.alloc u dom size a 1).1, (d.alloc u dom size a 1).2.beside x) := by
    unfold Dev.alloc
    extract_lets row p
    split
    · exact allocFrom_beside ..
    · rfl
  unfold Dev.allocKept
  rw [halloc]
  rfl

theorem sendBuffer_beside (d x : Dev) (n : Nat) (k : LegQueue) (len : Nat) :
   (d.beside x).sendBuffer n k len = ((d.sendBuffer n k len).1, (d.sendBuffer n k len).2.beside x) := by
  unfold Dev.sendBuffer
  dsimp only
  rw [allocKept_beside]
  rfl

end Sys2Proof.Machine
end

section
/-! PROOFS. Encoded audio (R201), of O34. -/

namespace Sys2Proof.Machine

theorem txOf_setTx_same (d : Dev) (n : Nat) (x : Tx) : (d.setTx n x).txOf n = x := (d.txOf_setTx n n x).trans (if_pos rfl)

theorem onlyPools.audioOf {d e : Dev} (h : onlyPools d e) (n : Nat) : e.audioOf n = d.audioOf n := by
  obtain ⟨t, x, rfl⟩ := h
  rfl

theorem onlyPools.txOf {d e : Dev} (h : onlyPools d e) (n : Nat) : e.txOf n = d.txOf n := by
  obtain ⟨t, x, rfl⟩ := h
  rfl

/-! ### A packet that enters an audio queue (R164) -/

/-- A packet as it stands in a queue of leg `n` that it enters now. -/
def Dev.queued (d : Dev) (n : Nat) (q : QPkt) : QPkt := { q with stride := d.stride, pkt := { q.pkt with leg := n } }

theorem enqueue_audio_room {d : Dev} {n : Nat} (hnext : d.hasNexthop n = true)
    (hroom : (d.txOf n).audio.length < d.nat .TC_AUDIO_LIMIT (d.tc n)) (q : QPkt) :
    d.enqueue n .audio q = d.enqueueWith n .audio (d.queued n q) fun x q => { x with audio := x.audio ++ [q] } := by
  have hfree : decide (d.nat .TC_AUDIO_LIMIT (d.tc n) ≤ (d.txOf n).audio.length) = false := decide_eq_false (Nat.not_le.mpr hroom)
  unfold Dev.enqueue
  simp only [hnext, hfree, Bool.not_true, Bool.false_eq_true, if_false]
  rfl

theorem enqueueWith_buffer {d e : Dev} {n h : Nat} {k : LegQueue} {q : QPkt} (hbuf : q.buf = none)
    (hsend : d.sendBuffer n k (d.ipLenOf n q) = (some h, e)) (f : Tx → QPkt → Tx) :
    d.enqueueWith n k q f = e.setTx n (f (e.txOf n) { q with buf := some h }) := by
  unfold Dev.enqueueWith
  simp only [hbuf, hsend]

/-- A packet of audio that finds a next hop, room and a buffer stands last in its queue. -/
theorem enqueue_audio_buffer {d e : Dev} {n h : Nat} {p : TxPkt} (hnext : d.hasNexthop n = true)
    (hroom : (d.txOf n).audio.length < d.nat .TC_AUDIO_LIMIT (d.tc n)) (hsend : d.sendBuffer n .audio p.len = (some h, e)) :
    d.enqueue n .audio { pkt := p } =
      e.setTx n { e.txOf n with audio := (e.txOf n).audio ++ [{ d.queued n { pkt := p } with buf := some h }] } := by
  rw [enqueue_audio_room hnext hroom]
  exact enqueueWith_buffer rfl hsend _

/-- The line cipher takes an RTP packet where a key is held, no alarm stands, and its index is not among the last (R143). -/
theorem protectRtp_ok {d : Dev} {n ssrc seq : Nat} (halarm : d.alarmed = false) (hkey : (d.keysOf n).tx.isSome = true)
    (hindex : (d.txOf n).sendIndex ssrc seq < 2 ^ 48 - 2 ^ 16) :
    ∃ index, d.protectRtp n ssrc seq = (true, d.setTx n { d.txOf n with rtpIndex := index }) := by
  have hsome : (d.keysOf n).tx.isNone = false := by simp [hkey, ← Option.not_isSome]
  unfold Dev.protectRtp
  rw [halarm, hsome, if_neg Bool.false_ne_true, if_neg Bool.false_ne_true]
  exact ⟨_, if_neg (Nat.not_le.mpr hindex)⟩

/-- What lies beside the pools has no part in whether a packet gets a buffer. -/
theorem sendBuffer_of_onlyBeside {d e : Dev} (h : onlyBeside d e) (n : Nat) (k : LegQueue) (len : Nat) :
    (e.sendBuffer n k len).1 = (d.sendBuffer n k len).1 := by
  obtain ⟨x, rfl⟩ := h
  rw [sendBuffer_beside]

theorem sendBuffer_frame (d : Dev) (n : Nat) (k : LegQueue) (len : Nat) :
    onlyPools d (d.sendBuffer n k len).2 ∧ Within poolObjs d (d.sendBuffer n k len).2 :=
  ⟨onlyPools_allocKept d _ 1 len _, poolObjs_allocKept d _ 1 len _⟩

/-! ### The encode item (R201) -/

/-- The coding of the frame `xs` of leg `n`. -/
def Dev.coded (d : Dev) (n : Nat) (xs : List Int) : Option Octets × Octets :=
  encodeFrame d.warmAudio (d.nat .LEG_TX_CODEC n) (d.audioOf n).enc xs

/-- The frame that waits at leg `n` is taken, and its encode item ends. -/
def Dev.frameTaken (d : Dev) (n : Nat) (enc : Octets) : Dev :=
  (d.setAudio n { d.audioOf n with ready := none, enc := enc }).endItem .encode n

theorem frameTaken_onlyBeside (d : Dev) (n : Nat) (enc : Octets) : onlyBeside d (d.frameTaken n enc) :=
  ((onlyBeside_refl d).setAudio n _).trans (endItem_endsItem _ .encode n).onlyBeside

theorem frameTaken_audioOf (d : Dev) (n : Nat) (enc : Octets) :
    (d.frameTaken n enc).audioOf n = { d.audioOf n with ready := none, enc := enc } :=
  ((endItem_endsItem _ .encode n).audioOf n).trans (audioOf_setAudio_same d n _)

theorem frameTaken_txOf (d : Dev) (n : Nat) (enc : Octets) : (d.frameTaken n enc).txOf n = d.txOf n :=
  (endItem_endsItem _ .encode n).txOf n

/-- The packet of a frame with payload `payload`, of a leg whose audio was `a` and whose send side was `x`. -/
def Dev.framePacket (d : Dev) (n : Nat) (a : LegAudio) (x : Tx) (payload : Octets) : TxPkt :=
  { leg := n, ssrc := x.audioSsrc, seq := x.audioSeq, ts := a.readyTs, pt := d.nat .LEG_TX_AUDIO_PT n
    marker := a.marker, len := d.rtpLen n payload.length, payload := payload }

/-- The next packet of leg `n` follows that of number `seq`, and is not marked. -/
def Dev.packetMade (d : Dev) (n seq : Nat) : Dev :=
  (d.setTx n { d.txOf n with audioSeq := (seq + 1) % 65536 }).setAudio n { d.audioOf n with marker := false }

theorem packetMade_onlyBeside (d : Dev) (n seq : Nat) : onlyBeside d (d.packetMade n seq) :=
  ((onlyBeside_refl d).setTx n _).setAudio n _

theorem packetMade_audioOf (d : Dev) (n seq : Nat) : (d.packetMade n seq).audioOf n = { d.audioOf n with marker := false } :=
  audioOf_setAudio_same _ n _

theorem packetMade_txOf (d : Dev) (n seq : Nat) :
    (d.packetMade n seq).txOf n = { d.txOf n with audioSeq := (seq + 1) % 65536 } := txOf_setTx_same d n _

theorem audioEncode_noFrame {d : Dev} {n ts : Nat} (h : (d.audioOf n).ready = none ∨ (d.audioOf n).readyTs ≠ ts) :
    d.audioEncode n ts = d := by
  unfold Dev.audioEncode
  dsimp only
  split
  · rfl
  · rename_i xs hready
    rw [hready] at h
    exact if_pos (h.resolve_left (Option.some_ne_none xs))

theorem audioEncode_noPacket {d : Dev} {n : Nat} {xs : List Int} (hready : (d.audioOf n).ready = some xs)
    (hcode : (d.coded n xs).1 = none) :
    d.audioEncode n (d.audioOf n).readyTs =
      (d.frameTaken n (d.coded n xs).2).setAudio n { (d.frameTaken n (d.coded n xs).2).audioOf n with marker := true } := by
  unfold Dev.coded at hcode
  simp only [Dev.audioEncode, hready, hcode, ne_eq, not_true_eq_false, if_false]
  rfl

theorem audioEncode_payload {d : Dev} {n : Nat} {xs : List Int} {payload : Octets} (hready : (d.audioOf n).ready = some xs)
    (hcode : (d.coded n xs).1 = some payload) :
    d.audioEncode n (d.audioOf n).readyTs =
      let e := d.frameTaken n (d.coded n xs).2
      let x := e.txOf n
      let r := e.protectRtp n x.audioSsrc x.audioSeq
      if !e.sendsAudio n then e else if !r.1 then r.2
      else (r.2.packetMade n x.audioSeq).enqueue n .audio { pkt := r.2.framePacket n (d.audioOf n) x payload } := by
  unfold Dev.coded at hcode
  simp only [Dev.audioEncode, hready, hcode, ne_eq, not_true_eq_false, if_false]
  rfl

/-- The encode item of a frame with a payload, of a leg that sends and whose packet the line cipher takes, queues the packet. -/
theorem audioEncode_packet {d : Dev} {n : Nat} {xs : List Int} {payload : Octets} (hready : (d.audioOf n).ready = some xs)
    (hcode : (d.coded n xs).1 = some payload) (hsends : d.sendsAudio n = true) (halarm : d.alarmed = false)
    (hkey : (d.keysOf n).tx.isSome = true)
    (hindex : (d.txOf n).sendIndex (d.txOf n).audioSsrc (d.txOf n).audioSeq < 2 ^ 48 - 2 ^ 16) :
    ∃ e index, onlyBeside d e ∧ e.audioOf n = { d.audioOf n with ready := none, enc := (d.coded n xs).2, marker := false } ∧
      e.txOf n = { d.txOf n with rtpIndex := index, audioSeq := ((d.txOf n).audioSeq + 1) % 65536 } ∧
      d.audioEncode n (d.audioOf n).readyTs =
        e.enqueue n .audio { pkt := d.framePacket n (d.audioOf n) (d.txOf n) payload } := by
  have hpayload := audioEncode_payload hready hcode
  have haudio := frameTaken_audioOf d n (d.coded n xs).2
  have htx := frameTaken_txOf d n (d.coded n xs).2
  obtain ⟨x, heq⟩ := frameTaken_onlyBeside d n (d.coded n xs).2
  dsimp only at hpayload
  rw [htx] at hpayload
  generalize d.frameTaken n (d.coded n xs).2 = e at hpayload haudio htx heq
  subst heq
  rw [← htx] at hindex
  obtain ⟨index, hprotect⟩ := protectRtp_ok (d := d.beside x) halarm hkey hindex
  have hesends : (d.beside x).sendsAudio n = true := hsends
  rw [htx] at hprotect
  rw [hprotect, hesends] at hpayload
  refine ⟨_, index, ?_, ?_, ?_, hpayload⟩
  · have honly : onlyBeside d (d.beside x) := ⟨x, rfl⟩
    exact (honly.setTx n _).trans (packetMade_onlyBeside _ n _)
  · rw [packetMade_audioOf]
    exact congrArg (fun a : LegAudio => { a with marker := false }) haudio
  · rw [packetMade_txOf, txOf_setTx_same]

/-- An encode item leaves what its operation leaves, swept. -/
theorem audioEncodeItem_completes {s : State} {n ts : Nat} {e : Dev} {P : State → Prop} (hn : n < 4096)
    (hr : s.dev.gen.running = true) (hq : s.dev.quiet) (he : s.dev.audioEncode n ts = e) (hw : Within poolObjs s.dev e)
    (hP : ∀ f, Within poolObjs s.dev f → f.audioOf n = e.audioOf n → f.txOf n = e.txOf n → P { s with dev := f }) :
    completes (.audioEncodeItem n ts) s P := by
  have hsweep : Within poolObjs s.dev e.bufferSweep := hw.trans (poolObjs_bufferSweep e)
  have hparts := onlyPools_bufferSweep e
  exact engine_completes hn hr (congrArg Dev.bufferSweep he) (hsweep.quiet hq)
    (hP _ hsweep (hparts.audioOf n) (hparts.txOf n))

/-- The first part of O34: the packet is that of `audioEncode_packet`, and its buffer that of the leg before. -/
theorem encodedFramesAreQueued : Sys2Proof.Claim.EncodedFramesAreQueued := by
  intro s n hn hq hr d a x
  refine ⟨fun ts h => ?noFrame, fun xs hready => ⟨fun hcode => ?noPacket,
    fun payload hcode hsends halarm hkey hindex hnext hroom hbuffer => ?packet⟩⟩
  case noFrame =>
    have hsweep := poolObjs_bufferSweep d
    exact engine_completes hn hr (congrArg Dev.bufferSweep (audioEncode_noFrame h)) (hsweep.quiet hq) ⟨rfl, rfl, rfl⟩
  case noPacket =>
    let e := d.frameTaken n (d.coded n xs).2
    have honly : onlyBeside d (e.setAudio n { e.audioOf n with marker := true }) := (frameTaken_onlyBeside d n _).setAudio n _
    refine audioEncodeItem_completes hn hr hq (audioEncode_noPacket hready hcode) (honly.within _) fun f hw haudio htx =>
      ⟨⟨rfl, rfl⟩, hw.obj, haudio.trans ?_, htx.trans (frameTaken_txOf d n _), hw.out⟩
    rw [audioOf_setAudio_same, frameTaken_audioOf]
    rfl
  case packet =>
    obtain ⟨e, index, honly, haudio, htx, heq⟩ := audioEncode_packet hready hcode hsends halarm hkey hindex
    let p := d.framePacket n a x payload
    have hnext' : e.hasNexthop n = true := by
      obtain ⟨y, rfl⟩ := honly
      exact hnext
    have hroom' : (e.txOf n).audio.length < e.nat .TC_AUDIO_LIMIT (e.tc n) := by
      rw [htx]
      obtain ⟨y, rfl⟩ := honly
      exact hroom
    rw [← sendBuffer_of_onlyBeside honly] at hbuffer
    obtain ⟨h, hh⟩ := Option.isSome_iff_exists.mp hbuffer
    obtain ⟨hpools, hsent⟩ := sendBuffer_frame e n .audio p.len
    rw [enqueue_audio_buffer (p := p) hnext' hroom' (Prod.ext hh rfl)] at heq
    refine audioEncodeItem_completes hn hr hq heq (((honly.within _).trans hsent).setTx n _) fun f hw hfaudio hftx => ?_
    rw [txOf_setTx_same, hpools.txOf, htx] at hftx
    dsimp only
    rw [hftx, hfaudio]
    exact ⟨⟨rfl, rfl⟩, hw.out, hw.obj, (hpools.audioOf n).trans haudio, rfl, _, rfl, rfl, rfl, rfl, rfl, rfl, rfl, rfl⟩

end Sys2Proof.Machine
end

section
/-! PROOFS. Telephone events and taps (R194, R195, R474), and O34. -/

namespace Sys2Proof.Machine

/-! ### Telephone events (R194, R195) -/

/-- An event that has ended enters the FIFO, or is counted as lost. -/
theorem enterEvent_spec (d : Dev) (n : Nat) (v : LegEvent) :
    Within [.LEG_EVENT_LOST] d (d.enterEvent n v) ∧ ((d.enterEvent n v).audioOf n).openEv = (d.audioOf n).openEv ∧
      if (d.audioOf n).events.length < 16 then ((d.enterEvent n v).audioOf n).events = (d.audioOf n).events ++ [v]
      else ((d.enterEvent n v).audioOf n).events = (d.audioOf n).events ∧
        (d.enterEvent n v).nat .LEG_EVENT_LOST n = (d.nat .LEG_EVENT_LOST n + 1) % 2 ^ 32 := by
  unfold Dev.enterEvent
  extract_lets a
  split
  · have ha := audioOf_setAudio_same d n { a with events := a.events ++ [v] }
    rw [ha]
    exact ⟨(Within.refl _ d).parts rfl rfl rfl rfl, rfl, rfl⟩
  · refine ⟨(Within.refl _ d).put (by decide) _ _ _, rfl, rfl, ?_⟩
    rw [Dev.nat_bump, if_pos ⟨rfl, rfl, rfl⟩]
    rfl

/-- The only event known, its packets overdue, ends and is entered. -/
theorem eventTimeout_overdue {d : Dev} {n : Nat} {o : OpenEvent} (h : (d.audioOf n).openEv = [o]) (hopen : o.ended = false)
    (hdue : o.heard + 60 ≤ d.stride) :
    d.eventTimeout n = (d.setAudio n { d.audioOf n with openEv := [{ o with ended := true }] }).enterEvent n
      { start := o.start, duration := o.duration, code := o.code, inband := false } := by
  simp [Dev.eventTimeout, h, hopen, hdue, keepEvents]

theorem readEvent_cons {d : Dev} {n : Nat} {v : LegEvent} {r : List LegEvent} (h : (d.audioOf n).events = v :: r) :
    d.readEvent n = some (v.word, d.setAudio n { d.audioOf n with events := r }) := by
  simp [Dev.readEvent, h]

theorem readEvent_nil {d : Dev} {n : Nat} (h : (d.audioOf n).events = []) : d.readEvent n = none := by
  simp [Dev.readEvent, h]

/-- A read of LEG_EVENT is the read of the FIFO wherever legs can be read (R3, R70). -/
theorem take_LEG_EVENT {d : Dev} {n : Nat} (hn : n < 4096) (hs : d.service ≠ .minimum) :
    d.take { o := .LEG_EVENT, u := n } = match d.readEvent n with
      | some r => .ok (.num r.1, r.2)
      | none => .error .noData := by
  have hindex : Key.index { o := .LEG_EVENT, u := n } = 0x3000 + n := rfl
  have hread : d.mayRead { o := .LEG_EVENT, u := n } = .ok () := by
    unfold Dev.mayRead
    rw [if_neg fun h => hs h.1]
    rfl
  have hsnap : Key.snapped { o := .LEG_EVENT, u := n } = false := by
    unfold Key.snapped
    rw [hindex, Bool.and_eq_false_iff, decide_eq_false_iff_not]
    omega
  unfold Dev.take
  rw [hread, hsnap]
  rfl

theorem encode_LEG_EVENT (n w : Nat) : Key.encode { o := .LEG_EVENT, u := n } (.num w) = natToOctets 8 (w % 2 ^ 64) := by
  have hword : toWord 64 w = w % 2 ^ 64 := by
    unfold toWord
    omega
  have hbits : Key.bits { o := .LEG_EVENT, u := n } = 64 := bits_of_u rfl
  rw [Key.encode, hbits, hword]

theorem answerRead_LEG_EVENT_cons {d : Dev} {n : Nat} {v : LegEvent} {r : List LegEvent} (hn : n < 4096)
    (hs : d.service ≠ .minimum) (h : (d.audioOf n).events = v :: r) (src : Src) :
    d.answerRead src { o := .LEG_EVENT, u := n } =
      (d.setAudio n { d.audioOf n with events := r }).emit (.value src (0x3000 + n) 172 (natToOctets 8 (v.word % 2 ^ 64))) := by
  unfold Dev.answerRead
  rw [take_LEG_EVENT hn hs, readEvent_cons h, ← encode_LEG_EVENT n]
  rfl

theorem answerRead_LEG_EVENT_nil {d : Dev} {n : Nat} (hn : n < 4096) (hs : d.service ≠ .minimum) (h : (d.audioOf n).events = [])
    (src : Src) :
    d.answerRead src { o := .LEG_EVENT, u := n } =
      (d.bump .DICT_ABORTS).emit (.answer src (0x3000 + n) 172 Abort.noData.code) := by
  unfold Dev.answerRead
  rw [take_LEG_EVENT hn hs, readEvent_nil h]
  rfl

/-- The second part of O34. -/
theorem eventsEndAndAreRead : Sys2Proof.Claim.EventsEndAndAreRead := by
  intro s n hn hq d a
  refine ⟨fun o hr hone hopen hdue => ?timeout, fun src hreach hs => ?read⟩
  case timeout =>
    let e := d.setAudio n { a with openEv := [{ o with ended := true }] }
    have he : e.audioOf n = { a with openEv := [{ o with ended := true }] } := audioOf_setAudio_same d n _
    obtain ⟨hw, hopenEv, hqueue⟩ :=
      enterEvent_spec e n { start := o.start, duration := o.duration, code := o.code, inband := false }
    have hd : Within [.LEG_EVENT_LOST] d e := (Within.refl _ d).parts rfl rfl rfl rfl
    rw [he] at hopenEv hqueue
    exact engine_completes hn hr (eventTimeout_overdue hone hopen hdue) ((hd.trans hw).quiet hq)
      ⟨⟨rfl, rfl⟩, hopenEv, (hd.trans hw).obj, (hd.trans hw).out, hqueue⟩
  case read =>
    cases hfifo : a.events with
    | cons v r =>
      have ha := audioOf_setAudio_same d n { a with events := r }
      exact access_completes hn hreach (answerRead_LEG_EVENT_cons hn hs hfifo src) hq
        ⟨⟨rfl, rfl⟩, congrArg LegAudio.events ha, fun _ _ _ _ => rfl, rfl⟩
    | nil =>
      have hbump : onlyDict d (d.bump .DICT_ABORTS) := (onlyDict_refl d).put _ _ _ _
      have hw : Within [.DICT_ABORTS] d (d.bump .DICT_ABORTS) := (Within.refl _ d).put (by decide) _ _ _
      exact access_completes hn hreach (answerRead_LEG_EVENT_nil hn hs hfifo src) hq
        ⟨⟨rfl, rfl⟩, rfl, hw.obj, hbump.emit _⟩

/-! ### Taps (R474) -/

/-- A tap of leg TAP_LEG may start: the leg is ACTIVE, and none runs. -/
def Dev.tapStarts (d : Dev) : Prop :=
  d.nat .TAP_LEG < 4096 ∧ d.legState (d.nat .TAP_LEG) = .active ∧ d.nat .TAP_STATE ≠ 1

/-- The device with a capture that runs from the next edge and has taken nothing. -/
def Dev.tapStarted (d : Dev) : Dev :=
  { (d.setN .TAP_STATE 0 1).put .TAP_DATA 0 0 (.bytes []) with tapFrom := d.stride + 1 }

theorem writeTap_ok {d : Dev} (h : d.tapStarts) : d.writeTap = .ok d.tapStarted := by
  obtain ⟨hleg, hactive, hfree⟩ := h
  unfold Dev.writeTap
  rw [need_ok (by simp [hleg, hactive]), need_ok (by simp [hfree])]
  rfl

theorem writeTap_error {d : Dev} (h : ¬d.tapStarts) : d.writeTap = .error (.deviceState, d) := by
  unfold Dev.writeTap
  by_cases hleg : (decide (d.nat .TAP_LEG < 4096) && decide (d.legState (d.nat .TAP_LEG) = .active)) = true
  · have hruns : d.nat .TAP_STATE = 1 := by
      simp only [Bool.and_eq_true, decide_eq_true_eq] at hleg
      exact Decidable.byContradiction fun hfree => h ⟨hleg.1, hleg.2, hfree⟩
    rw [need_ok hleg, need_error (by simp [hruns])]
  · rw [need_error (Bool.eq_false_iff.mpr hleg)]

theorem tapStarted_spec (d : Dev) :
    Within [.TAP_STATE, .TAP_DATA] d d.tapStarted ∧ d.tapStarted.nat .TAP_STATE = 1 ∧ d.tapStarted.bytes .TAP_DATA = [] := by
  have hset : Within [.TAP_STATE, .TAP_DATA] d ((d.setN .TAP_STATE 0 1).put .TAP_DATA 0 0 (.bytes [])) :=
    ((Within.refl _ d).put (o := .TAP_STATE) (by decide) _ _ _).put (by decide) _ _ _
  have hstate : ((d.setN .TAP_STATE 0 1).put .TAP_DATA 0 0 (.bytes [])).nat .TAP_STATE = 1 := by simp [Dev.setN_eq]
  have hdata : ((d.setN .TAP_STATE 0 1).put .TAP_DATA 0 0 (.bytes [])).get .TAP_DATA = .bytes [] := Dev.get_put_same ..
  exact ⟨hset.parts rfl rfl rfl rfl, hstate, congrArg Val.toBytes hdata⟩

/-- The end of a capture shows TAP_STATE 2. -/
theorem tapDone_spec (d : Dev) :
    onlyDict d d.tapDone ∧ Within [.TAP_STATE] d d.tapDone ∧
      d.tapDone.nat .TAP_STATE = if d.nat .TAP_STATE = 1 then 2 else d.nat .TAP_STATE := by
  unfold Dev.tapDone
  split
  · exact ⟨(onlyDict_refl d).put _ _ _ _, (Within.refl _ d).put (by decide) _ _ _, Dev.nat_setN ..⟩
  · exact ⟨onlyDict_refl d, Within.refl _ d, rfl⟩

/-- A row of no unit that acts while the packet engine runs leaves what its operation leaves, where that is nothing to close. -/
theorem onDev_engine_completes {s : State} {f : Dev → Dev} {P : State → Prop} (hr : s.dev.gen.running = true)
    (hq : (f s.dev).quiet) (hP : P { s with dev := f s.dev }) : ∃ t, onDev s (fun d => d.engine f) = .next t ∧ P t := by
  have hruns : s.dev.engine f = f s.dev := if_pos hr
  have hnext : onDev s (fun d => d.engine f) = .next { s with dev := (s.dev.engine f).settle } := rfl
  rw [hruns, settle_of_quiet hq] at hnext
  exact ⟨_, hnext, hP⟩

/-- The third part of O34. -/
theorem tapsCapture : Sys2Proof.Claim.TapsCapture := by
  intro s hq d
  refine ⟨fun src ⟨hreach, hcan⟩ => ?start, fun hr => ?complete⟩
  case start =>
    have hwrite := writeNum_TAP_CMD d 0 hcan
    by_cases h : d.tapStarts
    · have heffect : d.effect src { o := .TAP_CMD } (.num 1) = .ok d.tapStarted := writeTap_ok h
      obtain ⟨hw, hstate, hdata⟩ := tapStarted_spec d
      rw [heffect] at hwrite
      refine onWrite_completes Nat.one_pos hreach hwrite (hw.quiet hq)
        ⟨⟨rfl, rfl⟩, (if_pos h).mpr ⟨?_, ?_, rfl, ?_, ?_⟩⟩
      · exact (answerWrite_ok_nat src _ _ 0 0 (by decide)).trans hstate
      · have hkeeps := answerWrite_ok_keeps src { o := .TAP_CMD } (e := d.tapStarted) (os := []) (fun _ _ _ _ => rfl)
        exact (congrArg Val.toBytes (hkeeps .TAP_DATA 0 0 (by decide))).trans hdata
      · exact answerWrite_ok_accepted src _ hw.out
      · exact answerWrite_ok_keeps src _ hw.obj
    · have heffect : d.effect src { o := .TAP_CMD } (.num 1) = .error (.deviceState, d) := writeTap_error h
      rw [heffect] at hwrite
      exact onWrite_completes Nat.one_pos hreach hwrite hq ⟨⟨rfl, rfl⟩, (if_neg h).mpr (answerWrite_error_spec d src _ _)⟩
  case complete =>
    obtain ⟨honly, hw, hstate⟩ := tapDone_spec d
    exact onDev_engine_completes hr (hw.quiet hq) ⟨⟨rfl, rfl⟩, hw.out, honly, hw.obj, hstate⟩

/-- Settles O34: encoded audio, the ends and reads of events, and the taps. -/
theorem encodedFramesEventsAndTaps : Obligations.EncodedFramesEventsAndTaps :=
  ⟨encodedFramesAreQueued, eventsEndAndAreRead, tapsCapture⟩

end Sys2Proof.Machine
end

section
/-! PROOFS. Key-frame requests that are repeated (R225, R306), of O37. -/

namespace Sys2Proof.Machine

/-! ### The forwarded video of a leg has no part in an allocation (R365) -/

/-- A use without shadows takes the next buffer of the fullest list. -/
theorem takeOne_handle {row : UseRow} (hrow : row.mirrored = false) (d : Dev) (p dom : Nat) (u : PoolUse) (a ex : Option Nat) :
    (d.takeOne p u row dom a ex).map (·.1) =
      (d.fullest p ex).bind fun c => ((d.listAt p c).take p c).map fun r => mkHandle p (((d.descOf p r.1).gen + 1) % 16) r.1 := by
  unfold Dev.takeOne
  cases d.fullest p ex with
  | none => rfl
  | some c =>
    dsimp only [Option.bind_some]
    cases (d.listAt p c).take p c with
    | none => rfl
    | some r => simp [hrow]

theorem takeMany_one_handle (d : Dev) (p dom : Nat) (u : PoolUse) (row : UseRow) (a ex : Option Nat) :
    (d.takeMany p u row dom a ex 1).map (·.1) = ((d.takeOne p u row dom a ex).map (·.1)).map fun h => [h] := by
  rw [Dev.takeMany]
  cases d.takeOne p u row dom a ex <;> rfl

theorem allocFrom_setFsrc {row : UseRow} (hrow : row.mirrored = false) (n : Nat) (x : FwdSource) (u : PoolUse) (dom first : Nat)
    (a : Option Nat) (fuel : Nat) (ex : Option Nat) (p : Nat) (d : Dev) :
    ((d.setFsrc n x).allocFrom u row dom a 1 first ex fuel p).1 = (d.allocFrom u row dom a 1 first ex fuel p).1 := by
  induction fuel generalizing d p ex with
  | zero => rfl
  | succ fuel ih =>
    have htake : ((d.setFsrc n x).takeMany p u row dom a ex 1).map (·.1) = (d.takeMany p u row dom a ex 1).map (·.1) := by
      rw [takeMany_one_handle, takeMany_one_handle, takeOne_handle hrow, takeOne_handle hrow]
      rfl
    unfold Dev.allocFrom
    extract_lets placements bytes conf enough got placements' bytes' conf' enough' got'
    have hquota : (quotaBlocks ((d.setFsrc n x).nat .DOM_QUOTA dom) (tget 0 dom (d.setFsrc n x).pool.dom) bytes || conf) =
      (quotaBlocks (d.nat .DOM_QUOTA dom) (tget 0 dom d.pool.dom) bytes' || conf') := rfl
    have hgot : got.map (·.1) = got'.map (·.1) := by
      show Option.map _ (if enough' then _ else _) = Option.map _ (if enough' then _ else _)
      split
      · exact htake
      · rfl
    rw [hquota]
    clear_value got got'
    split
    · rfl
    cases got <;> cases got' <;> simp at hgot
    case none.none =>
      dsimp only
      split
      · exact ih none (p + 1) (d.bump .POOL_FALLBACKS p)
      · rfl
    case some.some => exact hgot

/-- What a leg forwards has no part in whether a control packet gets a buffer. -/
theorem sendBuffer_control_setFsrc (d : Dev) (n m : Nat) (x : FwdSource) (len : Nat) :
    ((d.setFsrc m x).sendBuffer n .control len).1 = (d.sendBuffer n .control len).1 := by
  refine congrArg List.head? ?_
  show ((d.setFsrc m x).alloc .txAudio 1 len _ 1).1 = (d.alloc .txAudio 1 len _ 1).1
  unfold Dev.alloc
  dsimp only
  split
  · exact allocFrom_setFsrc rfl ..
  · rfl

/-! ### A packet that enters a control queue (R163, R164) -/

theorem onlyPools.fsrc {d e : Dev} (h : onlyPools d e) : e.fsrc = d.fsrc := by
  obtain ⟨t, x, rfl⟩ := h
  rfl

/-- RTCP that finds a next hop, room and a buffer stands last in the control queue. -/
theorem enqueue_control_spec {d : Dev} {n : Nat} {q : QPkt} (hraw : q.raw = none) (hbuf : q.buf = none) (hrtcp : q.rtcp ≠ [])
    (hnext : d.hasNexthop n = true) (hroom : (d.txOf n).control.length < d.nat .TC_CONTROL_LIMIT (d.tc n))
    (hsend : (d.sendBuffer n .control (d.ipLenOf n q)).1.isSome = true) :
    Within poolObjs d (d.enqueue n .control q) ∧ (d.enqueue n .control q).fsrc = d.fsrc ∧
      ∃ x, ((d.enqueue n .control q).txOf n).control = (d.txOf n).control ++ [x] ∧ x.rtcp = q.rtcp := by
  have hlen : d.ipLenOf n (d.queued n q) = d.ipLenOf n q := by simp [Dev.ipLenOf, Dev.queued, hraw, hrtcp]
  obtain ⟨hpools, hwithin⟩ := sendBuffer_frame d n .control (d.ipLenOf n q)
  obtain ⟨h, hh⟩ := Option.isSome_iff_exists.mp hsend
  have henqueue : d.enqueue n .control q =
      d.enqueueWith n .control (d.queued n q) fun x q => { x with control := x.control ++ [q] } := by
    unfold Dev.enqueue
    simp only [hnext, hroom, Bool.not_true, Bool.false_eq_true, if_false, if_true]
    rfl
  have hbuffer : d.sendBuffer n .control (d.ipLenOf n (d.queued n q)) = (some h, (d.sendBuffer n .control (d.ipLenOf n q)).2) := by
    rw [hlen, ← hh]
  rw [henqueue, enqueueWith_buffer (q := d.queued n q) hbuf hbuffer, txOf_setTx_same, hpools.txOf]
  exact ⟨hwithin.parts rfl rfl rfl rfl, hpools.fsrc, _, rfl, rfl⟩

/-! ### The request that is sent again (R225, R306) -/

@[simp] theorem Dev.fsrcOf_setFsrc (d : Dev) (n m : Nat) (x : FwdSource) :
    (d.setFsrc n x).fsrcOf m = if m = n then x else d.fsrcOf m := by
  unfold Dev.fsrcOf Dev.setFsrc
  split
  · rename_i h; subst h; simp
  · rename_i h; exact tget_tput_other _ _ _ h _

theorem reqOf_setReq_same (d : Dev) (n q : Nat) (r : KfReq) : (d.setReq n q r).reqOf n q = r := by
  simp [Dev.reqOf, Dev.setReq]

/-- The number that a message of a request carries: a new one where the request turns to a FIR. -/
def KfReq.nextSeq (r : KfReq) (fir : Bool) : Nat := if fir && !r.firOut then (r.firSeq + 1) % 256 else r.firSeq

/-- A request after it was sent again. -/
def KfReq.again (r : KfReq) (stride : Nat) (fir : Bool) : KfReq :=
  { r with
    sent := true, repeats := r.repeats + 1, lastSent := stride
    firSeq := r.nextSeq fir, firOut := r.firOut || fir }

/-- What a request says to its stream. -/
def KfReq.message (r : KfReq) (ssrc : Nat) (fir : Bool) : RtcpTx := if fir then .fir ssrc (r.nextSeq fir) else .pli ssrc

/-- A message of a request of leg `n` is counted: once for the leg, and for each decode slot that waits. -/
def Dev.countKf (d : Dev) (n : Nat) (slots : List Nat) : Dev :=
  slots.foldl (fun d s => d.bump .DEC_KF_REQUESTS n s) (d.bump .FWD_KF_SENT n)

theorem countKf_spec (d : Dev) (n : Nat) (slots : List Nat) :
    onlyDict d (d.countKf n slots) ∧ Within [.FWD_KF_SENT, .DEC_KF_REQUESTS] d (d.countKf n slots) ∧
      (d.countKf n slots).nat .FWD_KF_SENT n = (d.nat .FWD_KF_SENT n + 1) % 2 ^ 32 := by
  have hslots : Within [.DEC_KF_REQUESTS] (d.bump .FWD_KF_SENT n) (d.countKf n slots) :=
    Within.fold (fun e s => (Within.refl _ e).put (by decide) _ _ _) slots (Within.refl _ _)
  refine ⟨?_, ?_, ?_⟩
  · exact foldl_keeps (P := onlyDict d) (fun e s he => he.put _ _ _ _) slots ((onlyDict_refl d).put _ _ _ _)
  · exact ((Within.refl _ d).put (by decide) _ _ _).trans (hslots.mono (by decide))
  · rw [hslots.nat (by decide), Dev.nat_bump, if_pos ⟨rfl, rfl, rfl⟩]
    rfl

theorem kfSend_again {d : Dev} {n q ssrc : Nat} {fir : Bool} (hsent : (d.reqOf n q).sent = true)
    (hssrc : tfind q (d.fsrcOf n).ssrcs = some ssrc) (hfir : d.kfMessage n (d.reqOf n q) ((d.reqOf n q).repeats + 1) = some fir) :
    d.kfSend n q = ((d.setReq n q ((d.reqOf n q).again d.stride fir)).sendRtcp n [(d.reqOf n q).message ssrc fir]).countKf n
      ((d.reqOf n q).consumers.filterMap kfSlot) := by
  unfold Dev.kfSend
  simp only [hsent, if_true, hssrc, hfir]
  rfl

theorem kfRepeat_of_not_due {d : Dev} {n q : Nat}
    (h : (d.reqOf n q).consumers = [] ∨ (d.reqOf n q).sent = false ∨ d.stride < (d.reqOf n q).lastSent + d.kfInterval n ∨
      d.mediaActive n = false) : d.kfRepeat n q = d := by
  refine if_neg fun hall => ?_
  simp only [Bool.and_eq_true, decide_eq_true_eq] at hall
  obtain ⟨⟨⟨hwait, hsent⟩, hdue⟩, hmedia⟩ := hall
  obtain h | h | h | h := h
  · exact hwait h
  · exact Bool.false_ne_true (h.symm.trans hsent)
  · exact Nat.not_le.mpr h hdue
  · exact Bool.false_ne_true (h.symm.trans hmedia)

theorem kfRepeat_of_due {d : Dev} {n q : Nat} (hwait : (d.reqOf n q).consumers ≠ []) (hsent : (d.reqOf n q).sent = true)
    (hdue : (d.reqOf n q).lastSent + d.kfInterval n ≤ d.stride) (hmedia : d.mediaActive n = true) :
    d.kfRepeat n q = d.kfSend n q := if_pos (by simp [hwait, hsent, hdue, hmedia])

/-- A request that is sent again stands in the control queue behind the lead of its compound, and is counted. -/
theorem kfSend_spec {d : Dev} {n q ssrc : Nat} {fir : Bool} (hsent : (d.reqOf n q).sent = true)
    (hssrc : tfind q (d.fsrcOf n).ssrcs = some ssrc) (hfir : d.kfMessage n (d.reqOf n q) ((d.reqOf n q).repeats + 1) = some fir)
    (hnext : d.hasNexthop n = true) (hroom : (d.txOf n).control.length < d.nat .TC_CONTROL_LIMIT (d.tc n))
    {parts : List RtcpTx} (hparts : parts = d.rtcpLead n [] ++ [(d.reqOf n q).message ssrc fir])
    (hsend : (d.sendBuffer n .control (d.ipLenOf n { rtcp := parts })).1.isSome = true) :
    Within (poolObjs ++ [.FWD_KF_SENT, .DEC_KF_REQUESTS]) d (d.kfSend n q) ∧
      (d.kfSend n q).reqOf n q = (d.reqOf n q).again d.stride fir ∧
      (d.kfSend n q).nat .FWD_KF_SENT n = (d.nat .FWD_KF_SENT n + 1) % 2 ^ 32 ∧
      ∃ x, ((d.kfSend n q).txOf n).control = (d.txOf n).control ++ [x] ∧ x.rtcp = parts := by
  let e := d.setReq n q ((d.reqOf n q).again d.stride fir)
  let f := e.enqueue n .control { rtcp := parts }
  have heq : d.kfSend n q = f.countKf n ((d.reqOf n q).consumers.filterMap kfSlot) := by
    rw [kfSend_again hsent hssrc hfir]
    exact congrArg (fun p => Dev.countKf (e.enqueue n .control { rtcp := p }) n _) hparts.symm
  have hbuf : (e.sendBuffer n .control (e.ipLenOf n { rtcp := parts })).1.isSome = true := by
    rw [← hsend]
    exact congrArg _ (sendBuffer_control_setFsrc ..)
  obtain ⟨hqueued, hfsrc, hlast⟩ :=
    enqueue_control_spec (d := e) (q := { rtcp := parts }) rfl rfl (by simp [hparts]) hnext hroom hbuf
  obtain ⟨hdict, hcounted, hcount⟩ := countKf_spec f n ((d.reqOf n q).consumers.filterMap kfSlot)
  obtain ⟨dict, out, hsame⟩ := hdict
  have hreq : f.reqOf n q = e.reqOf n q := by
    unfold Dev.reqOf Dev.fsrcOf
    rw [hfsrc]
  rw [heq]
  refine ⟨?_, ?_, ?_, ?_⟩
  · have he : Within poolObjs d e := (Within.refl _ d).parts rfl rfl rfl rfl
    exact ((he.trans hqueued).mono (List.subset_append_left _ _)).trans (hcounted.mono (List.subset_append_right _ _))
  · rw [hsame]
    exact hreq.trans (reqOf_setReq_same ..)
  · rw [hcount, hqueued.nat (by decide)]
    rfl
  · rw [hsame]
    exact hlast

/-- The first part of O37. -/
theorem keyframeRequestsRepeat : Sys2Proof.Claim.KeyframeRequestsRepeat := by
  intro s n q hn hquiet hrun d r due
  refine ⟨fun hnot => engine_completes hn hrun (kfRepeat_of_not_due hnot) hquiet rfl, ?_⟩
  intro ssrc fir hwait hsent hdue hmedia hssrc hfir hnext hroom seq parts hsend
  obtain ⟨hw, hreq, hcount, hlast⟩ := kfSend_spec hsent hssrc hfir hnext hroom rfl hsend
  refine engine_completes hn hrun (kfRepeat_of_due hwait hsent hdue hmedia) (hw.quiet hquiet)
    ⟨⟨rfl, rfl⟩, hw.out, ?_, ?_, ?_, hcount, hw.obj, hlast⟩
  · exact congrArg KfReq.repeats hreq
  · exact congrArg KfReq.lastSent hreq
  · exact congrArg KfReq.firSeq hreq

end Sys2Proof.Machine
end

section
/-! PROOFS. The coupling buffer of a pair (R210), of O37. -/

namespace Sys2Proof.Machine

/-! ### The coupling buffer (R210) -/

@[simp] theorem Dev.pairxOf_setPairx (d : Dev) (p q : Nat) (x : PairX) :
    (d.setPairx p x).pairxOf q = if q = p then x else d.pairxOf q := by
  unfold Dev.pairxOf Dev.setPairx
  split
  · rename_i h; subst h; simp
  · rename_i h; exact tget_tput_other _ _ _ h _

/-- The lines that a pair's coupling buffer holds. -/
def PairX.used (x : PairX) : Nat := x.open_ + x.ring.foldl (fun a k => a + k.lines) 0

theorem PairX.free_eq (x : PairX) : x.free = 4096 - x.used := Nat.sub_sub ..

theorem coupleRecord_stands {d : Dev} {p : Nat} (h : (d.pairxOf p).on = none ∨ (d.pairxOf p).free < 8) (lines : Nat) :
    d.coupleRecord p lines = d := by
  unfold Dev.coupleRecord
  dsimp only
  split
  · rfl
  · rename_i hon
    exact if_pos (h.resolve_left (by simp [hon]))

/-- Where a picture is open and 8 lines are free, as many records as fit join the open packet, which is cut at 2,048 lines. -/
theorem coupleRecord_writes {d : Dev} {p : Nat} {k : CtxKey} (hon : (d.pairxOf p).on = some k) (hfree : ¬(d.pairxOf p).free < 8)
    (lines : Nat) :
    (d.coupleRecord p lines).pairxOf p =
      let x := d.pairxOf p
      let n := x.open_ + min lines x.free
      if 2048 ≤ n then { x with open_ := n - 2048, ring := x.ring ++ [{ ctx := k, lines := 2048, mark := .split }] }
      else { x with open_ := n } := by
  unfold Dev.coupleRecord
  simp only [hon, if_neg hfree]
  split <;> simp

theorem PairX.used_split (x : PairX) {n : Nat} (hn : 2048 ≤ n) (k : CtxKey) :
    ({ x with open_ := n - 2048, ring := x.ring ++ [{ ctx := k, lines := 2048, mark := .split }] } : PairX).used =
      n + x.ring.foldl (fun a k => a + k.lines) 0 := by
  simp only [PairX.used, List.foldl_append, List.foldl_cons, List.foldl_nil]
  omega

/-- The last part of O37. -/
theorem recordsFitTheCouplingBuffer : Sys2Proof.Claim.RecordsFitTheCouplingBuffer := by
  intro d p lines used x y
  have hfree : x.free = 4096 - used x := x.free_eq
  by_cases hstands : x.on = none ∨ x.free < 8
  · have hsame := coupleRecord_stands hstands lines
    have hy : y = x := congrArg (·.pairxOf p) hsame
    rw [hy]
    exact ⟨fun _ => hsame, id, fun h _ => h⟩
  obtain ⟨hon, hroom⟩ := not_or.mp hstands
  obtain ⟨k, hk⟩ := Option.ne_none_iff_exists'.mp hon
  have hy := coupleRecord_writes hk hroom lines
  refine ⟨fun h => absurd (h.imp_right fun hfull => by omega) hstands, fun hfits => ?_, fun hopen hlines => ?_⟩
  · have hx : used x = x.open_ + x.ring.foldl (fun a k => a + k.lines) 0 := rfl
    have hn : x.open_ + min lines x.free + x.ring.foldl (fun a k => a + k.lines) 0 ≤ 4096 := by omega
    refine Nat.le_trans (Nat.le_of_eq ?_) hn
    show PairX.used ((d.coupleRecord p lines).pairxOf p) = _
    rw [hy]
    dsimp only
    split
    · rename_i hcut
      exact x.used_split hcut k
    · rfl
  · show ((d.coupleRecord p lines).pairxOf p).open_ < 2048
    rw [hy]
    dsimp only
    split
    · show x.open_ + min lines x.free - 2048 < 2048
      omega
    · rename_i hcut
      exact Nat.not_le.mp hcut

end Sys2Proof.Machine
end

section
/-! PROOFS. What a decode leaves alone once its picture has left its slot: no operation of the decoder puts a picture on a slot or
counts an error (R208 to R228), of O37. -/

namespace Sys2Proof.Machine

theorem decOf_setDec (d : Dev) (n s m t : Nat) (x : DecSlot) :
    (d.setDec n s x).decOf m t = if m = n ∧ t = s then x else d.decOf m t := by
  unfold Dev.decOf Dev.setDec
  split
  · rename_i h; obtain ⟨rfl, rfl⟩ := h; simp
  · rename_i h; exact tget_tput_other _ _ _ (by simpa using h) _

theorem decOf_setDec_same (d : Dev) (n s : Nat) (x : DecSlot) : (d.setDec n s x).decOf n s = x := by simp [decOf_setDec]

@[simp] theorem Dev.decOf_put (d : Dev) (o : Obj) (u k n s : Nat) (v : Val) : (d.put o u k v).decOf n s = d.decOf n s := by
  simp [Dev.decOf]

theorem onlyPools.dec {d e : Dev} (h : onlyPools d e) : e.dec = d.dec := by
  obtain ⟨t, x, rfl⟩ := h
  rfl

/-! ### The relation -/

/-- The timestamps of the pictures on the pairs of a slot. -/
def DecSlot.stamps (x : DecSlot) : List Nat := x.active.map (·.ts)

/-- `e` has put no picture on the slots that `d` had not there, and has counted no error of a picture. -/
structure KeepsDecode (d e : Dev) : Prop where
  stamps : ∀ n s, (e.decOf n s).stamps ⊆ (d.decOf n s).stamps
  errors : ∀ n s, e.nat .DEC_ERRORS n s = d.nat .DEC_ERRORS n s

theorem KeepsDecode.refl (d : Dev) : KeepsDecode d d := ⟨fun _ _ => List.Subset.refl _, fun _ _ => rfl⟩

theorem KeepsDecode.trans {d e f : Dev} (h : KeepsDecode d e) (g : KeepsDecode e f) : KeepsDecode d f :=
  ⟨fun n s => List.Subset.trans (g.stamps n s) (h.stamps n s), fun n s => (g.errors n s).trans (h.errors n s)⟩

/-- What leaves the slots alone, and every object but others, keeps the decode. -/
theorem Within.keepsDecode {os : List Obj} {d e : Dev} (h : Within os d e) (ho : Obj.DEC_ERRORS ∉ os) (hd : e.dec = d.dec) :
    KeepsDecode d e := by
  refine ⟨fun n s => ?_, fun n s => h.nat ho n s⟩
  unfold Dev.decOf
  rw [hd]
  exact List.Subset.refl _

/-- A change of parts other than the objects and the slots. -/
theorem keepsDecode_parts {d e : Dev} (hd : e.dict = d.dict) (hs : e.dec = d.dec) : KeepsDecode d e := by
  refine ⟨fun n s => ?_, fun n s => ?_⟩
  · unfold Dev.decOf
    rw [hs]
    exact List.Subset.refl _
  · exact Dev.nat_eq_of_get (by simp only [Dev.get, hd])

theorem KeepsDecode.ite {d e f : Dev} (h : KeepsDecode d e) (g : KeepsDecode d f) (c : Prop) [Decidable c] :
    KeepsDecode d (if c then e else f) := by
  split
  · exact h
  · exact g

theorem KeepsDecode.put {d e : Dev} (h : KeepsDecode d e) {o : Obj} (ho : o ≠ .DEC_ERRORS) (u k : Nat) (v : Val) :
    KeepsDecode d (e.put o u k v) :=
  h.trans (((Within.refl [o] e).put (by simp) u k v).keepsDecode (by simpa using ho.symm) rfl)

theorem KeepsDecode.setDec {d e : Dev} (h : KeepsDecode d e) {n s : Nat} {x : DecSlot} (hx : x.stamps ⊆ (e.decOf n s).stamps) :
    KeepsDecode d (e.setDec n s x) := by
  refine h.trans ⟨fun m t => ?_, fun _ _ => rfl⟩
  rw [decOf_setDec]
  split
  · rename_i hmt
    obtain ⟨rfl, rfl⟩ := hmt
    exact hx
  · exact List.Subset.refl _

/-- A slot whose pictures on its pair stay as they are. -/
theorem KeepsDecode.setDec_active {d e : Dev} (h : KeepsDecode d e) {n s : Nat} {x : DecSlot}
    (hx : x.active = (e.decOf n s).active) : KeepsDecode d (e.setDec n s x) := by
  refine h.setDec ?_
  rw [DecSlot.stamps, hx]
  exact List.Subset.refl _

theorem KeepsDecode.setPairx {d e : Dev} (h : KeepsDecode d e) (p : Nat) (x : PairX) : KeepsDecode d (e.setPairx p x) :=
  h.trans (keepsDecode_parts rfl rfl)

theorem KeepsDecode.logRec {d e : Dev} (h : KeepsDecode d e) (r : Rec) : KeepsDecode d (e.logRec r) :=
  h.trans (keepsDecode_parts rfl rfl)

/-! ### Requests for key frames (R225, R306) -/

theorem keepsDecode_setReq (d : Dev) (n q : Nat) (r : KfReq) : KeepsDecode d (d.setReq n q r) := keepsDecode_parts rfl rfl

theorem keepsDecode_decRequest (d : Dev) (n s : Nat) : KeepsDecode d (d.decRequest n s) :=
  (KeepsDecode.refl d).ite (keepsDecode_setReq ..) _

/-- A request that is served changes what the leg forwards alone. -/
theorem decServed_onlyFsrc (d : Dev) (n s : Nat) : ∃ fsrc, d.decServed n s = { d with fsrc := fsrc } := by
  unfold Dev.decServed Dev.dropKf
  dsimp only
  split
  · exact ⟨d.fsrc, rfl⟩
  · split <;> exact ⟨_, rfl⟩

theorem keepsDecode_decServed (d : Dev) (n s : Nat) : KeepsDecode d (d.decServed n s) := by
  obtain ⟨fsrc, heq⟩ := decServed_onlyFsrc d n s
  rw [heq]
  exact keepsDecode_parts rfl rfl

/-! ### Pictures that leave, or change in place (R211, R220) -/

/-- A pair that abandons a picture counts it, and the picture stays on its slot. -/
theorem abandonItem_frame (d : Dev) (n s : Nat) (i : DecItem) :
    Within [.PAIR_ABANDONS] d (d.abandonItem n s i) ∧ (d.abandonItem n s i).dec = d.dec := by
  unfold Dev.abandonItem Dev.countAbandon
  extract_lets p e
  have he : Within [.PAIR_ABANDONS] d e ∧ e.dec = d.dec := by
    unfold e
    split
    · exact ⟨(Within.refl _ d).put (by decide) _ _ _, rfl⟩
    · exact ⟨Within.refl _ d, rfl⟩
  split
  · exact ⟨he.1.parts rfl rfl rfl rfl, he.2⟩
  · exact he

theorem keepsDecode_abandonItem (d : Dev) (n s : Nat) (i : DecItem) : KeepsDecode d (d.abandonItem n s i) :=
  (abandonItem_frame d n s i).1.keepsDecode (by decide) (abandonItem_frame d n s i).2

theorem keepsDecode_dropActive (d : Dev) (n s ts : Nat) : KeepsDecode d (d.dropActive n s ts) :=
  (KeepsDecode.refl d).setDec (List.map_subset _ fun _ hi => (List.mem_filter.mp hi).1)

/-- The picture that is dropped is on its slot no more. -/
theorem dropActive_gone (d : Dev) (n s ts : Nat) : ts ∉ ((d.dropActive n s ts).decOf n s).stamps := by
  unfold Dev.dropActive
  rw [decOf_setDec_same]
  simp [DecSlot.stamps]

theorem KeepsDecode.gone {d e : Dev} (h : KeepsDecode d e) {n s ts : Nat} (hts : ts ∉ (d.decOf n s).stamps) :
    ∀ y ∈ (e.decOf n s).active, y.ts ≠ ts := fun _ hy heq => hts (h.stamps n s (heq ▸ List.mem_map_of_mem hy))

theorem keepsDecode_mapItem (d : Dev) (n s ts : Nat) {f : DecItem → DecItem} (hf : ∀ i, i.ts = ts → (f i).ts = ts) :
    KeepsDecode d (d.mapItem n s ts f) := by
  have hsame : ∀ i : DecItem, (if i.ts = ts then f i else i).ts = i.ts := fun i => by
    split
    · rename_i h
      rw [hf i h, h]
    · rfl
  refine (KeepsDecode.refl d).setDec ?_
  simp only [DecSlot.stamps, List.map_map, Function.comp_def, hsame]
  exact List.Subset.refl _

theorem keepsDecode_decPlace (d : Dev) (n s : Nat) (i : DecItem) : KeepsDecode d (d.decPlace n s i) := by
  unfold Dev.decPlace
  extract_lets codec x q refs next heads y
  have hy : y.active = x.active := by
    refine foldl_keeps (P := fun y : DecSlot => y.active = x.active) (fun z lh hz => ?_) heads rfl
    dsimp only
    split
    · exact hz
    · split <;> exact hz
  exact (KeepsDecode.refl d).setDec_active hy

theorem keepsDecode_decDrop (d : Dev) (n s : Nat) (i : DecItem) : KeepsDecode d (d.decDrop n s i) := by
  unfold Dev.decDrop
  extract_lets e f
  have he : KeepsDecode d e := keepsDecode_abandonItem d n s i
  have hf : KeepsDecode e f := keepsDecode_decPlace e n s i
  exact he.ite ((he.trans hf).ite ((he.trans hf).trans (keepsDecode_decRequest f n s)) _) _

/-- The device after the abandoned picture of a sequence outside limits has left its slot. -/
def Dev.leftOutside (d : Dev) (n s : Nat) (i : DecItem) : Dev := ((d.abandonItem n s i).decServed n s).dropActive n s i.ts

theorem keepsDecode_leftOutside (d : Dev) (n s : Nat) (i : DecItem) : KeepsDecode d (d.leftOutside n s i) :=
  ((keepsDecode_abandonItem d n s i).trans (keepsDecode_decServed _ n s)).trans (keepsDecode_dropActive _ n s i.ts)

theorem decOutside_eq (d : Dev) (n s why : Nat) (i : DecItem) :
    ∃ r, d.decOutside n s why i = (((d.leftOutside n s i).put .DEC_STATE n s (.num 4)).bump .DEC_OUTSIDE n s).logRec r :=
  ⟨_, rfl⟩

theorem keepsDecode_decOutside_of_left (d : Dev) (n s why : Nat) (i : DecItem) :
    KeepsDecode (d.leftOutside n s i) (d.decOutside n s why i) := by
  obtain ⟨r, heq⟩ := decOutside_eq d n s why i
  rw [heq]
  exact (((KeepsDecode.refl _).put (by decide) n s _).put (by decide) n s _).logRec r

theorem keepsDecode_decOutside (d : Dev) (n s why : Nat) (i : DecItem) : KeepsDecode d (d.decOutside n s why i) :=
  (keepsDecode_leftOutside d n s i).trans (keepsDecode_decOutside_of_left d n s why i)

/-! ### Headers (R214, R217, R223) -/

theorem onlyPools.keepsDecode {d e : Dev} (h : onlyPools d e) (hw : Within poolObjs d e) : KeepsDecode d e :=
  hw.keepsDecode (by decide) h.dec

/-- Taking the buffers of pictures changes the pools alone. -/
theorem takePictures_frame (d : Dev) (n s p : Nat) (i : DecItem) (q : SeqParams) :
    onlyPools d (d.takePictures n s p i q).2 ∧ Within poolObjs d (d.takePictures n s p i q).2 :=
  foldl_keeps (P := fun a : List (Nat × List Nat) × Dev => onlyPools d a.2 ∧ Within poolObjs d a.2)
    (fun _ _ ha => ⟨ha.1.trans (onlyPools_allocKept ..), ha.2.trans (poolObjs_allocKept ..)⟩) _
    ⟨onlyPools_refl d, Within.refl _ d⟩

theorem keepsDecode_parseItem (d : Dev) (n s p : Nat) (i : DecItem) : KeepsDecode d (d.parseItem n s p i) := by
  have hmap : ∀ (e : Dev) (j : DecItem), j.ts = i.ts → KeepsDecode e (e.mapItem n s i.ts fun _ => j) := fun e j hj =>
    keepsDecode_mapItem e n s i.ts fun _ _ => hj
  unfold Dev.parseItem
  extract_lets j codec x rap out changed
  split
  · exact hmap d j rfl
  rename_i q _
  extract_lets why r e
  split
  · exact (keepsDecode_abandonItem d n s j).trans (keepsDecode_dropActive _ n s _)
  split
  · have hseq : KeepsDecode d (d.setDec n s { x with seq := some q }) := (KeepsDecode.refl d).setDec_active rfl
    exact hseq.trans (keepsDecode_decOutside _ n s why j)
  split
  · exact ((KeepsDecode.refl d).setPairx _ _).trans (keepsDecode_dropActive _ n s _)
  obtain ⟨hpools, hwithin⟩ := takePictures_frame d n s p j q
  have htaken : KeepsDecode d r.2 := hpools.keepsDecode hwithin
  have hslot : x.active = (r.2.decOf n s).active := by
    unfold x Dev.decOf
    rw [hpools.dec]
  split
  · exact (htaken.trans (keepsDecode_decDrop r.2 n s j)).trans (keepsDecode_dropActive _ n s _)
  · have hseq : KeepsDecode d (r.2.setDec n s { x with seq := some q }) := htaken.setDec_active hslot
    have hagain : KeepsDecode d (r.2.setDec n s { x with seq := some q, started := false }) := htaken.setDec_active hslot
    have he : KeepsDecode d e := (hagain.put (by decide) _ _ _).ite hseq _
    exact he.trans (hmap e _ rfl)

/-! ### Contexts and the entropy engine (R208) -/

theorem keepsDecode_entropyTake (p fuel : Nat) (d : Dev) : KeepsDecode d (d.entropyTake p fuel) := by
  induction fuel generalizing d with
  | zero => exact KeepsDecode.refl d
  | succ fuel ih =>
    unfold Dev.entropyTake
    split
    · exact KeepsDecode.refl d
    extract_lets ready
    split
    · exact KeepsDecode.refl d
    · rename_i n s i _
      extract_lets e
      have he : KeepsDecode d e := (KeepsDecode.refl d).setPairx _ _
      exact he.ite ((he.trans (keepsDecode_parseItem e n s p i)).trans (ih _)) _

/-- A context is opened for a picture in its place. -/
theorem openFirst_stamps (p : Nat) (own : Bool) (is : List DecItem) : (openFirst p own is).map (·.ts) = is.map (·.ts) := by
  induction is with
  | nil => rfl
  | cons i r ih =>
    unfold openFirst
    split
    · rw [List.map_cons, List.map_cons, ih]
    · rfl

theorem keepsDecode_pairFill (p fuel : Nat) (d : Dev) : KeepsDecode d (d.pairFill p fuel) := by
  induction fuel generalizing d with
  | zero => exact KeepsDecode.refl d
  | succ fuel ih =>
    unfold Dev.pairFill
    extract_lets on count e
    have he : KeepsDecode d e := (KeepsDecode.refl d).put (by decide) _ _ _
    split
    · exact he
    split
    · exact he
    · rename_i n s _ _
      refine (he.setDec ?_).trans (ih _)
      rw [DecSlot.stamps, openFirst_stamps]
      exact List.Subset.refl _
    · rename_i c _ _
      extract_lets x
      have hopen : KeepsDecode d (e.setEnc c { x with cur := openPicture p (decide (e.encPair c = p)) x.cur }) :=
        he.trans (keepsDecode_parts rfl rfl)
      exact hopen.trans (ih _)

theorem keepsDecode_pairUpdate (d : Dev) (p : Nat) : KeepsDecode d (d.pairUpdate p) := by
  refine foldl_keeps (P := KeepsDecode d) (fun e q he => ?_) _ (KeepsDecode.refl d)
  exact (((he.trans (keepsDecode_pairFill q 9 e)).trans (keepsDecode_entropyTake q 9 _)).trans
    (keepsDecode_pairFill q 9 _)).ite he _

theorem keepsDecode_bufferSweep (d : Dev) : KeepsDecode d d.bufferSweep :=
  (onlyPools_bufferSweep d).keepsDecode (poolObjs_bufferSweep d)

/-! ### Output (R213, R215) -/

theorem keepsDecode_decState (d : Dev) (n s : Nat) : KeepsDecode d (d.decState n s) := (KeepsDecode.refl d).put (by decide) _ _ _

/-- The slot of leg `n` shows a picture as its last output. -/
def Dev.showPicture (d : Dev) (n s : Nat) (p : Picture) : Dev :=
  let x := d.decOf n s
  d.setDec n s { x with
    last := some p
    pics := keptPictures (x.pics.map fun y => if y.waits ∧ y.ts = p.ts ∧ y.layer = p.layer then { y with waits := false } else y) }

@[simp] theorem showPicture_nat (d : Dev) (n s : Nat) (p : Picture) (o : Obj) (u k : Nat) :
    (d.showPicture n s p).nat o u k = d.nat o u k := rfl

theorem showPicture_last (d : Dev) (n s : Nat) (p : Picture) : ((d.showPicture n s p).decOf n s).last = some p := by
  unfold Dev.showPicture
  rw [decOf_setDec_same]

/-- A picture of a slot is counted as output, with its size. -/
def Dev.countPicture (d : Dev) (n s : Nat) (p : Picture) : Dev :=
  (d.bump .DEC_PICTURES n s).put .DEC_SIZE n s (.num ((p.shown.1 * 65536 + p.shown.2 : Nat)))

theorem decOut_eq (d : Dev) (n s : Nat) (p : Picture) :
    d.decOut n s p = if p.concealed then ((d.showPicture n s p).countPicture n s p).bump .DEC_CONCEALED n s
      else (d.showPicture n s p).countPicture n s p := rfl

theorem keepsDecode_decOut (d : Dev) (n s : Nat) (p : Picture) : KeepsDecode d (d.decOut n s p) := by
  have hshown : KeepsDecode d (d.showPicture n s p) := (KeepsDecode.refl d).setDec_active rfl
  have hcount : KeepsDecode d ((d.showPicture n s p).countPicture n s p) :=
    (hshown.put (o := .DEC_PICTURES) (by decide) _ _ _).put (o := .DEC_SIZE) (by decide) _ _ _
  rw [decOut_eq]
  exact (hcount.put (by decide) _ _ _).ite hcount _

theorem keepsDecode_bumpOut (n s keep fuel : Nat) (d : Dev) : KeepsDecode d (d.bumpOut n s keep fuel) := by
  induction fuel generalizing d with
  | zero => exact KeepsDecode.refl d
  | succ fuel ih =>
    unfold Dev.bumpOut
    extract_lets w
    split
    · exact KeepsDecode.refl d
    split
    · exact (keepsDecode_decOut d n s _).trans (ih _)
    · exact KeepsDecode.refl d

/-! ### Pictures that are written to their buffers (R226) -/

theorem keepsDecode_drawNeighbours (d : Dev) (c r b row : Nat) : KeepsDecode d (d.drawNeighbours c r b row) := by
  unfold Dev.drawNeighbours
  dsimp only
  split <;> exact keepsDecode_parts rfl rfl

theorem keepsDecode_accessBank (d : Dev) (c a : Nat) : KeepsDecode d (d.accessBank c a) := by
  unfold Dev.accessBank
  extract_lets r b row x k kk hit conflict policy stay e f
  have he : KeepsDecode d e := keepsDecode_parts rfl rfl
  have hf : KeepsDecode d f := (he.put (by decide) _ _ _).ite ((he.put (by decide) _ _ _).ite he _) _
  exact hf.ite (hf.trans (keepsDecode_drawNeighbours ..)) _

theorem keepsDecode_writeLine (d : Dev) (m : List Host.Cell) (h off : Nat) (data : Octets) :
    KeepsDecode d (d.writeLine m h off data).1 := by
  refine foldl_keeps (P := fun s : Dev × List Host.Cell => KeepsDecode d s.1) (fun s j hs => ?_) _ (KeepsDecode.refl d)
  dsimp only
  split
  · exact (hs.trans (keepsDecode_accessBank ..)).put (by decide) _ _ _
  · exact hs

theorem keepsDecode_writeBufs (bufs : List Nat) (d : Dev) (m : List Host.Cell) (b : Octets) :
    KeepsDecode d (d.writeBufs m bufs b).1 := by
  induction bufs generalizing d m b with
  | nil => exact KeepsDecode.refl d
  | cons h r ih =>
    unfold Dev.writeBufs
    extract_lets size mine t
    have ht : KeepsDecode d t.1 :=
      foldl_keeps (P := fun s : Dev × List Host.Cell => KeepsDecode d s.1) (fun s i hs => hs.trans (keepsDecode_writeLine ..)) _
        (KeepsDecode.refl d)
    exact ht.trans (ih ..)

/-! ### The decode of a picture (R213, R222 to R228) -/

/-- A decoded frame is written to its buffers, takes its place on its slot, and its samples are counted. -/
theorem decFrame_dev (d : Dev) (m : List Host.Cell) (n s l : Nat) (i : DecItem) (q : SeqParams) (hurt : Bool) :
    ∃ bufs b x px, let w := (d.writeBufs m bufs b).1
      (d.decFrame m n s l i q hurt).dev = (w.setDec n s x).add .CODED_PIXELS_DEC 0 0 px ∧ x.active = (w.decOf n s).active :=
  ⟨_, _, _, _, rfl, rfl⟩

theorem keepsDecode_decFrame (d : Dev) (m : List Host.Cell) (n s l : Nat) (i : DecItem) (q : SeqParams) (hurt : Bool) :
    KeepsDecode d (d.decFrame m n s l i q hurt).dev := by
  obtain ⟨bufs, b, x, px, heq, hx⟩ := decFrame_dev d m n s l i q hurt
  rw [heq]
  exact ((keepsDecode_writeBufs bufs d m b).setDec_active hx).put (by decide) _ _ _

theorem keepsDecode_decFrames (d : Dev) (m : List Host.Cell) (n s : Nat) (i : DecItem) (q : SeqParams) (hurt : Bool) :
    KeepsDecode d (d.decFrames m n s i q hurt).dev := by
  refine foldl_keeps (P := fun a : FrameOut => KeepsDecode d a.dev) (fun a l ha => ?_) _ (KeepsDecode.refl d)
  dsimp only
  split
  · exact ha
  split
  · exact ha
  · exact ha.trans (keepsDecode_decFrame ..)

/-- The errors that a complete picture counts (R221, R222): at least one where a packet is missing or its share is exceeded. -/
def Dev.errorsOf (d : Dev) (n s : Nat) (i : DecItem) : Nat :=
  let size := 8 * i.parts.foldl (fun a t => a + t.len) 0
  let exceeds := decide (16 * d.nat .DEC_MAX_KBPS n s * 1000 < size * d.nat .DEC_MAX_FPS n s)
  max i.errors (if i.complete && !exceeds then 0 else 1)

/-- The device after a complete picture has left its slot and its errors were counted. -/
def Dev.finished (d : Dev) (n s : Nat) (i : DecItem) : Dev := (d.dropActive n s i.ts).add .DEC_ERRORS n s (d.errorsOf n s i)

/-- Once a complete picture has left its slot and its errors are counted, its decode does neither again. -/
theorem keepsDecode_decFinish (d : Dev) (m : List Host.Cell) (n s : Nat) (i : DecItem) :
    KeepsDecode (d.finished n s i) (d.decFinish m n s i).1 := by
  unfold Dev.decFinish
  extract_lets fore gone x rap size exceeds errors counted codec flushed shown
  have hcounted : KeepsDecode (d.finished n s i) counted := KeepsDecode.refl _
  have hflushed : KeepsDecode (d.finished n s i) flushed := (hcounted.trans (keepsDecode_bumpOut ..)).ite hcounted _
  split
  · exact hcounted.trans (keepsDecode_decRequest counted n s)
  extract_lets r framed y asks
  have hframed : KeepsDecode (d.finished n s i) framed := (hflushed.trans (keepsDecode_decFrames ..)).put (by decide) _ _ _
  split
  · exact hframed
  extract_lets noted served asked output excess stated
  have hnoted : KeepsDecode (d.finished n s i) noted := hframed.setDec_active rfl
  have hserved : KeepsDecode (d.finished n s i) served :=
    ((hnoted.put (o := .DEC_STATE) (by decide) _ _ _).trans (keepsDecode_decServed ..)).ite hnoted _
  have hasked : KeepsDecode (d.finished n s i) asked := (hserved.trans (keepsDecode_decRequest ..)).ite hserved _
  have houtput : KeepsDecode (d.finished n s i) output :=
    ((hasked.trans (keepsDecode_decOut ..)).ite hasked _).ite (hasked.trans (keepsDecode_bumpOut ..)) _
  have hstated : KeepsDecode (d.finished n s i) stated := houtput.trans (keepsDecode_decState output n s)
  clear_value excess
  exact (hstated.trans (keepsDecode_decOutside ..)).ite hstated _

end Sys2Proof.Machine
end

section
/-! PROOFS. Complete pictures leave their slot and are counted (R208, R209, R211, R213, R214, R216, R221, R222), of O37. -/

namespace Sys2Proof.Machine

/-! ### The row of a complete picture -/

/-- A row of a unit that acts on the device and on DRAM leaves what its operation, the sweep and the close leave. -/
theorem onBoth_completes {s : State} {n count : Nat} {on : Dev → Bool} {f : Dev → List Host.Cell → Dev × List Host.Cell}
    {r : Dev × List Host.Cell} {P : State → Prop} (hn : n < count) (hon : on s.dev = true) (hr : f s.dev s.mem = r)
    (hP : P { s with dev := r.1.bufferSweep.settle, mem := r.2 }) : ∃ t, onBoth s n count on f = .next t ∧ P t := by
  subst hr
  have hnext : onBoth s n count on f = onDram s fun d m => if on d then ((f d m).1.bufferSweep, (f d m).2) else (d, m) := if_pos hn
  rw [hnext]
  simp only [onDram, hon, if_true]
  exact ⟨_, rfl, hP⟩

theorem decComplete_no_context {d : Dev} {n k : Nat} (h : ∀ i ∈ (d.decOf n k).active, i.ctx = false) (m : List Host.Cell)
    (trace : List CoupleStep) : d.decComplete m n k trace = (d, m) := by
  have hnone : (d.decOf n k).active.find? (·.ctx) = none := List.find?_eq_none.mpr fun i hi => by simp [h i hi]
  unfold Dev.decComplete
  rw [hnone]

theorem decComplete_works {d : Dev} {n k : Nat} {i : DecItem} (hi : (d.decOf n k).active.find? (·.ctx) = some i)
    (hworks : d.pairWorks (d.itemPair n k i) = true) (m : List Host.Cell) (t : CoupleStep) :
    d.decComplete m n k [t] =
      let r := d.coupleStep m (d.itemPair n k i) t
      (r.1.pairUpdate (d.itemPair n k i), r.2) := by
  unfold Dev.decComplete
  simp only [hi, hworks]
  rfl

/-- The pixel engine that consumes the last packet of a picture on its slot finishes the picture. -/
theorem coupleConsume_last {d : Dev} {p : Nat} {pkt : CouplePkt} {rest : List CouplePkt} {j : DecItem}
    (hring : (d.pairxOf p).ring = pkt :: rest) (hlast : pkt.last = true) (hmark : pkt.mark ≠ .abandon)
    (hitem : d.itemOf pkt.ctx = some j) (m : List Host.Cell) :
    d.coupleConsume m p = (d.setPairx p { d.pairxOf p with ring := rest, head := none }).decFinish m pkt.ctx.leg pkt.ctx.slot
      { j with runs := j.runs ++ [pkt.run] } := by
  have hsame : ∀ x, (d.setPairx p x).itemOf pkt.ctx = some j := fun _ => hitem
  unfold Dev.coupleConsume
  simp only [hring, hlast, hsame, if_neg hmark, if_true]

/-- A finished picture is on its slot no more. -/
theorem finished_gone (d : Dev) (n s : Nat) (i : DecItem) : i.ts ∉ ((d.finished n s i).decOf n s).stamps :=
  dropActive_gone d n s i.ts

/-- What ends a command of the decoder puts no picture back and counts no error. -/
theorem keepsDecode_ends (d : Dev) (p : Nat) : KeepsDecode d (d.pairUpdate p).bufferSweep.settle := by
  have hsettle : ∀ e : Dev, KeepsDecode e e.settle := fun e => by
    refine ⟨fun n s => ?_, settle_nat e rfl⟩
    unfold Dev.decOf
    rw [settle_dec]
    exact List.Subset.refl _
  exact ((keepsDecode_pairUpdate d p).trans (keepsDecode_bufferSweep _)).trans (hsettle _)

/-- The second part of O37. -/
theorem lastPacketsCompleteTheirPicture : Sys2Proof.Claim.LastPacketsCompleteTheirPicture := by
  intro s n k hn hquiet hrun d
  refine ⟨fun hctx trace => ?_, ?_⟩
  · exact onBoth_completes hn hrun (decComplete_no_context hctx s.mem trace)
      ⟨settle_of_quiet ((poolObjs_bufferSweep d).quiet hquiet), rfl, rfl⟩
  intro i pkt rest j hi p hworks hring hlast hmark hitem
  let e := d.setPairx p { d.pairxOf p with ring := rest, head := none }
  let done : DecItem := { j with runs := j.runs ++ [pkt.run] }
  let r := e.decFinish s.mem pkt.ctx.leg pkt.ctx.slot done
  have hcomplete : d.decComplete s.mem n k [.consume] = (r.1.pairUpdate p, r.2) :=
    (decComplete_works hi hworks s.mem .consume).trans
      (congrArg (fun r : Dev × List Host.Cell => (r.1.pairUpdate p, r.2)) (coupleConsume_last hring hlast hmark hitem s.mem))
  have hkeeps : KeepsDecode (e.finished pkt.ctx.leg pkt.ctx.slot done) (r.1.pairUpdate p).bufferSweep.settle :=
    (keepsDecode_decFinish ..).trans (keepsDecode_ends r.1 p)
  have hgone := hkeeps.gone (finished_gone e _ _ done)
  refine onBoth_completes hn hrun hcomplete ?_
  dsimp only
  exact ⟨rfl, rfl, rfl, hgone⟩

/-! ### What a picture counts -/

/-- A finished picture counts its errors. -/
theorem finished_errors (d : Dev) (n s : Nat) (i : DecItem) :
    (d.finished n s i).nat .DEC_ERRORS n s = (d.nat .DEC_ERRORS n s + d.errorsOf n s i) % 2 ^ 32 := by
  unfold Dev.finished
  rw [Dev.nat_add, if_pos ⟨rfl, rfl, rfl⟩]
  rfl

theorem errorsOf_eq (d : Dev) (n s : Nat) (i : DecItem) :
    d.errorsOf n s i = max i.errors (if i.complete = true ∧
      ¬16 * d.nat .DEC_MAX_KBPS n s * 1000 < 8 * i.parts.foldl (fun a t => a + t.len) 0 * d.nat .DEC_MAX_FPS n s then 0 else 1) := by
  simp [Dev.errorsOf]

theorem countPicture_counts (d : Dev) (n s : Nat) (p : Picture) :
    (d.countPicture n s p).nat .DEC_PICTURES n s = (d.nat .DEC_PICTURES n s + 1) % 2 ^ 32 ∧
      (d.countPicture n s p).nat .DEC_SIZE n s = p.shown.1 * 65536 + p.shown.2 ∧
      (d.countPicture n s p).nat .DEC_CONCEALED n s = d.nat .DEC_CONCEALED n s := by
  have hbits : Obj.DEC_PICTURES.row.ty.bits = 32 := rfl
  simp [Dev.countPicture, hbits]
  omega

/-- A picture that is output is its slot's last, and is counted, with its size, and as concealed where it is. -/
theorem decOut_spec (d : Dev) (n s : Nat) (p : Picture) :
    let e := d.decOut n s p
    (e.decOf n s).last = some p ∧ e.nat .DEC_PICTURES n s = (d.nat .DEC_PICTURES n s + 1) % 2 ^ 32 ∧
      e.nat .DEC_SIZE n s = p.shown.1 * 65536 + p.shown.2 ∧
      e.nat .DEC_CONCEALED n s = if p.concealed then (d.nat .DEC_CONCEALED n s + 1) % 2 ^ 32 else d.nat .DEC_CONCEALED n s := by
  obtain ⟨hpictures, hsize, hconcealed⟩ := countPicture_counts (d.showPicture n s p) n s p
  have hlast : (((d.showPicture n s p).countPicture n s p).decOf n s).last = some p := by
    simp [Dev.countPicture, Dev.bump_eq, showPicture_last]
  have hbits : Obj.DEC_CONCEALED.row.ty.bits = 32 := rfl
  rw [decOut_eq]
  split
  · exact ⟨by simp [Dev.bump_eq, hlast], by simp [hpictures], by simp [hsize], by simp [hconcealed, hbits]⟩
  · exact ⟨hlast, by simp [hpictures], by simp [hsize], by simp [hconcealed]⟩

/-! ### A sequence outside limits (R214, R216) -/

theorem leftOutside_nat (d : Dev) (n s : Nat) (i : DecItem) {o : Obj} (ho : o ≠ .PAIR_ABANDONS) (u k : Nat) :
    (d.leftOutside n s i).nat o u k = d.nat o u k := by
  obtain ⟨fsrc, heq⟩ := decServed_onlyFsrc (d.abandonItem n s i) n s
  unfold Dev.leftOutside
  rw [heq]
  exact (abandonItem_frame d n s i).1.nat (by simpa using ho) u k

/-- A sequence outside limits: its picture leaves its slot, which is OUTSIDE, and counts it. -/
theorem decOutside_spec (d : Dev) (n s why : Nat) (i : DecItem) :
    (∀ y ∈ ((d.decOutside n s why i).decOf n s).active, y.ts ≠ i.ts) ∧ (d.decOutside n s why i).nat .DEC_STATE n s = 4 ∧
      (d.decOutside n s why i).nat .DEC_OUTSIDE n s = (d.nat .DEC_OUTSIDE n s + 1) % 2 ^ 32 := by
  obtain ⟨r, heq⟩ := decOutside_eq d n s why i
  have hbits : Obj.DEC_OUTSIDE.row.ty.bits = 32 := rfl
  refine ⟨(keepsDecode_decOutside_of_left d n s why i).gone (dropActive_gone _ n s i.ts), ?_, ?_⟩
  · simp [heq]
  · simp [heq, hbits, leftOutside_nat]

/-- The headers of a picture that is no random access point, on a slot that is OUTSIDE, and of one whose sequence exceeds a limit. -/
theorem parseItem_exceeds {d : Dev} {n s : Nat} {i : DecItem} {q : SeqParams} (hseq : i.seq = some q)
    (hnone : (d.decOf n s).seq = none) (hwhy : d.outsideBy n s (d.decCodec n s % 16) q ≠ 0) (p : Nat) :
    d.parseItem n s p i =
      let j := { i with parsed := true }
      if d.decOutsideNow n s = true ∧ d.itemRap n s i = false then (d.abandonItem n s j).dropActive n s i.ts
      else (d.setDec n s { d.decOf n s with seq := some q }).decOutside n s (d.outsideBy n s (d.decCodec n s % 16) q) j := by
  have hparsed : ({ i with parsed := true } : DecItem).seq = some q := hseq
  have hrap : d.itemRap n s { i with parsed := true } = d.itemRap n s i := rfl
  unfold Dev.parseItem
  simp [hparsed, hnone, hwhy, hrap]

/-- The third part of O37. -/
theorem decodedPicturesAreCounted : Sys2Proof.Claim.DecodedPicturesAreCounted := by
  intro d m n k p i
  refine ⟨?_, fun pic => decOut_spec d n k pic, fun q hseq hnone hwhy => ?_⟩
  · have hkeeps := keepsDecode_decFinish d m n k i
    have herrors := (hkeeps.errors n k).trans (finished_errors d n k i)
    rw [errorsOf_eq] at herrors
    exact ⟨hkeeps.gone (finished_gone d n k i), herrors⟩
  · dsimp only
    rw [parseItem_exceeds hseq hnone hwhy p]
    dsimp only
    split
    · refine ⟨(KeepsDecode.refl _).gone (dropActive_gone _ n k i.ts), ?_⟩
      exact (abandonItem_frame d n k _).1.nat (by decide) n k
    · exact decOutside_spec _ n k _ _

/-- Settles O37: key-frame requests, the last packets of pictures, what pictures count, and the coupling buffer. -/
theorem decodingAndItsKeyframes : Obligations.DecodingAndItsKeyframes :=
  ⟨keyframeRequestsRepeat, lastPacketsCompleteTheirPicture, decodedPicturesAreCounted, recordsFitTheCouplingBuffer⟩

end Sys2Proof.Machine
end

section
/-! PROOFS. What the coding pairs and the packet path leave of the encodes: a picture in hand stays or goes, and the counts of pictures are
left alone (R208, R211, R237), of O38. -/

namespace Sys2Proof.Machine

@[simp] theorem Dev.encOf_setEnc (d : Dev) (e f : EncId) (x : Enc) : (d.setEnc e x).encOf f = if f = e then x else d.encOf f := by
  unfold Dev.encOf Dev.setEnc
  split
  · rename_i h; subst h; simp
  · rename_i h; exact tget_tput_other _ _ _ h _

/-! ### The relation -/

/-- The periods of the pictures that an encode has in hand. -/
def Enc.periods (x : Enc) : List Nat := x.cur.map (·.period)

/-- The objects that a finished picture of a leg's own encode is shown in (R239, R242, R249). -/
def encShown : List Obj := [.ENC_PICTURES, .ENC_LAST_BITS, .ENC_INTRA, .ENC_LAST_QP]

/-- `e` has no picture in hand that `d` had not, and shows the finished pictures that `d` showed. -/
structure KeepsEncodes (d e : Dev) : Prop where
  periods : ∀ i, (e.encOf i).periods ⊆ (d.encOf i).periods
  shown : ∀ o ∈ encShown, ∀ u k, e.nat o u k = d.nat o u k

theorem KeepsEncodes.refl (d : Dev) : KeepsEncodes d d := ⟨fun _ => List.Subset.refl _, fun _ _ _ _ => rfl⟩

theorem KeepsEncodes.trans {d e f : Dev} (h : KeepsEncodes d e) (g : KeepsEncodes e f) : KeepsEncodes d f :=
  ⟨fun i => List.Subset.trans (g.periods i) (h.periods i), fun o ho u k => (g.shown o ho u k).trans (h.shown o ho u k)⟩

theorem encOf_eq_of_enc {d e : Dev} (h : e.enc = d.enc) (i : EncId) : e.encOf i = d.encOf i := by
  unfold Dev.encOf
  rw [h]

/-- A change of objects beside those, and of parts other than the encodes. -/
theorem Within.keepsEncodes {os : List Obj} {d e : Dev} (h : Within os d e) (hos : ∀ o ∈ encShown, o ∉ os) (he : e.enc = d.enc) :
    KeepsEncodes d e := by
  refine ⟨fun i => ?_, fun o ho u k => h.nat (hos o ho) u k⟩
  rw [encOf_eq_of_enc he]
  exact List.Subset.refl _

/-- A change of parts other than the objects and the encodes. -/
theorem KeepsEncodes.parts {d e f : Dev} (h : KeepsEncodes d e) (hdict : f.dict = e.dict) (henc : f.enc = e.enc) :
    KeepsEncodes d f := by
  refine h.trans ⟨fun i => ?_, fun o _ u k => Dev.nat_eq_of_get (by simp only [Dev.get, hdict])⟩
  rw [encOf_eq_of_enc henc]
  exact List.Subset.refl _

theorem KeepsEncodes.put {d e : Dev} (h : KeepsEncodes d e) {o : Obj} (ho : o ∉ encShown) (u k : Nat) (v : Val) :
    KeepsEncodes d (e.put o u k v) := by
  refine h.trans (((Within.refl [o] e).put (by simp) u k v).keepsEncodes (fun p hp hmem => ?_) rfl)
  exact ho (List.mem_singleton.mp hmem ▸ hp)

theorem KeepsEncodes.setEnc {d e : Dev} (h : KeepsEncodes d e) {i : EncId} {x : Enc} (hx : x.periods ⊆ (e.encOf i).periods) :
    KeepsEncodes d (e.setEnc i x) := by
  refine h.trans ⟨fun j => ?_, fun _ _ _ _ => rfl⟩
  rw [Dev.encOf_setEnc]
  split
  · rename_i hj
    rw [hj]
    exact hx
  · exact List.Subset.refl _

/-- An encode whose pictures in hand stay as they are. -/
theorem KeepsEncodes.setEnc_cur {d e : Dev} (h : KeepsEncodes d e) {i : EncId} {x : Enc} (hx : x.cur = (e.encOf i).cur) :
    KeepsEncodes d (e.setEnc i x) := by
  refine h.setEnc ?_
  rw [Enc.periods, hx]
  exact List.Subset.refl _

theorem KeepsEncodes.ite {d e f : Dev} (h : KeepsEncodes d e) (g : KeepsEncodes d f) (c : Prop) [Decidable c] :
    KeepsEncodes d (if c then e else f) := by
  split
  · exact h
  · exact g

/-- A picture that has left its encode has not come back. -/
theorem KeepsEncodes.gone {d e : Dev} (h : KeepsEncodes d e) {i : EncId} {p : Nat} (hp : p ∉ (d.encOf i).periods) :
    ∀ y ∈ (e.encOf i).cur, y.period ≠ p := fun _ hy heq => hp (h.periods i (heq ▸ List.mem_map_of_mem hy))

/-! ### Pools, and the close of a command -/

theorem onlyPools.enc {d e : Dev} (h : onlyPools d e) : e.enc = d.enc := by
  obtain ⟨t, x, rfl⟩ := h
  rfl

theorem onlyPools.keepsEncodes {d e : Dev} (h : onlyPools d e) (hw : Within poolObjs d e) : KeepsEncodes d e :=
  hw.keepsEncodes (by decide) h.enc

theorem keepsEncodes_bufferSweep (d : Dev) : KeepsEncodes d d.bufferSweep :=
  (onlyPools_bufferSweep d).keepsEncodes (poolObjs_bufferSweep d)

theorem keepsEncodes_settle (d : Dev) : KeepsEncodes d d.settle := by
  have hclose : ∀ o ∈ encShown, closeObj o = false := by decide
  refine ⟨fun i => ?_, fun o ho => settle_nat d (hclose o ho)⟩
  rw [encOf_eq_of_enc (settle_enc d)]
  exact List.Subset.refl _

/-! ### Decoded pictures on the same pairs (R208, R211, R214, R220) -/

theorem keepsEncodes_abandonItem (d : Dev) (n s : Nat) (i : DecItem) : KeepsEncodes d (d.abandonItem n s i) := by
  refine (abandonItem_frame d n s i).1.keepsEncodes (by decide) ?_
  unfold Dev.abandonItem Dev.countAbandon
  extract_lets p e
  have he : e.enc = d.enc := by
    unfold e
    split <;> rfl
  split
  · exact he
  · exact he

theorem keepsEncodes_decRequest (d : Dev) (n s : Nat) : KeepsEncodes d (d.decRequest n s) := by
  unfold Dev.decRequest
  split
  · exact KeepsEncodes.refl d
  · exact (KeepsEncodes.refl d).parts rfl rfl

theorem keepsEncodes_decServed (d : Dev) (n s : Nat) : KeepsEncodes d (d.decServed n s) := by
  obtain ⟨fsrc, heq⟩ := decServed_onlyFsrc d n s
  rw [heq]
  exact (KeepsEncodes.refl d).parts rfl rfl

theorem keepsEncodes_decDrop (d : Dev) (n s : Nat) (i : DecItem) : KeepsEncodes d (d.decDrop n s i) := by
  unfold Dev.decDrop
  extract_lets e f
  have he : KeepsEncodes d e := keepsEncodes_abandonItem d n s i
  have hf : KeepsEncodes d f := he.parts rfl rfl
  exact he.ite (hf.ite (hf.trans (keepsEncodes_decRequest f n s)) _) _

theorem keepsEncodes_decOutside (d : Dev) (n s why : Nat) (i : DecItem) : KeepsEncodes d (d.decOutside n s why i) := by
  obtain ⟨r, heq⟩ := decOutside_eq d n s why i
  have hleft : KeepsEncodes d (d.leftOutside n s i) :=
    ((keepsEncodes_abandonItem d n s i).trans (keepsEncodes_decServed _ n s)).parts rfl rfl
  rw [heq]
  exact ((hleft.put (by decide) n s _).put (by decide) n s _).parts rfl rfl

theorem keepsEncodes_parseItem (d : Dev) (n s p : Nat) (i : DecItem) : KeepsEncodes d (d.parseItem n s p i) := by
  have hparts : ∀ {e : Dev}, e.dict = d.dict → e.enc = d.enc → KeepsEncodes d e := (KeepsEncodes.refl d).parts
  unfold Dev.parseItem
  extract_lets j codec x rap out changed
  split
  · exact hparts rfl rfl
  rename_i q _
  extract_lets why r e
  split
  · exact (keepsEncodes_abandonItem d n s j).parts rfl rfl
  split
  · have hseq : KeepsEncodes d (d.setDec n s { x with seq := some q }) := hparts rfl rfl
    exact hseq.trans (keepsEncodes_decOutside _ n s why j)
  split
  · exact hparts rfl rfl
  obtain ⟨hpools, hwithin⟩ := takePictures_frame d n s p j q
  have htaken : KeepsEncodes d r.2 := hpools.keepsEncodes hwithin
  split
  · exact (htaken.trans (keepsEncodes_decDrop r.2 n s j)).parts rfl rfl
  · have hagain : KeepsEncodes d (r.2.setDec n s { x with seq := some q, started := false }) := htaken.parts rfl rfl
    have hseq : KeepsEncodes d (r.2.setDec n s { x with seq := some q }) := htaken.parts rfl rfl
    have he : KeepsEncodes d e := (hagain.put (by decide) n s _).ite hseq _
    exact he.parts rfl rfl

/-! ### Contexts and the entropy engine (R208) -/

theorem keepsEncodes_entropyTake (p fuel : Nat) (d : Dev) : KeepsEncodes d (d.entropyTake p fuel) := by
  induction fuel generalizing d with
  | zero => exact KeepsEncodes.refl d
  | succ fuel ih =>
    unfold Dev.entropyTake
    split
    · exact KeepsEncodes.refl d
    extract_lets ready
    split
    · exact KeepsEncodes.refl d
    · rename_i n s i _
      extract_lets e
      have he : KeepsEncodes d e := (KeepsEncodes.refl d).parts rfl rfl
      exact he.ite ((he.trans (keepsEncodes_parseItem e n s p i)).trans (ih _)) _

/-- A context is opened for a picture in its place. -/
theorem openPicture_periods (p : Nat) (own : Bool) (cs : List EncPic) :
    (openPicture p own cs).map (·.period) = cs.map (·.period) := by
  induction cs with
  | nil => rfl
  | cons c r ih =>
    unfold openPicture
    split
    · rw [List.map_cons, List.map_cons, ih]
    · rfl

theorem keepsEncodes_pairFill (p fuel : Nat) (d : Dev) : KeepsEncodes d (d.pairFill p fuel) := by
  induction fuel generalizing d with
  | zero => exact KeepsEncodes.refl d
  | succ fuel ih =>
    unfold Dev.pairFill
    extract_lets on count e
    have he : KeepsEncodes d e := (KeepsEncodes.refl d).put (by decide) _ _ _
    split
    · exact he
    split
    · exact he
    · rename_i n s _ _
      have hopen : KeepsEncodes d (e.setDec n s
          { e.decOf n s with active := openFirst p (decide (e.nat .DEC_PAIR n s = p)) (e.decOf n s).active }) := he.parts rfl rfl
      exact hopen.trans (ih _)
    · rename_i c _ _
      refine (he.setEnc ?_).trans (ih _)
      rw [Enc.periods, openPicture_periods]
      exact List.Subset.refl _

theorem keepsEncodes_pairUpdate (d : Dev) (p : Nat) : KeepsEncodes d (d.pairUpdate p) := by
  refine foldl_keeps (P := KeepsEncodes d) (fun e q he => ?_) _ (KeepsEncodes.refl d)
  exact (((he.trans (keepsEncodes_pairFill q 9 e)).trans (keepsEncodes_entropyTake q 9 _)).trans
    (keepsEncodes_pairFill q 9 _)).ite he _

/-! ### Packets that enter a video queue (R162, R164) -/

theorem keepsEncodes_enqueueWith (d : Dev) (n : Nat) (k : LegQueue) (q : QPkt) (f : Tx → QPkt → Tx) :
    KeepsEncodes d (d.enqueueWith n k q f) := by
  unfold Dev.enqueueWith
  split
  · exact (KeepsEncodes.refl d).parts rfl rfl
  extract_lets r
  obtain ⟨hpools, hwithin⟩ := sendBuffer_frame d n k (d.ipLenOf n q)
  have hr : KeepsEncodes d r.2 := hpools.keepsEncodes hwithin
  split
  · exact hr.parts rfl rfl
  · exact hr

theorem keepsEncodes_enqueue_video (d : Dev) (n : Nat) (q : QPkt) : KeepsEncodes d (d.enqueue n .video q) := by
  have hsame := KeepsEncodes.refl d
  unfold Dev.enqueue
  extract_lets pkt q' x t full shifted frame
  split
  · exact hsame.put (by decide) _ _ _
  dsimp only
  split
  · exact hsame
  split
  · exact hsame.put (by decide) _ _ _
  split
  · exact hsame.put (by decide) _ _ _
  split
  · exact keepsEncodes_enqueueWith ..
  · have hdrop : KeepsEncodes d (d.setTx n { x with dropFull := tset q'.pkt.ssrc frame x.dropFull }) := hsame.parts rfl rfl
    exact hdrop.put (by decide) _ _ _

theorem keepsEncodes_repairOf (d : Dev) (n ssrc : Nat) (parity : Bool) : KeepsEncodes d (d.repairOf n ssrc parity).2 := by
  unfold Dev.repairOf
  extract_lets x
  split <;> exact (KeepsEncodes.refl d).parts rfl rfl

theorem keepsEncodes_sendVideo (d : Dev) (n : Nat) (p : TxPkt) (first : Bool) : KeepsEncodes d (d.sendVideo n p first) := by
  unfold Dev.sendVideo
  extract_lets k e x g g' h f r
  have he : KeepsEncodes d e := keepsEncodes_enqueue_video d n _
  split
  · exact he.parts rfl rfl
  split
  · exact he.parts rfl rfl
  · have hf : KeepsEncodes d f := he.parts rfl rfl
    exact (hf.trans (keepsEncodes_repairOf f n p.ssrc true)).trans (keepsEncodes_enqueue_video r.2 n _)

theorem keepsEncodes_sendPicture (d : Dev) (n ssrc pt ts seq : Nat) (payloads : List Nat) (frame : Option Nat) :
    KeepsEncodes d (d.sendPicture n ssrc pt ts seq payloads frame).1 :=
  foldl_keeps (P := KeepsEncodes d) (fun _ _ he => he.trans (keepsEncodes_sendVideo ..)) _ (KeepsEncodes.refl d)

end Sys2Proof.Machine
end

section
/-! PROOFS. Rows and pictures that an encode finishes (R237, R239, R241), and O38. -/

namespace Sys2Proof.Machine

/-! ### A row that is finished (R241, R242) -/

/-- A picture to which a choice of quantisers has been added: all but those is as it was. -/
def EncPic.quantised (c : EncPic) (qps : List Nat) (coastAt : Option Nat) : EncPic := { c with qps := qps, coastAt := coastAt }

theorem chooseRow_quantised (x : Enc) (c : EncPic) (qmin qmax : Nat) :
    ∃ qps coastAt, x.chooseRow c qmin qmax = c.quantised qps coastAt := by
  unfold Enc.chooseRow
  extract_lets r prev spent
  split
  · exact ⟨c.qps, c.coastAt, rfl⟩
  split
  · exact ⟨_, _, rfl⟩
  · exact ⟨_, c.coastAt, rfl⟩

theorem chooseTo_quantised (x : Enc) (qmin qmax k fuel : Nat) (c : EncPic) :
    ∃ qps coastAt, x.chooseTo qmin qmax k fuel c = c.quantised qps coastAt := by
  induction fuel generalizing c with
  | zero => exact ⟨c.qps, c.coastAt, rfl⟩
  | succ fuel ih =>
    rw [Enc.chooseTo]
    split
    · exact ⟨c.qps, c.coastAt, rfl⟩
    · obtain ⟨qps, coastAt, hrow⟩ := chooseRow_quantised x c qmin qmax
      obtain ⟨qps', coastAt', hrest⟩ := ih (x.chooseRow c qmin qmax)
      exact ⟨qps', coastAt', by rw [hrest, hrow]; rfl⟩

/-- A row of a picture that is in no context, or has no row to come, changes nothing. -/
theorem rowComplete_stands {d : Dev} {e : EncId} {c : EncPic} {later : List EncPic} (hcur : (d.encOf e).cur = c :: later)
    (hnot : ¬(c.ctx = true ∧ c.bits.length < c.rows)) (bits header : Nat) (finds : RowFinds) :
    d.rowComplete e bits header finds = d := by
  have hstands : (!c.ctx || decide (c.rows ≤ c.bits.length)) = true := by
    rw [Bool.or_eq_true, Bool.not_eq_true', decide_eq_true_eq, ← Bool.not_eq_true, ← Nat.not_lt]
    exact Decidable.not_and_iff_not_or_not.mp hnot
  unfold Dev.rowComplete
  simp only [hcur, hstands, if_true]

/-- A row of a picture in a context joins the bits of the rows before. -/
theorem rowComplete_joins {d : Dev} {e : EncId} {c : EncPic} {later : List EncPic} (hcur : (d.encOf e).cur = c :: later)
    (hctx : c.ctx = true) (hrow : c.bits.length < c.rows) (bits header : Nat) (finds : RowFinds) :
    ∃ x c', d.rowComplete e bits header finds = d.setEnc e x ∧ x.cur = c' :: later ∧ c'.bits = c.bits ++ [bits] ∧
      c'.header = header ∧ c'.satd = finds.satd := by
  have hjoins : (!c.ctx || decide (c.rows ≤ c.bits.length)) = false := by simp [hctx, hrow]
  unfold Dev.rowComplete
  simp only [hcur, hjoins, Bool.false_eq_true, if_false]
  let x := d.encOf e
  let q := d.encBounds e
  obtain ⟨qps, coastAt, hfirst⟩ := chooseTo_quantised x q.1 q.2.1 (c.bits.length + 1) 2 { c with header := header, satd := finds.satd }
  rw [hfirst]
  refine ⟨_, _, rfl, rfl, ?_⟩
  generalize hdone : EncPic.mk .. = done
  obtain ⟨qps', coastAt', hsecond⟩ := chooseTo_quantised x q.1 q.2.1 (c.bits.length + 2) 1 done
  rw [hsecond, ← hdone]
  exact ⟨rfl, rfl, rfl⟩

/-! ### The mean of the quantisers (R242) -/

/-- A quotient rounded to the nearest, and to the even one of two. -/
def nearestEven (s n : Nat) : Nat :=
  let q := s / n
  if 2 * (s % n) < n then q else if n < 2 * (s % n) then q + 1 else if q % 2 = 0 then q else q + 1

theorem nearestEven_near {n : Nat} (hn : 0 < n) (s : Nat) :
    2 * s ≤ (2 * nearestEven s n + 1) * n ∧ 2 * nearestEven s n * n ≤ 2 * s + n := by
  have hdiv : n * (s / n) + s % n = s := Nat.div_add_mod s n
  have hrest : s % n < n := Nat.mod_lt s hn
  have hnext : n * (s / n + 1) = n * (s / n) + n := Nat.mul_add_one ..
  have hdouble : ∀ m, 2 * m * n = 2 * (n * m) := fun m => by rw [Nat.mul_assoc, Nat.mul_comm m n]
  rw [Nat.add_mul, Nat.one_mul, hdouble]
  unfold nearestEven
  dsimp only
  split
  · omega
  split
  · omega
  split <;> omega

/-- The quantiser that a finished picture shows: the mean of its rows', or with no row the last of its kind. -/
def Enc.shownQp (x : Enc) (c : EncPic) : Nat :=
  if c.qps = [] then tget 32 c.kind x.base else nearestEven (c.qps.foldl (· + ·) 0) c.qps.length

theorem shownQp_near (x : Enc) {c : EncPic} (hrows : c.qps ≠ []) :
    2 * c.qps.sum ≤ (2 * x.shownQp c + 1) * c.qps.length ∧ 2 * x.shownQp c * c.qps.length ≤ 2 * c.qps.sum + c.qps.length := by
  rw [Enc.shownQp, if_neg hrows, ← List.sum_eq_foldl]
  exact nearestEven_near (List.length_pos_iff.mpr hrows) _

/-! ### A picture that is finished (R237, R239) -/

/-- A finished picture of leg `n`'s own encode is counted, with its size. -/
def Dev.countCoded (d : Dev) (n size : Nat) (intra : Bool) : Dev :=
  let e := (d.bump .ENC_PICTURES n).setN .ENC_LAST_BITS n size
  if intra then e.bump .ENC_INTRA n else e

theorem countCoded_counts (d : Dev) (n size : Nat) (intra : Bool) :
    (d.countCoded n size intra).nat .ENC_PICTURES n = (d.nat .ENC_PICTURES n + 1) % 2 ^ 32 ∧
      (d.countCoded n size intra).nat .ENC_LAST_BITS n = size ∧
      (intra = true → (d.countCoded n size intra).nat .ENC_INTRA n = (d.nat .ENC_INTRA n + 1) % 2 ^ 32) := by
  have hpictures : Obj.ENC_PICTURES.row.ty.bits = 32 := rfl
  have hintra : Obj.ENC_INTRA.row.ty.bits = 32 := rfl
  cases intra <;> simp [Dev.countCoded, Dev.setN_eq, hpictures, hintra]

theorem countCoded_enc (d : Dev) (n size : Nat) (intra : Bool) : (d.countCoded n size intra).enc = d.enc := by
  unfold Dev.countCoded
  dsimp only
  split <;> rfl

/-- The packets of a finished picture of leg `n`'s own encode `x` are sent from the timestamp `ts` on, and ENC_CARRY shows its carry. -/
def Dev.sendCoded (d : Dev) (n size : Nat) (c : EncPic) (intra : Bool) (x : Enc) (ts : Nat) : Dev :=
  let p := d.encPayloads n c intra size
  let frame := if d.encCodec (.composed n) = 3 then some (d.nat .ENC_PICTURES n % 65536) else none
  let r := p.2.sendPicture n x.ssrc (d.nat .ENC_PT n) ts x.seq p.1 frame
  (r.1.setEnc (.composed n) { r.1.encOf (.composed n) with seq := r.2 }).setI .ENC_CARRY n 0 x.carry

theorem keepsEncodes_sendCoded (d : Dev) (n size : Nat) (c : EncPic) (intra : Bool) (x : Enc) (ts : Nat) :
    KeepsEncodes d (d.sendCoded n size c intra x ts) := by
  unfold Dev.sendCoded
  extract_lets p frame r
  have hp : KeepsEncodes d p.2 := (KeepsEncodes.refl d).parts rfl rfl
  have hr : KeepsEncodes d r.1 := hp.trans (keepsEncodes_sendPicture ..)
  clear_value r
  have hnext : KeepsEncodes d (r.1.setEnc (.composed n) { r.1.encOf (.composed n) with seq := r.2 }) := hr.setEnc_cur rfl
  exact hnext.put (by decide) _ _ _

/-- A picture of leg `n`'s own encode that becomes final leaves the encode and is sent; then it is counted, and the pair goes on. -/
theorem encEmit_composed (d : Dev) (n : Nat) (c : EncPic) (size : Nat) (kind : CodedKind) (intra : Bool) (entry : Option Nat) :
    ∃ f p, KeepsEncodes d f ∧ c.period ∉ (f.encOf (.composed n)).periods ∧
      d.encEmit (.composed n) c size kind intra entry = (f.countCoded n size intra).pairUpdate p := by
  unfold Dev.encEmit
  extract_lets x skip emitted recon y z px left ts counted
  have hy : left.encOf (.composed n) = y := (Dev.encOf_setEnc ..).trans (if_pos rfl)
  have hemitted : KeepsEncodes d emitted := (KeepsEncodes.refl d).parts rfl rfl
  have hleft : KeepsEncodes d left :=
    (hemitted.setEnc (x := y) (List.map_subset _ fun _ hc => (List.mem_filter.mp hc).1)).put (by decide) _ _ _
  have hgone : c.period ∉ (left.encOf (.composed n)).periods := by
    rw [hy]
    simp [y, Enc.periods]
  have hsent := keepsEncodes_sendCoded left n size c intra y ts
  exact ⟨left.sendCoded n size c intra y ts, _, hleft.trans hsent, fun hmem => hgone (hsent.periods _ hmem), rfl⟩

/-- A picture in a context that completes teaches its encode, becomes final, and shows its quantiser. -/
theorem encComplete_composed {d : Dev} {n : Nat} {c : EncPic} {later : List EncPic} (hcur : (d.encOf (.composed n)).cur = c :: later)
    (hctx : c.ctx = true) (size entryBits : Nat) :
    ∃ x entry, x.cur = (d.encOf (.composed n)).cur ∧ d.encComplete (.composed n) size entryBits =
      let e := ((d.setEnc (.composed n) x).encEmit (.composed n) c size .coded c.intra entry).setN .ENC_LAST_QP n
        ((d.encOf (.composed n)).shownQp c)
      if c.coastAt.isSome then e.bump .ENC_COAST n else e := by
  unfold Dev.encComplete
  simp only [hcur, hctx, Bool.not_true, Bool.false_eq_true, if_false]
  exact ⟨_, _, rfl, rfl⟩

theorem encComplete_none {d : Dev} {e : EncId} (hcur : (d.encOf e).cur = []) (size entryBits : Nat) :
    d.encComplete e size entryBits = d := by
  unfold Dev.encComplete
  simp only [hcur]

/-- A picture of leg `n`'s own encode that completes leaves the encode, is counted, and shows its size and its quantiser. -/
theorem encComplete_composed_spec {d : Dev} {n : Nat} {c : EncPic} {later : List EncPic}
    (hcur : (d.encOf (.composed n)).cur = c :: later) (hctx : c.ctx = true) (size entryBits : Nat) :
    let e := d.encComplete (.composed n) size entryBits
    c.period ∉ (e.encOf (.composed n)).periods ∧ e.nat .ENC_PICTURES n = (d.nat .ENC_PICTURES n + 1) % 2 ^ 32 ∧
      e.nat .ENC_LAST_BITS n = size ∧ (c.intra = true → e.nat .ENC_INTRA n = (d.nat .ENC_INTRA n + 1) % 2 ^ 32) ∧
      e.nat .ENC_LAST_QP n = (d.encOf (.composed n)).shownQp c := by
  obtain ⟨x, entry, hx, hcomplete⟩ := encComplete_composed hcur hctx size entryBits
  obtain ⟨f, p, hf, hgone, hemit⟩ := encEmit_composed (d.setEnc (.composed n) x) n c size .coded c.intra entry
  let e := (f.countCoded n size c.intra).pairUpdate p
  let g := e.setN .ENC_LAST_QP n ((d.encOf (.composed n)).shownQp c)
  have hstart : KeepsEncodes d f := ((KeepsEncodes.refl d).setEnc_cur hx).trans hf
  have hcount : ∀ i, (f.countCoded n size c.intra).encOf i = f.encOf i := encOf_eq_of_enc (countCoded_enc f n size c.intra)
  have hpair : KeepsEncodes (f.countCoded n size c.intra) e := keepsEncodes_pairUpdate _ p
  obtain ⟨hpictures, hbits, hintra⟩ := countCoded_counts f n size c.intra
  have hg : KeepsEncodes g (d.encComplete (.composed n) size entryBits) := by
    rw [hcomplete, hemit]
    exact ((KeepsEncodes.refl g).put (by decide) _ _ _).ite (KeepsEncodes.refl g) _
  have hshown : ∀ o ∈ encShown, o ≠ .ENC_LAST_QP → (d.encComplete (.composed n) size entryBits).nat o n =
      (f.countCoded n size c.intra).nat o n := fun o ho hne =>
    ((hg.shown o ho n 0).trans (Dev.nat_setN_other e n n _ 0 hne)).trans (hpair.shown o ho n 0)
  refine ⟨fun hmem => hgone ?_, ?_, ?_, fun h => ?_, ?_⟩
  · have hmem' : c.period ∈ ((f.countCoded n size c.intra).encOf (.composed n)).periods := hpair.periods _ (hg.periods _ hmem)
    rwa [hcount] at hmem'
  · rw [hshown _ (by decide) (by decide), hpictures, hstart.shown _ (by decide)]
  · rw [hshown _ (by decide) (by decide), hbits]
  · rw [hshown _ (by decide) (by decide), hintra h, hstart.shown _ (by decide)]
  · exact (hg.shown _ (by decide) n 0).trans (Dev.nat_setN e .ENC_LAST_QP n _)

/-! ### The rows -/

/-- A row that acts while the packet engine runs leaves what its operation and the close leave. -/
theorem engine_closes {s : State} {n count : Nat} {f : Dev → Dev} {P : State → Prop} (hn : n < count)
    (hrun : s.dev.gen.running = true) (hP : P { s with dev := (f s.dev).settle }) :
    ∃ t, onUnit s n count (fun d => d.engine f) = .next t ∧ P t := by
  have hnext : onUnit s n count (fun d => d.engine f) = .next { s with dev := (s.dev.engine f).settle } := if_pos hn
  have hengine : s.dev.engine f = f s.dev := if_pos hrun
  rw [hengine] at hnext
  exact ⟨_, hnext, hP⟩

/-- Settles O38: rows that join their picture, pictures of a leg's own encode that complete, and encodes with none in hand. -/
theorem encodedPicturesCountTheirBits : Obligations.EncodedPicturesCountTheirBits := by
  intro s hquiet hrun d
  refine ⟨fun e c later bits header finds he hcur => ?row, fun n c later size entryBits hn hcur hctx => ?picture,
    fun e size entryBits he hcur => ?none⟩
  case row =>
    by_cases hjoins : c.ctx = true ∧ c.bits.length < c.rows
    · obtain ⟨hctx, hrow⟩ := hjoins
      obtain ⟨x, c', heq, hx, hbits, hheader, hsatd⟩ := rowComplete_joins hcur hctx hrow bits header finds
      have hw : Within [] d (d.setEnc e x) := (Within.refl _ d).parts rfl rfl rfl rfl
      refine engine_completes he hrun heq (hw.quiet hquiet)
        ⟨⟨rfl, rfl⟩, (if_pos ⟨hctx, hrow⟩).mpr ⟨⟨c', ?_, hbits, hheader, hsatd⟩, hw.obj, rfl⟩⟩
      dsimp only
      rw [Dev.encOf_setEnc, if_pos rfl, hx]
    · exact engine_completes he hrun (rowComplete_stands hcur hjoins bits header finds) hquiet
        ⟨⟨rfl, rfl⟩, (if_neg hjoins).mpr rfl⟩
  case picture =>
    obtain ⟨hgone, hpictures, hbits, hintra, hqp⟩ := encComplete_composed_spec hcur hctx size entryBits
    let e := d.encComplete (.composed n) size entryBits
    have hends : KeepsEncodes e e.bufferSweep.settle := (keepsEncodes_bufferSweep e).trans (keepsEncodes_settle _)
    have hshown : ∀ o ∈ encShown, e.bufferSweep.settle.nat o n = e.nat o n := fun o ho => hends.shown o ho n 0
    refine engine_closes hn hrun ?_
    dsimp only
    refine ⟨⟨rfl, rfl⟩, hends.gone hgone, ?_, ?_, fun h => ?_, fun h => ?_⟩
    · exact (hshown _ (by decide)).trans hpictures
    · exact (hshown _ (by decide)).trans hbits
    · exact (hshown _ (by decide)).trans (hintra h)
    · rw [(hshown _ (by decide)).trans hqp]
      exact shownQp_near _ h
  case none =>
    have hsame : (d.encComplete e size entryBits).bufferSweep = d.bufferSweep := congrArg _ (encComplete_none hcur size entryBits)
    exact engine_completes he hrun hsame ((poolObjs_bufferSweep d).quiet hquiet) ⟨rfl, rfl, rfl⟩

end Sys2Proof.Machine
end

section
/-! PROOFS. The symbol code of DRAM, and the bursts it corrects (O40). -/

namespace Sys2Proof.Machine

theorem xor_cancel (a b : Nat) : a ^^^ b ^^^ b = a := by rw [Nat.xor_assoc, Nat.xor_self, Nat.xor_zero]

theorem xor_swap (a b c d : Nat) : (a ^^^ b) ^^^ (c ^^^ d) = (a ^^^ c) ^^^ (b ^^^ d) := by ac_rfl

/-! ### Multiplication by powers of α (R337) -/

theorem gfX_lt : ∀ {b : Nat}, b < 256 → gfX b < 256 := by decide +kernel

theorem gfX_eq_zero : ∀ {b : Nat}, b < 256 → gfX b = 0 → b = 0 := by decide +kernel

/-- A byte's top bit says whether its double is reduced. -/
theorem gfX_eq_of_testBit {b : Nat} (hb : b < 256) : gfX b = 2 * b ^^^ (if b.testBit 7 then 0x11D else 0) := by
  have htop : b.testBit 7 = decide (128 ≤ b) := by
    rw [Nat.testBit_eq_decide_div_mod_eq]
    exact decide_eq_decide.mpr (by omega)
  rw [gfX, htop]
  by_cases h : b < 128
  · simp [h, Nat.not_le.mpr h]
  · simp [h, Nat.le_of_not_lt h]

theorem gfX_xor {a b : Nat} (ha : a < 256) (hb : b < 256) : gfX (a ^^^ b) = gfX a ^^^ gfX b := by
  have hdouble : 2 * (a ^^^ b) = 2 * a ^^^ 2 * b := by
    have h := Nat.shiftLeft_xor_distrib (a := a) (b := b) (i := 1)
    simpa [Nat.shiftLeft_eq, Nat.mul_comm] using h
  rw [gfX_eq_of_testBit (Nat.xor_lt_two_pow (n := 8) ha hb), gfX_eq_of_testBit ha, gfX_eq_of_testBit hb, hdouble, Nat.testBit_xor]
  cases a.testBit 7 <;> cases b.testBit 7 <;> simp [xor_swap _ 285] <;> ac_rfl

theorem gfShift_lt {x : Nat} (hx : x < 256) (n : Nat) : gfShift x n < 256 := by
  induction n with
  | zero => exact hx
  | succ n ih => exact gfX_lt ih

theorem gfShift_eq_zero {x : Nat} (hx : x < 256) {n : Nat} (h : gfShift x n = 0) : x = 0 := by
  induction n with
  | zero => exact h
  | succ n ih => exact ih (gfX_eq_zero (gfShift_lt hx n) h)

theorem gfShift_xor {a b : Nat} (ha : a < 256) (hb : b < 256) (n : Nat) : gfShift (a ^^^ b) n = gfShift a n ^^^ gfShift b n := by
  induction n with
  | zero => rfl
  | succ n ih => rw [gfShift, ih, gfX_xor (gfShift_lt ha n) (gfShift_lt hb n)]; rfl

theorem gfShift_add (x m n : Nat) : gfShift x (m + n) = gfShift (gfShift x m) n := by
  induction n with
  | zero => rfl
  | succ n ih => exact congrArg gfX ih

/-- No power of α below the tenth, other than the 0th, is 1. -/
theorem gfShift_moves : ∀ {x : Nat}, x < 256 → ∀ {n : Nat}, n < 10 → n ≠ 0 → gfShift x n = x → x = 0 := by decide +kernel

/-- The first ten powers of α differ: the syndromes of one wrong symbol name its place. -/
theorem gfShift_inj {x i j : Nat} (hx : x < 256) (hx0 : x ≠ 0) (hi : i < 10) (hj : j < 10) (h : gfShift x i = gfShift x j) : i = j := by
  have never : ∀ {i j : Nat}, i < j → j < 10 → gfShift x i ≠ gfShift x j := by
    intro i j hij hj h
    have hback : gfShift (gfShift x i) (j - i) = gfShift x i := by rw [← gfShift_add, Nat.add_sub_cancel' (Nat.le_of_lt hij), h]
    exact hx0 (gfShift_eq_zero hx (gfShift_moves (gfShift_lt hx i) (by omega) (by omega) hback))
  rcases Nat.lt_trichotomy i j with hlt | heq | hgt
  · exact absurd h (never hlt hj)
  · exact heq
  · exact absurd h.symm (never hgt hi)

/-! ### Syndromes -/

/-- The exclusive or of a list of numbers. -/
def xorAll (l : List Nat) : Nat := l.foldl (· ^^^ ·) 0

@[simp] theorem xorAll_nil : xorAll [] = 0 := rfl

@[simp] theorem xorAll_cons (a : Nat) (l : List Nat) : xorAll (a :: l) = a ^^^ xorAll l := by
  have h := List.foldl_assoc (op := fun a b : Nat => a ^^^ b) (l := l) (a₁ := a) (a₂ := 0)
  simpa [xorAll] using h

theorem xorAll_append (l r : List Nat) : xorAll (l ++ r) = xorAll l ^^^ xorAll r := by
  induction l with
  | nil => simp
  | cons a l ih => simp [ih, Nat.xor_assoc]

theorem xorAll_lt {l : List Nat} (h : ∀ a ∈ l, a < 256) : xorAll l < 256 := by
  induction l with
  | nil => decide
  | cons a l ih =>
    rw [xorAll_cons]
    exact Nat.xor_lt_two_pow (n := 8) (h a (by simp)) (ih fun b hb => h b (by simp [hb]))

/-- The symbols from place `n` on, each at its power of α. -/
def shiftedFrom (n : Nat) (w : List Nat) : List Nat := (w.zipIdx n).map fun x => gfShift x.1 x.2

@[simp] theorem shiftedFrom_nil (n : Nat) : shiftedFrom n [] = [] := rfl

@[simp] theorem shiftedFrom_cons (n a : Nat) (w : List Nat) : shiftedFrom n (a :: w) = gfShift a n :: shiftedFrom (n + 1) w := rfl

theorem shiftedFrom_append (n : Nat) (w v : List Nat) : shiftedFrom n (w ++ v) = shiftedFrom n w ++ shiftedFrom (n + w.length) v := by
  simp [shiftedFrom, List.zipIdx_append]

theorem shiftedFrom_lt {n : Nat} {w : List Nat} (h : ∀ a ∈ w, a < 256) : ∀ a ∈ shiftedFrom n w, a < 256 := by
  induction w generalizing n with
  | nil => simp
  | cons a w ih =>
    intro b hb
    rcases List.mem_cons.mp hb with rfl | hb
    · exact gfShift_lt (h a (by simp)) n
    · exact ih (fun c hc => h c (by simp [hc])) b hb

theorem syndromes_eq (w : List Nat) : syndromes w = (xorAll w, xorAll (shiftedFrom 0 w)) := rfl

/-- An error of value `v` in place `e` adds `v` to the one sum and `v` at its power of α to the other. -/
theorem xorAll_modify {w : List Nat} {e : Nat} (he : e < w.length) (v : Nat) :
    xorAll (w.modify e (· ^^^ v)) = xorAll w ^^^ v := by
  induction w generalizing e with
  | nil => exact absurd he (by simp)
  | cons a w ih =>
    cases e with
    | zero => simp only [List.modify_zero_cons, xorAll_cons]; ac_rfl
    | succ e => simp only [List.modify_succ_cons, xorAll_cons, ih (Nat.lt_of_succ_lt_succ he), Nat.xor_assoc]

theorem xorAll_shiftedFrom_modify {w : List Nat} (hw : ∀ a ∈ w, a < 256) {e v : Nat} (he : e < w.length) (hv : v < 256) (n : Nat) :
    xorAll (shiftedFrom n (w.modify e (· ^^^ v))) = xorAll (shiftedFrom n w) ^^^ gfShift v (n + e) := by
  induction w generalizing e n with
  | nil => exact absurd he (by simp)
  | cons a w ih =>
    cases e with
    | zero =>
      simp only [List.modify_zero_cons, shiftedFrom_cons, xorAll_cons, gfShift_xor (hw a (by simp)) hv, Nat.add_zero]
      ac_rfl
    | succ e =>
      have h := ih (fun b hb => hw b (by simp [hb])) (Nat.lt_of_succ_lt_succ he) (n + 1)
      simp only [List.modify_succ_cons, shiftedFrom_cons, xorAll_cons, h, Nat.xor_assoc, Nat.add_assoc, Nat.add_comm 1]

/-- Symbols that hold a code word: ten bytes with both syndromes 0 (R337). -/
structure CodeWord (w : List Nat) : Prop where
  length : w.length = 10
  bytes : ∀ a ∈ w, a < 256
  syndromes : syndromes w = (0, 0)

/-- The syndromes of a code word with one wrong symbol. -/
theorem CodeWord.syndromes_modify {w : List Nat} (h : CodeWord w) {e v : Nat} (he : e < 10) (hv : v < 256) :
    Machine.syndromes (w.modify e (· ^^^ v)) = (v, gfShift v e) := by
  have hlen : e < w.length := h.length ▸ he
  obtain ⟨hsum, hshifted⟩ := Prod.mk.inj ((syndromes_eq w).symm.trans h.syndromes)
  rw [syndromes_eq, xorAll_modify hlen, xorAll_shiftedFrom_modify h.bytes hlen hv, hsum, hshifted]
  simp

/-! ### Check symbols -/

/-- The part of the second syndrome that a check symbol p8 decides, p9 being p8 but for what the first asks. -/
def checkPart (p : Nat) : Nat := gfShift p 8 ^^^ gfShift p 9

/-- The inverse of α^8 + α^9 is α^7 + α^3 + α. -/
def checkOf (t : Nat) : Nat := gfShift t 7 ^^^ gfShift t 3 ^^^ gfShift t 1

theorem checkOf_lt {t : Nat} (ht : t < 256) : checkOf t < 256 :=
  Nat.xor_lt_two_pow (n := 8) (Nat.xor_lt_two_pow (n := 8) (gfShift_lt ht 7) (gfShift_lt ht 3)) (gfShift_lt ht 1)

/-- Every byte is the part of some p8. -/
theorem checkPart_checkOf : ∀ {t : Nat}, t < 256 → checkPart (checkOf t) = t := by decide +kernel

/-- The check symbols are found, and make both sums 0. -/
theorem checkSymbols_spec {x : Octets} (hx : ∀ a ∈ x, a < 256) : ∃ p8 p9, checkSymbols x = [p8, p9] ∧ p8 < 256 ∧ p9 < 256 ∧
    p9 = xorAll x ^^^ p8 ∧ gfShift p8 8 ^^^ gfShift p9 9 ^^^ xorAll (shiftedFrom 0 x) = 0 := by
  let s := syndromes x
  let pairs := (List.range 256).map fun p8 => (p8, s.1 ^^^ p8)
  let fits := fun p : Nat × Nat => decide (gfShift p.1 8 ^^^ gfShift p.2 9 ^^^ s.2 = 0)
  have hs1 : s.1 < 256 := xorAll_lt hx
  have hs2 : s.2 < 256 := xorAll_lt (shiftedFrom_lt hx)
  let p := checkOf (gfShift s.1 9 ^^^ s.2)
  have ht : gfShift s.1 9 ^^^ s.2 < 256 := Nat.xor_lt_two_pow (n := 8) (gfShift_lt hs1 9) hs2
  have hp : p < 256 := checkOf_lt ht
  have hpart : checkPart p = gfShift s.1 9 ^^^ s.2 := checkPart_checkOf ht
  have hfits : fits (p, s.1 ^^^ p) = true := by
    have hsum : gfShift p 8 ^^^ gfShift (s.1 ^^^ p) 9 ^^^ s.2 = checkPart p ^^^ (gfShift s.1 9 ^^^ s.2) := by
      rw [gfShift_xor hs1 hp, Nat.xor_comm (gfShift s.1 9), ← Nat.xor_assoc, Nat.xor_assoc]
      rfl
    exact decide_eq_true (by rw [hsum, hpart, Nat.xor_self])
  cases hfind : pairs.find? fits with
  | none =>
    have hmem : (p, s.1 ^^^ p) ∈ pairs := List.mem_map.mpr ⟨p, List.mem_range.mpr hp, rfl⟩
    exact absurd hfits (List.find?_eq_none.mp hfind _ hmem)
  | some q =>
    obtain ⟨p8, hp8, rfl⟩ := List.mem_map.mp (List.mem_of_find?_eq_some hfind)
    have hp8 : p8 < 256 := List.mem_range.mp hp8
    have hfit : fits (p8, s.1 ^^^ p8) = true := List.find?_some hfind
    refine ⟨p8, s.1 ^^^ p8, ?_, hp8, Nat.xor_lt_two_pow (n := 8) hs1 hp8, rfl, of_decide_eq_true hfit⟩
    show (match pairs.find? fits with
      | some p => [p.1, p.2]
      | none => [0, 0]) = _
    rw [hfind]

/-- Eight bytes with their check symbols are a code word. -/
theorem codeWord_checked {x : Octets} (hlen : x.length = 8) (hx : ∀ a ∈ x, a < 256) : CodeWord (x ++ checkSymbols x) := by
  obtain ⟨p8, p9, hcheck, hp8, hp9, hsum, hshifted⟩ := checkSymbols_spec hx
  rw [hcheck]
  refine ⟨by simp [hlen], ?_, ?_⟩
  · intro a ha
    simp only [List.mem_append, List.mem_cons, List.not_mem_nil, or_false] at ha
    rcases ha with ha | rfl | rfl
    · exact hx a ha
    · exact hp8
    · exact hp9
  · have h1 : xorAll (x ++ [p8, p9]) = 0 := by
      rw [xorAll_append, hsum]
      simp only [xorAll_cons, xorAll_nil, Nat.xor_zero]
      rw [Nat.xor_comm p8, xor_cancel, Nat.xor_self]
    have h2 : xorAll (shiftedFrom 0 (x ++ [p8, p9])) = 0 := by
      rw [shiftedFrom_append, xorAll_append, hlen]
      simp only [shiftedFrom_cons, shiftedFrom_nil, xorAll_cons, xorAll_nil, Nat.xor_zero]
      rw [Nat.xor_comm (xorAll _)]
      exact hshifted
    rw [syndromes_eq, h1, h2]

/-! ### A beat -/

/-- A symbol's error is taken off by adding it once more. -/
theorem modify_xor_twice (w : List Nat) (e v : Nat) : (w.modify e (· ^^^ v)).modify e (· ^^^ v) = w := by
  have hid : ((· ^^^ v) ∘ (· ^^^ v) : Nat → Nat) = id := by
    funext a
    exact xor_cancel a v
  rw [List.modify_modify_eq, hid, List.modify_id]

theorem modify_xor_zero (w : List Nat) (e : Nat) : w.modify e (· ^^^ 0) = w := by
  have hid : ((· ^^^ 0) : Nat → Nat) = id := funext Nat.xor_zero
  rw [hid, List.modify_id]

/-- The device that a correction names: the one that erred, where it did. -/
def erred (e v : Nat) : Option Nat := if v = 0 then none else some e

theorem decodeBeat_clean {w : List Nat} (hw : CodeWord w) (marked : Option Nat) : decodeBeat marked w = some (w, none) := by
  simp [decodeBeat, hw.syndromes]

/-- A beat with one wrong symbol, unmarked, is corrected: no other place gives the syndromes. -/
theorem decodeBeat_none {w : List Nat} (hw : CodeWord w) {e v : Nat} (he : e < 10) (hv : v < 256) :
    decodeBeat none (w.modify e (· ^^^ v)) = some (w, erred e v) := by
  by_cases h0 : v = 0
  · subst h0
    rw [modify_xor_zero]
    exact decodeBeat_clean hw _
  · have hs : gfShift v e ≠ 0 := fun h => h0 (gfShift_eq_zero hv h)
    have hfind : (List.range 10).find? (fun i => decide (gfShift v i = gfShift v e)) = some e := by
      refine List.find?_range_eq_some.mpr ⟨decide_eq_true rfl, List.mem_range.mpr he, fun j hj => ?_⟩
      have hplace : gfShift v j ≠ gfShift v e := fun h => Nat.ne_of_lt hj (gfShift_inj hv h0 (Nat.lt_trans hj he) he h)
      simp [hplace]
    rw [decodeBeat, hw.syndromes_modify he hv]
    simp [erred, h0, hs, hfind, modify_xor_twice]

/-- A beat whose wrong symbol is the marked device's is corrected. -/
theorem decodeBeat_marked {w : List Nat} (hw : CodeWord w) {e v : Nat} (he : e < 10) (hv : v < 256) :
    decodeBeat (some e) (w.modify e (· ^^^ v)) = some (w, erred e v) := by
  by_cases h0 : v = 0
  · subst h0
    rw [modify_xor_zero]
    exact decodeBeat_clean hw _
  · rw [decodeBeat, hw.syndromes_modify he hv]
    simp [erred, h0, modify_xor_twice]

/-- One whose wrong symbol is another's is found, and not corrected. -/
theorem decodeBeat_other {w : List Nat} (hw : CodeWord w) {e m v : Nat} (he : e < 10) (hm : m < 10) (hne : m ≠ e) (hv : v < 256)
    (h0 : v ≠ 0) : decodeBeat (some m) (w.modify e (· ^^^ v)) = none := by
  have hplace : gfShift v e ≠ gfShift v m := fun h => hne (gfShift_inj hv h0 he hm h).symm
  rw [decodeBeat, hw.syndromes_modify he hv]
  simp [h0, hplace]

/-! ### A burst -/

/-- The beat `b` of a burst, with its check symbols (R337). -/
def beatWord (data : Octets) (b : Nat) : List Nat := (data.drop (8 * b)).take 8 ++ checkSymbols ((data.drop (8 * b)).take 8)

/-- The errors of a burst in which device `e` alone errs, by `vs` in its beats. -/
def oneDevice (e : Nat) (vs : List Nat) : List (List Nat) := vs.map fun v => List.replicate e 0 ++ [v]

theorem codeWord_beatWord {data : Octets} (hlen : data.length = 64) (hok : data.ok = true) {b : Nat} (hb : b < 8) :
    CodeWord (beatWord data b) := by
  refine codeWord_checked (by simp; omega) fun a ha => ?_
  have hmem : a ∈ data := List.mem_of_mem_drop (List.mem_of_mem_take ha)
  exact of_decide_eq_true (List.all_eq_true.mp hok a hmem)

/-- An error that one device adds to a beat. -/
theorem addError_oneDevice {w : List Nat} {e v : Nat} (hv : v < 256) :
    (w.zipIdx.map fun y => y.1 ^^^ ((List.replicate e 0 ++ [v]).getD y.2 0 % 256)) = w.modify e (· ^^^ v) := by
  refine List.ext_getElem (by simp) fun i h1 h2 => ?_
  have hat : (List.replicate e 0 ++ [v]).getD i 0 = if i = e then v else 0 := by
    simp only [List.getD_eq_getElem?_getD, List.getElem?_append, List.length_replicate, List.getElem?_replicate]
    rcases Nat.lt_trichotomy i e with h | rfl | h
    · simp [h, Nat.ne_of_lt h]
    · simp
    · simp [Nat.lt_asymm h, Nat.ne_of_gt h, Nat.sub_ne_zero_of_lt h]
  simp only [List.getElem_map, List.getElem_zipIdx, Nat.zero_add, hat, List.getElem_modify, eq_comm (a := e)]
  split
  · rw [Nat.mod_eq_of_lt hv]
  · simp

theorem beatsOf_oneDevice {data : Octets} {e : Nat} {vs : List Nat} (hvs : vs.length = 8) (hv : ∀ v ∈ vs, v < 256) :
    beatsOf data (oneDevice e vs) = (List.range 8).map fun b => (beatWord data b).modify e (· ^^^ vs.getD b 0) := by
  refine List.map_congr_left fun b hb => ?_
  have hb : b < vs.length := hvs ▸ List.mem_range.mp hb
  have herr : (oneDevice e vs).getD b [] = List.replicate e 0 ++ [vs.getD b 0] := by
    simp [oneDevice, hb]
  have hlt : vs.getD b 0 < 256 := by simpa [hb] using hv _ (List.getElem_mem hb)
  rw [herr]
  exact addError_oneDevice hlt

/-- Eight-byte pieces of a list, one after the other, are its front. -/
theorem flatten_pieces (data : Octets) (n : Nat) :
    ((List.range n).map fun b => (data.drop (8 * b)).take 8).flatten = data.take (8 * n) := by
  induction n with
  | zero => simp
  | succ n ih => simp [List.range_succ, ih, Nat.mul_succ, List.take_add]

theorem eraseDups_of_all_eq {l : List Nat} {e : Nat} (h : ∀ a ∈ l, a = e) : l.eraseDups = if l = [] then [] else [e] := by
  cases l with
  | nil => rfl
  | cons a l =>
    obtain rfl : a = e := h a (by simp)
    have hrest : l.filter (fun b => !b == a) = [] := List.filter_eq_nil_iff.mpr fun b hb => by simp [h b (by simp [hb])]
    simp [List.eraseDups_cons, hrest]

/-- A burst whose beats all decode: their data one after the other, and the device, where they name one at the most (R338). -/
theorem decodeBurst_of_beats {marked : Option Nat} {data : Octets} {err : List (List Nat)} {r : Nat → List Nat × Option Nat}
    (h : (beatsOf data err).map (decodeBeat marked) = (List.range 8).map fun b => some (r b)) :
    decodeBurst marked data err =
      let devs := ((List.range 8).filterMap fun b => (r b).2).eraseDups
      if 1 < devs.length then none else some ((List.range 8).flatMap fun b => (r b).1.take 8, devs.head?) := by
  have hany : ((List.range 8).map fun b => some (r b)).any (· == none) = false := by simp
  have hdevs : ((List.range 8).map fun b => some (r b)).filterMap (fun x => x.bind (·.2)) = (List.range 8).filterMap fun b => (r b).2 :=
    List.filterMap_map
  have hbeats : ((List.range 8).map fun b => some (r b)).filterMap id = (List.range 8).map r := by
    rw [List.filterMap_map]
    exact congrFun List.filterMap_eq_map _
  simp only [decodeBurst, h, hany, hdevs, hbeats, List.map_map, List.flatMap_def]
  rfl

/-- A burst each of whose beats is corrected to its code word, or clean, is the data; the device named is the one that erred. -/
theorem decodeBurst_corrected {marked : Option Nat} {data : Octets} (hlen : data.length = 64) {e : Nat} {vs : List Nat} (hvs : vs.length = 8)
    (hv : ∀ v ∈ vs, v < 256)
    (hbeat : ∀ b < 8, decodeBeat marked ((beatWord data b).modify e (· ^^^ vs.getD b 0)) = some (beatWord data b, erred e (vs.getD b 0))) :
    decodeBurst marked data (oneDevice e vs) = some (data, if vs.all (· == 0) then none else some e) := by
  have hrs : (beatsOf data (oneDevice e vs)).map (decodeBeat marked) =
      (List.range 8).map fun b => some (beatWord data b, erred e (vs.getD b 0)) := by
    rw [beatsOf_oneDevice hvs hv, List.map_map]
    exact List.map_congr_left fun b hb => hbeat b (List.mem_range.mp hb)
  have hdata : (List.range 8).flatMap (fun b => (beatWord data b).take 8) = data := by
    have hpiece : (List.range 8).map (fun b => (beatWord data b).take 8) = (List.range 8).map fun b => (data.drop (8 * b)).take 8 :=
      List.map_congr_left fun b hb => by
        have hb := List.mem_range.mp hb
        exact List.take_left' (by simp; omega)
    rw [List.flatMap_def, hpiece, flatten_pieces, List.take_of_length_le (by omega)]
  have hdevs : (List.range 8).filterMap (fun b => erred e (vs.getD b 0)) = vs.filterMap (erred e) := by
    have hrange : (List.range 8).map (vs.getD · 0) = vs :=
      List.ext_getElem (by simp [hvs]) fun i _ h => by simp [h]
    have h := congrArg (List.filterMap (erred e)) hrange
    rwa [List.filterMap_map] at h
  have hnamed : (vs.filterMap (erred e)).eraseDups = if vs.all (· == 0) then [] else [e] := by
    rw [eraseDups_of_all_eq (e := e)]
    · simp [erred, List.filterMap_eq_nil_iff]
    · intro a ha
      obtain ⟨v, _, hv⟩ := List.mem_filterMap.mp ha
      simp only [erred] at hv
      split at hv <;> simp_all
  rw [decodeBurst_of_beats hrs]
  simp only [hdata, hdevs, hnamed]
  split <;> rfl

/-- A burst with a beat that is not corrected is not. -/
theorem decodeBurst_uncorrected {marked : Option Nat} {data : Octets} {e : Nat} {vs : List Nat} (hvs : vs.length = 8)
    (hv : ∀ v ∈ vs, v < 256) {b : Nat} (hb : b < 8)
    (hbeat : decodeBeat marked ((beatWord data b).modify e (· ^^^ vs.getD b 0)) = none) :
    decodeBurst marked data (oneDevice e vs) = none := by
  have hany : ((beatsOf data (oneDevice e vs)).map (decodeBeat marked)).any (· == none) = true := by
    rw [beatsOf_oneDevice hvs hv, List.map_map]
    exact List.any_eq_true.mpr ⟨none, List.mem_map.mpr ⟨b, List.mem_range.mpr hb, hbeat⟩, rfl⟩
  exact if_pos hany

/-- Settles O40: a beat's syndromes name the one device that errs, and no other. -/
theorem oneDeviceIsCorrected : Obligations.OneDeviceIsCorrected := by
  intro data e vs hlen hok he hvs hv
  have hword : ∀ b < 8, CodeWord (beatWord data b) := fun b hb => codeWord_beatWord hlen hok hb
  have hbyte : ∀ b < 8, vs.getD b 0 < 256 := fun b hb => by
    have hb : b < vs.length := hvs.symm ▸ hb
    simpa [hb] using hv _ (List.getElem_mem hb)
  refine ⟨?_, ?_, fun m hm hne hsome => ?_⟩
  · exact decodeBurst_corrected hlen hvs hv fun b hb => decodeBeat_none (hword b hb) he (hbyte b hb)
  · exact decodeBurst_corrected hlen hvs hv fun b hb => decodeBeat_marked (hword b hb) he (hbyte b hb)
  · obtain ⟨v, hmem, h0⟩ := hsome
    obtain ⟨b, hb, rfl⟩ := List.getElem_of_mem hmem
    have hget : vs.getD b 0 = vs[b] := by simp [hb]
    have hb8 : b < 8 := hvs ▸ hb
    exact decodeBurst_uncorrected hvs hv hb8 (decodeBeat_other (hword b hb8) he hm hne (hbyte b hb8) (hget ▸ h0))

end Sys2Proof.Machine
end

section
/-! PROOFS. The DRAM channels: their parts beyond objects, and what a channel's failure, its loss to the pools and its entry into them
leave as it was. -/

namespace Sys2Proof.Machine

/-! ### Channels beyond their objects -/

@[simp] theorem Dev.chanOf_setChan (d : Dev) (n m : Nat) (x : Chan) : (d.setChan n x).chanOf m = if m = n then x else d.chanOf m := by
  unfold Dev.chanOf Dev.setChan
  split
  · rename_i h; subst h; simp
  · rename_i h; exact tget_tput_other _ _ _ h _

theorem Dev.chanOf_setChan_same (d : Dev) (c : Nat) (x : Chan) : (d.setChan c x).chanOf c = x := by simp

@[simp] theorem Dev.chanOf_put (d : Dev) (o : Obj) (u k : Nat) (v : Val) (c : Nat) : (d.put o u k v).chanOf c = d.chanOf c := rfl
@[simp] theorem Dev.chanOf_setN (d : Dev) (o : Obj) (u v c : Nat) : (d.setN o u v).chanOf c = d.chanOf c := rfl
@[simp] theorem Dev.chanOf_add (d : Dev) (o : Obj) (u k n c : Nat) : (d.add o u k n).chanOf c = d.chanOf c := rfl
@[simp] theorem Dev.chanOf_bump (d : Dev) (o : Obj) (u k c : Nat) : (d.bump o u k).chanOf c = d.chanOf c := rfl
@[simp] theorem Dev.nat_setChan (d : Dev) (n : Nat) (x : Chan) (o : Obj) (u k : Nat) : (d.setChan n x).nat o u k = d.nat o u k := rfl

theorem Dev.chanOf_of_chan {d e : Dev} (h : e.chan = d.chan) (c : Nat) : e.chanOf c = d.chanOf c := by simp only [Dev.chanOf, h]

@[simp] theorem settle_chanOf (d : Dev) (c : Nat) : d.settle.chanOf c = d.chanOf c := Dev.chanOf_of_chan (settle_chan d) c

theorem Within.setChan {os : List Obj} {d e : Dev} (h : Within os d e) (c : Nat) (x : Chan) : Within os d (e.setChan c x) :=
  h.parts rfl rfl rfl rfl

/-! ### What keeps the channels -/

/-- `e` differs from `d` in objects of `os`, and has the same channels beyond their objects; the log, the pools and the rest are free. -/
structure KeepsChannels (os : List Obj) (d e : Dev) : Prop where
  obj : keepsBut d e os
  chan : e.chan = d.chan

theorem KeepsChannels.refl (os : List Obj) (d : Dev) : KeepsChannels os d d := ⟨fun _ _ _ _ => rfl, rfl⟩

theorem KeepsChannels.trans {os : List Obj} {d e f : Dev} (h : KeepsChannels os d e) (g : KeepsChannels os e f) : KeepsChannels os d f :=
  ⟨fun o u k ho => (g.obj o u k ho).trans (h.obj o u k ho), g.chan.trans h.chan⟩

theorem KeepsChannels.mono {os ps : List Obj} {d e : Dev} (h : KeepsChannels os d e) (hs : os ⊆ ps) : KeepsChannels ps d e :=
  ⟨fun o u k ho => h.obj o u k fun hx => ho (hs hx), h.chan⟩

/-- A change of parts that are neither objects nor channels. -/
theorem KeepsChannels.parts {os : List Obj} {d e f : Dev} (h : KeepsChannels os d e) (hd : f.dict = e.dict) (hc : f.chan = e.chan) :
    KeepsChannels os d f :=
  h.trans ⟨fun o u k _ => by simp only [Dev.get, hd], hc⟩

theorem KeepsChannels.put {os : List Obj} {d e : Dev} (h : KeepsChannels os d e) {o : Obj} (ho : o ∈ os) (u k : Nat) (v : Val) :
    KeepsChannels os d (e.put o u k v) :=
  h.trans ⟨((Within.refl os e).put ho u k v).obj, rfl⟩

theorem KeepsChannels.logRec {os : List Obj} {d e : Dev} (h : KeepsChannels os d e) (r : Rec) : KeepsChannels os d (e.logRec r) :=
  h.parts rfl rfl

theorem KeepsChannels.setDesc {os : List Obj} {d e : Dev} (h : KeepsChannels os d e) (p i : Nat) (x : Desc) :
    KeepsChannels os d (e.setDesc p i x) := h.parts rfl rfl

theorem KeepsChannels.setList {os : List Obj} {d e : Dev} (h : KeepsChannels os d e) (p c : Nat) (l : PoolList) :
    KeepsChannels os d (e.setList p c l) := h.parts rfl rfl

theorem KeepsChannels.ite {os : List Obj} {d e f : Dev} (h : KeepsChannels os d e) (g : KeepsChannels os d f) (b : Prop) [Decidable b] :
    KeepsChannels os d (if b then e else f) := by
  split
  · exact h
  · exact g

theorem KeepsChannels.fold {τ : Type} {os : List Obj} {f : Dev → τ → Dev} (hf : ∀ e x, KeepsChannels os e (f e x)) (l : List τ)
    {d e : Dev} (h : KeepsChannels os d e) : KeepsChannels os d (l.foldl f e) :=
  foldl_keeps (P := KeepsChannels os d) (fun s x hs => hs.trans (hf s x)) l h

theorem KeepsChannels.nat {os : List Obj} {d e : Dev} (h : KeepsChannels os d e) {o : Obj} (ho : o ∉ os) (u k : Nat) :
    e.nat o u k = d.nat o u k := Dev.nat_eq_of_get (h.obj o u k ho)

/-- The close of a command keeps the objects that it does not write. -/
theorem KeepsChannels.settle {os : List Obj} {d e : Dev} (h : KeepsChannels os d e) {o : Obj} (ho : o ∉ os) (hc : closeObj o = false)
    (u k : Nat) : e.settle.nat o u k = d.nat o u k := (settle_nat e hc u k).trans (h.nat ho u k)

/-! ### The pools of a channel (R348, R370) -/

/-- The objects that a channel's loss, or its entry into the pools, may write. -/
def channelPools : List Obj := .POOL_REMIRROR_WAIT :: poolObjs

theorem KeepsChannels.poolTouch {d e : Dev} (h : KeepsChannels channelPools d e) (p : Nat) :
    KeepsChannels channelPools d (e.poolTouch p) := by
  have hchan : (e.poolTouch p).chan = e.chan := by
    obtain ⟨dict, pool, heq⟩ := onlyPools_poolTouch e p
    rw [heq]
  exact h.trans ⟨((poolObjs_poolTouch e p).mono (List.subset_cons_self _ _)).obj, hchan⟩

theorem KeepsChannels.giveBack {os : List Obj} {d e : Dev} (h : KeepsChannels os d e) (p i : Nat) :
    KeepsChannels os d (e.giveBack p i) := by
  unfold Dev.giveBack
  exact h.ite (h.setList _ _ _) _

theorem keepsChannels_reshadow (d : Dev) (p i : Nat) : KeepsChannels channelPools d (d.reshadow p i) := by
  unfold Dev.reshadow
  extract_lets x c got
  have h := KeepsChannels.refl channelPools d
  cases got with
  | some r => exact ((((h.setList _ _ _).setDesc _ _ _).setDesc _ _ _).put (o := .DRAM_REMIRROR_LEFT) (by decide) _ _ _).poolTouch _
  | none =>
    have hx := h.setDesc p i { x with mirror := x.primary, mirrored := false, copying := false, waiting := true }
    exact hx.ite ((hx.put (o := .POOL_REMIRROR_WAIT) (by decide) _ _ _).logRec _) _

theorem keepsChannels_poolChannelLost (d : Dev) (c : Nat) : KeepsChannels channelPools d (d.poolChannelLost c) := by
  unfold Dev.poolChannelLost
  extract_lets mine touched sorted e
  have hlost : KeepsChannels channelPools d e := by
    refine KeepsChannels.fold (fun e kv => ?_) sorted (KeepsChannels.refl _ d)
    extract_lets p i x y e1 e2
    have h1 : KeepsChannels channelPools e e1 := (KeepsChannels.refl _ e).setDesc _ _ _
    have h2 : KeepsChannels channelPools e e2 := (h1.put (by decide) _ _ _).ite h1 _
    refine KeepsChannels.ite (KeepsChannels.ite (KeepsChannels.ite ?_ ?_ _) (KeepsChannels.ite ?_ h1 _) _) (KeepsChannels.ite ?_ h1 _) _
    · exact h1.setDesc _ _ _
    · exact (h1.setDesc _ _ _).trans (keepsChannels_reshadow ..)
    · exact (h2.setDesc _ _ _).trans (keepsChannels_reshadow ..)
    · exact h1.setDesc _ _ _
  refine KeepsChannels.fold (fun e p => ?_) (List.range 6) hlost
  exact (((KeepsChannels.refl _ e).put (o := .POOL_BUFFERS) (by decide) _ _ _).put (o := .POOL_LOST) (by decide) _ _ _).poolTouch p

theorem keepsChannels_poolChannelReady (d : Dev) (c : Nat) (again : Bool) : KeepsChannels channelPools d (d.poolChannelReady c again) := by
  unfold Dev.poolChannelReady
  refine KeepsChannels.fold (fun e p => ?_) (List.range 6) (KeepsChannels.refl _ d)
  dsimp only
  have h := KeepsChannels.refl channelPools e
  refine KeepsChannels.ite ?_ (((h.setList _ _ _).put (o := .POOL_BUFFERS) (by decide) _ _ _).poolTouch p) _
  refine KeepsChannels.poolTouch (KeepsChannels.put (o := .POOL_BUFFERS) (KeepsChannels.put (o := .POOL_LOST) ?_ (by decide) _ _ _)
    (by decide) _ _ _) p
  refine KeepsChannels.fold (fun f kv => ?_) _ (h.setList _ _ _)
  have hf := KeepsChannels.refl channelPools f
  exact hf.ite ((hf.setDesc _ _ _).ite ((hf.setDesc _ _ _).giveBack _ _) _) _

/-! ### A channel's failure (R343) -/

/-- Channel `c` shows FAILED, and its domain is gone. -/
def Dev.showFailed (d : Dev) (c : Nat) : Dev := (d.setN .CH_STATE c 6).setN .PD_STATE (40 + c) 3

/-- What follows from a channel's failure, but its state: the initialisation that it had left, and its loss to the pools. -/
def failureObjs : List Obj := .DRAM_INIT_LEFT :: channelPools

theorem failChannel_failed {d : Dev} {c : Nat} (h : d.nat .CH_STATE c = 6) (cause : Nat) : d.failChannel c cause = d := if_pos h

theorem failChannel_fails {d : Dev} {c : Nat} (h : d.nat .CH_STATE c ≠ 6) (cause : Nat) :
    KeepsChannels failureObjs (d.showFailed c) (d.failChannel c cause) := by
  have hne : ¬d.chState c = 6 := h
  rw [Dev.failChannel, if_neg hne]
  extract_lets was d1 d2 d3 d4 first d5
  have h2 : KeepsChannels failureObjs (d.showFailed c) d2 := (KeepsChannels.refl _ _).logRec _
  have h3 : KeepsChannels failureObjs (d.showFailed c) d3 :=
    h2.ite (h2.trans ((keepsChannels_poolChannelLost d2 c).mono (List.subset_cons_self _ _))) _
  have h4 : KeepsChannels failureObjs (d.showFailed c) d4 := (h3.put (by decide) _ _ _).ite h3 _
  have h5 : KeepsChannels failureObjs (d.showFailed c) d5 := (h4.logRec _).ite h4 _
  refine KeepsChannels.ite ?_ h5 _
  exact h5.parts rfl rfl

/-- A channel that fails is FAILED, and one that has failed stays so. -/
theorem failChannel_state (d : Dev) (c cause : Nat) : (d.failChannel c cause).nat .CH_STATE c = 6 := by
  by_cases h : d.nat .CH_STATE c = 6
  · rw [failChannel_failed h, h]
  · rw [(failChannel_fails h cause).nat (by decide)]
    simp [Dev.showFailed, Dev.setN_eq]

theorem failChannel_domain {d : Dev} {c : Nat} (h : d.nat .CH_STATE c ≠ 6) (cause : Nat) :
    (d.failChannel c cause).nat .PD_STATE (40 + c) = 3 := by
  rw [(failChannel_fails h cause).nat (by decide)]
  exact Dev.nat_setN ..

theorem keepsChannels_failChannel (d : Dev) (c cause : Nat) :
    KeepsChannels (.CH_STATE :: .PD_STATE :: failureObjs) d (d.failChannel c cause) := by
  by_cases h : d.nat .CH_STATE c = 6
  · rw [failChannel_failed h]
    exact KeepsChannels.refl _ d
  · have hshow : KeepsChannels (.CH_STATE :: .PD_STATE :: failureObjs) d (d.showFailed c) :=
      ((KeepsChannels.refl _ d).put (o := .CH_STATE) (by decide) _ _ _).put (o := .PD_STATE) (by decide) _ _ _
    exact hshow.trans ((failChannel_fails h cause).mono (by decide))

/-! ### Rows of a channel -/

/-- A row of a channel leaves, from PORn's release on, what its operation and the close leave. -/
theorem channel_closes {s : State} {c : Nat} {f : Dev → Dev} {P : State → Prop} (hc : c < 4) (hr : s.dev.rst.released = true)
    (hP : P { s with dev := (f s.dev).settle }) : ∃ t, onChannel s c f = .next t ∧ P t := by
  have hawake : s.dev.awake f = f s.dev := if_pos hr
  have hnext : onChannel s c f = .next { s with dev := (s.dev.awake f).settle } := if_pos hc
  rw [hawake] at hnext
  exact ⟨_, hnext, hP⟩

/-- The same of an operation that leaves nothing to close. -/
theorem channel_completes {s : State} {c : Nat} {f : Dev → Dev} {os : List Obj} {P : State → Prop} (hc : c < 4)
    (hr : s.dev.rst.released = true) (hq : s.dev.quiet) (hw : Within os s.dev (f s.dev)) (hP : P { s with dev := f s.dev }) :
    ∃ t, onChannel s c f = .next t ∧ P t :=
  channel_closes hc hr (by rwa [settle_of_quiet (hw.quiet hq)])

end Sys2Proof.Machine
end

section
/-! PROOFS. Training steps and initialisation (O43). -/

namespace Sys2Proof.Machine

/-! ### Training (R347, R348) -/

/-- Channel `c` has passed `step` steps, after `ms` ms more, and shows so, with the step that failed, 0 where none did. -/
def Dev.trained (d : Dev) (c step bad ms : Nat) : Dev :=
  let t := (d.chanOf c).ms + ms
  (d.setChan c { d.chanOf c with step := step, ms := t }).setN .CH_TRAIN_RESULT c (step * 2 ^ 28 + bad * 2 ^ 24 + t % 65536)

/-- Channel `c` begins its initialisation: its bytes are to be written. -/
def Dev.initialising (d : Dev) (c : Nat) : Dev := (d.setN .CH_STATE c 2).add .DRAM_INIT_LEFT 0 0 (d.ranks * 2 ^ 34)

theorem trained_nat (d : Dev) (c step bad ms : Nat) {o : Obj} (ho : o ≠ .CH_TRAIN_RESULT) (u k : Nat) :
    (d.trained c step bad ms).nat o u k = d.nat o u k :=
  (Dev.nat_setN_other _ u c _ k ho).trans (Dev.nat_setChan ..)

theorem trained_result (d : Dev) (c step bad ms : Nat) : (d.trained c step bad ms).nat .CH_TRAIN_RESULT c =
    step * 2 ^ 28 + bad * 2 ^ 24 + ((d.chanOf c).ms + ms) % 65536 := Dev.nat_setN ..

theorem keepsChannels_bringup (d : Dev) (k : Nat) : KeepsChannels [.BRINGUP_MS] d (d.bringup k) := by
  have hdraw : KeepsChannels [.BRINGUP_MS] d d.draw.2 := (KeepsChannels.refl _ d).parts rfl rfl
  exact (hdraw.put (by decide) _ _ _).ite (KeepsChannels.refl _ d) _

theorem trainStep_untrained {d : Dev} {c : Nat} (h : d.nat .CH_STATE c ≠ 1) (passed : Bool) (ms : Nat) : d.trainStep c passed ms = d :=
  if_pos h

/-- DDR_RESETn and CKE rise with the first step (R347). -/
def Dev.releasePins (d : Dev) : Dev := { d with pins := { d.pins with ddrResetN := .high, ddrCke := .high } }

/-- The milestone of the last channel's training is noted (R441). -/
def Dev.noteTrained (d : Dev) : Dev := if (List.range 4).all fun c => decide (2 ≤ d.chState c) then d.bringup 2 else d

theorem keepsChannels_noteTrained (d : Dev) : KeepsChannels [.BRINGUP_MS] d d.noteTrained :=
  (keepsChannels_bringup d 2).ite (KeepsChannels.refl _ d) _

section
variable {d : Dev} {c : Nat} (h : d.nat .CH_STATE c = 1)
include h

theorem trainStep_failed (ms : Nat) : d.trainStep c false ms =
    ((d.trained c (d.chanOf c).step ((d.chanOf c).step + 1) ms).failChannel c 1).noteTrained := by
  have hne : ¬d.chState c ≠ 1 := not_not_intro h
  rw [Dev.trainStep, if_neg hne]
  simp only [Bool.false_eq_true, false_and, if_false, Bool.not_false, if_true]
  rfl

theorem trainStep_passed (ms : Nat) : d.trainStep c true ms =
    let step := (d.chanOf c).step + 1
    let e := d.trained c step 0 ms
    let f := if step = 1 then e.releasePins else e
    (if step = 9 then f.initialising c else f).noteTrained := by
  have hne : ¬d.chState c ≠ 1 := not_not_intro h
  rw [Dev.trainStep, if_neg hne]
  simp only [true_and, if_true, Bool.not_true, Bool.false_eq_true, if_false]
  rfl

/-- A step before the last leaves the channel in training, one step on. -/
theorem trainStep_passes (hstep : (d.chanOf c).step + 1 ≠ 9) (ms : Nat) :
    KeepsChannels [.BRINGUP_MS] (d.trained c ((d.chanOf c).step + 1) 0 ms) (d.trainStep c true ms) := by
  rw [trainStep_passed h]
  simp only [if_neg hstep]
  have hpins : ∀ e : Dev, KeepsChannels [.BRINGUP_MS] e e.releasePins := fun e => (KeepsChannels.refl _ e).parts rfl rfl
  exact ((hpins _).ite (KeepsChannels.refl _ _) _).trans (keepsChannels_noteTrained _)

/-- The last step begins the channel's initialisation. -/
theorem trainStep_ends (hstep : (d.chanOf c).step + 1 = 9) (ms : Nat) :
    KeepsChannels [.BRINGUP_MS] ((d.trained c 9 0 ms).initialising c) (d.trainStep c true ms) := by
  rw [trainStep_passed h]
  simp only [hstep, if_true]
  exact keepsChannels_noteTrained _

theorem trainStep_fails (ms : Nat) : KeepsChannels [.BRINGUP_MS]
    ((d.trained c (d.chanOf c).step ((d.chanOf c).step + 1) ms).failChannel c 1) (d.trainStep c false ms) := by
  rw [trainStep_failed h]
  exact keepsChannels_noteTrained _

end

theorem initialising_spec (d : Dev) (c : Nat) : (d.initialising c).nat .CH_STATE c = 2 ∧
    (d.initialising c).nat .CH_TRAIN_RESULT c = d.nat .CH_TRAIN_RESULT c ∧
    (d.initialising c).nat .DRAM_INIT_LEFT = (d.nat .DRAM_INIT_LEFT + d.nat .DRAM_RANKS * 2 ^ 34) % 2 ^ 64 := by
  have hbits : Obj.DRAM_INIT_LEFT.row.ty.bits = 64 := rfl
  refine ⟨?_, ?_, ?_⟩
  · simp [Dev.initialising, Dev.setN_eq]
  · simp [Dev.initialising, Dev.setN_eq]
  · simp [Dev.initialising, Dev.setN_eq, Dev.ranks, hbits]

/-! ### The bytes of a channel -/

theorem Memory.read_unlisted {m : List Host.Cell} {a : Nat} (h : ∀ x ∈ m, x.1 ≠ a) : Memory.read m a = unlisted := by
  induction m with
  | nil => rfl
  | cons x r ih =>
    rw [Memory.read, if_neg (h x (by simp)).symm]
    exact ih fun y hy => h y (by simp [hy])

/-- The clearing of a channel leaves each of its bytes 0 and the other channels' bytes as they were. -/
theorem Memory.read_clear (m : List Host.Cell) (c a : Nat) :
    Memory.read (Memory.clear m c) a = if a / channelSpan = c then 0 else Memory.read m a := by
  split
  · rename_i ha
    refine Memory.read_unlisted fun x hx hxa => ?_
    have hother : x.1 / channelSpan ≠ c := by simpa [Memory.clear] using (List.mem_filter.mp hx).2
    exact hother (hxa ▸ ha)
  · rename_i ha
    exact Memory.read_clear_other m ha

/-- A training step leaves what it leaves of the device, closed, and of DRAM. -/
theorem training_completes {s : State} {c ms : Nat} {passed : Bool} {P : State → Prop} (hc : c < 4)
    (hP : P { s with dev := (s.dev.trainStep c passed ms).settle, mem := (s.dev.training s.mem c passed ms).2 }) :
    completes (.dramTrainingStep c passed ms) s P :=
  ⟨_, if_pos hc, hP⟩

theorem training_clears {d : Dev} {c ms : Nat} {passed : Bool} (m : List Host.Cell) (h : d.nat .CH_STATE c = 1)
    (he : (d.trainStep c passed ms).nat .CH_STATE c = 2) : (d.training m c passed ms).2 = Memory.clear m c := if_pos ⟨h, he⟩

theorem training_keeps {d : Dev} {c ms : Nat} {passed : Bool} (m : List Host.Cell)
    (he : ¬(d.nat .CH_STATE c = 1 ∧ (d.trainStep c passed ms).nat .CH_STATE c = 2)) : (d.training m c passed ms).2 = m := if_neg he

/-! ### The end of initialisation (R348) -/

/-- The state a channel takes in service: DEGRADED where a device is marked. -/
def Dev.readyState (d : Dev) (c : Nat) : Nat := if d.nat .CH_MARKED c = 0 then 3 else 4

theorem initDone_idle {d : Dev} {c : Nat} (h : d.nat .CH_STATE c ≠ 2) : d.initDone c = d := if_pos h

theorem initDone_state {d : Dev} {c : Nat} (h : d.nat .CH_STATE c = 2) : (d.initDone c).nat .CH_STATE c = d.readyState c := by
  have hne : ¬d.chState c ≠ 2 := not_not_intro h
  rw [Dev.initDone, if_neg hne]
  extract_lets x e f g
  have hf : f.nat .CH_STATE c = d.readyState c := Dev.nat_setN ..
  have hg : g.nat .CH_STATE c = f.nat .CH_STATE c := by simp [g]
  rw [(keepsChannels_poolChannelReady g c x.retrain).nat (by decide), hg, hf]

/-- The first part of O43. -/
theorem trainingBringsAChannelUp : Sys2Proof.Claim.TrainingBringsAChannelUp := by
  intro s c hc hq
  refine ⟨fun passed ms h => ?idle, fun ms h hstep => ?passes, fun ms h hstep => ?ends, fun ms h => ?fails, fun hr => ?done⟩
  case idle =>
    refine training_completes hc ?_
    rw [trainStep_untrained h, settle_of_quiet hq, training_keeps _ fun hk => h hk.1]
  case passes =>
    have hk := trainStep_passes h (Nat.ne_of_lt hstep) ms
    have hstate : (s.dev.trainStep c true ms).nat .CH_STATE c = 1 := by rw [hk.nat (by decide), trained_nat _ _ _ _ _ (by decide), h]
    refine training_completes hc ⟨?_, ?_, ?_, rfl⟩
    · exact (settle_nat _ (by decide) _ _).trans hstate
    · exact (hk.settle (o := .CH_TRAIN_RESULT) (by decide) (by decide) c 0).trans (trained_result s.dev c ((s.dev.chanOf c).step + 1) 0 ms)
    · exact training_keeps _ fun hx => absurd (hstate.symm.trans hx.2) (by decide)
  case ends =>
    have hk := trainStep_ends h hstep ms
    obtain ⟨hini, hresult, hleft⟩ := initialising_spec (s.dev.trained c 9 0 ms) c
    have hstate : (s.dev.trainStep c true ms).nat .CH_STATE c = 2 := by rw [hk.nat (by decide), hini]
    refine training_completes hc ⟨?_, ?_, rfl, ?_, fun a => ?_⟩
    · exact (settle_nat _ (by decide) _ _).trans hstate
    · exact (hk.settle (o := .CH_TRAIN_RESULT) (by decide) (by decide) c 0).trans (hresult.trans (trained_result s.dev c 9 0 ms))
    · rw [trained_nat _ _ _ _ _ (by decide), trained_nat _ _ _ _ _ (by decide)] at hleft
      exact (hk.settle (o := .DRAM_INIT_LEFT) (by decide) (by decide) 0 0).trans hleft
    · dsimp only
      rw [training_clears s.mem h hstate, Memory.read_clear]
  case fails =>
    have hk := trainStep_fails h ms
    let e := s.dev.trained c (s.dev.chanOf c).step ((s.dev.chanOf c).step + 1) ms
    have hne : e.nat .CH_STATE c ≠ 6 := by
      rw [trained_nat _ _ _ _ _ (by decide), h]
      decide
    have hstate : (s.dev.trainStep c false ms).nat .CH_STATE c = 6 := by rw [hk.nat (by decide), failChannel_state]
    refine training_completes hc ⟨?_, ?_, ?_, ?_, rfl⟩
    · exact (settle_nat _ (by decide) _ _).trans hstate
    · exact (hk.settle (o := .PD_STATE) (by decide) (by decide) (40 + c) 0).trans (failChannel_domain hne 1)
    · have hresult := (keepsChannels_failChannel e c 1).nat (o := .CH_TRAIN_RESULT) (by decide) c 0
      have hshown := trained_result s.dev c (s.dev.chanOf c).step ((s.dev.chanOf c).step + 1) ms
      exact (hk.settle (o := .CH_TRAIN_RESULT) (by decide) (by decide) c 0).trans (hresult.trans hshown)
    · exact training_keeps _ fun hx => absurd (hstate.symm.trans hx.2) (by decide)
  case done =>
    refine channel_closes hc hr ⟨⟨rfl, rfl⟩, ?_⟩
    split
    · rename_i h
      exact (settle_nat _ (by decide) _ _).trans (initDone_state h)
    · rename_i h
      dsimp only
      rw [initDone_idle h, settle_of_quiet hq]

end Sys2Proof.Machine
end

section
/-! PROOFS. The commands and the margin scans of a channel (O43). -/

namespace Sys2Proof.Machine

/-! ### Writes of a channel's commands (R355, R356) -/

/-- A row of CH_CMD leaves what its command's answer leaves, closed. -/
theorem chCmd_completes {s : State} {src : Src} {c n : Nat} {r : Res} {P : State → Prop} (hc : c < 4)
    (hh : s.dev.hears src { o := .CH_CMD, u := c }) (hn : n = 1 ∨ n = 2) (hr : s.dev.writeChCmd c n = r)
    (hP : P { s with dev := (answerWrite src { o := .CH_CMD, u := c } r).settle }) : ∃ t, onWrite s src .CH_CMD c 4 n = .next t ∧ P t := by
  obtain ⟨hreach, hcan⟩ := hh
  subst hr
  have hnext := onWrite_heard (o := .CH_CMD) (n := n) hc hreach
  rw [writeNum_CH_CMD s.dev c hcan hn] at hnext
  exact ⟨_, hnext, hP⟩

/-- A write of an octet to MARGIN_CMD comes to its effect. -/
theorem writeNum_MARGIN_CMD (d : Dev) {src : Src} {c v : Nat} (hv : v < 256)
    (h : src = .can → canWritable (Key.index { o := .MARGIN_CMD, u := c }) (Key.sub { o := .MARGIN_CMD, u := c }) = true) :
    d.writeNum src { o := .MARGIN_CMD, u := c } v = answerWrite src { o := .MARGIN_CMD, u := c } (d.writeMargin c v) :=
  writeNum_byte hv rfl (mayWrite_ok h rfl rfl) rfl rfl rfl rfl rfl rfl rfl

/-- The row of MARGIN_CMD leaves what its answer leaves, closed. -/
theorem marginCmd_completes {s : State} {src : Src} {c v : Nat} {r : Res} {P : State → Prop} (hc : c < 4) (hv : v < 256)
    (hh : s.dev.hears src { o := .MARGIN_CMD, u := c }) (hr : s.dev.writeMargin c v = r)
    (hP : P { s with dev := (answerWrite src { o := .MARGIN_CMD, u := c } r).settle }) :
    ∃ t, onWrite s src .MARGIN_CMD c 4 v = .next t ∧ P t := by
  obtain ⟨hreach, hcan⟩ := hh
  subst hr
  have hnext := onWrite_heard (o := .MARGIN_CMD) (n := v) hc hreach
  rw [writeNum_MARGIN_CMD s.dev hv hcan] at hnext
  exact ⟨_, hnext, hP⟩

/-- What a refusal by a quiet device leaves, closed: one more abort is counted, and the answer goes out (R67). -/
theorem refused_spec {d : Dev} (hq : d.quiet) (src : Src) (k : Key) (a : Abort) :
    (answerWrite src k (.error (a, d))).settle.refusedBy d src k a ∧
      keepsBut d (answerWrite src k (.error (a, d))).settle [.DICT_ABORTS] ∧
      onlyDict d (answerWrite src k (.error (a, d))).settle := by
  have hclosed : (answerWrite src k (.error (a, d))).settle = answerWrite src k (.error (a, d)) := settle_of_quiet hq
  rw [hclosed]
  exact answerWrite_error_spec d src k a

/-! ### RETRAIN and FAIL (R343, R355) -/

/-- A failed channel that starts its training anew, its domain woken. -/
def Dev.retrained (d : Dev) (c : Nat) : Dev := (d.startTraining c true).bump .PD_WAKES (40 + c)

theorem writeChCmd_retrain {d : Dev} {c : Nat} (h : d.nat .CH_STATE c = 6) : d.writeChCmd c 1 = .ok (d.retrained c) :=
  if_neg (not_not_intro h)

theorem writeChCmd_retrain_refused {d : Dev} {c : Nat} (h : d.nat .CH_STATE c ≠ 6) : d.writeChCmd c 1 = .error (.deviceState, d) :=
  if_pos h

theorem retrained_spec (d : Dev) (c : Nat) : (d.retrained c).nat .CH_STATE c = 1 ∧ ((d.retrained c).chanOf c).step = 0 ∧
    ((d.retrained c).chanOf c).retrain = true ∧
    (d.retrained c).nat .PD_WAKES (40 + c) = (d.nat .PD_WAKES (40 + c) + 1) % 2 ^ 32 ∧
    Within [.CH_STATE, .CH_TRAIN_RESULT, .PD_STATE, .PD_WAKES] d (d.retrained c) := by
  have hbits : Obj.PD_WAKES.row.ty.bits = 32 := rfl
  refine ⟨?_, ?_, ?_, ?_, ?_⟩
  · simp [Dev.retrained, Dev.startTraining, Dev.setN_eq]
  · simp [Dev.retrained, Dev.startTraining]
  · simp [Dev.retrained, Dev.startTraining]
  · simp [Dev.retrained, Dev.startTraining, Dev.setN_eq, hbits]
  · exact (((((Within.refl _ d).setChan _ _).put (o := .CH_STATE) (by decide) _ _ _).put (o := .CH_TRAIN_RESULT) (by decide) _ _ _).put
      (o := .PD_STATE) (by decide) _ _ _).put (o := .PD_WAKES) (by decide) _ _ _

theorem otherFailed_iff (d : Dev) (c : Nat) :
    ((List.range 4).any fun k => k ≠ c && d.chState k = 6) = true ↔ ∃ k, k < 4 ∧ k ≠ c ∧ d.nat .CH_STATE k = 6 := by
  simp only [List.any_eq_true, List.mem_range, Bool.and_eq_true, decide_eq_true_eq]
  rfl

theorem writeChCmd_fail_refused {d : Dev} {c : Nat} (h : ∃ k, k < 4 ∧ k ≠ c ∧ d.nat .CH_STATE k = 6) :
    d.writeChCmd c 2 = .error (.deviceState, d) := if_pos ((otherFailed_iff d c).mpr h)

theorem writeChCmd_fail {d : Dev} {c : Nat} (h : ∀ k, k < 4 → k ≠ c → d.nat .CH_STATE k ≠ 6) :
    d.writeChCmd c 2 = .ok (d.failChannel c 6) :=
  if_neg fun hany => by
    obtain ⟨k, hk, hne, h6⟩ := (otherFailed_iff d c).mp hany
    exact h k hk hne h6

/-! ### Margin scans (R356) -/

/-- MARGIN_CMD `v` names no scan, or a rank that the channel does not have. -/
def Dev.noScan (d : Dev) (v : Nat) : Prop := v % 4 = 0 ∨ v / 4 % 4 ≠ 0 ∨ 32 ≤ v ∨ max 1 (d.nat .DRAM_RANKS) ≤ v / 16

/-- Channel `c` cannot be scanned now. -/
def Dev.scanWaits (d : Dev) (c : Nat) : Prop := d.nat .MARGIN_STATE c = 1 ∨ d.nat .CH_STATE c ≠ 3 ∧ d.nat .CH_STATE c ≠ 4

theorem scanNamed_iff (d : Dev) (v : Nat) :
    (v % 4 ≠ 0 && (v / 4 % 4 = 0) && v < 32 && v / 16 < max 1 d.ranks) = true ↔ ¬d.noScan v := by
  simp only [Bool.and_eq_true, decide_eq_true_eq]
  unfold Dev.noScan Dev.ranks
  omega

theorem scanStarts_iff (d : Dev) (c : Nat) :
    (d.nat .MARGIN_STATE c ≠ 1 && (d.chState c = 3 || d.chState c = 4)) = true ↔ ¬d.scanWaits c := by
  simp only [Bool.and_eq_true, Bool.or_eq_true, decide_eq_true_eq]
  unfold Dev.scanWaits Dev.chState
  omega

/-- Channel `c` with scan `v` running. -/
def Dev.scanning (d : Dev) (c v : Nat) : Dev := (d.setChan c { d.chanOf c with scan := some v }).setN .MARGIN_STATE c 1

theorem writeMargin_noScan {d : Dev} {v : Nat} (h : d.noScan v) (c : Nat) : d.writeMargin c v = .error (.range, d) :=
  need_error (Bool.eq_false_iff.mpr fun hx => (scanNamed_iff d v).mp hx h)

theorem writeMargin_waits {d : Dev} {c v : Nat} (h : ¬d.noScan v) (hw : d.scanWaits c) :
    d.writeMargin c v = .error (.deviceState, d) :=
  (need_ok ((scanNamed_iff d v).mpr h)).trans (need_error (Bool.eq_false_iff.mpr fun hx => (scanStarts_iff d c).mp hx hw))

theorem writeMargin_starts {d : Dev} {c v : Nat} (h : ¬d.noScan v) (hw : ¬d.scanWaits c) :
    d.writeMargin c v = .ok (d.scanning c v) :=
  (need_ok ((scanNamed_iff d v).mpr h)).trans (need_ok ((scanStarts_iff d c).mpr hw))

theorem scanning_spec (d : Dev) (c v : Nat) : (d.scanning c v).nat .MARGIN_STATE c = 1 ∧ ((d.scanning c v).chanOf c).scan = some v ∧
    Within [.MARGIN_STATE] d (d.scanning c v) :=
  ⟨Dev.nat_setN .., by simp [Dev.scanning], ((Within.refl _ d).setChan _ _).put (by decide) _ _ _⟩

/-- The object that shows the margins of scan `v`. -/
def marginObj (v : Nat) : Obj := if v % 4 = 1 then .MARGIN_READ else if v % 4 = 2 then .MARGIN_WRITE else .MARGIN_VREF

/-- Numbers shown in the first `n` places of an object. -/
def Dev.showEach (d : Dev) (o : Obj) (u n : Nat) (f : Nat → Nat) : Dev :=
  (List.range n).foldl (fun e k => e.put o u k (.num (f k : Nat))) d

theorem showEach_nat (d : Dev) (o : Obj) (u n : Nat) (f : Nat → Nat) (o' : Obj) (u' k : Nat) :
    (d.showEach o u n f).nat o' u' k = if o' = o ∧ u' = u ∧ k < n then f k else d.nat o' u' k := by
  induction n with
  | zero => simp [Dev.showEach]
  | succ n ih =>
    have hlast : d.showEach o u (n + 1) f = (d.showEach o u n f).put o u n (.num (f n : Nat)) := by
      simp [Dev.showEach, List.range_succ]
    rw [hlast, Dev.nat_put, ih]
    by_cases hk : k = n
    · subst hk
      simp [Val.num_toInt]
    · have hiff : k < n + 1 ↔ k < n := by omega
      simp [hk, hiff]

theorem within_showEach (d : Dev) (o : Obj) (u n : Nat) (f : Nat → Nat) : Within [o] d (d.showEach o u n f) :=
  Within.fold (fun e k => (Within.refl _ e).put (by simp) _ _ _) _ (Within.refl _ d)

theorem showEach_chan (d : Dev) (o : Obj) (u n : Nat) (f : Nat → Nat) : (d.showEach o u n f).chan = d.chan :=
  foldl_keeps (P := fun e : Dev => e.chan = d.chan) (f := fun e k => e.put o u k (.num (f k : Nat))) (fun _ _ h => h) _ rfl

/-- Channel `c` with its scan done. -/
def Dev.scanned (d : Dev) (c : Nat) : Dev := (d.setChan c { d.chanOf c with scan := none }).setN .MARGIN_STATE c 2

theorem marginDone_scan {d : Dev} {c v : Nat} (h : (d.chanOf c).scan = some v) (values : List Nat) :
    d.marginDone c values = (d.scanned c).showEach (marginObj v) c 10 fun k => values.getD k 0 % 65536 := by
  have hobj : (match v % 4 with
      | 1 => Obj.MARGIN_READ
      | 2 => .MARGIN_WRITE
      | _ => .MARGIN_VREF) = marginObj v := by
    unfold marginObj
    split <;> simp_all
  simp only [Dev.marginDone, h]
  rw [← hobj]
  rfl

theorem marginDone_spec {d : Dev} {c v : Nat} (h : (d.chanOf c).scan = some v) (values : List Nat) :
    Within [.MARGIN_STATE, .MARGIN_READ, .MARGIN_WRITE, .MARGIN_VREF] d (d.marginDone c values) ∧
      (d.marginDone c values).nat .MARGIN_STATE c = 2 ∧ ((d.marginDone c values).chanOf c).scan = none ∧
      ∀ i, i < 10 → (d.marginDone c values).nat (marginObj v) c i = values.getD i 0 % 65536 := by
  have hmem : marginObj v ∈ [Obj.MARGIN_READ, .MARGIN_WRITE, .MARGIN_VREF] := by
    unfold marginObj
    split
    · simp
    · split <;> simp
  have hne : Obj.MARGIN_STATE ≠ marginObj v := fun he => absurd (he ▸ hmem) (by decide)
  rw [marginDone_scan h]
  have hscanned : Within [.MARGIN_STATE, .MARGIN_READ, .MARGIN_WRITE, .MARGIN_VREF] d (d.scanned c) :=
    ((Within.refl _ d).setChan _ _).put (o := .MARGIN_STATE) (by decide) _ _ _
  refine ⟨hscanned.trans ((within_showEach ..).mono ?_), ?_, ?_, fun i hi => ?_⟩
  · exact List.cons_subset.mpr ⟨List.mem_cons_of_mem _ hmem, List.nil_subset _⟩
  · rw [showEach_nat, if_neg (fun hx => hne hx.1)]
    exact Dev.nat_setN ..
  · rw [Dev.chanOf_of_chan (showEach_chan ..)]
    simp [Dev.scanned]
  · rw [showEach_nat, if_pos ⟨rfl, rfl, hi⟩]

/-! ### The rows -/

/-- The second part of O43. -/
theorem channelCommandsTakeEffect : Sys2Proof.Claim.ChannelCommandsTakeEffect := by
  intro s src c hc hq
  refine ⟨fun hh => ⟨?retrain, ?fail⟩, fun v hv hh => ?margin, fun v values hr hscan => ?done⟩
  case retrain =>
    by_cases h : s.dev.nat .CH_STATE c = 6
    · obtain ⟨hstate, hstep, hagain, hwakes, hw⟩ := retrained_spec s.dev c
      refine chCmd_completes hc hh (.inl rfl) (writeChCmd_retrain h) ⟨⟨rfl, rfl⟩, ?_⟩
      rw [if_pos h, settle_of_quiet (answerWrite_ok_quiet src _ (hw.quiet hq))]
      exact ⟨(answerWrite_ok_nat src _ _ _ _ (by decide)).trans hstate, hstep, hagain,
        (answerWrite_ok_nat src _ _ _ _ (by decide)).trans hwakes, answerWrite_ok_accepted src _ hw.out, answerWrite_ok_keeps src _ hw.obj⟩
    · refine chCmd_completes hc hh (.inl rfl) (writeChCmd_retrain_refused h) ⟨⟨rfl, rfl⟩, ?_⟩
      rw [if_neg h]
      exact refused_spec hq src _ .deviceState
  case fail =>
    by_cases h : ∃ k, k < 4 ∧ k ≠ c ∧ s.dev.nat .CH_STATE k = 6
    · obtain ⟨k, hk, hkc, h6⟩ := h
      exact chCmd_completes hc hh (.inr rfl) (writeChCmd_fail_refused ⟨k, hk, hkc, h6⟩)
        ⟨⟨rfl, rfl⟩, fun _ => refused_spec hq src _ .deviceState, fun hall => absurd h6 (hall k hk hkc)⟩
    · have hall : ∀ k, k < 4 → k ≠ c → s.dev.nat .CH_STATE k ≠ 6 := fun k hk hkc h6 => h ⟨k, hk, hkc, h6⟩
      refine chCmd_completes hc hh (.inr rfl) (writeChCmd_fail hall) ⟨⟨rfl, rfl⟩, fun hany => absurd hany h, fun _ => ?_⟩
      exact (answerWrite_ok_settle_nat src _ _ _ _ (by decide) (by decide)).trans (failChannel_state ..)
  case margin =>
    by_cases h : s.dev.noScan v
    · refine marginCmd_completes hc hv hh (writeMargin_noScan h c) ⟨⟨rfl, rfl⟩, ?_⟩
      obtain ⟨hrefused, hkeeps, -⟩ := refused_spec hq src { o := .MARGIN_CMD, u := c } .range
      exact (if_pos h).mpr ⟨hrefused, hkeeps⟩
    by_cases hw : s.dev.scanWaits c
    · refine marginCmd_completes hc hv hh (writeMargin_waits h hw) ⟨⟨rfl, rfl⟩, ?_⟩
      obtain ⟨hrefused, hkeeps, -⟩ := refused_spec hq src { o := .MARGIN_CMD, u := c } .deviceState
      exact (if_neg h).mpr ((if_pos hw).mpr ⟨hrefused, hkeeps⟩)
    · obtain ⟨hstate, hscan, hwithin⟩ := scanning_spec s.dev c v
      refine marginCmd_completes hc hv hh (writeMargin_starts h hw) ⟨⟨rfl, rfl⟩, (if_neg h).mpr ((if_neg hw).mpr ?_)⟩
      dsimp only
      rw [settle_of_quiet (answerWrite_ok_quiet src _ (hwithin.quiet hq))]
      exact ⟨(answerWrite_ok_nat src _ _ _ _ (by decide)).trans hstate, hscan, answerWrite_ok_accepted src _ hwithin.out,
        answerWrite_ok_keeps src _ hwithin.obj⟩
  case done =>
    obtain ⟨hw, hstate, hnone, hvalues⟩ := marginDone_spec hscan values
    exact channel_completes hc hr hq hw ⟨⟨rfl, rfl⟩, hstate, hnone, hw.out, hvalues⟩

/-- Settles O43: training and initialisation, and the commands of a channel. -/
theorem channelsTrainAndObey : Obligations.ChannelsTrainAndObey := ⟨trainingBringsAChannelUp, channelCommandsTakeEffect⟩

end Sys2Proof.Machine
end

section
/-! PROOFS. Alerts, refreshes, neighbours and panic (O42). -/

namespace Sys2Proof.Machine

/-! ### Alerts (R343) -/

/-- The strides of the last 16 in which channel `c` had an alert, this one's included. -/
def Dev.alertStrides (d : Dev) (c : Nat) : List Nat :=
  (d.stride :: (d.chanOf c).alerts.filter fun a => decide (d.stride < a + 16)).eraseDups

/-- Channel `c` with an alert counted. -/
def Dev.alerted (d : Dev) (c : Nat) : Dev := (d.setChan c { d.chanOf c with alerts := d.alertStrides c }).bump .CH_CA_PARITY c

theorem alerted_count (d : Dev) (c : Nat) : (d.alerted c).nat .CH_CA_PARITY c = (d.nat .CH_CA_PARITY c + 1) % 2 ^ 32 := by
  have hbits : Obj.CH_CA_PARITY.row.ty.bits = 32 := rfl
  simp [Dev.alerted, hbits]

theorem within_alerted (d : Dev) (c : Nat) : Within [.CH_CA_PARITY] d (d.alerted c) :=
  ((Within.refl _ d).setChan _ _).put (by decide) _ _ _

theorem caParity_fails {d : Dev} {c : Nat} (hs : d.chServes c = true) (h : 4 < (d.alertStrides c).length) :
    d.caParity c = (d.alerted c).failChannel c 4 := by
  rw [Dev.caParity, if_neg (by simp [hs])]
  exact if_pos h

theorem caParity_counts {d : Dev} {c : Nat} (hs : d.chServes c = true) (h : (d.alertStrides c).length ≤ 4) :
    d.caParity c = d.alerted c := by
  rw [Dev.caParity, if_neg (by simp [hs])]
  exact if_neg (Nat.not_lt_of_le h)

theorem caParity_count {d : Dev} {c : Nat} (hs : d.chServes c = true) :
    (d.caParity c).nat .CH_CA_PARITY c = (d.nat .CH_CA_PARITY c + 1) % 2 ^ 32 := by
  rw [← alerted_count]
  by_cases h : 4 < (d.alertStrides c).length
  · rw [caParity_fails hs h]
    exact (keepsChannels_failChannel ..).nat (by decide) c 0
  · rw [caParity_counts hs (Nat.le_of_not_lt h)]

/-! ### Refreshes (R350, R351) -/

/-- The shorter interval where the mode asks for it, or a hot DRAM under a mode that does not fix it. -/
def Dev.pace (d : Dev) : Nat :=
  if d.nat .DRAM_REFRESH_MODE = 2 ∨ d.nat .DRAM_REFRESH_MODE ≠ 1 ∧ d.gov.dramHot = true then 1950 else 3900

theorem refreshInterval_eq (d : Dev) : d.refreshInterval = d.pace := by
  unfold Dev.refreshInterval Dev.pace
  split
  · rename_i h; simp [h]
  · rename_i h; simp [h]
  · rename_i h1 h2
    by_cases hhot : d.gov.dramHot = true
    · rw [if_pos hhot, if_pos (.inr ⟨h1, hhot⟩)]
    · rw [if_neg hhot, if_neg (fun h => h.elim h2 fun hx => hhot hx.2)]

/-- Channel `c` with its next interval. -/
def Dev.paced (d : Dev) (c : Nat) : Chan := { d.chanOf c with interval := d.pace }

theorem paced_eq (d : Dev) (c : Nat) : d.paced c = { d.chanOf c with interval := d.refreshInterval } := by
  rw [refreshInterval_eq]
  rfl

/-- Channel `c` has postponed one more refresh. -/
def Dev.postponed (d : Dev) (c : Nat) : Dev := d.setChan c { d.paced c with due := (d.chanOf c).due + 1 }

/-- Channel `c` is refreshed: none is postponed, and one more sweep is made. -/
def Dev.refreshed (d : Dev) (c : Nat) : Dev := d.setChan c { d.paced c with due := 0, sweeps := (d.chanOf c).sweeps + 1 }

section
variable {d : Dev} {c : Nat} (hs : d.chServes c = true)
include hs

theorem refresh_postpones (hpanic : d.panic ≠ []) (hdue : (d.chanOf c).due < 4) (lane : Int) : d.refresh c lane = d.postponed c := by
  rw [Dev.refresh, if_neg (by simp [hs]), Dev.postponed, paced_eq]
  exact if_pos (by simp [hpanic, hdue])

theorem refresh_sweeps (h : d.panic ≠ [] ∧ 4 ≤ (d.chanOf c).due ∨
    d.panic = [] ∧ (d.chanOf c).sweeps + 1 < d.nat .DRAM_RETRAIN_EVERY) (lane : Int) : d.refresh c lane = d.refreshed c := by
  rw [Dev.refresh, if_neg (by simp [hs]), Dev.refreshed, paced_eq]
  rcases h with ⟨hpanic, hdue⟩ | ⟨hpanic, hevery⟩
  · simp [hpanic, Nat.not_lt_of_le hdue]
  · simp [hpanic, Nat.not_le_of_lt hevery]

theorem refresh_pauses (hpanic : d.panic = []) (hevery : d.nat .DRAM_RETRAIN_EVERY ≤ (d.chanOf c).sweeps + 1) (lane : Int) :
    d.refresh c lane = (d.refreshed c).retrainPause c lane := by
  rw [Dev.refresh, if_neg (by simp [hs]), Dev.refreshed, paced_eq]
  simp [hpanic, hevery]

end

/-- A centre moves by one step, or stays. -/
theorem natAbs_clamp_one (lane : Int) : (clamp (-1) 1 lane).natAbs = if lane = 0 then 0 else 1 := by
  by_cases h : lane = 0
  · subst h
    decide
  · rw [if_neg h, clamp]
    split
    · rfl
    · split
      · rfl
      · omega

/-- A pause ends the count of sweeps, takes the other direction next, and counts the step of its centre, wherever that comes to stand. -/
theorem retrainPause_spec (d : Dev) (c : Nat) (lane : Int) : ((d.retrainPause c lane).chanOf c).sweeps = 0 ∧
    ((d.retrainPause c lane).chanOf c).pauseWrite = !(d.chanOf c).pauseWrite ∧
    (d.retrainPause c lane).nat .CH_RETRAIN_STEPS c = (d.nat .CH_RETRAIN_STEPS c + if lane = 0 then 0 else 1) % 2 ^ 32 := by
  have hbits : Obj.CH_RETRAIN_STEPS.row.ty.bits = 32 := rfl
  unfold Dev.retrainPause
  extract_lets x step key v e f
  have hx : (f.chanOf c).sweeps = 0 ∧ (f.chanOf c).pauseWrite = !x.pauseWrite := by simp [f, e]
  have hf : f.nat .CH_RETRAIN_STEPS c = (d.nat .CH_RETRAIN_STEPS c + if lane = 0 then 0 else 1) % 2 ^ 32 := by
    simp [f, e, hbits, step, natAbs_clamp_one]
  have hkeeps : KeepsChannels (.CH_STATE :: .PD_STATE :: failureObjs) f (if 16 < v.natAbs then f.failChannel c 5 else f) :=
    (keepsChannels_failChannel f c 5).ite (KeepsChannels.refl _ f) _
  rw [Dev.chanOf_of_chan hkeeps.chan, hkeeps.nat (by decide)]
  exact ⟨hx.1, hx.2, hf⟩

/-! ### Neighbours (R354) -/

theorem neighbourRows_one {row : Nat} (h0 : 0 < row) (htop : row + 1 < 2 ^ 17) : neighbourRows row 1 = 2 := by
  have hbelow : (List.range 1).filter (fun i => decide (i + 1 ≤ row)) = [0] := List.filter_cons_of_pos (decide_eq_true h0)
  have habove : (List.range 1).filter (fun i => decide (row + i + 1 < 2 ^ 17)) = [0] := List.filter_cons_of_pos (decide_eq_true htop)
  rw [neighbourRows, hbelow, habove]
  rfl

theorem refreshNeighbours_spec {d : Dev} {c : Nat} (hs : d.chServes c = true) (r b row : Nat) :
    Within [.CH_NBR_REFRESHES] d (d.refreshNeighbours c r b row) ∧
      ((d.refreshNeighbours c r b row).chanOf c).neighbours = (d.chanOf c).neighbours.erase (r, (b, row)) ∧
      (d.refreshNeighbours c r b row).nat .CH_NBR_REFRESHES c =
        (d.nat .CH_NBR_REFRESHES c + neighbourRows row (d.nat .DRAM_NBR_DISTANCE)) % 2 ^ 32 := by
  have hbits : Obj.CH_NBR_REFRESHES.row.ty.bits = 32 := rfl
  rw [Dev.refreshNeighbours, if_neg (by simp [hs])]
  extract_lets x e
  refine ⟨((Within.refl _ d).setChan _ _).put (by decide) _ _ _, ?_, ?_⟩
  · simp [e, x]
  · simp [e, hbits]

/-! ### Panic (R353) -/

theorem within_portPanic (d : Dev) (p : RtPort) (fill : Nat) : Within [] d (d.portPanic p fill) := by
  have hset : ∀ l, Within [] d { d with panic := l } := fun l => (Within.refl _ d).parts rfl rfl rfl rfl
  unfold Dev.portPanic
  extract_lets level
  split
  · split
    · exact Within.refl _ d
    · exact hset _
  · split
    · exact hset _
    · exact Within.refl _ d

theorem portPanic_raises {d : Dev} {p : RtPort} {fill : Nat} (h : fill < d.panicLevel p) : p ∈ (d.portPanic p fill).panic := by
  rw [Dev.portPanic]
  simp only [if_pos h]
  split
  · rename_i hin
    simpa using hin
  · simp

theorem portPanic_stands {d : Dev} {p : RtPort} {fill : Nat} (hlow : d.panicLevel p ≤ fill) (hhigh : fill ≤ 2 * d.panicLevel p) :
    d.portPanic p fill = d := by
  rw [Dev.portPanic]
  simp only [if_neg (Nat.not_lt_of_le hlow), if_neg (Nat.not_lt_of_le hhigh)]

theorem portPanic_clears {d : Dev} {p : RtPort} {fill : Nat} (hlow : d.panicLevel p ≤ fill) (hhigh : 2 * d.panicLevel p < fill) :
    (d.portPanic p fill).panic = d.panic.erase p := by
  rw [Dev.portPanic]
  simp only [if_neg (Nat.not_lt_of_le hlow), if_pos hhigh]

/-! ### The rows -/

/-- What a change of a channel beyond its objects leaves, closed. -/
theorem setChan_closed {d : Dev} (hq : d.quiet) (c : Nat) (x : Chan) :
    (d.setChan c x).settle.chanOf c = x ∧ keepsBut d (d.setChan c x).settle [] := by
  have hw : Within [] d (d.setChan c x) := (Within.refl _ d).setChan c x
  rw [settle_of_quiet (hw.quiet hq)]
  exact ⟨Dev.chanOf_setChan_same .., hw.obj⟩

/-- Settles O42: alerts, refreshes and neighbours of a channel that serves, and the panic of a port. -/
theorem channelsRefreshAndPanic : Obligations.ChannelsRefreshAndPanic := by
  intro s c hc hq hr
  refine ⟨fun hs => ⟨?alert, fun lane => ?refresh, fun r b row => ?neighbours⟩, fun p fill hrun => ?panic⟩
  case alert =>
    refine channel_closes hc hr ⟨⟨rfl, rfl⟩, ?_, fun h => ?_, fun h => ?_⟩
    · exact (settle_nat _ (by decide) _ _).trans (caParity_count hs)
    · dsimp only
      rw [caParity_fails hs h, settle_nat _ (by decide), failChannel_state]
    · have hw := within_alerted s.dev c
      dsimp only
      rw [caParity_counts hs h, settle_of_quiet (hw.quiet hq)]
      exact ⟨Dev.chanOf_setChan_same .., hw.obj, hw.out⟩
  case refresh =>
    have hsweep := setChan_closed hq c { s.dev.paced c with due := 0, sweeps := (s.dev.chanOf c).sweeps + 1 }
    refine channel_closes hc hr ⟨⟨rfl, rfl⟩, fun hpanic hdue => ?_, fun hpanic hdue => ?_, fun hpanic hevery => ?_, fun hpanic hevery => ?_⟩
    · dsimp only
      rw [refresh_postpones hs hpanic hdue]
      exact setChan_closed hq c _
    · dsimp only
      rw [refresh_sweeps hs (.inl ⟨hpanic, hdue⟩)]
      exact hsweep
    · dsimp only
      rw [refresh_sweeps hs (.inr ⟨hpanic, hevery⟩)]
      exact hsweep
    · obtain ⟨hsweeps, hwrite, hsteps⟩ := retrainPause_spec (s.dev.refreshed c) c lane
      dsimp only
      rw [refresh_pauses hs hpanic hevery, settle_chanOf, settle_nat _ (by decide)]
      exact ⟨hsweeps, hwrite.trans (by simp [Dev.refreshed, Dev.paced]), hsteps⟩
  case neighbours =>
    obtain ⟨hw, hgone, hcount⟩ := refreshNeighbours_spec hs r b row
    refine channel_completes hc hr hq hw ⟨⟨rfl, rfl⟩, hw.obj, hgone, fun h0 htop hdist => ?_⟩
    rw [hdist, neighbourRows_one h0 htop] at hcount
    exact hcount
  case panic =>
    have hw := within_portPanic s.dev p fill
    exact onDev_engine_completes hrun (hw.quiet hq) ⟨⟨rfl, rfl⟩, hw.obj, hw.out, portPanic_raises,
      fun hlow hhigh => congrArg Dev.panic (portPanic_stands hlow hhigh), portPanic_clears⟩

end Sys2Proof.Machine
end

section
/-! PROOFS. References to a buffer: adds, drops, and the free at the last drop (R367, R368), O44. -/

namespace Sys2Proof.Machine

/-! ### The entry of a descriptor -/

theorem tfind_tset_other {κ α : Type} [DecidableEq κ] (v : α) {j k : κ} (h : j ≠ k) (t : List (κ × α)) :
    tfind j (tset k v t) = tfind j t := by
  induction t with
  | nil => exact if_neg h
  | cons e t ih =>
    obtain ⟨k', v'⟩ := e
    by_cases hk : k = k'
    · subst hk
      simp [tset, tfind, h]
    · simp [tset, tfind, hk, ih]

/-- A descriptor that is listed reads as its entry. -/
theorem Dev.descOf_of_entry {d : Dev} {p i : Nat} {x : Desc} (h : tfind (p, i) d.pool.descs = some x) : d.descOf p i = x := by
  unfold Dev.descOf
  rw [h]
  rfl

theorem Dev.entry_setDesc_same (d : Dev) (p i : Nat) (x : Desc) : tfind (p, i) (d.setDesc p i x).pool.descs = some x :=
  tfind_tset_same ..

theorem Dev.entry_setDesc_other (d : Dev) {p i q j : Nat} (x : Desc) (h : (p, i) ≠ (q, j)) :
    tfind (p, i) (d.setDesc q j x).pool.descs = tfind (p, i) d.pool.descs := tfind_tset_other _ h _

@[simp] theorem Dev.descOf_setDesc_same (d : Dev) (p i : Nat) (x : Desc) : (d.setDesc p i x).descOf p i = x :=
  Dev.descOf_of_entry (d.entry_setDesc_same p i x)

theorem giveBack_descs (d : Dev) (p i : Nat) : (d.giveBack p i).pool.descs = d.pool.descs := by
  unfold Dev.giveBack
  dsimp only
  split
  · rfl
  · rfl

theorem chargeBytes_descs (d : Dev) (dom : Nat) (a : Option Nat) (b : Int) : (d.chargeBytes dom a b).pool.descs = d.pool.descs := by
  cases a with
  | none => rfl
  | some k => rfl

theorem poolTouch_pool (d : Dev) (p : Nat) : (d.poolTouch p).pool = d.pool := by
  unfold Dev.poolTouch
  dsimp only
  split
  · rfl
  · rfl

/-! ### The free of a buffer (R367) -/

/-- Index `i` of pool `p` is listed as free: its descriptor holds a generation and whether its channel is lost, and nothing more. -/
def Dev.listsFree (d : Dev) (p i : Nat) : Prop := ∃ gen lost, tfind (p, i) d.pool.descs = some { gen := gen, lost := lost }

theorem Dev.listsFree.of_descs {d e : Dev} {p i : Nat} (h : d.listsFree p i) (he : e.pool.descs = d.pool.descs) : e.listsFree p i := by
  unfold Dev.listsFree
  rw [he]
  exact h

theorem Dev.listsFree.setDesc_other {d : Dev} {p i j : Nat} (h : d.listsFree p i) (hj : j ≠ i) (x : Desc) :
    (d.setDesc p j x).listsFree p i := by
  have hkey : (p, i) ≠ (p, j) := fun e => hj (Prod.mk.inj e).2.symm
  unfold Dev.listsFree
  rw [d.entry_setDesc_other x hkey]
  exact h

theorem Dev.listsFree.descOf {d : Dev} {p i : Nat} (h : d.listsFree p i) : (d.descOf p i).allocated = false ∧ (d.descOf p i).refs = 0 := by
  obtain ⟨gen, lost, he⟩ := h
  rw [Dev.descOf_of_entry he]
  exact ⟨rfl, rfl⟩

theorem listsFree_freeDesc (d : Dev) (p i : Nat) : (d.freeDesc p i).listsFree p i := by
  unfold Dev.freeDesc
  extract_lets x shadows bytes d1 live x' d2 d3 d4
  have h2 : d2.listsFree p i := by
    unfold d2
    split
    · exact ⟨_, _, d1.entry_setDesc_same ..⟩
    split
    · exact Dev.listsFree.of_descs ⟨_, _, d1.entry_setDesc_same ..⟩ (giveBack_descs _ _ _)
    · exact Dev.listsFree.of_descs ⟨_, _, d1.entry_setDesc_same ..⟩ (giveBack_descs _ _ _)
  have h3 : d3.listsFree p i := by
    unfold d3
    split
    · exact h2.of_descs rfl
    · exact h2
  have h4 : d4.listsFree p i := by
    refine List.foldlRecOn (motive := fun e : Dev => e.listsFree p i) shadows _ h3 fun e he j hj => ?_
    have hne : j ≠ i := of_decide_eq_true (List.mem_filter.mp hj).2
    have hset := fun y => he.setDesc_other hne y
    dsimp only
    split
    · exact hset _
    · exact (hset _).of_descs (giveBack_descs _ _ _)
  exact (h4.of_descs (chargeBytes_descs _ _ _ _)).of_descs (congrArg Pool.descs (poolTouch_pool _ _))

/-! ### Operations that the checks reject (R368) -/

/-- The counters of the checks. -/
def checkCounters : List Obj := [.POOL_INVALID, .POOL_STALE_FREES, .POOL_DOUBLE_FREES, .POOL_FOREIGN_FREES, .POOL_REF_LIMIT]

theorem refCheck_counter {d : Dev} {dom h n : Nat} {r : Nat × Obj} (hr : d.refCheck dom h n = some r) : r.2 ∈ checkCounters := by
  unfold Dev.refCheck at hr
  dsimp only at hr
  repeat' split at hr
  case isFalse => exact absurd hr (by simp)
  all_goals
    obtain rfl := Option.some.inj hr
    decide

/-- A counter of the checks counts modulo 2^32, and no close of a command writes it. -/
theorem checkCounters_spec : ∀ o ∈ checkCounters, o.row.ty.bits = 32 ∧ closeObj o = false := by decide

/-- A rejected operation leaves the pools and is counted, whatever its record comes to at the close. -/
theorem refReject_closed {d : Dev} {dom h n : Nat} {r : Nat × Obj} (hr : d.refCheck dom h n = some r) :
    (d.refReject h r).settle.pool = d.pool ∧ (d.refReject h r).settle.nat r.2 = (d.nat r.2 + 1) % 2 ^ 32 := by
  obtain ⟨hbits, hclose⟩ := checkCounters_spec _ (refCheck_counter hr)
  constructor
  · rw [settle_pool]
    rfl
  · rw [settle_nat _ hclose, Dev.refReject, Dev.logRec_nat, Dev.nat_bump, if_pos ⟨rfl, rfl, rfl⟩, hbits]

/-! ### Adds (R367) -/

theorem refAdd_out_of_range (d : Dev) (dom h : Nat) {n : Nat} (hn : n < 1 ∨ 4096 < n) : d.refAdd dom h n = d := if_pos hn

theorem refAdd_rejected {d : Dev} {dom h n : Nat} {r : Nat × Obj} (hlo : 1 ≤ n) (hhi : n ≤ 4096) (hr : d.refCheck dom h n = some r) :
    d.refAdd dom h n = d.refReject h r := by
  rw [Dev.refAdd, if_neg (by omega), hr]

theorem refAdd_adds {d : Dev} {dom h n : Nat} (hlo : 1 ≤ n) (hhi : n ≤ 4096) (hr : d.refCheck dom h n = none) :
    let x := d.descOf (handlePool h) (handleIndex h)
    let e := d.refAdd dom h n
    Within [.POOL_PEAK_REFS] d e ∧ e.descOf (handlePool h) (handleIndex h) = { x with refs := x.refs + n } ∧
      e.nat .POOL_PEAK_REFS (handlePool h) = max (d.nat .POOL_PEAK_REFS (handlePool h)) (x.refs + n) := by
  rw [Dev.refAdd, if_neg (by omega), hr]
  intro x
  dsimp only
  have hset : Within [.POOL_PEAK_REFS] d (d.setDesc (handlePool h) (handleIndex h) { x with refs := x.refs + n }) :=
    (Within.refl _ d).setDesc _ _ _
  have hdesc := d.descOf_setDesc_same (handlePool h) (handleIndex h) { x with refs := x.refs + n }
  split
  next hlt => exact ⟨hset.put (by decide) _ _ _, hdesc, (Dev.nat_setN ..).trans (max_eq_right hlt.le).symm⟩
  next hle => exact ⟨hset, hdesc, (max_eq_left (not_lt.mp hle)).symm⟩

/-! ### Drops (R367) -/

theorem refDrop_rejected {d : Dev} {dom h : Nat} {r : Nat × Obj} (hr : d.refCheck dom h 0 = some r) :
    d.refDrop dom h = d.refReject h r := by
  rw [Dev.refDrop, hr]

theorem refDrop_drops {d : Dev} {dom h : Nat} (hr : d.refCheck dom h 0 = none)
    (hx : 1 < (d.descOf (handlePool h) (handleIndex h)).refs) :
    let x := d.descOf (handlePool h) (handleIndex h)
    let e := d.refDrop dom h
    Within [] d e ∧ e.descOf (handlePool h) (handleIndex h) = { x with refs := x.refs - 1 } := by
  intro x e
  have hdrop : e = d.setDesc (handlePool h) (handleIndex h) { x with refs := x.refs - 1 } := by
    unfold e
    rw [Dev.refDrop, hr]
    exact if_neg (Nat.not_le_of_lt hx)
  rw [hdrop]
  exact ⟨(Within.refl _ d).setDesc _ _ _, d.descOf_setDesc_same _ _ _⟩

theorem refDrop_frees {d : Dev} {dom h : Nat} (hr : d.refCheck dom h 0 = none)
    (hx : ¬1 < (d.descOf (handlePool h) (handleIndex h)).refs) :
    Within poolObjs d (d.refDrop dom h) ∧ (d.refDrop dom h).listsFree (handlePool h) (handleIndex h) := by
  have hfree : d.refDrop dom h = (d.setDesc (handlePool h) (handleIndex h)
      { d.descOf (handlePool h) (handleIndex h) with refs := 0 }).freeDesc (handlePool h) (handleIndex h) := by
    rw [Dev.refDrop, hr]
    exact if_pos (Nat.le_of_not_lt hx)
  rw [hfree]
  exact ⟨((Within.refl _ d).setDesc _ _ _).trans (poolObjs_freeDesc _ _ _), listsFree_freeDesc _ _ _⟩

/-! ### The rows -/

/-- Settles O44: adds out of range, rejected and counted, and drops that are rejected, that leave references, and that free. -/
theorem referencesAreCounted : Obligations.ReferencesAreCounted := by
  intro s dom h n hdom hq hrun
  refine ⟨fun hn => ?none, fun hlo hhi code o hr => ?addRejected, fun hlo hhi hr => ?adds, fun code o hr => ?dropRejected,
    fun hr => ?drops⟩
  case none => exact engine_completes hdom hrun (refAdd_out_of_range s.dev dom h hn) hq rfl
  case addRejected =>
    obtain ⟨hpool, hcount⟩ := refReject_closed hr
    rw [← refAdd_rejected hlo hhi hr] at hpool hcount
    exact engine_closes hdom hrun ⟨hpool, hcount, rfl, rfl⟩
  case adds =>
    obtain ⟨hw, hdesc, hpeak⟩ := refAdd_adds hlo hhi hr
    exact engine_completes hdom hrun rfl (hw.quiet hq) ⟨⟨rfl, rfl⟩, hw.out, hdesc, hpeak, hw.obj⟩
  case dropRejected =>
    obtain ⟨hpool, hcount⟩ := refReject_closed hr
    rw [← refDrop_rejected hr] at hpool hcount
    exact engine_closes hdom hrun ⟨hpool, hcount, rfl, rfl⟩
  case drops =>
    by_cases hx : 1 < (s.dev.descOf (handlePool h) (handleIndex h)).refs
    · obtain ⟨hw, hdesc⟩ := refDrop_drops hr hx
      exact engine_completes hdom hrun rfl (hw.quiet hq) ⟨⟨rfl, rfl⟩, hw.out, (if_pos hx).mpr ⟨hdesc, hw.obj⟩⟩
    · obtain ⟨hw, hfree⟩ := refDrop_frees hr hx
      exact engine_completes hdom hrun rfl (hw.quiet hq) ⟨⟨rfl, rfl⟩, hw.out, (if_neg hx).mpr hfree.descOf⟩

end Sys2Proof.Machine
end

section
/-! PROOFS. The queue and the gates of the commands: what a step takes (O1), what cold reset leaves (O2), which commands run (O5), and what PORn
holds off (O6). -/

namespace Sys2Proof.Machine

/-! ### The queue, and the state after cold reset -/

/-- Settles O1: both cases are `step`'s own. -/
theorem stepsTakeTheQueueInOrder : Obligations.StepsTakeTheQueueInOrder := by
  refine ⟨fun s c rest h => ?front, fun s h => ?idle⟩
  case front =>
    unfold step
    rw [h]
  case idle =>
    have hidle : step s = .next (idleStep s) := by
      unfold step
      rw [h]
    exact hidle

/-- Settles O2: every part of the reset state is a default, and its dictionary lists nothing. -/
theorem resetLeavesNothingRunning : Obligations.ResetLeavesNothingRunning :=
  ⟨rfl, rfl, rfl, ⟨rfl, rfl⟩, rfl, rfl, rfl, rfl, rfl, fun _ => rfl, fun _ _ _ => rfl⟩

/-! ### The gates -/

/-- An action that PORn, held low, holds off (R422). -/
def Held (f : Dev → Dev) : Prop := ∀ d : Dev, d.rst.released = false → d.gen.running = false → f d = d

/-- A command that acts on the device alone, by an action of which `P` holds, and whose well-formed operands name a unit that the block has. -/
def Acts (P : (Dev → Dev) → Prop) (c : Instr) (s : State) : Prop :=
  ∃ n count f, exec c s = onUnit s n count f ∧ (c.wf = true → n < count) ∧ P f

theorem held_awake (f : Dev → Dev) : Held fun d => d.awake f := fun _ hr _ => if_neg (by simp [hr])

theorem held_engine (f : Dev → Dev) : Held fun d => d.engine f := fun _ _ hg => if_neg (by simp [hg])

theorem held_node (f : Dev → Dev) : Held fun d => d.node f := fun _ hr _ => if_neg (by simp [Dev.nodeRuns, hr])

theorem held_inRegion (g : Nat) (f : Dev → Dev) : Held fun d => d.inRegion g f := fun _ _ hg => if_neg (by simp [Dev.regionRuns, hg])

theorem held_access (src : Src) (f : Dev → Dev) : Held fun d => d.access src f :=
  fun _ hr hg => if_neg (by cases src <;> simp [Dev.reaches, hr, hg])

theorem held_arb (a : Arb) (f : Dev → Dev) : Held fun d => if d.arbRuns a then f d else d :=
  fun _ _ hg => if_neg (by cases a <;> simp [Dev.arbRuns, Dev.regionRuns, hg])

theorem Acts.onUnit {P : (Dev → Dev) → Prop} {c : Instr} {s : State} {n count : Nat} {f : Dev → Dev}
    (hf : P f) (h : exec c s = onUnit s n count f) (hn : c.wf = true → n < count) : Acts P c s := ⟨n, count, f, h, hn, hf⟩

theorem Acts.onDev {P : (Dev → Dev) → Prop} {c : Instr} {s : State} {f : Dev → Dev} (hf : P f) (h : exec c s = onDev s f) :
    Acts P c s := ⟨0, 1, f, h, fun _ => Nat.zero_lt_one, hf⟩

theorem encUnit_lt {e : EncId} (h : e.wf = true) : (encUnit e).1 < (encUnit e).2 := by
  cases e <;> exact of_decide_eq_true h

theorem arbUnit_lt {a : Arb} (h : a.wf = true) : (arbUnit a).1 < (arbUnit a).2 := by
  cases a <;> exact of_decide_eq_true h

/-- Every command but those of the reset pins and of DRAM's bytes acts on the device alone, behind a gate that PORn, held low, closes. -/
theorem exec_acts (c : Instr) (s : State) :
    match c with
    | .dramTrainingStep .. | .dramRead .. | .dramWrite .. | .scrubRead .. | .remirrorCopy .. | .decodePictureComplete ..
    | .composerItemComplete .. => True
    | .pornAssert | .pornRelease .. | .trstnAssert => Acts (fun _ => True) c s
    | _ => Acts Held c s := by
  cases c
  case dramTrainingStep | dramRead | dramWrite | scrubRead | remirrorCopy | decodePictureComplete | composerItemComplete => exact trivial
  case pornAssert => exact Acts.onDev (f := Dev.pornAssert) trivial rfl
  case pornRelease sources => exact Acts.onDev (f := fun d => d.pornRelease sources) trivial rfl
  case trstnAssert => exact Acts.onDev (f := fun d => { d with rst := { d.rst with tapReset := true } }) trivial rfl
  case strideEdge | avsTransactionEnd | domainRelease | pllLock | pllLockTimeout | optionBlockRead | wrstnAssert | warmResetRelease
      | optImageWriteComplete | clockAlarm | tamperAlarm | keyEraseVerify | attestReportReady | optEraseComplete =>
    exact Acts.onDev (held_awake _) rfl
  case supplyAlarm | temperatureAlarm | alarmSourceClear | dramInitComplete | caParityAlert | refreshDue | neighbourRefresh
      | pageIdleTimeout | marginScanComplete =>
    exact Acts.onUnit (held_awake _) rfl of_decide_eq_true
  case hdpOpen | hdpClose | hdpKeepalive | hdpRead | hdpWrite | hdpSubscribe | hdpUnsubscribe | hdpBulkBegin | hdpBulkData | hdpBulkEnd
      | hdpBulkRead | hdpPuntClaim | hdpPuntTx | hdpSessionTimeout | hdpRequestExecute | hdpRequestTimeout | bulkTransferTimeout | portPanic
      | chipUnitError | dozeWakeComplete | warmupStart | handoverBegin | handover | warmupReturn | scLeaseExpiry | scJobComplete | snapInEdge
      | snapOutEnd | tapComplete =>
    exact Acts.onDev (held_engine _) rfl
  case keyframeRequestRepeat | servoSample | holdoverEnter | holdoverExpiry | ptpMessageRx | ptpMessageDue | ptpAnnounceTimeout
      | pulseTargetReached | pulseWidthEnd | captureEdge | confCloseComplete | drainEnd | legRxTimeout | frameReceive | videoHoldExpiry
      | portLinkChange | pairRevert | srefclkLoss | portFrameSelect | rtcpReportDue | fecKEvaluate | audioInputItem | mixItem
      | audioOutputItem | audioEncodeItem | lineLoopItem | feedbackBuildItem | dtmfEventTimeout | spliceAssemble | bufferAllocate
      | referenceAdd | referenceDrop | domainWakeComplete | domainWakeTimeout | domainIdleGate =>
    exact Acts.onUnit (held_engine _) rfl of_decide_eq_true
  case encodeRowComplete | encodePictureComplete => exact Acts.onUnit (held_engine _) rfl encUnit_lt
  case nmtStart | nmtStop | nmtEnterPreOperational | nmtResetNode | nmtResetCommunication | sdoDownloadInitiate | sdoUploadInitiate
      | sdoSegment | sdoClientAbort | sdoTimeout | heartbeatTimer | canErrorPassive | canBusOff | canBusOffRecovered | canOverrun
      | communicationBitClear | canErrorActive =>
    exact Acts.onDev (held_node _) rfl
  case tpdoEventTimer => exact Acts.onUnit (held_node _) rfl of_decide_eq_true
  case rpdoReceive => exact Acts.onUnit (held_node _) rfl (fun h => of_decide_eq_true (Bool.and_elim_left h))
  case itemPlacement | itemStart | checkItem | cellClockStop | composerItemStart | cellFault | blockFault | blockRejoin | pairFault
      | composerFault | fabricRailError | regionFail =>
    exact Acts.onUnit (held_inRegion _ _) rfl of_decide_eq_true
  case arbiterGrant | debugSweep => exact Acts.onUnit (held_arb _ _) rfl arbUnit_lt
  case stageDiscard | dictWrite | optImage | aesCbcEncrypt | aesCbcDecrypt | aesCtr | aesGcmEncrypt | aesGcmDecrypt | rfc5649Wrap
      | rfc5649Unwrap =>
    exact Acts.onDev (held_access _ _) rfl
  case strideCommit | commitWithdraw | errorCountClear | logClear | govDoze | govWake | resetCmdWarm | resetCmdCold | resetCmdRegion
      | revertedMaskWrite | scLockTake | scLockRelease | alarmClear | attestCmd | ownerRevoke | snapNow | snapEdgeWrite | snapRelease
      | tapCmd | injCmd | tkProgram =>
    exact Acts.onUnit (held_access _ _) rfl (fun _ => Nat.zero_lt_one)
  case captureTimeRead | legEventRead | poolLowWaterRead | tbTimeWrite | pulseTargetWrite | pulseModeWrite | confOpen | confClose
      | configure | unconfigure | activate | hold | resume | rekey | rekeyDone | delete | readmitVideo | pairForce | legSsrcFlush
      | legLowPriorityWrite | chRetrain | chFail | marginCmd | legSuiteWrite =>
    exact Acts.onUnit (held_access _ _) rfl of_decide_eq_true
  case hdpKey | ownerProgram | legTxKey | legRxKey =>
    exact Acts.onUnit (held_access _ _) rfl (fun h => of_decide_eq_true (Bool.and_elim_left h))
  case slotWrap src slot wrap =>
    by_cases hslot : slot = 0
    · refine Acts.onUnit (n := 0) (count := 0) (f := id) (fun _ _ _ => rfl) (if_pos hslot) (fun h => ?_)
      simp [Instr.wf, hslot] at h
    · refine Acts.onUnit (held_access _ _) (if_neg hslot) (fun h => ?_)
      simp only [Instr.wf, Bool.and_eq_true, decide_eq_true_eq] at h
      exact h.1.2

theorem Acts.outcome {P : (Dev → Dev) → Prop} {c : Instr} {s t : State} (h : Acts P c s) (ht : exec c s = .next t) :
    ∃ f, P f ∧ t = { s with dev := (f s.dev).settle } := by
  obtain ⟨n, count, f, hexec, _, hf⟩ := h
  rw [hexec] at ht
  unfold Sys2Proof.Machine.onUnit Sys2Proof.Machine.onDev at ht
  split at ht
  · exact ⟨f, hf, (Host.Outcome.next.inj ht).symm⟩
  · exact absurd ht (by simp)

theorem Acts.mem {P : (Dev → Dev) → Prop} {c : Instr} {s t : State} (h : Acts P c s) (ht : exec c s = .next t) : t.mem = s.mem := by
  obtain ⟨f, _, rfl⟩ := h.outcome ht
  rfl

theorem Acts.runs {P : (Dev → Dev) → Prop} {c : Instr} {s : State} (h : Acts P c s) (hwf : c.wf = true) :
    Sys2Proof.Machine.runs c s := by
  obtain ⟨n, count, f, hexec, hn, _⟩ := h
  unfold Sys2Proof.Machine.runs
  rw [hexec, Sys2Proof.Machine.onUnit, if_pos (hn hwf)]
  rfl

theorem Acts.held {c : Instr} {s t : State} (h : Acts Held c s) (hr : s.dev.rst.released = false) (hg : s.dev.gen.running = false)
    (hq : s.dev.quiet) (ht : exec c s = .next t) : t.dev = s.dev := by
  obtain ⟨f, hf, rfl⟩ := h.outcome ht
  exact (congrArg Dev.settle (hf _ hr hg)).trans (settle_of_quiet hq)

/-! ### Commands on DRAM -/

theorem onDram_outcome {s t : State} {f : Dev → List Host.Cell → Dev × List Host.Cell} (ht : onDram s f = .next t) :
    t.mem = (f s.dev s.mem).2 ∧ t.dev = (f s.dev s.mem).1.settle := by
  obtain rfl := Host.Outcome.next.inj ht
  exact ⟨rfl, rfl⟩

theorem onBoth_off {s t : State} {n count : Nat} {on : Dev → Bool} {f : Dev → List Host.Cell → Dev × List Host.Cell}
    (hq : s.dev.quiet) (hon : on s.dev = false) (ht : onBoth s n count on f = .next t) : t.dev = s.dev := by
  unfold onBoth at ht
  split at ht
  · rw [(onDram_outcome ht).2, hon]
    exact settle_of_quiet hq
  · exact absurd ht (by simp)

/-! ### The obligations -/

theorem runs_of_next {c : Instr} {s t : State} (h : exec c s = .next t) : runs c s := by
  unfold runs
  rw [h]
  rfl

/-- Settles O5: a command on the device runs where its unit exists, and a command on DRAM where its premise admits the address. -/
theorem wellFormedCommandsRun : Obligations.WellFormedCommandsRun := by
  intro c s hwf
  have hacts := exec_acts c s
  cases c
  case dramRead | dramWrite => exact fun haddr => runs_of_next (if_pos haddr)
  case scrubRead => exact fun haddr => runs_of_next ((if_pos (of_decide_eq_true hwf)).trans (if_pos haddr))
  case dramTrainingStep | decodePictureComplete | composerItemComplete => exact runs_of_next (if_pos (of_decide_eq_true hwf))
  case remirrorCopy => exact runs_of_next rfl
  all_goals exact hacts.runs hwf

/-- Settles O6: behind its gate a command leaves a quiet device, which closes as it is. -/
theorem nothingAnswersBeforeRelease : Obligations.NothingAnswersBeforeRelease := by
  intro c s t hr hg hq ht
  have hacts := exec_acts c s
  cases c
  case pornAssert | pornRelease | trstnAssert | dramTrainingStep | dramRead | dramWrite | scrubRead | remirrorCopy => exact trivial
  case decodePictureComplete => exact onBoth_off hq hg ht
  case composerItemComplete => exact onBoth_off hq (by simp [Dev.regionRuns, hg]) ht
  all_goals exact Acts.held hacts hr hg hq ht

end Sys2Proof.Machine
end

section
/-! PROOFS. The canonical form of DRAM over every step (O3). -/

namespace Sys2Proof.Machine

/-! ### Operations on DRAM's bytes -/

theorem wf_storeAt (d : Dev) (p j : Nat) (bs : Octets) : ∀ (m : List Host.Cell) (off : Nat), Memory.wf m = true →
    Memory.wf (d.storeAt m p j off bs) = true := by
  induction bs with
  | nil => intro m off h; exact h
  | cons b r ih => intro m off h; exact ih _ _ (Memory.wf_write _ _ h)

theorem wf_writeLine (d : Dev) {m : List Host.Cell} (h off : Nat) (data : Octets) (hm : Memory.wf m = true) :
    Memory.wf (d.writeLine m h off data).2 = true := by
  refine foldl_keeps (P := fun s : Dev × List Host.Cell => Memory.wf s.2 = true) (fun s j hs => ?_) _ hm
  dsimp only
  split
  · exact wf_storeAt _ _ _ _ _ _ hs
  · exact hs

theorem wf_writeBufs (bufs : List Nat) : ∀ (d : Dev) {m : List Host.Cell} (b : Octets), Memory.wf m = true →
    Memory.wf (d.writeBufs m bufs b).2 = true := by
  induction bufs with
  | nil => intro d m b hm; exact hm
  | cons h r ih =>
    intro d m b hm
    refine ih _ _ (foldl_keeps (P := fun s : Dev × List Host.Cell => Memory.wf s.2 = true) (fun s i hs => ?_) _ hm)
    exact wf_writeLine _ _ _ _ hs

theorem wf_mirrorRead (d : Dev) {m : List Host.Cell} (p j k off h : Nat) (err : List (List Nat)) (hm : Memory.wf m = true) :
    Memory.wf (d.mirrorRead m p j k off h err).2.2 = true := by
  unfold Dev.mirrorRead
  extract_lets c cm a am bad
  split
  · exact hm
  split
  · dsimp only
    split
    · exact Memory.wf_writeN _ _ hm
    · exact hm
  · exact hm

theorem wf_readLine (d : Dev) {m : List Host.Cell} (p i off : Nat) (err retry mirror : List (List Nat)) (hm : Memory.wf m = true) :
    Memory.wf (d.readLine m p i off err retry mirror).2.2 = true := by
  unfold Dev.readLine
  extract_lets x h o c flag single
  split
  · exact hm
  split
  · exact hm
  split
  · exact wf_mirrorRead _ _ _ _ _ _ _ hm
  · exact hm

theorem wf_scrub (d : Dev) {m : List Host.Cell} (c a : Nat) (err retry mirror : List (List Nat)) (hm : Memory.wf m = true) :
    Memory.wf (d.scrub m c a err retry mirror).2 = true := by
  unfold Dev.scrub
  extract_lets line at_ flag
  have hzero : Memory.wf (Memory.writeN m at_ (List.replicate 64 0)) = true := Memory.wf_writeN _ _ hm
  split
  · exact Memory.wf_writeN _ _ hm
  split
  · simpa only using hzero
  extract_lets own holder
  clear_value holder
  split
  · simpa only using hzero
  split
  · exact wf_mirrorRead _ _ _ _ _ _ _ hm
  · exact hm

theorem wf_remirror (d : Dev) {m : List Host.Cell} (h : Nat) (hm : Memory.wf m = true) : Memory.wf (d.remirror m h).2 = true := by
  unfold Dev.remirror
  extract_lets p i x before place old new e f
  have hold : Memory.wf (old.foldl (fun m y => Memory.write m y.1 unlisted) m) = true :=
    foldl_keeps (P := fun m => Memory.wf m = true) (fun _ _ => Memory.wf_write _ _) _ hm
  split
  · exact foldl_keeps (P := fun m => Memory.wf m = true) (fun _ _ => Memory.wf_write _ _) _ hold
  · exact hm

theorem wf_training (d : Dev) {m : List Host.Cell} (c : Nat) (passed : Bool) (ms : Nat) (hm : Memory.wf m = true) :
    Memory.wf (d.training m c passed ms).2 = true := by
  unfold Dev.training
  dsimp only
  split
  · exact Memory.wf_clear _ hm
  · exact hm

theorem wf_decFrames (d : Dev) {m : List Host.Cell} (n s : Nat) (i : DecItem) (q : SeqParams) (hurt : Bool)
    (hm : Memory.wf m = true) : Memory.wf (d.decFrames m n s i q hurt).mem = true := by
  refine foldl_keeps (P := fun a : FrameOut => Memory.wf a.mem = true) (fun a l ha => ?_) _ hm
  dsimp only
  split
  · exact ha
  split
  · exact ha
  · exact wf_writeBufs _ _ _ ha

theorem wf_decFinish (d : Dev) {m : List Host.Cell} (n s : Nat) (i : DecItem) (hm : Memory.wf m = true) :
    Memory.wf (d.decFinish m n s i).2 = true := by
  unfold Dev.decFinish
  extract_lets
  split
  · exact hm
  extract_lets
  split
  · exact wf_decFrames _ _ _ _ _ _ hm
  · exact wf_decFrames _ _ _ _ _ _ hm

theorem wf_coupleStep (d : Dev) {m : List Host.Cell} (p : Nat) (t : CoupleStep) (hm : Memory.wf m = true) :
    Memory.wf (d.coupleStep m p t).2 = true := by
  cases t with
  | record | close | cycles => exact hm
  | consume =>
    show Memory.wf (d.coupleConsume m p).2 = true
    unfold Dev.coupleConsume
    extract_lets x
    split
    · exact hm
    extract_lets k e
    split
    · exact hm
    split
    · exact hm
    split
    · exact wf_decFinish _ _ _ _ hm
    · exact hm
  | unreadable u =>
    unfold Dev.coupleStep
    dsimp only
    split <;> exact hm

theorem wf_decComplete (d : Dev) {m : List Host.Cell} (n s : Nat) (trace : List CoupleStep) (hm : Memory.wf m = true) :
    Memory.wf (d.decComplete m n s trace).2 = true := by
  unfold Dev.decComplete
  split
  · exact hm
  extract_lets p r
  split
  · exact hm
  · exact foldl_keeps (P := fun a : Dev × List Host.Cell => Memory.wf a.2 = true) (fun a t ha => wf_coupleStep _ _ t ha) _ hm

theorem wf_compComplete (d : Dev) {m : List Host.Cell} (k : Nat) (regions : List IndRegion) (late : List Nat)
    (hm : Memory.wf m = true) : Memory.wf (d.compComplete m k regions late).1.2 = true := by
  unfold Dev.compComplete
  extract_lets x
  split
  · exact hm
  extract_lets pics l crcs bad lost d1 d2 withheld d3 blank s d4
  show Memory.wf s.2 = true
  unfold s
  split
  · exact hm
  split
  · exact wf_writeBufs _ _ _ hm
  · exact hm

theorem wf_composerDone (d : Dev) {m : List Host.Cell} (k : Nat) (regions : List IndRegion) (late : List Nat)
    (hm : Memory.wf m = true) : Memory.wf (d.composerDone m k regions late).2 = true := by
  unfold Dev.composerDone
  extract_lets r
  split <;> exact wf_compComplete _ _ _ _ hm

/-! ### Commands -/

/-- Where a command's outcome has a next state, its DRAM has the canonical form. -/
def LeavesForm (o : Host.Outcome State Fault Refusal) : Prop := ∀ t, o = .next t → t.memOk

theorem leavesForm_fault (r : Fault) : LeavesForm (.fault r) := fun _ h => nomatch h

theorem leavesForm_refused (r : Refusal) : LeavesForm (.refused r) := fun _ h => nomatch h

theorem LeavesForm.ite {o p : Host.Outcome State Fault Refusal} (ho : LeavesForm o) (hp : LeavesForm p) (c : Prop) [Decidable c] :
    LeavesForm (if c then o else p) := by
  split
  · exact ho
  · exact hp

theorem leavesForm_onDram {s : State} {f : Dev → List Host.Cell → Dev × List Host.Cell} (h : Memory.wf (f s.dev s.mem).2 = true) :
    LeavesForm (onDram s f) := by
  intro t ht
  unfold State.memOk
  rw [(onDram_outcome ht).1]
  exact h

theorem leavesForm_onBoth {s : State} {n count : Nat} {on : Dev → Bool} {f : Dev → List Host.Cell → Dev × List Host.Cell}
    (hm : s.memOk) (h : Memory.wf (f s.dev s.mem).2 = true) : LeavesForm (onBoth s n count on f) := by
  refine (leavesForm_onDram ?_).ite (leavesForm_refused _) _
  split
  · exact h
  · exact hm

theorem Acts.leavesForm {P : (Dev → Dev) → Prop} {c : Instr} {s : State} (h : Acts P c s) (hm : s.memOk) : LeavesForm (exec c s) := by
  intro t ht
  unfold State.memOk
  rw [h.mem ht]
  exact hm

/-- Every command leaves DRAM in its canonical form. -/
theorem exec_leavesForm (c : Instr) {s : State} (hm : s.memOk) : LeavesForm (exec c s) := by
  have hacts := exec_acts c s
  cases c
  case dramTrainingStep => exact (leavesForm_onDram (wf_training _ _ _ _ hm)).ite (leavesForm_refused _) _
  case dramRead => exact (leavesForm_onDram (wf_readLine _ _ _ _ _ _ _ hm)).ite (leavesForm_fault _) _
  case dramWrite => exact (leavesForm_onDram (wf_writeLine _ _ _ _ hm)).ite (leavesForm_fault _) _
  case scrubRead c addr err retry mirror =>
    refine ((leavesForm_onDram ?_).ite (leavesForm_fault _) _).ite (leavesForm_refused _) _
    split
    · exact wf_scrub _ _ _ _ _ _ hm
    · exact hm
  case remirrorCopy handle => exact leavesForm_onDram (f := fun d m => d.remirror m handle) (wf_remirror _ _ hm)
  case decodePictureComplete => exact leavesForm_onBoth hm (wf_decComplete _ _ _ _ hm)
  case composerItemComplete => exact leavesForm_onBoth hm (wf_composerDone _ _ _ _ hm)
  all_goals exact hacts.leavesForm hm

/-- Settles O3: an idle step leaves DRAM, and every command keeps its form. -/
theorem memoryStaysCanonical : Obligations.MemoryStaysCanonical := by
  intro s t hm ht
  unfold step at ht
  split at ht
  next =>
    obtain rfl := Host.Outcome.next.inj ht
    exact hm
  next c rest hpending => exact exec_leavesForm c (s := { s with pending := rest }) hm t ht

end Sys2Proof.Machine
end

section
/-! PROOFS. The photo finish: what its latch takes and leaves (R466 to R472), the armed edge (O59), and fault injection (O60). -/

namespace Sys2Proof.Machine

/-! ### Writes of numbers of any width -/

theorem decode_spell_u {k : Key} {b n : Nat} (ht : k.o.row.ty = .u (8 * b)) (hn : n < 2 ^ (8 * b)) :
    k.decode (k.spell n) = .ok (.num n) := by
  have hb : k.bits = 8 * b := bits_of_u ht
  have hspell : k.spell n = natToOctets b n := by
    rw [Key.spell, hb, if_pos hn, Nat.mul_div_cancel_left b (by decide)]
  have hval : Octets.toNat (natToOctets b n) = n := by
    have h256 : (256 : Nat) ^ b = 2 ^ (8 * b) := by rw [Nat.pow_mul]
    rw [octets_toNat_natToOctets, h256]
    exact Nat.mod_eq_of_lt hn
  simp only [Key.decode, ht, hspell, natToOctets_length, hval, hb, Nat.mul_div_cancel_left b (by decide : 0 < 8), if_true]

/-- A write of a number that its object's width holds comes to its effect. -/
theorem writeNum_u {d : Dev} {src : Src} {k : Key} {b n : Nat} (ht : k.o.row.ty = .u (8 * b)) (hn : n < 2 ^ (8 * b))
    (hm : k.mayWrite src = .ok ()) (hw : wrappedKey k.o = false)
    (hr : k.o.row.range.check (.num n) = .ok (.num n)) (hf : k.form (.num n) = .ok ())
    (hi : (!decide (k.o.row.acc = .rwi) || d.ownerIdle k) = true) (hp : k.pdo = none) (hs : k.staged src = false)
    (hl : (decide (k.o.row.acc = .rws) || (d.lookWith k (k.kept (.num n))).related k) = true) :
    d.writeNum src k n = answerWrite src k (d.effect src k (.num n)) := by
  unfold Dev.writeNum
  rw [writeKey_effect hm hw (decode_spell_u ht hn) hr hf hi hp hs hl]

/-- A row that is a write leaves what its answer leaves, closed. -/
theorem onWrite_answers {s : State} {src : Src} {o : Obj} {u count n : Nat} {r : Res} {P : State → Prop} (hu : u < count)
    (hr : s.dev.reaches src = true) (hw : s.dev.writeNum src { o := o, u := u } n = answerWrite src { o := o, u := u } r)
    (hP : P { s with dev := (answerWrite src { o := o, u := u } r).settle }) : ∃ t, onWrite s src o u count n = .next t ∧ P t := by
  have hnext := onWrite_heard (o := o) (n := n) hu hr
  rw [hw] at hnext
  exact ⟨_, hnext, hP⟩

/-- A row of no unit that acts while the packet engine runs leaves what its operation leaves, closed. -/
theorem onDev_engine_closes {s : State} {f : Dev → Dev} {P : State → Prop} (hr : s.dev.gen.running = true)
    (hP : P { s with dev := (f s.dev).settle }) : ∃ t, onDev s (fun d => d.engine f) = .next t ∧ P t := by
  have hruns : s.dev.engine f = f s.dev := if_pos hr
  have hnext : onDev s (fun d => d.engine f) = .next { s with dev := (s.dev.engine f).settle } := rfl
  rw [hruns] at hnext
  exact ⟨_, hnext, hP⟩

/-! ### The parts of the snapshot (R471, R472) -/

/-- The objects of the snapshot's head hold in `e` what they held in `d`. -/
def keepsHead (d e : Dev) : Prop := ∀ o u k, o.row.base = 0x6800 → e.get o u k = d.get o u k

theorem keepsHead.refl (d : Dev) : keepsHead d d := fun _ _ _ _ => rfl

theorem keepsHead.put {d e : Dev} (h : keepsHead d e) {o : Obj} (ho : o.row.base ≠ 0x6800) (u k : Nat) (v : Val) :
    keepsHead d (e.put o u k v) := by
  intro o' u' k' ho'
  refine (Dev.get_put_other _ _ ?_).trans (h o' u' k' ho')
  rintro ⟨rfl, _⟩
  exact ho ho'

theorem keepsHead.lose {d e : Dev} (h : keepsHead d e) {mine : Key → Bool} (hm : ∀ k, mine k = true → k.o.row.base ≠ 0x6800) :
    keepsHead d (e.loseL mine) := by
  intro o u k ho
  refine Eq.trans ?_ (h o u k ho)
  unfold Dev.get Dev.loseL
  refine tget_filter _ _ _ (fun v => ?_) _
  have hmine : mine ⟨o, u, k⟩ = false := Bool.eq_false_iff.mpr fun hk => hm _ hk ho
  simp [hmine]

theorem keepsHead_snapRegion {d e : Dev} (h : keepsHead d e) (g : Nat) : keepsHead d (e.snapRegion g) := by
  unfold Dev.snapRegion
  split
  · refine h.lose fun k hk => ?_
    simp only [Bool.and_eq_true, decide_eq_true_eq] at hk
    omega
  · exact (((h.put (o := .SR_VALID) (by decide) _ _ _).put (o := .SR_CONTEXTS) (by decide) _ _ _).put
      (o := .SR_COMPOSER) (by decide) _ _ _).put (o := .SR_RAILS) (by decide) _ _ _

theorem keepsHead_snapBlock {d e : Dev} (h : keepsHead d e) (b : Nat) : keepsHead d (e.snapBlock b) := by
  unfold Dev.snapBlock
  extract_lets st x step items held d1 d2 d3
  split
  · refine keepsHead.put (o := .SB_FLAGS) (h.lose fun k hk => ?_) (by decide) _ _ _
    simp only [Bool.and_eq_true, decide_eq_true_eq] at hk
    omega
  · have h1 : keepsHead d d1 := (h.put (o := .SB_FLAGS) (by decide) _ _ _).put (o := .SB_CYCLE) (by decide) _ _ _
    have h2 : keepsHead d d2 := h1.put (o := .SB_READY) (by decide) _ _ _
    have h3 : keepsHead d d3 := ((h2.put (o := .SB_REORDER) (by decide) _ _ _).put (o := .SB_OVERRUNS) (by decide) _ _ _).put
      (o := .SB_DEFERRED) (by decide) _ _ _
    exact foldl_keeps (P := keepsHead d) (fun s _ hs => hs.put (by decide) _ _ _) _ h3

/-! ### The latch (R466, R469, R470) -/

/-- What a device shows depends on the objects that chain its time bases, and on the bases (R40). -/
theorem now_of_chain {d e : Dev} (h : ∀ o ∈ [Obj.TB_MODE, .TB_SOURCE, .TB_FOLLOW_OFFSET], ∀ u k, e.get o u k = d.get o u k)
    (ht : e.tb = d.tb) (n : Nat) : e.now n = d.now n := by
  have hroot : ∀ fuel n, e.rootOf fuel n = d.rootOf fuel n := by
    intro fuel
    induction fuel with
    | zero => exact fun n => rfl
    | succ f ih =>
      intro n
      simp only [Dev.rootOf, ih, Dev.nat_eq_of_get (h .TB_MODE (by decide) _ _), Dev.nat_eq_of_get (h .TB_SOURCE (by decide) _ _),
        Dev.int_eq_of_get (h .TB_FOLLOW_OFFSET (by decide) _ _)]
  simp only [Dev.now, hroot, Dev.tbOf, ht]

theorem Within.now {os : List Obj} {d e : Dev} (h : Within os d e) (ht : e.tb = d.tb)
    (ho : ∀ o ∈ [Obj.TB_MODE, .TB_SOURCE, .TB_FOLLOW_OFFSET], o ∉ os) (n : Nat) : e.now n = d.now n :=
  now_of_chain (fun o hmem u k => h.obj o u k (ho o hmem)) ht n

/-- `e` is `d` after a trigger of one cause: latched with the stride and the time, or counted as dropped where it was latched. -/
def Dev.snaps (d e : Dev) (cause : Nat) : Prop :=
  if d.nat .SNAP_STATE = 2 then
    e.nat .SNAP_STATE = 2 ∧ e.nat .SNAP_DROPPED = (d.nat .SNAP_DROPPED + 1) % 2 ^ 32 ∧ e.nat .SNAP_SEQ = d.nat .SNAP_SEQ ∧ e.pins = d.pins
  else
    e.nat .SNAP_STATE = 2 ∧ e.nat .SNAP_SEQ = (d.nat .SNAP_SEQ + 1) % 2 ^ 32 ∧ e.nat .SNAP_CAUSE = cause ∧
      e.nat .SNAP_STRIDE = d.nat .STRIDE_COUNT ∧ e.nat .SNAP_TIME = d.now 0 ∧ e.pins.snapOut = .high ∧
      e.nat .SNAP_DROPPED = d.nat .SNAP_DROPPED

/-- A trigger where the photo finish is latched is counted alone. -/
theorem snapLatch_drops {d : Dev} {c : Nat × Nat} (ht : d.trig = [c]) (h : d.nat .SNAP_STATE = 2) :
    d.snapLatch = { d with trig := [] }.bump .SNAP_DROPPED := by
  unfold Dev.snapLatch
  rw [ht]
  exact (if_neg (List.cons_ne_nil _ _)).trans (if_pos h)

/-- The head of the snapshot: its state, number and cause, the stride and the time. -/
def Dev.snapHead (d : Dev) (cause record : Nat) : Dev :=
  let e := ((d.setN .SNAP_STATE 0 2).bump .SNAP_SEQ).setN .SNAP_CAUSE 0 cause
  (((e.setN .SNAP_TIME 0 (e.now 0)).setN .SNAP_TIME_STB 0 (e.now e.stb)).setN .SNAP_STRIDE 0 e.stride).setN .SNAP_RECORD_SEQ 0 record

/-- Where none is latched, one cause latches the head, and what else is taken leaves it. -/
theorem snapLatch_latches {d : Dev} {c : Nat} (ht : d.trig = [(c, 0)]) (h : d.nat .SNAP_STATE ≠ 2) :
    ∃ record, keepsHead ({ d with trig := [] }.snapHead (2 ^ c) record) d.snapLatch ∧ d.snapLatch.pins.snapOut = .high := by
  unfold Dev.snapLatch
  extract_lets causes d0 cause record d1 d2 d3 d4 d5 d6 d7
  have hcauses : causes = [(c, 0)] := ht
  clear_value causes
  subst hcauses
  have hcause : cause = 2 ^ c := by simp [cause, List.eraseDups_cons]
  have hlatches : ¬d0.nat .SNAP_STATE = 2 := h
  rw [if_neg (List.cons_ne_nil _ _), if_neg hlatches]
  refine ⟨record, fun o u k ho => ?_, rfl⟩
  have h3 : keepsHead (d0.snapHead cause record) d3 := (keepsHead.refl (d0.snapHead cause record)).put
    (o := .SNAP_P1) (by decide) _ _ _
  have h4 : keepsHead (d0.snapHead cause record) d4 := (h3.put (o := .SNAP_EGRESS_BYTES) (by decide) _ _ _).put
    (o := .SNAP_DICT_QUEUE) (by decide) _ _ _
  have h5 : keepsHead (d0.snapHead cause record) d5 := foldl_keeps (P := keepsHead (d0.snapHead cause record))
    (fun s p hs => hs.put (by decide) _ _ _) (List.range 6) h4
  have h6 : keepsHead (d0.snapHead cause record) d6 := foldl_keeps (P := keepsHead (d0.snapHead cause record))
    (fun s g hs => keepsHead_snapRegion hs g) (List.range 4) h5
  have h7 : keepsHead (d0.snapHead cause record) d7 := foldl_keeps (P := keepsHead (d0.snapHead cause record))
    (fun s b hs => keepsHead_snapBlock hs b) (List.range 64) h6
  clear_value d7
  rw [← hcause]
  exact h7 o u k ho

theorem snapHead_nat (d : Dev) (cause record : Nat) : let e := d.snapHead cause record
    e.nat .SNAP_STATE = 2 ∧ e.nat .SNAP_SEQ = (d.nat .SNAP_SEQ + 1) % 2 ^ 32 ∧ e.nat .SNAP_CAUSE = cause ∧
      e.nat .SNAP_STRIDE = d.nat .STRIDE_COUNT ∧ e.nat .SNAP_TIME = d.now 0 ∧ e.nat .SNAP_DROPPED = d.nat .SNAP_DROPPED := by
  have hbits : Obj.SNAP_SEQ.row.ty.bits = 32 := rfl
  have hnow : (((d.setN .SNAP_STATE 0 2).bump .SNAP_SEQ).setN .SNAP_CAUSE 0 cause).now 0 = d.now 0 :=
    Within.now ((((Within.refl [.SNAP_STATE, .SNAP_SEQ, .SNAP_CAUSE] d).put (o := .SNAP_STATE) (by decide) _ _ _).put
      (o := .SNAP_SEQ) (by decide) _ _ _).put (o := .SNAP_CAUSE) (by decide) _ _ _) rfl (by decide) 0
  simp [Dev.snapHead, Dev.setN_eq, Dev.stride, hbits, ← hnow]

theorem snapLatch_snaps {d : Dev} {c : Nat} (ht : d.trig = [(c, 0)]) : d.snaps d.snapLatch (2 ^ c) := by
  have hbits : Obj.SNAP_DROPPED.row.ty.bits = 32 := rfl
  unfold Dev.snaps
  split
  next h =>
    rw [snapLatch_drops ht h]
    refine ⟨?_, ?_, ?_, rfl⟩
    · rw [Dev.nat_bump, if_neg (by decide)]
      exact h
    · rw [Dev.nat_bump, if_pos (by decide), hbits]
      rfl
    · rw [Dev.nat_bump, if_neg (by decide)]
      rfl
  next h =>
    obtain ⟨record, hkeeps, hpin⟩ := snapLatch_latches ht h
    obtain ⟨hstate, hseq, hcause, hstride, htime, hdropped⟩ := snapHead_nat { d with trig := [] } (2 ^ c) record
    exact ⟨(Dev.nat_eq_of_get (hkeeps _ 0 0 rfl)).trans hstate, (Dev.nat_eq_of_get (hkeeps _ 0 0 rfl)).trans hseq,
      (Dev.nat_eq_of_get (hkeeps _ 0 0 rfl)).trans hcause, (Dev.nat_eq_of_get (hkeeps _ 0 0 rfl)).trans hstride,
      ((Dev.nat_eq_of_get (hkeeps _ 0 0 rfl)).trans htime).trans (now_of_dict_tb rfl rfl 0), hpin,
      (Dev.nat_eq_of_get (hkeeps _ 0 0 rfl)).trans hdropped⟩

/-! ### Triggers -/

/-- What the photo finish reads of a device when it latches. -/
def snapReads : List Obj :=
  [.SNAP_STATE, .SNAP_DROPPED, .SNAP_SEQ, .STRIDE_COUNT, .TB_MODE, .TB_SOURCE, .TB_FOLLOW_OFFSET]

/-- A device that shows the photo finish the same as another is latched as the other is. -/
theorem Dev.snaps.of_keeps {d d' e : Dev} {cause : Nat} {os : List Obj} (h : d'.snaps e cause) (hk : keepsBut d d' os)
    (hos : ∀ o ∈ snapReads, o ∉ os) (htb : d'.tb = d.tb) (hpins : d'.pins = d.pins) : d.snaps e cause := by
  have hnow : d'.now 0 = d.now 0 :=
    now_of_chain (fun o ho u k => hk o u k (hos o (List.mem_of_mem_drop (i := 4) ho))) htb 0
  unfold Dev.snaps at h ⊢
  rwa [Dev.nat_eq_of_get (hk .SNAP_STATE 0 0 (hos _ (by decide))), Dev.nat_eq_of_get (hk .SNAP_DROPPED 0 0 (hos _ (by decide))),
    Dev.nat_eq_of_get (hk .SNAP_SEQ 0 0 (hos _ (by decide))), Dev.nat_eq_of_get (hk .STRIDE_COUNT 0 0 (hos _ (by decide))), hnow,
    hpins] at h

theorem settleRecs_of_none {d : Dev} (h : d.faults.cycle = []) : d.settleRecs = d := by
  unfold Dev.settleRecs
  rw [h]
  exact congrArg (fun c => ({ d with faults := { d.faults with cycle := c } } : Dev)) h.symm

/-- The close of a command that logged nothing is the latch of the photo finish. -/
theorem settle_of_none {d : Dev} (h : d.faults.cycle = []) : d.settle = d.snapLatch :=
  congrArg Dev.snapLatch (settleRecs_of_none h)

/-- The close of a command of a quiet device that met one cause. -/
theorem trigger_settles {d : Dev} (hq : d.quiet) (c : Nat) : d.snaps (d.trigger c).settle (2 ^ c) := by
  obtain ⟨hcycle, htrig⟩ := hq
  have hone : (d.trigger c).trig = [(c, 0)] := by rw [Dev.trigger_trig, htrig]; rfl
  have hsnaps := snapLatch_snaps hone
  rw [← settle_of_none (d := d.trigger c) hcycle] at hsnaps
  exact hsnaps.of_keeps (os := []) (fun _ _ _ _ => rfl) (by decide) rfl rfl

/-- The same of a write that is accepted. -/
theorem trigger_answered {d : Dev} (hq : d.quiet) (src : Src) (k : Key) (c : Nat) :
    d.snaps (answerWrite src k (.ok (d.trigger c))).settle (2 ^ c) :=
  (trigger_settles (d := answerWrite src k (.ok d)) hq c).of_keeps (answerWrite_ok_keeps (os := []) src k fun _ _ _ _ => rfl)
    (by decide) rfl rfl

/-! ### The rows of the photo finish -/

/-- The first part of O60. -/
theorem photoFinishLatchesOnce : Sys2Proof.Claim.PhotoFinishLatchesOnce := by
  intro s hq d latched
  refine ⟨fun src ⟨hreach, hcan⟩ => ?now, fun hrun => ?edge, fun hrun => ?outEnd, fun src ⟨hreach, hcan⟩ => ?release⟩
  case now =>
    have hwrite : d.writeNum src { o := .SNAP_NOW } 1 = answerWrite src { o := .SNAP_NOW } (.ok (d.trigger 3)) :=
      writeNum_SNAP_NOW d 0 hcan
    have hsnaps : d.snaps (answerWrite src { o := .SNAP_NOW } (.ok (d.trigger 3))).settle 8 := trigger_answered hq src _ 3
    exact onWrite_answers Nat.one_pos hreach hwrite ⟨⟨rfl, rfl⟩, hsnaps⟩
  case edge =>
    refine onDev_engine_closes hrun ⟨⟨rfl, rfl⟩, ?_⟩
    unfold Dev.snapIn
    split
    next => exact trigger_settles hq 1
    next => exact settle_of_quiet hq
  case outEnd =>
    refine onDev_engine_closes hrun ⟨⟨rfl, rfl⟩, ?_⟩
    unfold Dev.snapOutEnd
    split
    next => exact settle_of_quiet hq
    next => exact settle_of_quiet hq
  case release =>
    have hwithin : Within [.SNAP_STATE] d (d.setN .SNAP_STATE 0 d.snapRest) := (Within.refl _ d).put (by decide) _ _ _
    have hwrite : d.writeNum src { o := .SNAP_RELEASE } 1 =
        answerWrite src { o := .SNAP_RELEASE } (.ok (d.setN .SNAP_STATE 0 d.snapRest)) := writeNum_SNAP_RELEASE d 0 hcan
    refine onWrite_completes Nat.one_pos hreach hwrite (answerWrite_ok_quiet src _ (hwithin.quiet hq))
      ⟨⟨rfl, rfl⟩, answerWrite_ok_onlyDict src _ ((onlyDict_refl d).put _ _ _ _), ?_, answerWrite_ok_accepted src _ rfl,
        answerWrite_ok_keeps src _ hwithin.obj⟩
    exact (answerWrite_ok_nat src _ _ 0 0 (by decide)).trans (Dev.nat_setN ..)

/-! ### The armed edge (R468) -/

/-- A write of SNAP_EDGE comes to its effect. -/
theorem writeNum_SNAP_EDGE (d : Dev) {src : Src} {n : Nat} (hn : n < 2 ^ 64)
    (h : src = .can → canWritable (Key.index { o := .SNAP_EDGE }) (Key.sub { o := .SNAP_EDGE }) = true) :
    d.writeNum src { o := .SNAP_EDGE } n = answerWrite src { o := .SNAP_EDGE } (d.writeSnapEdge n) :=
  writeNum_u (b := 8) rfl hn (mayWrite_ok h rfl rfl) rfl rfl rfl rfl rfl rfl rfl

theorem writeSnapEdge_ok {d : Dev} {v : Nat} (h : v = 0 ∨ d.nat .STRIDE_COUNT < v) : d.writeSnapEdge v = .ok (d.setN .SNAP_EDGE 0 v) :=
  need_ok (by simp only [Bool.or_eq_true, decide_eq_true_eq]; exact h)

theorem writeSnapEdge_error {d : Dev} {v : Nat} (h : ¬(v = 0 ∨ d.nat .STRIDE_COUNT < v)) : d.writeSnapEdge v = .error (.range, d) :=
  need_error (by simp only [Bool.or_eq_false_iff, decide_eq_false_iff_not]; exact not_or.mp h)

/-- An edge counts its stride, and leaves what is outside the counters. -/
theorem countEdge_spec (d : Dev) : d.countEdge.nat .STRIDE_COUNT = (d.nat .STRIDE_COUNT + 1) % 2 ^ 64 ∧
    Within [.STRIDE_COUNT, .STRIDE_IN_LAP, .STRIDE_OFFSET, .LAP_COUNT] d d.countEdge := by
  obtain ⟨len, _, _, heq⟩ := countEdge_eq d
  rw [heq]
  generalize d.pairing.2 = g, d.gen.edge / 65536 - gridTime d.pairing = offset
  exact ⟨(Dev.nat_eq_of_get (planned_get _ _ _ _ _)).trans (counted_nat d g offset).1,
    (counted_within d g offset).trans (planned_within _ _ len)⟩

/-- The armed edge latches the photo finish where it is the one counted (R467, R468). -/
theorem snapEdge_snaps {d : Dev} (hq : d.quiet) (hsource : d.bitOf .SNAP_SOURCES 0 0 0 = true) (hne : d.nat .SNAP_EDGE ≠ 0)
    (hat : d.nat .SNAP_EDGE = d.nat .STRIDE_COUNT) : d.snaps d.snapEdge 1 := by
  have hflag : d.flag .SNAP_EDGE = true := by
    refine bne_iff_ne.mpr fun h0 => hne ?_
    unfold Dev.nat
    rw [h0]
    rfl
  have hmet : d.snapEdge = (d.settleRecs.trigger 0).snapLatch := if_pos (by simp [hsource, hflag, hat, Dev.stride])
  rw [hmet, settleRecs_of_none hq.1, ← settle_of_none (d := d.trigger 0) hq.1]
  exact trigger_settles hq 0

/-- Settles O59: the write is checked against the stride in hand, and an edge that it names latches when it is counted. -/
theorem snapEdgeArmsALaterEdge : Obligations.SnapEdgeArmsALaterEdge := by
  refine ⟨fun s src edge hlt hq ⟨hreach, hcan⟩ => ?write, fun d hoff => ?disarmed, fun d hq hsource harmed hlt hnext => ?latches⟩
  case write =>
    have hwrite := writeNum_SNAP_EDGE s.dev hlt hcan
    by_cases h : edge = 0 ∨ s.dev.nat .STRIDE_COUNT < edge
    · have hwithin : Within [.SNAP_EDGE] s.dev (s.dev.setN .SNAP_EDGE 0 edge) := (Within.refl _ _).put (by decide) _ _ _
      rw [writeSnapEdge_ok h] at hwrite
      refine onWrite_completes Nat.one_pos hreach hwrite (answerWrite_ok_quiet src _ (hwithin.quiet hq))
        ⟨⟨rfl, rfl⟩, answerWrite_ok_onlyDict src _ ((onlyDict_refl _).put _ _ _ _), (if_pos h).mpr ⟨?_, ?_, ?_⟩⟩
      · exact (answerWrite_ok_nat src _ _ 0 0 (by decide)).trans (Dev.nat_setN ..)
      · exact answerWrite_ok_accepted src _ rfl
      · exact answerWrite_ok_keeps src _ hwithin.obj
    · rw [writeSnapEdge_error h] at hwrite
      obtain ⟨hrefused, hkeeps, honly⟩ := answerWrite_error_spec s.dev src { o := .SNAP_EDGE } .range
      exact onWrite_completes Nat.one_pos hreach hwrite hq ⟨⟨rfl, rfl⟩, honly, (if_neg h).mpr ⟨hrefused, hkeeps⟩⟩
  case disarmed => exact if_neg (by simp [hoff])
  case latches =>
    obtain ⟨hcount, hwithin⟩ := countEdge_spec d
    rw [Nat.mod_eq_of_lt hlt] at hcount
    have hedge : d.countEdge.nat .SNAP_EDGE = d.nat .STRIDE_COUNT + 1 := (hwithin.nat (by decide) 0 0).trans hnext
    have hsnaps := snapEdge_snaps (hwithin.quiet hq) (congrArg (bit · 0) (hwithin.nat (by decide) 0 0) |>.trans hsource)
      (by rw [hedge]; exact Nat.succ_ne_zero _) (hedge.trans hcount.symm)
    have hstate : d.countEdge.nat .SNAP_STATE ≠ 2 := by rwa [hwithin.nat (by decide)]
    unfold Dev.snaps at hsnaps
    rw [if_neg hstate] at hsnaps
    obtain ⟨hlatched, _, hcause, hstride, _, hpin, _⟩ := hsnaps
    exact ⟨hlatched, hcause, hstride.trans hcount, hpin⟩

/-! ### Fault injection (R475) -/

/-- A fault injected into unit `n` of a kind, and counted. -/
def Dev.faultInjected (d : Dev) (kind n : Nat) : Dev :=
  { d with faults := { d.faults with injected := d.faults.injected ++ [kind * 2 ^ 28 + n] } }.bump .INJ_COUNT

theorem writeInj_none {d : Dev} (h : injNumber (d.nat .INJ_TARGET / 2 ^ 28) (d.nat .INJ_TARGET % 65536) = none) :
    d.writeInj = .error (.deviceState, d) := by
  unfold Dev.writeInj
  simp only [h]

theorem writeInj_ok {d : Dev} {n : Nat} (h : injNumber (d.nat .INJ_TARGET / 2 ^ 28) (d.nat .INJ_TARGET % 65536) = some n)
    (hon : d.service ≠ .minimum ∧ d.injectable (d.nat .INJ_TARGET / 2 ^ 28) n = true) :
    d.writeInj = .ok (d.faultInjected (d.nat .INJ_TARGET / 2 ^ 28) n) := by
  unfold Dev.writeInj
  simp only [h]
  exact need_ok (by simpa using hon)

theorem writeInj_error {d : Dev} {n : Nat} (h : injNumber (d.nat .INJ_TARGET / 2 ^ 28) (d.nat .INJ_TARGET % 65536) = some n)
    (hoff : ¬(d.service ≠ .minimum ∧ d.injectable (d.nat .INJ_TARGET / 2 ^ 28) n = true)) : d.writeInj = .error (.deviceState, d) := by
  unfold Dev.writeInj
  simp only [h]
  exact need_error (by simpa using hoff)

/-- The second part of O60. -/
theorem faultsAreInjected : Sys2Proof.Claim.FaultsAreInjected := by
  intro s src hq ⟨hreach, hcan⟩
  have hwrite : s.dev.writeNum src { o := .INJ_CMD } 1 = answerWrite src { o := .INJ_CMD } s.dev.writeInj :=
    writeNum_INJ_CMD s.dev 0 hcan
  have hrefused := answerWrite_error_spec s.dev src { o := .INJ_CMD } .deviceState
  obtain ⟨hrefused, hkeeps, honly⟩ := hrefused
  cases hnumber : injNumber (s.dev.nat .INJ_TARGET / 2 ^ 28) (s.dev.nat .INJ_TARGET % 65536) with
  | none =>
    rw [writeInj_none hnumber] at hwrite
    refine onWrite_completes Nat.one_pos hreach hwrite hq ⟨⟨rfl, rfl⟩, ?_⟩
    dsimp only
    rw [hnumber]
    exact ⟨hrefused, honly, hkeeps⟩
  | some n =>
    by_cases hon : s.dev.service ≠ .minimum ∧ s.dev.injectable (s.dev.nat .INJ_TARGET / 2 ^ 28) n = true
    · rw [writeInj_ok hnumber hon] at hwrite
      refine onWrite_completes Nat.one_pos hreach hwrite hq ⟨⟨rfl, rfl⟩, ?_⟩
      dsimp only
      rw [hnumber]
      dsimp only
      rw [if_pos hon]
      have hkeeps : keepsBut s.dev (s.dev.faultInjected (s.dev.nat .INJ_TARGET / 2 ^ 28) n) [.INJ_COUNT] := fun o u k ho =>
        Dev.get_put_other _ _ fun h => ho (List.mem_singleton.mpr h.1)
      refine ⟨rfl, ?_, answerWrite_ok_accepted src _ rfl, answerWrite_ok_keeps src _ hkeeps⟩
      refine (answerWrite_ok_nat src _ _ 0 0 (by decide)).trans ?_
      exact (Dev.nat_bump ..).trans (if_pos (by decide))
    · rw [writeInj_error hnumber hon] at hwrite
      refine onWrite_completes Nat.one_pos hreach hwrite hq ⟨⟨rfl, rfl⟩, ?_⟩
      dsimp only
      rw [hnumber]
      dsimp only
      rw [if_neg hon]
      exact ⟨hrefused, honly, hkeeps⟩

/-- Settles O60: triggers latch or are dropped, and injections wait in their list. -/
theorem photoFinishAndInjection : Obligations.PhotoFinishAndInjection := ⟨photoFinishLatchesOnce, faultsAreInjected⟩

end Sys2Proof.Machine
end

section
/-! PROOFS. Writes of octets, owner slots and attestation (O58). -/

namespace Sys2Proof.Machine

/-! ### Writes of octets -/

theorem decode_octets {k : Key} {ls : List Nat} {b : Octets} (ht : k.o.row.ty = .octets ls) (hb : ls.contains b.length = true) :
    k.decode b = .ok (.bytes b) := by
  rw [Key.decode, ht]
  exact if_pos hb

/-- A write of octets of a length that their object takes comes to its effect. -/
theorem writeBytes_octets {d : Dev} {src : Src} {k : Key} {ls : List Nat} {b : Octets} (ht : k.o.row.ty = .octets ls)
    (hb : ls.contains b.length = true) (hm : k.mayWrite src = .ok ()) (hw : wrappedKey k.o = false) (hf : k.form (.bytes b) = .ok ())
    (hi : (!decide (k.o.row.acc = .rwi) || d.ownerIdle k) = true) (hp : k.pdo = none) (hs : k.staged src = false)
    (hl : (decide (k.o.row.acc = .rws) || (d.lookWith k (k.kept (.bytes b))).related k) = true) :
    d.writeBytes src k b = answerWrite src k (d.effect src k (.bytes b)) := by
  unfold Dev.writeBytes
  rw [writeKey_effect hm hw (decode_octets ht hb) rfl hf hi hp hs hl]

/-! ### Answers -/

/-- A row that is an access leaves what its operation leaves, closed. -/
theorem access_closes {s : State} {src : Src} {n count : Nat} {f : Dev → Dev} {e : Dev} {P : State → Prop} (hn : n < count)
    (hr : s.dev.reaches src = true) (he : f s.dev = e) (hP : P { s with dev := e.settle }) :
    ∃ t, onUnit s n count (fun d => d.access src f) = .next t ∧ P t := by
  have hnext : onUnit s n count (fun d => d.access src f) = .next { s with dev := (s.dev.access src f).settle } := if_pos hn
  have haccess : s.dev.access src f = e := (if_pos hr).trans he
  rw [haccess] at hnext
  exact ⟨_, hnext, hP⟩

/-- A row of no unit leaves what its operation leaves, where that is nothing to close. -/
theorem onDev_completes {s : State} {f : Dev → Dev} {e : Dev} {P : State → Prop} (he : f s.dev = e) (hq : e.quiet)
    (hP : P { s with dev := e }) : ∃ t, onDev s f = .next t ∧ P t := onUnit_completes (n := 0) (count := 1) Nat.one_pos he hq hP

/-- A refusal of a write is its answer, and one more abort counted (R67). -/
theorem answerWrite_refuses (d : Dev) (src : Src) (k : Key) (a : Abort) : let e := answerWrite src k (.error (a, d))
    e.refusedBy d src k a ∧ onlyDict d e ∧ keepsBut d e [.DICT_ABORTS] := by
  obtain ⟨hrefused, hkeeps, honly⟩ := answerWrite_error_spec d src k a
  exact ⟨hrefused, honly, hkeeps⟩

/-- An accepted write is counted (R67). -/
theorem answerWrite_ok_counted (src : Src) (k : Key) (e : Dev) :
    (answerWrite src k (.ok e)).nat .DICT_WRITES = (e.nat .DICT_WRITES + 1) % 2 ^ 32 :=
  (Dev.nat_bump ..).trans (if_pos (by decide))

/-- CAN writes no object outside its windows (R14). -/
theorem Dev.hears.not_can {d : Dev} {src : Src} {k : Key} (h : d.hears src k) (hk : canWritable k.index k.sub = false) : src ≠ .can := by
  intro hcan
  exact absurd (h.2 hcan) (by simp [hk])

/-! ### Owner slots (R461) -/

theorem writeBytes_OWNER_PROGRAM (d : Dev) {src : Src} {slot : Nat} {digest : Octets} (hlen : digest.length = 32)
    (h : src = .can → canWritable (Key.index { o := .OWNER_PROGRAM }) (Key.sub { o := .OWNER_PROGRAM }) = true) :
    d.writeBytes src { o := .OWNER_PROGRAM } (slot :: digest) =
      answerWrite src { o := .OWNER_PROGRAM } (d.writeOwner src slot digest) :=
  writeBytes_octets (ls := [33]) rfl (by simp [hlen]) (mayWrite_ok h rfl rfl) rfl rfl rfl rfl rfl rfl

theorem writeNum_OWNER_REVOKE (d : Dev) {src : Src} {slot : Nat} (hslot : slot < 256)
    (h : src = .can → canWritable (Key.index { o := .OWNER_REVOKE }) (Key.sub { o := .OWNER_REVOKE }) = true) :
    d.writeNum src { o := .OWNER_REVOKE } slot = answerWrite src { o := .OWNER_REVOKE } (d.writeRevoke src slot) :=
  writeNum_byte hslot rfl (mayWrite_ok h rfl rfl) rfl rfl rfl rfl rfl rfl rfl

/-- A slot that this power cycle fuses with a digest. -/
def Dev.ownerFuses (d : Dev) (s : Nat) (digest : Octets) : Dev :=
  { d with sec := { d.sec with ownerNext := tset s digest d.sec.ownerNext } }.ownerLog s false

/-- A slot that this power cycle revokes. -/
def Dev.ownerRevokes (d : Dev) (s : Nat) : Dev :=
  { d with sec := { d.sec with ownerRevokeNext := withBit d.sec.ownerRevokeNext s true } }.ownerLog s true

theorem writeOwner_range {d : Dev} {src : Src} {s : Nat} {digest : Octets} (hsrc : src ≠ .can) (hs : 4 ≤ s) :
    d.writeOwner src s digest = .error (.range, d) := by
  unfold Dev.writeOwner
  rw [need_ok (decide_eq_true hsrc)]
  exact need_error (decide_eq_false (Nat.not_lt.mpr hs))

theorem writeOwner_fused {d : Dev} {src : Src} {s : Nat} {digest : Octets} (hsrc : src ≠ .can) (hs : s < 4) (hf : d.ownerFused s = true) :
    d.writeOwner src s digest = .error (.deviceState, d) := by
  unfold Dev.writeOwner
  rw [need_ok (decide_eq_true hsrc), need_ok (decide_eq_true hs)]
  exact need_error (by simp [hf])

theorem writeOwner_fuses {d : Dev} {src : Src} {s : Nat} {digest : Octets} (hsrc : src ≠ .can) (hs : s < 4)
    (hf : ¬d.ownerFused s = true) : d.writeOwner src s digest = .ok (d.ownerFuses s digest) := by
  unfold Dev.writeOwner
  rw [need_ok (decide_eq_true hsrc), need_ok (decide_eq_true hs)]
  exact need_ok (by simpa using hf)

/-- Slot `s` is the only one that is fused and not revoked. -/
def Dev.lastOwner (d : Dev) (s : Nat) : Prop :=
  (d.ownerFused s && !d.ownerRevoked s) = true ∧ ∀ i ∈ List.range 4, i ≠ s → (d.ownerFused i && !d.ownerRevoked i) = false

theorem filter_eq_singleton_iff {α : Type} [DecidableEq α] {p : α → Bool} {a : α} {l : List α} (hl : l.Nodup) (ha : a ∈ l) :
    l.filter p = [a] ↔ p a = true ∧ ∀ x ∈ l, x ≠ a → p x = false := by
  constructor
  · intro h
    have hmem : ∀ x, x ∈ l ∧ p x = true ↔ x = a := fun x => by rw [← List.mem_filter, h, List.mem_singleton]
    exact ⟨((hmem a).mpr rfl).2, fun x hx hne => Bool.eq_false_iff.mpr fun hp => hne ((hmem x).mp ⟨hx, hp⟩)⟩
  · rintro ⟨hp, hothers⟩
    have hsame : ∀ x ∈ l, p x = (x == a) := by
      intro x hx
      by_cases hxa : x = a
      · simp [hxa, hp]
      · simp [hxa, hothers x hx hxa]
    rw [List.filter_congr hsame, List.filter_beq, List.count_eq_one_of_mem hl ha]
    rfl

theorem lastOwner_iff {d : Dev} {s : Nat} (hs : s < 4) :
    ((List.range 4).filter fun i => d.ownerFused i && !d.ownerRevoked i) = [s] ↔ d.lastOwner s :=
  filter_eq_singleton_iff List.nodup_range (List.mem_range.mpr hs)

theorem writeRevoke_range {d : Dev} {src : Src} {s : Nat} (hsrc : src ≠ .can) (hs : 4 ≤ s) :
    d.writeRevoke src s = .error (.range, d) := by
  unfold Dev.writeRevoke
  rw [need_ok (decide_eq_true hsrc)]
  exact need_error (decide_eq_false (Nat.not_lt.mpr hs))

theorem writeRevoke_kept {d : Dev} {src : Src} {s : Nat} (hsrc : src ≠ .can) (hs : s < 4)
    (hkept : d.nat .OWNER_BOOT_SLOT = s ∨ d.lastOwner s) : d.writeRevoke src s = .error (.deviceState, d) := by
  unfold Dev.writeRevoke
  rw [need_ok (decide_eq_true hsrc), need_ok (decide_eq_true hs)]
  by_cases hboot : d.nat .OWNER_BOOT_SLOT = s
  · exact need_error (decide_eq_false (not_not_intro hboot))
  · rw [need_ok (decide_eq_true hboot)]
    exact need_error (decide_eq_false (not_not_intro ((lastOwner_iff hs).mpr (hkept.resolve_left hboot))))

theorem writeRevoke_revokes {d : Dev} {src : Src} {s : Nat} (hsrc : src ≠ .can) (hs : s < 4)
    (hfree : ¬(d.nat .OWNER_BOOT_SLOT = s ∨ d.lastOwner s)) : d.writeRevoke src s = .ok (d.ownerRevokes s) := by
  obtain ⟨hboot, hother⟩ := not_or.mp hfree
  unfold Dev.writeRevoke
  rw [need_ok (decide_eq_true hsrc), need_ok (decide_eq_true hs), need_ok (decide_eq_true hboot)]
  exact need_ok (decide_eq_true ((lastOwner_iff hs).not.mpr hother))

/-! ### Attestation (R462, R463) -/

theorem within_sec (os : List Obj) (d : Dev) (x : Sec) : Within os d { d with sec := x } := (Within.refl _ _).parts rfl rfl rfl rfl

/-- A report that is asked for, with the nonce in force. -/
def Dev.attestAsks (d : Dev) : Dev :=
  ({ d with sec := { d.sec with attestNonce := d.bytes .ATTEST_NONCE, attestFields := none, attestAsked := true } }.setN
    .ATTEST_STATE 0 1).put .ATTEST_REPORT 0 0 (.bytes [])

theorem attestStart_asks {d : Dev} (h : d.nat .ATTEST_STATE ≠ 1) : d.attestStart = .ok d.attestAsks := need_ok (decide_eq_true h)

theorem attestStart_waits {d : Dev} (h : d.nat .ATTEST_STATE = 1) : d.attestStart = .error (.deviceState, d) :=
  need_error (decide_eq_false (not_not_intro h))

theorem within_attestAsks (d : Dev) : Within [.ATTEST_STATE, .ATTEST_REPORT] d d.attestAsks :=
  ((within_sec [.ATTEST_STATE, .ATTEST_REPORT] d _).put (o := .ATTEST_STATE) (by decide) _ _ _).put (o := .ATTEST_REPORT) (by decide) _ _ _

/-- A report that is signed over fields `f`. -/
def Dev.attested (d : Dev) (f : Octets) : Dev :=
  ((d.draw.2.setN .ATTEST_STATE 0 2).put .ATTEST_REPORT 0 0 (.bytes (f ++ Config.identitySign (Config.freeValue d.free) f))).bump
    .ATTEST_COUNT

theorem within_attested (d : Dev) (f : Octets) : Within [.ATTEST_STATE, .ATTEST_REPORT, .ATTEST_COUNT] d (d.attested f) :=
  ((((Within.refl _ d).parts (f := d.draw.2) rfl rfl rfl rfl).put (o := .ATTEST_STATE) (by decide) _ _ _).put
    (o := .ATTEST_REPORT) (by decide) _ _ _).put (o := .ATTEST_COUNT) (by decide) _ _ _

theorem attestReady_cases (d : Dev) : d.attestReady = d ∨ ∃ f, d.sec.attestFields = some f ∧ d.attestReady = d.attested f := by
  unfold Dev.attestReady
  split
  next => exact .inl rfl
  next f hf =>
    split
    next => exact .inr ⟨f, hf, rfl⟩
    next => exact .inl rfl

theorem attestReady_signs {d : Dev} {f : Octets} (hf : d.sec.attestFields = some f) (h : d.nat .ATTEST_STATE = 1) :
    d.attestReady = d.attested f := by
  unfold Dev.attestReady
  rw [hf]
  exact if_pos h

/-! ### The rows -/

/-- Settles O58: each row follows the checks of its write, and a report is signed over the fields that were taken. -/
theorem ownersAndReports : Obligations.OwnersAndReports := by
  intro s src hq d refused live
  refine ⟨fun slot digest hslot hlen hh => ?program, fun slot hslot hh => ?revoke, fun ⟨hreach, hcan⟩ => ?ask, fun hrel => ?ready⟩
  case program =>
    have hsrc := hh.not_can rfl
    have hwrite := writeBytes_OWNER_PROGRAM d (slot := slot) hlen hh.2
    by_cases h4 : 4 ≤ slot
    · rw [writeOwner_range hsrc h4] at hwrite
      exact access_completes hslot hh.1 hwrite hq ⟨⟨rfl, rfl⟩, (if_pos h4).mpr (answerWrite_refuses d src _ _)⟩
    by_cases hf : d.ownerFused slot = true
    · rw [writeOwner_fused hsrc (Nat.not_le.mp h4) hf] at hwrite
      exact access_completes hslot hh.1 hwrite hq
        ⟨⟨rfl, rfl⟩, (if_neg h4).mpr ((if_pos hf).mpr (answerWrite_refuses d src _ _))⟩
    · rw [writeOwner_fuses hsrc (Nat.not_le.mp h4) hf] at hwrite
      refine access_closes hslot hh.1 hwrite ⟨⟨rfl, rfl⟩, (if_neg h4).mpr ((if_neg hf).mpr ⟨settle_sec _, ?_⟩)⟩
      exact (settle_nat _ (by decide) 0 0).trans (answerWrite_ok_counted src _ _)
  case revoke =>
    have hsrc := hh.not_can rfl
    have hwrite := writeNum_OWNER_REVOKE d hslot hh.2
    by_cases h4 : 4 ≤ slot
    · rw [writeRevoke_range hsrc h4] at hwrite
      exact onWrite_completes Nat.one_pos hh.1 hwrite hq ⟨⟨rfl, rfl⟩, (if_pos h4).mpr (answerWrite_refuses d src _ _)⟩
    by_cases hkept : d.nat .OWNER_BOOT_SLOT = slot ∨ d.lastOwner slot
    · rw [writeRevoke_kept hsrc (Nat.not_le.mp h4) hkept] at hwrite
      exact onWrite_completes Nat.one_pos hh.1 hwrite hq
        ⟨⟨rfl, rfl⟩, (if_neg h4).mpr ((if_pos hkept).mpr (answerWrite_refuses d src _ _))⟩
    · rw [writeRevoke_revokes hsrc (Nat.not_le.mp h4) hkept] at hwrite
      refine onWrite_answers Nat.one_pos hh.1 hwrite ⟨⟨rfl, rfl⟩, (if_neg h4).mpr ((if_neg hkept).mpr ⟨settle_sec _, ?_⟩)⟩
      exact (settle_nat _ (by decide) 0 0).trans (answerWrite_ok_counted src _ _)
  case ask =>
    have hwrite : d.writeNum src { o := .ATTEST_CMD } 1 = answerWrite src { o := .ATTEST_CMD } d.attestStart :=
      writeNum_ATTEST_CMD d 0 hcan
    by_cases hasked : d.nat .ATTEST_STATE = 1
    · rw [attestStart_waits hasked] at hwrite
      exact onWrite_completes Nat.one_pos hreach hwrite hq ⟨⟨rfl, rfl⟩, (if_pos hasked).mpr (answerWrite_refuses d src _ _)⟩
    · rw [attestStart_asks hasked] at hwrite
      have hw := within_attestAsks d
      refine onWrite_completes Nat.one_pos hreach hwrite (answerWrite_ok_quiet src _ (hw.quiet hq))
        ⟨⟨rfl, rfl⟩, (if_neg hasked).mpr ⟨rfl, ?_, ?_, answerWrite_ok_accepted src _ hw.out, answerWrite_ok_keeps src _ hw.obj⟩⟩
      · refine (answerWrite_ok_nat src _ _ 0 0 (by decide)).trans ?_
        simp [Dev.attestAsks, Dev.setN_eq]
      · have hkeeps := answerWrite_ok_keeps src { o := .ATTEST_CMD } (e := d.attestAsks) (os := []) fun _ _ _ _ => rfl
        exact congrArg Val.toBytes ((hkeeps .ATTEST_REPORT 0 0 (by decide)).trans (Dev.get_put_same _ _ _ _ _))
  case ready =>
    have hready : s.dev.awake Dev.attestReady = d.attestReady := if_pos hrel
    have hquiet : d.attestReady.quiet := by
      obtain h | ⟨f, _, h⟩ := attestReady_cases d
      · rwa [h]
      · rw [h]
        exact (within_attested d f).quiet hq
    refine onDev_completes hready hquiet ⟨⟨rfl, rfl⟩, fun f hf hstate => ?_⟩
    have hsigned : d.attestReady = d.attested f := attestReady_signs hf hstate
    dsimp only
    rw [hsigned]
    refine ⟨?_, ?_, ?_, (within_attested d f).obj⟩
    · simp [Dev.attested, Dev.setN_eq]
    · simp [Dev.attested, Dev.bytes, Dev.bump_eq]
    · have hbits : Obj.ATTEST_COUNT.row.ty.bits = 32 := rfl
      simp [Dev.attested, Dev.setN_eq, hbits]
      rfl

end Sys2Proof.Machine
end

section
/-! PROOFS. Wrapped keys (O55). -/

namespace Sys2Proof.Machine

/-! ### The unwrap, and writes of wrapped keys (R447) -/

/-- An unwrap that fails leaves the device, or counts its failure. -/
theorem unwrap_error {d e : Dev} {src : Src} {n : Nat} {lengths : List (Nat × Nat)} {wrap : Octets} {a : Abort}
    (h : d.unwrap src n lengths wrap = .error (a, e)) : e = d ∨ e = d.bump .KEY_UNWRAP_FAILS := by
  unfold Dev.unwrap at h
  split at h
  · exact .inl (Prod.mk.inj (Except.error.inj h)).2.symm
  split at h
  · exact .inl (Prod.mk.inj (Except.error.inj h)).2.symm
  split at h
  · exact .inl (Prod.mk.inj (Except.error.inj h)).2.symm
  split at h
  · split at h
    · exact absurd h (by simp)
    · exact .inr (Prod.mk.inj (Except.error.inj h)).2.symm
  · exact .inr (Prod.mk.inj (Except.error.inj h)).2.symm

/-- A wrap of a length that none of the key's wraps has is refused for it. -/
theorem unwrap_length {d : Dev} {src : Src} {n : Nat} {lengths : List (Nat × Nat)} {wrap : Octets}
    (h : ∀ l ∈ lengths, l.1 ≠ wrap.length) : d.unwrap src n lengths wrap = .error (.lengthMismatch, d) := by
  have hnone : lengths.find? (fun l => l.1 = wrap.length) = none := List.find?_eq_none.mpr fun l hl => by simpa using h l hl
  unfold Dev.unwrap
  rw [hnone]

/-- The abort that a latched alarm gives a wrapped key. -/
def alarmAbort (src : Src) : Abort := if src = .can then .deviceState else .alarm

/-- What a write of a wrapped key comes to: refused while an alarm is latched, and else what its unwrap `r` and its store `g` give. -/
def Dev.wrapResult (d : Dev) (src : Src) (r : Except (Abort × Dev) Octets) (g : Octets → Dev) : Res :=
  if d.alarmed = true then .error (alarmAbort src, d) else r.map g

theorem alarmCheck_wrapResult (d : Dev) (src : Src) (r : Except (Abort × Dev) Octets) (g : Octets → Dev) :
    (d.alarmCheck src >>= fun _ => r >>= fun p => .ok (g p)) = d.wrapResult src r g := by
  unfold Dev.wrapResult
  split
  next h => exact need_error (by simp [h])
  next h =>
    refine (need_ok (by simpa using h)).trans ?_
    cases r <;> rfl

theorem writeKey_alarmed {d : Dev} {src : Src} {k : Key} {b : Octets} (hm : k.mayWrite src = .ok ()) (hw : wrappedKey k.o = true)
    (ha : d.alarmed = true) : d.writeKey src k b = .error (alarmAbort src, d) := by
  have hcheck : d.alarmCheck src = .error (alarmAbort src, d) := if_neg (by simp [ha])
  unfold Dev.writeKey
  rw [hm, if_pos hw, hcheck]
  rfl

theorem writeKey_wrapped_length {d : Dev} {src : Src} {k : Key} {b : Octets} {ls : List Nat} (hm : k.mayWrite src = .ok ())
    (hw : wrappedKey k.o = true) (ha : d.alarmed = false) (ht : k.o.row.ty = .octets ls) (hb : ls.contains b.length = false) :
    d.writeKey src k b = .error (.lengthMismatch, d) := by
  have hcheck : d.alarmCheck src = .ok () := if_pos (by simp [ha])
  have hdecode : k.decode b = .error .lengthMismatch := by
    rw [Key.decode, ht]
    exact if_neg (by rw [hb]; exact Bool.false_ne_true)
  unfold Dev.writeKey
  rw [hm, if_pos hw, hcheck, hdecode]
  rfl

/-- A write of a wrapped key comes to its effect's unwrap and store, whatever its length. -/
theorem writeBytes_wrapped {d : Dev} {src : Src} {k : Key} {b : Octets} {ls : List Nat} {r : Except (Abort × Dev) Octets} {g : Octets → Dev}
    (ht : k.o.row.ty = .octets ls) (hm : k.mayWrite src = .ok ()) (hw : wrappedKey k.o = true)
    (he : d.effect src k (.bytes b) = d.wrapResult src r g) (hlen : ls.contains b.length = false → r = .error (.lengthMismatch, d))
    (hf : k.form (.bytes b) = .ok ()) (hi : (!decide (k.o.row.acc = .rwi) || d.ownerIdle k) = true) (hp : k.pdo = none)
    (hs : k.staged src = false) (hl : (decide (k.o.row.acc = .rws) || (d.lookWith k (k.kept (.bytes b))).related k) = true) :
    d.writeBytes src k b = answerWrite src k (d.wrapResult src r g) := by
  refine congrArg (answerWrite src k) ?_
  cases ha : d.alarmed with
  | true => exact (writeKey_alarmed hm hw ha).trans (if_pos ha).symm
  | false =>
    cases hb : ls.contains b.length with
    | true => exact (writeKey_wrapped hm ha (decode_octets ht hb) rfl hf hi hp hs hl).trans he
    | false =>
      rw [writeKey_wrapped_length hm hw ha ht hb, Dev.wrapResult, ha, hlen hb]
      rfl

/-! ### What a wrapped key leaves -/

/-- `e` is `d` after a refusal of a key: no key changes, and the failure may be counted. -/
def Dev.refusesKey (d e : Dev) (src : Src) (k : Key) (a : Abort) : Prop :=
  e.refusedBy d src k a ∧ e.sec = d.sec ∧ keepsBut d e [.KEY_UNWRAP_FAILS, .DICT_ABORTS]

theorem answerWrite_refusesKey {d e : Dev} (he : e = d ∨ e = d.bump .KEY_UNWRAP_FAILS) (src : Src) (k : Key) (a : Abort) :
    d.refusesKey (answerWrite src k (.error (a, e))) src k a ∧ (d.quiet → (answerWrite src k (.error (a, e))).quiet) := by
  have hkeeps : keepsBut d e [.KEY_UNWRAP_FAILS] := by
    obtain rfl | rfl := he
    · exact fun _ _ _ _ => rfl
    · exact ((Within.refl _ d).put (o := .KEY_UNWRAP_FAILS) (by decide) _ _ _).obj
  have hsame : e.out = d.out ∧ e.sec = d.sec ∧ (d.quiet → e.quiet) := by
    obtain rfl | rfl := he
    · exact ⟨rfl, rfl, id⟩
    · exact ⟨rfl, rfl, id⟩
  obtain ⟨hout, hsec, hquiet⟩ := hsame
  refine ⟨⟨congrArg (· ++ _) hout, hsec, fun o u p ho => ?_⟩, hquiet⟩
  simp only [List.mem_cons, List.not_mem_nil, or_false, not_or] at ho
  rw [answerWrite_error_keeps e src k a o u p (by simpa using ho.2)]
  exact hkeeps o u p (by simpa using ho.1)

/-- The row of a wrapped key: refused while an alarm is latched, taken where it unwraps, and refused as its unwrap is. -/
theorem wrapped_completes {s : State} {src : Src} {k : Key} {n count : Nat} {b : Octets} {r : Except (Abort × Dev) Octets}
    {g : Octets → Dev} {good : Octets → State → Prop} (hn : n < count) (hq : s.dev.quiet) (hreach : s.dev.reaches src = true)
    (hwrite : s.dev.writeBytes src k b = answerWrite src k (s.dev.wrapResult src r g))
    (herror : ∀ a e, r = .error (a, e) → e = s.dev ∨ e = s.dev.bump .KEY_UNWRAP_FAILS)
    (hgood : ∀ p, (g p).out = s.dev.out ∧ (g p).quiet ∧ good p { s with dev := answerWrite src k (.ok (g p)) }) :
    ∃ t, onUnit s n count (fun d => d.access src fun d => d.writeBytes src k b) = .next t ∧ keepsRest s t ∧
      if s.dev.alarmed = true then s.dev.refusesKey t.dev src k (alarmAbort src)
      else match (generalizing := false) r with
        | .ok p => good p t ∧ t.dev.acceptedBy s.dev src k
        | .error (a, _) => s.dev.refusesKey t.dev src k a := by
  unfold Dev.wrapResult at hwrite
  by_cases ha : s.dev.alarmed = true
  · rw [if_pos ha] at hwrite
    obtain ⟨hrefused, hquiet⟩ := answerWrite_refusesKey (d := s.dev) (.inl rfl) src k (alarmAbort src)
    exact access_completes hn hreach hwrite (hquiet hq) ⟨⟨rfl, rfl⟩, (if_pos ha).mpr hrefused⟩
  rw [if_neg ha] at hwrite
  cases r with
  | ok p =>
    obtain ⟨hout, hquiet, hp⟩ := hgood p
    exact access_completes hn hreach hwrite (answerWrite_ok_quiet src k hquiet)
      ⟨⟨rfl, rfl⟩, (if_neg ha).mpr ⟨hp, answerWrite_ok_accepted src k hout⟩⟩
  | error x =>
    obtain ⟨a, e⟩ := x
    obtain ⟨hrefused, hquiet⟩ := answerWrite_refusesKey (herror a e rfl) src k a
    exact access_completes hn hreach hwrite (hquiet hq) ⟨⟨rfl, rfl⟩, (if_neg ha).mpr hrefused⟩

/-! ### The keys of slots, of HDP and of legs -/

/-- A key that unwrapped takes its slot (R448). -/
def Dev.slotTakes (d : Dev) (n : Nat) (p : Octets) : Dev :=
  ({ d with sec := { d.sec with slots := tset n p d.sec.slots } }.setN .SLOT_STATE n (if p.length = 16 then 1 else 2)).setN
    .SLOT_KCV n (kcv p)

theorem writeBytes_SLOT_WRAP (d : Dev) {src : Src} {n : Nat} {wrap : Octets}
    (h : src = .can → canWritable (Key.index { o := .SLOT_WRAP, u := n }) (Key.sub { o := .SLOT_WRAP, u := n }) = true) :
    d.writeBytes src { o := .SLOT_WRAP, u := n } wrap = answerWrite src { o := .SLOT_WRAP, u := n }
      (d.wrapResult src (d.unwrap src (d.nat .SLOT_PARENT n) [(24, 16), (40, 32)] wrap) (d.slotTakes n)) := by
  refine writeBytes_wrapped (ls := [24, 40]) rfl (mayWrite_ok h rfl rfl) rfl (alarmCheck_wrapResult d src _ (d.slotTakes n))
    (fun hlen => unwrap_length fun l hl => ?_) rfl rfl rfl rfl rfl
  simp only [List.contains_cons, List.contains_nil, Bool.or_eq_false_iff, beq_eq_false_iff_ne] at hlen
  simp only [List.mem_cons, List.not_mem_nil, or_false] at hl
  obtain rfl | rfl := hl
  · exact Ne.symm hlen.1
  · exact Ne.symm hlen.2.1

/-- A master key of HDP that unwrapped takes its slot (R85). -/
def Dev.hdpTakes (d : Dev) (n : Nat) (p : Octets) : Dev := { d with sec := { d.sec with hdpKeys := tset n p d.sec.hdpKeys } }

theorem writeBytes_HDP_KEY (d : Dev) {src : Src} {n : Nat} {wrap : Octets}
    (h : src = .can → canWritable (Key.index { o := .HDP_KEY, k := n }) (Key.sub { o := .HDP_KEY, k := n }) = true) :
    d.writeBytes src { o := .HDP_KEY, k := n } wrap = answerWrite src { o := .HDP_KEY, k := n }
      (d.wrapResult src (d.unwrap src 0 [(40, 32)] wrap) (d.hdpTakes n)) := by
  refine writeBytes_wrapped (ls := [40]) rfl (mayWrite_ok h rfl rfl) rfl (alarmCheck_wrapResult d src _ (d.hdpTakes n))
    (fun hlen => unwrap_length fun l hl => ?_) rfl rfl rfl rfl rfl
  simp only [List.contains_cons, List.contains_nil, Bool.or_eq_false_iff, beq_eq_false_iff_ne] at hlen
  rw [List.mem_singleton.mp hl]
  exact Ne.symm hlen.1

/-- What a write of a leg's key unwraps to: nothing where the leg's state takes no key, or where it has no suite (R449, R450). -/
def Dev.legKeyUnwrap (d : Dev) (src : Src) (n : Nat) (wrap : Octets) : Except (Abort × Dev) Octets :=
  if d.legState n ≠ .idle ∧ d.legState n ≠ .configured ∧ d.legState n ≠ .rekey ∨ d.nat .LEG_SUITE n = 0 then .error (.deviceState, d)
  else d.unwrap src (d.nat .LEG_KEK n) (legKeyLengths (d.nat .LEG_SUITE n)) wrap

/-- The keys of leg `n` with `p` as its new key of one direction: pending in REKEY, and else held (R450). -/
def Dev.legKeysWith (d : Dev) (n : Nat) (tx : Bool) (p : Octets) : LegKeys :=
  match decide (d.legState n = .rekey), tx with
  | true, true => { d.keysOf n with txPending := some p, txNew := true }
  | true, false => { d.keysOf n with rxPending := some p, rxNew := true }
  | false, true => { d.keysOf n with tx := some p, suite := d.nat .LEG_SUITE n }
  | false, false => { d.keysOf n with rx := some p, suite := d.nat .LEG_SUITE n }

/-- A key that unwrapped becomes its leg's (R450). -/
def Dev.legTakes (d : Dev) (n : Nat) (tx : Bool) (p : Octets) : Dev := (d.setKeys n (d.legKeysWith n tx p)).bump .LEG_KEY_LOADS n

theorem writeLegKey_eq (d : Dev) (src : Src) (n : Nat) (tx : Bool) (wrap : Octets) :
    d.writeLegKey src n tx wrap = d.wrapResult src (d.legKeyUnwrap src n wrap) (d.legTakes n tx) := by
  rw [← alarmCheck_wrapResult]
  unfold Dev.writeLegKey Dev.legKeyUnwrap
  refine congrArg (d.alarmCheck src >>= ·) (funext fun _ => ?_)
  by_cases hst : d.legState n = .idle ∨ d.legState n = .configured ∨ d.legState n = .rekey
  · rw [need_ok (decide_eq_true hst)]
    by_cases hsuite : d.nat .LEG_SUITE n = 0
    · rw [if_pos (.inr hsuite)]
      exact need_error (by simp [hsuite])
    · rw [if_neg (by tauto)]
      refine (need_ok (by simp [hsuite])).trans (congrArg (_ >>= ·) (funext fun p => ?_))
      unfold Dev.legTakes Dev.legKeysWith
      by_cases hre : d.legState n = .rekey <;> cases tx <;> simp [hre]
  · rw [if_pos (.inl (by tauto))]
    exact need_error (decide_eq_false hst)

theorem writeBytes_legKey (d : Dev) {src : Src} {n : Nat} {tx : Bool} {wrap : Octets} (hlen : wrap.length = 40 ∨ wrap.length = 56)
    (h : src = .can → canWritable (Key.index { o := if tx then .LEG_TX_KEY else .LEG_RX_KEY, u := n })
      (Key.sub { o := if tx then .LEG_TX_KEY else .LEG_RX_KEY, u := n }) = true) :
    d.writeBytes src { o := if tx then .LEG_TX_KEY else .LEG_RX_KEY, u := n } wrap =
      answerWrite src { o := if tx then .LEG_TX_KEY else .LEG_RX_KEY, u := n }
        (d.wrapResult src (d.legKeyUnwrap src n wrap) (d.legTakes n tx)) := by
  have htaken : [40, 56].contains wrap.length = true := by
    obtain hl | hl := hlen <;> rw [hl] <;> rfl
  cases tx with
  | true =>
    exact writeBytes_wrapped (ls := [40, 56]) rfl (mayWrite_ok h rfl rfl) rfl (writeLegKey_eq d src n true wrap)
      (fun hno => nomatch htaken.symm.trans hno) rfl rfl rfl rfl rfl
  | false =>
    exact writeBytes_wrapped (ls := [40, 56]) rfl (mayWrite_ok h rfl rfl) rfl (writeLegKey_eq d src n false wrap)
      (fun hno => nomatch htaken.symm.trans hno) rfl rfl rfl rfl rfl

theorem legKeyUnwrap_error {d e : Dev} {src : Src} {n : Nat} {wrap : Octets} {a : Abort}
    (h : d.legKeyUnwrap src n wrap = .error (a, e)) : e = d ∨ e = d.bump .KEY_UNWRAP_FAILS := by
  unfold Dev.legKeyUnwrap at h
  split at h
  · exact .inl (Prod.mk.inj (Except.error.inj h)).2.symm
  · exact unwrap_error h

/-! ### The transport key and the suite of a leg (R446, R449) -/

/-- The transport key is fused (R446). -/
def Dev.tkFuses (d : Dev) (key : Octets) : Dev := { d with sec := { d.sec with tk := some key } }.setN .TK_KCV 0 (kcv key)

theorem writeTk_fuses {d : Dev} {key : Octets} (h : d.nat .TK_KCV = 0) : d.writeTk .can key = .ok (d.tkFuses key) := by
  unfold Dev.writeTk
  rw [need_ok (decide_eq_true rfl)]
  exact need_ok (decide_eq_true h)

theorem writeTk_kept {d : Dev} {src : Src} {key : Octets} (h : ¬(src = .can ∧ d.nat .TK_KCV = 0)) :
    d.writeTk src key = .error (.readOnly, d) := by
  unfold Dev.writeTk
  by_cases hsrc : src = .can
  · rw [need_ok (decide_eq_true hsrc)]
    exact need_error (decide_eq_false fun hk => h ⟨hsrc, hk⟩)
  · exact need_error (decide_eq_false hsrc)

theorem writeBytes_TK_PROGRAM (d : Dev) {src : Src} {key : Octets} (hlen : key.length = 32)
    (h : src = .can → canWritable (Key.index { o := .TK_PROGRAM }) (Key.sub { o := .TK_PROGRAM }) = true) :
    d.writeBytes src { o := .TK_PROGRAM } key = answerWrite src { o := .TK_PROGRAM } (d.writeTk src key) :=
  writeBytes_octets (ls := [32]) rfl (by simp [hlen]) (mayWrite_ok h rfl rfl) rfl rfl rfl rfl rfl rfl

theorem writeNum_LEG_SUITE {d : Dev} {src : Src} {n suite : Nat} (hidle : d.legIdle n = true) (hsuite : suite < 5)
    (h : src = .can → canWritable (Key.index { o := .LEG_SUITE, u := n }) (Key.sub { o := .LEG_SUITE, u := n }) = true) :
    d.writeNum src { o := .LEG_SUITE, u := n } suite = answerWrite src { o := .LEG_SUITE, u := n } (.ok (d.writeLegSuite n suite)) := by
  have hrange : Obj.LEG_SUITE.row.range.check (.num suite) = .ok (.num suite) := by
    interval_cases suite <;> rfl
  exact writeNum_byte (by omega) rfl (mayWrite_ok h rfl rfl) rfl hrange rfl hidle rfl rfl rfl

theorem writeNum_LEG_SUITE_busy {d : Dev} {src : Src} {n suite : Nat} (hidle : ¬d.legIdle n = true) (hsuite : suite < 5)
    (h : src = .can → canWritable (Key.index { o := .LEG_SUITE, u := n }) (Key.sub { o := .LEG_SUITE, u := n }) = true) :
    d.writeNum src { o := .LEG_SUITE, u := n } suite = answerWrite src { o := .LEG_SUITE, u := n } (.error (.deviceState, d)) := by
  have hrange : Obj.LEG_SUITE.row.range.check (.num suite) = .ok (.num suite) := by
    interval_cases suite <;> rfl
  have howner : (!decide (Obj.LEG_SUITE.row.acc = .rwi) || d.ownerIdle { o := .LEG_SUITE, u := n }) = false :=
    Bool.eq_false_iff.mpr hidle
  have hdecode : Key.decode { o := .LEG_SUITE, u := n } (Key.spell { o := .LEG_SUITE, u := n } suite) = .ok (.num suite) :=
    decode_spell_u (b := 1) rfl (by omega)
  have hform : Key.form { o := .LEG_SUITE, u := n } (.num suite) = .ok () := rfl
  refine congrArg (answerWrite src _) ?_
  unfold Dev.writeKey
  rw [mayWrite_ok h rfl rfl, hdecode]
  simp only [Dev.orRefuse, hrange, hform, howner, Dev.need, bind, Except.bind, Bool.false_eq_true, if_false]
  rfl

/-- Settles O55: a wrapped key goes through the alarm check, its object's state and its unwrap (`wrapped_completes`). -/
theorem keysAreLoadedUnderWraps : Obligations.KeysAreLoadedUnderWraps := by
  unfold Obligations.KeysAreLoadedUnderWraps
  intro s src hq
  extract_lets d
  refine ⟨fun key hlen hh => ?tk, fun n wrap h1 h8 hh => ?slot, fun n wrap h4 hh => ?hdp, fun n wrap tx hn hlen => ?leg,
    fun n suite hn hs hh => ?suite⟩
  case tk =>
    have hwrite := writeBytes_TK_PROGRAM d hlen hh.2
    by_cases hfuse : src = .can ∧ d.nat .TK_KCV = 0
    · obtain ⟨rfl, hkcv⟩ := hfuse
      rw [writeTk_fuses hkcv] at hwrite
      have hkeeps : keepsBut d (d.tkFuses key) [.TK_KCV] := ((Within.refl _ d).put (o := .TK_KCV) (by decide) _ _ _).obj
      refine access_completes Nat.one_pos hh.1 hwrite (answerWrite_ok_quiet .can _ hq)
        ⟨⟨rfl, rfl⟩, (if_pos ⟨rfl, hkcv⟩).mpr ⟨rfl, ?_, answerWrite_ok_accepted .can _ rfl, answerWrite_ok_keeps .can _ hkeeps⟩⟩
      refine (answerWrite_ok_nat .can _ _ 0 0 (by decide)).trans ?_
      simp [Dev.tkFuses, Dev.setN_eq]
    · rw [writeTk_kept hfuse] at hwrite
      obtain ⟨hrefused, hquiet⟩ := answerWrite_refusesKey (d := d) (.inl rfl) src { o := .TK_PROGRAM } .readOnly
      exact access_completes Nat.one_pos hh.1 hwrite (hquiet hq) ⟨⟨rfl, rfl⟩, (if_neg hfuse).mpr hrefused⟩
  case slot =>
    have hslot : exec (.slotWrap src n wrap) s = onWriteBytes s src .SLOT_WRAP n 8 wrap := if_neg (by omega)
    rw [completes, hslot]
    refine wrapped_completes h8 hq hh.1 (writeBytes_SLOT_WRAP d hh.2) (fun a e he => unwrap_error he) fun p => ⟨rfl, hq, rfl, ?_, ?_, ?_⟩
    · refine (answerWrite_ok_nat src _ _ n 0 (by decide)).trans ?_
      split <;> simp [Dev.slotTakes, Dev.setN_eq, *]
    · refine (answerWrite_ok_nat src _ _ n 0 (by decide)).trans ?_
      simp [Dev.slotTakes, Dev.setN_eq]
    · refine answerWrite_ok_keeps (os := [.SLOT_STATE, .SLOT_KCV]) src _ ?_
      exact (((Within.refl _ d).put (o := .SLOT_STATE) (by decide) _ _ _).put (o := .SLOT_KCV) (by decide) _ _ _).obj
  case hdp =>
    refine wrapped_completes h4 hq hh.1 (writeBytes_HDP_KEY d hh.2) (fun a e he => unwrap_error he) fun p => ⟨rfl, hq, rfl, ?_⟩
    exact answerWrite_ok_keeps (os := []) src _ fun _ _ _ _ => rfl
  case leg =>
    intro k x hh
    have hexec : exec (if tx then .legTxKey src n wrap else .legRxKey src n wrap) s =
        onUnit s n 4096 fun d => d.access src fun d => d.writeBytes src k wrap := by cases tx <;> rfl
    rw [completes, hexec]
    refine wrapped_completes hn hq hh.1 (writeBytes_legKey d hlen hh.2) (fun a e he => legKeyUnwrap_error he)
      fun p => ⟨rfl, hq, ?_, fun m hm => ?_, ?_, ?_⟩
    · exact (Dev.keysOf_setKeys d n n _).trans (if_pos rfl)
    · exact (Dev.keysOf_setKeys d n m _).trans (if_neg hm)
    · refine (answerWrite_ok_nat src _ _ n 0 (by decide)).trans ?_
      have hbits : Obj.LEG_KEY_LOADS.row.ty.bits = 32 := rfl
      simp [Dev.legTakes, hbits]
    · refine answerWrite_ok_keeps (os := [.LEG_KEY_LOADS]) src _ ?_
      exact ((Within.refl _ d).put (o := .LEG_KEY_LOADS) (by decide) _ _ _).obj
  case suite =>
    by_cases hidle : d.legIdle n = true
    · refine onWrite_completes hn hh.1 (writeNum_LEG_SUITE hidle hs hh.2) (answerWrite_ok_quiet src _ hq)
        ⟨⟨rfl, rfl⟩, (if_pos hidle).mpr
          ⟨?_, ?_, fun m hm => ?_, answerWrite_ok_accepted src _ rfl, answerWrite_ok_keeps (os := [.LEG_SUITE]) src _ ?_⟩⟩
      · refine (answerWrite_ok_nat src _ _ n 0 (by decide)).trans ?_
        exact Dev.nat_setN ..
      · exact (Dev.keysOf_setKeys _ n n _).trans (if_pos rfl)
      · exact (Dev.keysOf_setKeys _ n m _).trans (if_neg hm)
      · exact ((Within.refl [.LEG_SUITE] d).put (o := .LEG_SUITE) (by decide) _ _ _).obj
    · obtain ⟨hrefused, hquiet⟩ := answerWrite_refusesKey (d := d) (.inl rfl) src { o := .LEG_SUITE, u := n } .deviceState
      exact onWrite_completes hn hh.1 (writeNum_LEG_SUITE_busy hidle hs hh.2) (hquiet hq) ⟨⟨rfl, rfl⟩, (if_neg hidle).mpr hrefused⟩

end Sys2Proof.Machine
end

section
/-! PROOFS. The service cipher: its lock and its jobs (O56). -/

namespace Sys2Proof.Machine

/-! ### The lock (R451) -/

/-- Session `id` may take, renew or release the lock. -/
theorem lockOpen_iff (d : Dev) (id : Nat) :
    (!d.locked || d.holder (.hdp id)) = true ↔ d.locked = false ∨ d.nat .SC_LOCK_OWNER = id := by
  have hholder : d.holder (.hdp id) = (d.locked && decide (d.nat .SC_LOCK_OWNER = id)) := rfl
  rw [hholder]
  cases d.locked <;> simp

/-- The lock is held by session `id` for 1,200 strides. -/
def Dev.lockTakes (d : Dev) (id : Nat) : Dev :=
  ({ d with sec := { d.sec with leaseEnd := d.nat .STRIDE_COUNT + 1200 } }.setN .SC_LOCK 0 1).setN .SC_LOCK_OWNER 0 id

/-- The lock is free. -/
def Dev.lockFrees (d : Dev) : Dev := (d.setN .SC_LOCK 0 0).setN .SC_LOCK_OWNER 0 0

theorem writeLock_take {d : Dev} {id : Nat} (h : d.locked = false ∨ d.nat .SC_LOCK_OWNER = id) :
    d.writeLock (.hdp id) true = .ok (d.lockTakes id) := by
  have hstride : ((d.setN .SC_LOCK 0 1).setN .SC_LOCK_OWNER 0 id).nat .STRIDE_COUNT = d.nat .STRIDE_COUNT := by simp [Dev.setN_eq]
  refine (need_ok ((lockOpen_iff d id).mpr h)).trans (congrArg Except.ok ?_)
  unfold Dev.lockTakes Dev.stride
  rw [hstride]
  rfl

theorem writeLock_release {d : Dev} {id : Nat} (h : d.locked = false ∨ d.nat .SC_LOCK_OWNER = id) :
    d.writeLock (.hdp id) false = .ok d.lockFrees :=
  need_ok ((lockOpen_iff d id).mpr h)

theorem writeLock_taken {d : Dev} {id : Nat} (h : ¬(d.locked = false ∨ d.nat .SC_LOCK_OWNER = id)) (take : Bool) :
    d.writeLock (.hdp id) take = .error (.deviceState, d) :=
  need_error (Bool.eq_false_iff.mpr (mt (lockOpen_iff d id).mp h))

theorem within_lock {d : Dev} (lock owner : Nat) :
    Within [.SC_LOCK, .SC_LOCK_OWNER] d ((d.setN .SC_LOCK 0 lock).setN .SC_LOCK_OWNER 0 owner) :=
  ((Within.refl _ d).put (o := .SC_LOCK) (by decide) _ _ _).put (o := .SC_LOCK_OWNER) (by decide) _ _ _

/-- The lease's end leaves the lock free, its job abandoned and its buffers clear. -/
theorem lockExpire_frees {d : Dev} (h : d.locked = true) (cause : Nat) : let e := d.lockExpire cause
    e.sec = { d.sec with job := none } ∧ e.nat .SC_LOCK = 0 ∧ e.nat .SC_LOCK_OWNER = 0 ∧ e.nat .SC_STATUS = 6 ∧
      (∀ o ∈ [Obj.SC_INPUT, .SC_OUTPUT, .SC_AAD], e.bytes o = []) ∧ ∀ o ∈ [Obj.SC_IV, .SC_TAG], e.bytes o = List.replicate 16 0 := by
  unfold Dev.lockExpire
  rw [if_pos h]
  refine ⟨rfl, ?_, ?_, ?_, fun o ho => ?_, fun o ho => ?_⟩
  · simp [Dev.clearScBuffers, Dev.setN_eq]
  · simp [Dev.clearScBuffers, Dev.setN_eq]
  · simp [Dev.clearScBuffers, Dev.setN_eq]
  · simp only [List.mem_cons, List.not_mem_nil, or_false] at ho
    obtain rfl | rfl | rfl := ho <;> simp [Dev.clearScBuffers, Dev.bytes]
  · simp only [List.mem_cons, List.not_mem_nil, or_false] at ho
    obtain rfl | rfl := ho <;> simp [Dev.clearScBuffers, Dev.bytes]

/-! ### Jobs (R452, R453) -/

/-- The job of SC_MODE under `key`, as the objects stand. -/
def Dev.scJob (d : Dev) (key : Octets) : ScJob :=
  scRun (d.nat .SC_MODE) key (d.bytes .SC_INPUT) (d.bytes .SC_IV) (d.bytes .SC_AAD) (d.bytes .SC_TAG) (d.flag .SC_PAD)

/-- Do the objects' lengths suit SC_MODE? -/
def Dev.scFits (d : Dev) : Bool := scLengthOk (d.nat .SC_MODE) (d.bytes .SC_INPUT).length (d.flag .SC_PAD) (d.bytes .SC_AAD).length

/-- Does the use of the slot in SC_KEY_SLOT suit SC_MODE? -/
def Dev.scUse (d : Dev) : Bool := d.bitOf .SLOT_USE (d.nat .SC_KEY_SLOT) 0 (if d.nat .SC_MODE = 6 then 2 else 1)

/-- The job has started under `key`. -/
def Dev.scStarts (d : Dev) (key : Octets) : Dev :=
  ({ d with sec := { d.sec with job := some (d.scJob key) } }.setN .SC_STATUS 0 1).put .SC_OUTPUT 0 0 (.bytes [])

theorem scStart_held {d : Dev} {src : Src} (h : d.holder src = false ∨ d.sec.job ≠ none) : d.scStart src = .error (.deviceState, d) := by
  unfold Dev.scStart
  cases hh : d.holder src with
  | false => exact need_error rfl
  | true =>
    rw [need_ok rfl]
    obtain h | h := h
    · exact absurd h (by simp [hh])
    · exact need_error (by simpa [Option.isSome_iff_ne_none] using h)

/-- With the lock held and no job, SC_CMD is judged by the lengths, the slot and its use. -/
theorem scStart_free {d : Dev} {src : Src} (hh : d.holder src = true) (hj : d.sec.job = none) :
    d.scStart src = if d.scFits = false then .error (.range, d) else
      match tfind (d.nat .SC_KEY_SLOT) d.sec.slots with
      | none => .error (.deviceState, d)
      | some key => if d.scUse = false then .error (.deviceState, d) else .ok (d.scStarts key) := by
  unfold Dev.scStart
  rw [need_ok hh, need_ok (by simp [hj])]
  by_cases hfit : d.scFits = false
  · rw [if_pos hfit]
    exact need_error hfit
  rw [if_neg hfit]
  refine (need_ok (by simpa [Dev.scFits] using hfit)).trans ?_
  cases tfind (d.nat .SC_KEY_SLOT) d.sec.slots with
  | none => rfl
  | some key =>
    by_cases huse : d.scUse = false
    · exact (need_error huse).trans (if_pos huse).symm
    · exact (need_ok (by simpa [Dev.scUse] using huse)).trans (if_neg huse).symm

/-- What the end of job `j` leaves. -/
theorem scComplete_spec {d : Dev} {j : ScJob} (h : d.sec.job = some j) : let e := d.scComplete
    e.sec = { d.sec with job := none } ∧ e.nat .SC_STATUS = j.status ∧ e.bytes .SC_OUTPUT = j.output ∧
      e.nat .SC_JOBS = (d.nat .SC_JOBS + 1) % 2 ^ 32 ∧ e.bytes .SC_TAG = j.tag.getD (d.bytes .SC_TAG) ∧
      Within [.SC_STATUS, .SC_OUTPUT, .SC_JOBS, .SC_TAG] { d with sec := { d.sec with job := none } } e := by
  have hbits : Obj.SC_JOBS.row.ty.bits = 32 := rfl
  have hw : Within [.SC_STATUS, .SC_OUTPUT, .SC_JOBS, .SC_TAG] { d with sec := { d.sec with job := none } }
      ((({ d with sec := { d.sec with job := none } }.setN .SC_STATUS 0 j.status).put .SC_OUTPUT 0 0 (.bytes j.output)).bump .SC_JOBS) :=
    (((Within.refl _ _).put (o := .SC_STATUS) (by decide) _ _ _).put (o := .SC_OUTPUT) (by decide) _ _ _).put (o := .SC_JOBS)
      (by decide) _ _ _
  unfold Dev.scComplete
  rw [h]
  dsimp only
  cases j.tag with
  | none =>
    refine ⟨rfl, ?_, ?_, ?_, ?_, hw⟩
    · simp [Dev.setN_eq, Dev.bump_eq]
    · simp [Dev.bump_eq, Dev.bytes]
    · simp [Dev.setN_eq, hbits]
      rfl
    · simp [Dev.setN_eq, Dev.bump_eq, Dev.bytes]
      rfl
  | some tag =>
    refine ⟨rfl, ?_, ?_, ?_, ?_, hw.put (o := .SC_TAG) (by decide) _ _ _⟩
    · simp [Dev.setN_eq, Dev.bump_eq]
    · simp [Dev.bump_eq, Dev.bytes]
    · simp [Dev.setN_eq, hbits]
      rfl
    · simp [Dev.bytes]

/-- The row of SC_CMD under a mode that SC_MODE does not name leaves everything. -/
theorem scMode_other {s : State} {src : Src} {mode : Nat} {P : State → Prop} (hq : s.dev.quiet) (hreach : s.dev.reaches src = true)
    (hmode : s.dev.nat .SC_MODE ≠ mode) (hP : P s) : ∃ t, onScMode s src mode = .next t ∧ P t :=
  onDev_completes ((if_pos hreach).trans (if_neg hmode)) hq hP

/-- The row of SC_CMD under SC_MODE leaves the answer to its job's start. -/
theorem scMode_answers {s : State} {src : Src} {r : Res} {P : State → Prop} (hh : s.dev.hears src { o := .SC_CMD })
    (hr : s.dev.scStart src = r) (hq : (answerWrite src { o := .SC_CMD } r).quiet)
    (hP : P { s with dev := answerWrite src { o := .SC_CMD } r }) : ∃ t, onScMode s src (s.dev.nat .SC_MODE) = .next t ∧ P t := by
  subst hr
  exact onDev_completes (((if_pos hh.1).trans (if_pos rfl)).trans (writeNum_SC_CMD s.dev 0 hh.2)) hq hP

/-- What SC_CMD under `mode` comes to (R452, R453). -/
def Dev.scCommanded (d : Dev) (src : Src) (mode : Nat) (s t : State) : Prop :=
  keepsRest s t ∧
    let refused := fun (a : Abort) => t.dev.refusedBy d src { o := .SC_CMD } a ∧ onlyDict d t.dev ∧ keepsBut d t.dev [.DICT_ABORTS]
    let slot := d.nat .SC_KEY_SLOT
    let input := d.bytes .SC_INPUT
    let key := tfind slot d.sec.slots
    let job := fun (key : Octets) => scRun mode key input (d.bytes .SC_IV) (d.bytes .SC_AAD) (d.bytes .SC_TAG) (d.flag .SC_PAD)
    if d.nat .SC_MODE ≠ mode then t.dev = d
    else if d.holder src = false ∨ d.sec.job ≠ none then refused .deviceState
    else if scLengthOk mode input.length (d.flag .SC_PAD) (d.bytes .SC_AAD).length = false then refused .range
    else if d.bitOf .SLOT_USE slot 0 (if mode = 6 then 2 else 1) = false ∨ key = none then refused .deviceState
    else
      t.dev.sec = { d.sec with job := key.map job } ∧ t.dev.nat .SC_STATUS = 1 ∧ t.dev.bytes .SC_OUTPUT = [] ∧
        t.dev.acceptedBy d src { o := .SC_CMD } ∧ keepsBut d t.dev [.SC_STATUS, .SC_OUTPUT, .DICT_WRITES]

theorem scMode_completes {s : State} {src : Src} (hq : s.dev.quiet) (hh : s.dev.hears src { o := .SC_CMD }) (mode : Nat) :
    ∃ t, onScMode s src mode = .next t ∧ s.dev.scCommanded src mode s t := by
  by_cases hmode : s.dev.nat .SC_MODE ≠ mode
  · exact scMode_other hq hh.1 hmode ⟨⟨rfl, rfl⟩, (if_pos hmode).mpr rfl⟩
  obtain rfl := not_not.mp hmode
  have hrefuses : ∀ a, s.dev.scStart src = .error (a, s.dev) → _ := fun a h =>
    scMode_answers hh h (P := fun t => keepsRest s t ∧ t.dev.refusedBy s.dev src { o := .SC_CMD } a ∧ onlyDict s.dev t.dev ∧
      keepsBut s.dev t.dev [.DICT_ABORTS]) hq ⟨⟨rfl, rfl⟩, answerWrite_refuses s.dev src _ a⟩
  unfold Dev.scCommanded
  by_cases hheld : s.dev.holder src = false ∨ s.dev.sec.job ≠ none
  · simpa only [if_neg hmode, if_pos hheld] using hrefuses .deviceState (scStart_held hheld)
  obtain ⟨hholder, hjob⟩ := not_or.mp hheld
  have hstart := scStart_free (by simpa using hholder) (not_not.mp hjob)
  by_cases hfit : s.dev.scFits = false
  · have hlen : scLengthOk (s.dev.nat .SC_MODE) (s.dev.bytes .SC_INPUT).length (s.dev.flag .SC_PAD) (s.dev.bytes .SC_AAD).length = false :=
      hfit
    simpa only [if_neg hmode, if_neg hheld, if_pos hlen] using hrefuses .range (hstart.trans (if_pos hfit))
  have hlen : ¬scLengthOk (s.dev.nat .SC_MODE) (s.dev.bytes .SC_INPUT).length (s.dev.flag .SC_PAD) (s.dev.bytes .SC_AAD).length = false :=
    hfit
  rw [if_neg hfit] at hstart
  cases hkey : tfind (s.dev.nat .SC_KEY_SLOT) s.dev.sec.slots with
  | none =>
    rw [hkey] at hstart
    simpa only [if_neg hmode, if_neg hheld, if_neg hlen, hkey, or_true, if_true] using hrefuses .deviceState hstart
  | some key =>
    rw [hkey] at hstart
    by_cases huse : s.dev.scUse = false
    · have hbit : s.dev.bitOf .SLOT_USE (s.dev.nat .SC_KEY_SLOT) 0 (if s.dev.nat .SC_MODE = 6 then 2 else 1) = false := huse
      simpa only [if_neg hmode, if_neg hheld, if_neg hlen, hbit, true_or, if_true] using
        hrefuses .deviceState (hstart.trans (if_pos huse))
    · have hbit : ¬(s.dev.bitOf .SLOT_USE (s.dev.nat .SC_KEY_SLOT) 0 (if s.dev.nat .SC_MODE = 6 then 2 else 1) = false ∨
          some key = none) := by
        rintro (h | h)
        · exact huse h
        · exact nomatch h
      have hkeeps : keepsBut s.dev (s.dev.scStarts key) [.SC_STATUS, .SC_OUTPUT] :=
        (((Within.refl _ s.dev).put (o := .SC_STATUS) (by decide) _ _ _).put (o := .SC_OUTPUT) (by decide) _ _ _).obj
      refine scMode_answers hh (hstart.trans (if_neg huse)) (answerWrite_ok_quiet src _ hq) ⟨⟨rfl, rfl⟩, ?_⟩
      simp only [if_neg hmode, if_neg hheld, if_neg hlen, hkey, if_neg hbit]
      refine ⟨rfl, ?_, ?_, answerWrite_ok_accepted src _ rfl, answerWrite_ok_keeps src _ hkeeps⟩
      · refine (answerWrite_ok_nat src _ _ 0 0 (by decide)).trans ?_
        simp [Dev.scStarts, Dev.setN_eq]
      · have hdict := answerWrite_ok_keeps src { o := .SC_CMD } (e := s.dev.scStarts key) (os := []) fun _ _ _ _ => rfl
        exact congrArg Val.toBytes ((hdict .SC_OUTPUT 0 0 (by decide)).trans (Dev.get_put_same _ _ _ _ _))

/-- Settles O56: the lock's two writes, its lease's end, SC_CMD under each mode (`scMode_completes`) and the end of a job. -/
theorem serviceCipherRunsJobs : Obligations.ServiceCipherRunsJobs := by
  unfold Obligations.ServiceCipherRunsJobs
  intro s hq
  extract_lets d
  refine ⟨fun id hh => ⟨?take, ?release⟩, fun hrun => ?lease, fun src hh x hx => ?start, fun hrun => ?complete⟩
  case take =>
    have hwrite : d.writeNum (.hdp id) { o := .SC_LOCK } 1 = answerWrite (.hdp id) { o := .SC_LOCK } (d.writeLock (.hdp id) true) :=
      writeNum_SC_LOCK d 0 hh.2 (.inr rfl)
    by_cases hopen : d.locked = false ∨ d.nat .SC_LOCK_OWNER = id
    · rw [writeLock_take hopen] at hwrite
      refine onWrite_completes Nat.one_pos hh.1 hwrite (answerWrite_ok_quiet (.hdp id) _ hq)
        ⟨⟨rfl, rfl⟩, (if_pos hopen).mpr ⟨?_, ?_, rfl, answerWrite_ok_accepted (.hdp id) _ rfl,
          answerWrite_ok_keeps (os := [.SC_LOCK, .SC_LOCK_OWNER]) (.hdp id) _ (within_lock 1 id).obj⟩⟩
      · refine (answerWrite_ok_nat (.hdp id) _ _ 0 0 (by decide)).trans ?_
        simp [Dev.lockTakes, Dev.setN_eq]
      · refine (answerWrite_ok_nat (.hdp id) _ _ 0 0 (by decide)).trans ?_
        simp [Dev.lockTakes, Dev.setN_eq]
    · rw [writeLock_taken hopen] at hwrite
      exact onWrite_completes Nat.one_pos hh.1 hwrite hq ⟨⟨rfl, rfl⟩, (if_neg hopen).mpr (answerWrite_refuses d (.hdp id) _ _)⟩
  case release =>
    have hwrite : d.writeNum (.hdp id) { o := .SC_LOCK } 0 = answerWrite (.hdp id) { o := .SC_LOCK } (d.writeLock (.hdp id) false) :=
      writeNum_SC_LOCK d 0 hh.2 (.inl rfl)
    by_cases hopen : d.locked = false ∨ d.nat .SC_LOCK_OWNER = id
    · rw [writeLock_release hopen] at hwrite
      refine onWrite_completes Nat.one_pos hh.1 hwrite (answerWrite_ok_quiet (.hdp id) _ hq)
        ⟨⟨rfl, rfl⟩, (if_pos hopen).mpr ⟨?_, ?_, rfl, answerWrite_ok_accepted (.hdp id) _ rfl,
          answerWrite_ok_keeps (os := [.SC_LOCK, .SC_LOCK_OWNER]) (.hdp id) _ (within_lock 0 0).obj⟩⟩
      · refine (answerWrite_ok_nat (.hdp id) _ _ 0 0 (by decide)).trans ?_
        simp [Dev.lockFrees, Dev.setN_eq]
      · refine (answerWrite_ok_nat (.hdp id) _ _ 0 0 (by decide)).trans ?_
        simp [Dev.lockFrees, Dev.setN_eq]
    · rw [writeLock_taken hopen] at hwrite
      exact onWrite_completes Nat.one_pos hh.1 hwrite hq ⟨⟨rfl, rfl⟩, (if_neg hopen).mpr (answerWrite_refuses d (.hdp id) _ _)⟩
  case lease =>
    by_cases hlocked : d.locked = true
    · obtain ⟨hsec, hlock, howner, hstatus, hclear, hzero⟩ := lockExpire_frees hlocked 1
      refine onDev_engine_closes hrun ⟨⟨rfl, rfl⟩, (if_pos hlocked).mpr ⟨(settle_sec _).trans hsec,
        (settle_nat _ (by decide) 0 0).trans hlock, (settle_nat _ (by decide) 0 0).trans howner,
        (settle_nat _ (by decide) 0 0).trans hstatus, fun o ho => ?_, fun o ho => ?_⟩⟩
      · have hkept : closeObj o = false := by
          revert o
          decide
        exact (congrArg Val.toBytes (settle_get _ hkept 0 0)).trans (hclear o ho)
      · have hkept : closeObj o = false := by
          revert o
          decide
        exact (congrArg Val.toBytes (settle_get _ hkept 0 0)).trans (hzero o ho)
    · have hkept : d.lockExpire 1 = d := if_neg hlocked
      exact onDev_completes ((if_pos hrun).trans hkept) hq ⟨⟨rfl, rfl⟩, (if_neg hlocked).mpr rfl⟩
  case start =>
    simp only [List.mem_cons, List.not_mem_nil, or_false] at hx
    obtain rfl | rfl | rfl | rfl | rfl | rfl | rfl := hx <;> exact scMode_completes hq hh _
  case complete =>
    cases hjob : d.sec.job with
    | none =>
      have hkept : d.scComplete = d := by
        unfold Dev.scComplete
        rw [hjob]
      exact onDev_completes ((if_pos hrun).trans hkept) hq ⟨⟨rfl, rfl⟩, rfl⟩
    | some j =>
      obtain ⟨hsec, hstatus, houtput, hjobs, htag, hw⟩ := scComplete_spec hjob
      exact onDev_completes (if_pos hrun) (hw.quiet hq) ⟨⟨rfl, rfl⟩, hsec, hstatus, houtput, hjobs, htag, hw.obj, hw.out⟩

end Sys2Proof.Machine
end

section
/-! PROOFS. The parts that neither legs nor buffers touch: the keys, the resets and HDP, and the objects outside those that legs and
buffers write. Alarms (O57) and the service's changes (O51) are stated over them. -/

namespace Sys2Proof.Machine

/-- The keys, the resets and HDP. -/
def Dev.core (d : Dev) : Sec × (Reset × Hdp) := (d.sec, (d.rst, d.hdp))

/-- `e` differs from `d` in the objects `os` and outside the keys, the resets and HDP. -/
structure Beside (os : List Obj) (d e : Dev) : Prop where
  obj : keepsBut d e os
  core : e.core = d.core

theorem Beside.refl (os : List Obj) (d : Dev) : Beside os d d := ⟨fun _ _ _ _ => rfl, rfl⟩

theorem Beside.trans {os : List Obj} {d e f : Dev} (h : Beside os d e) (g : Beside os e f) : Beside os d f :=
  ⟨fun o u k ho => (g.obj o u k ho).trans (h.obj o u k ho), g.core.trans h.core⟩

theorem Beside.mono {os ps : List Obj} {d e : Dev} (h : Beside os d e) (hs : os ⊆ ps) : Beside ps d e :=
  ⟨fun o u k ho => h.obj o u k fun hx => ho (hs hx), h.core⟩

theorem Within.beside {os ps : List Obj} {d e : Dev} (h : Within os d e) (hs : os ⊆ ps) (hc : e.core = d.core) : Beside ps d e :=
  ⟨fun o u k ho => h.obj o u k fun hx => ho (hs hx), hc⟩

theorem Beside.put {os : List Obj} {d e : Dev} (h : Beside os d e) {o : Obj} (ho : o ∈ os) (u k : Nat) (v : Val) :
    Beside os d (e.put o u k v) :=
  h.trans (((Within.refl os e).put ho u k v).beside (List.Subset.refl os) rfl)

/-- A change of the parts that are neither objects nor of the core. -/
theorem Beside.parts {os : List Obj} {d e f : Dev} (h : Beside os d e) (hd : f.dict = e.dict) (hc : f.core = e.core) : Beside os d f := by
  refine ⟨fun o u k ho => Eq.trans ?_ (h.obj o u k ho), hc.trans h.core⟩
  unfold Dev.get
  rw [hd]

theorem Beside.fold {τ : Type} {os : List Obj} {d e : Dev} {f : Dev → τ → Dev} (hf : ∀ d x, Beside os d (f d x)) (l : List τ)
    (h : Beside os d e) : Beside os d (l.foldl f e) :=
  foldl_keeps (P := Beside os d) (fun _ x hs => hs.trans (hf _ x)) l h

theorem Beside.nat {os : List Obj} {d e : Dev} (h : Beside os d e) {o : Obj} (ho : o ∉ os) (u k : Nat) : e.nat o u k = d.nat o u k :=
  Dev.nat_eq_of_get (h.obj o u k ho)

theorem Beside.sec {os : List Obj} {d e : Dev} (h : Beside os d e) : e.sec = d.sec := (Prod.mk.inj h.core).1
theorem Beside.rst {os : List Obj} {d e : Dev} (h : Beside os d e) : e.rst = d.rst := (Prod.mk.inj (Prod.mk.inj h.core).2).1
theorem Beside.hdp {os : List Obj} {d e : Dev} (h : Beside os d e) : e.hdp = d.hdp := (Prod.mk.inj (Prod.mk.inj h.core).2).2

/-- A fold keeps the core where each of its steps does. -/
theorem core_foldl {τ : Type} {f : Dev → τ → Dev} (hf : ∀ d x, (f d x).core = d.core) (l : List τ) (d : Dev) :
    (l.foldl f d).core = d.core :=
  foldl_keeps (P := fun e : Dev => e.core = d.core) (fun e x h => (hf e x).trans h) l rfl

/-! ### Buffers -/

theorem core_giveBack (d : Dev) (p i : Nat) : (d.giveBack p i).core = d.core := by
  unfold Dev.giveBack
  dsimp only
  split <;> rfl

theorem core_chargeBytes (d : Dev) (dom : Nat) (a : Option Nat) (b : Int) : (d.chargeBytes dom a b).core = d.core := by
  unfold Dev.chargeBytes
  cases a <;> rfl

theorem core_poolTouch (d : Dev) (p : Nat) : (d.poolTouch p).core = d.core := by
  unfold Dev.poolTouch
  dsimp only
  split <;> rfl

theorem core_freeDesc (d : Dev) (p i : Nat) : (d.freeDesc p i).core = d.core := by
  unfold Dev.freeDesc
  extract_lets x shadows bytes d1 live x' d2 d3 d4
  have h1 : d1.core = d.core := by
    unfold d1
    split <;> rfl
  have h2 : d2.core = d1.core := by
    unfold d2
    split
    · rfl
    split <;> exact core_giveBack _ _ _
  have h3 : d3.core = d2.core := by
    unfold d3
    split <;> rfl
  have h4 : d4.core = d3.core := by
    refine core_foldl (fun e j => ?_) shadows d3
    dsimp only
    split
    · rfl
    · exact core_giveBack _ _ _
  exact (((core_poolTouch _ _).trans (core_chargeBytes _ _ _ _)).trans h4).trans (h3.trans (h2.trans h1))

/-- The objects that drops of references may write. -/
def dropObjs : List Obj := poolObjs ++ checkCounters

theorem beside_refReject {d : Dev} {dom h n : Nat} {r : Nat × Obj} (hr : d.refCheck dom h n = some r) :
    Beside dropObjs d (d.refReject h r) :=
  ((Beside.refl _ d).put (List.mem_append_right _ (refCheck_counter hr)) _ _ _).parts rfl rfl

theorem beside_refDrop (d : Dev) (dom h : Nat) : Beside dropObjs d (d.refDrop dom h) := by
  cases hr : d.refCheck dom h 0 with
  | some r =>
    rw [refDrop_rejected hr]
    exact beside_refReject hr
  | none =>
    have hsub : poolObjs ⊆ dropObjs := List.subset_append_left _ _
    by_cases hx : 1 < (d.descOf (handlePool h) (handleIndex h)).refs
    · refine (refDrop_drops hr hx).1.beside (List.nil_subset _) ?_
      unfold Dev.refDrop
      rw [hr, if_neg (Nat.not_le_of_lt hx)]
      rfl
    · refine (refDrop_frees hr hx).1.beside hsub ?_
      unfold Dev.refDrop
      rw [hr, if_pos (Nat.le_of_not_lt hx)]
      exact core_freeDesc _ _ _

theorem beside_dropAll (d : Dev) (dom : Nat) (hs : List Nat) : Beside dropObjs d (d.dropAll dom hs) :=
  (Beside.refl _ d).fold (fun e h => beside_refDrop e dom h) hs

/-! ### Legs -/

/-- The objects that the states and the reservations of legs may write, beside those of the buffers they give up. -/
def legObjs : List Obj :=
  dropObjs ++ videoReleased ++ [.BLK_ADMIT_CYCLES, .RGN_ADMIT_CYCLES, .ADMIT_CYCLES_USE, .CELL_HOME_LOAD, .BLK_HOME_LOAD, .BLK_LEGS,
    .LEG_ADMIT_CYCLES, .LEG_ADMIT_BLOCK, .LEGS_ADMITTED, .LEG_STATE, .LEG_STATE_STRIDE, .LEG_PRIOR_STATE, .LEGS_SUSPENDED]

theorem core_confRecount (d : Dev) (k : Nat) : (d.confRecount k).core = d.core := by
  unfold Dev.confRecount
  split <;> rfl

theorem core_setLegState (d : Dev) (n : Nat) (s : LegState) : (d.setLegState n s).core = d.core := by
  unfold Dev.setLegState
  refine (core_confRecount _ _).trans ?_
  split <;> rfl

theorem beside_setLegState (d : Dev) (n : Nat) (s : LegState) : Beside legObjs d (d.setLegState n s) :=
  (within_setLegState d n s).beside (by decide) (core_setLegState d n s)

theorem core_endHome (d : Dev) (key c : Nat) : (d.endHome key c).core = d.core := by
  unfold Dev.endHome Dev.dropHome
  split <;> rfl

theorem beside_endHome (d : Dev) (key c : Nat) : Beside legObjs d (d.endHome key c) :=
  (within_endHome d key c).beside (by decide) (core_endHome d key c)

theorem beside_chargeCycles (d : Dev) (b : Nat) (c : Int) : Beside legObjs d (d.chargeCycles b c) :=
  (within_chargeCycles d b c).beside (by decide) rfl

theorem core_releaseVideo (d : Dev) (n : Nat) : (d.releaseVideo n).core = d.core := by
  unfold Dev.releaseVideo
  extract_lets l heir stripPx gone px d1 d2 kept d3 d4 own d5
  have h1 : d1.core = d.core := by
    refine core_foldl (fun e c => ?_) gone d
    rfl
  have h2 : d2.core = d1.core := rfl
  clear_value d2
  have h3 : d3.core = d2.core := by
    unfold d3
    split <;> rfl
  clear_value d3 stripPx heir l
  have h4 : d4.core = d3.core := by
    unfold d4
    split
    · exact core_confRecount _ _
    split <;> rfl
  clear_value d4
  exact (core_confRecount _ _).trans (h4.trans (h3.trans (h2.trans h1)))

theorem beside_releaseVideo (d : Dev) (n : Nat) : Beside legObjs d (d.releaseVideo n) :=
  (within_releaseVideo d n).beside (by decide) (core_releaseVideo d n)

theorem beside_releaseLeg (d : Dev) (n : Nat) : Beside legObjs d (d.releaseLeg n) := by
  unfold Dev.releaseLeg
  split
  · exact Beside.refl _ d
  extract_lets c b d1 d2 was d3
  have h1 : Beside legObjs d d1 := (beside_releaseVideo d n).trans (beside_chargeCycles _ b _)
  clear_value d1
  have hhome : Beside legObjs d1 ((d1.endHome n c).sub .BLK_LEGS b 1) := (beside_endHome d1 n c).put (o := .BLK_LEGS) (by decide) _ _ _
  have h2 : Beside legObjs d1 d2 := hhome.trans ((beside_dropAll _ _ _).mono (by decide))
  clear_value d2
  have h3 : Beside legObjs d2 d3 := (Beside.refl _ d2).parts rfl rfl
  exact (((h1.trans (h2.trans h3)).put (o := .LEG_ADMIT_CYCLES) (by decide) _ _ _).put (o := .LEG_ADMIT_BLOCK) (by decide) _ _ _).put
    (o := .LEGS_ADMITTED) (by decide) _ _ _

end Sys2Proof.Machine
end

section
/-! PROOFS. Alarms: what each latches and erases, the read-back of its erasure, and ALARM_CLEAR (O57). -/

namespace Sys2Proof.Machine

/-! ### Bits -/

theorem bit_withBit_same (v i : Nat) (b : Bool) : bit (withBit v i b) i = b := by
  have hpos : 0 < 2 ^ i := Nat.two_pow_pos i
  unfold withBit
  by_cases h : bit v i = b
  · rw [if_pos (beq_iff_eq.mpr h), h]
  rw [if_neg (fun hb => h (beq_iff_eq.mp hb))]
  unfold bit at h ⊢
  cases b with
  | true =>
    rw [if_pos rfl, Nat.add_div_right v hpos]
    simp only [beq_iff_eq] at h ⊢
    omega
  | false =>
    have hodd : v / 2 ^ i % 2 = 1 := by simpa using h
    have hle : 2 ^ i ≤ v := by
      by_contra hlt
      rw [Nat.div_eq_of_lt (not_le.mp hlt)] at hodd
      exact absurd hodd (by decide)
    have hsub : (v - 2 ^ i) / 2 ^ i = v / 2 ^ i - 1 := by
      simpa using Nat.sub_mul_div v (2 ^ i) 1
    rw [if_neg Bool.false_ne_true, hsub]
    simp only [beq_eq_false_iff_ne]
    omega

theorem bit_add_two_pow {w i j : Nat} (hw : bit w i = false) (hij : j ≠ i) : bit (w + 2 ^ i) j = bit w j := by
  unfold bit at *
  rcases Nat.lt_or_gt_of_ne hij with hlt | hgt
  · obtain ⟨k, rfl⟩ := Nat.exists_eq_add_of_lt hlt
    have hsplit : w + 2 ^ (j + k + 1) = w + 2 ^ j * (2 * 2 ^ k) := by ring
    rw [hsplit, Nat.add_mul_div_left _ _ (Nat.two_pow_pos j), Nat.add_mul_mod_self_left]
  · obtain ⟨k, rfl⟩ := Nat.exists_eq_add_of_lt hgt
    have heven : w / 2 ^ i % 2 ≠ 1 := by simpa using hw
    have hpow : 2 ^ (i + k + 1) = 2 ^ i * 2 * 2 ^ k := by ring
    have hhalf : (w + 2 ^ i) / 2 ^ i / 2 = w / 2 ^ i / 2 := by
      rw [Nat.add_div_right w (Nat.two_pow_pos i)]
      omega
    rw [hpow, ← Nat.div_div_eq_div_mul, ← Nat.div_div_eq_div_mul, ← Nat.div_div_eq_div_mul, ← Nat.div_div_eq_div_mul, hhalf]

theorem bit_withBit_clear (v i j : Nat) : bit (withBit v i false) j = (bit v j && decide (j ≠ i)) := by
  by_cases hij : j = i
  · subst hij
    simp [bit_withBit_same]
  rw [decide_eq_true hij, Bool.and_true]
  by_cases h : bit v i = false
  · unfold withBit
    rw [if_pos (beq_iff_eq.mpr h)]
  have hset : bit v i = true := by simpa using h
  have hle : 2 ^ i ≤ v := by
    by_contra hlt
    unfold bit at hset
    rw [Nat.div_eq_of_lt (not_le.mp hlt)] at hset
    exact absurd hset (by decide)
  have hclear : withBit v i false = v - 2 ^ i := by
    unfold withBit
    rw [if_neg (by simp [hset]), if_neg Bool.false_ne_true]
  have hoff := bit_withBit_same v i false
  rw [hclear] at hoff ⊢
  have hsum := bit_add_two_pow hoff hij
  rw [Nat.sub_add_cancel hle] at hsum
  exact hsum.symm

theorem nat_setBit (d : Dev) (o : Obj) (i : Nat) (b : Bool) : (d.setBit o 0 0 i b).nat o = withBit (d.nat o) i b := by
  simp [Dev.setBit, Dev.setI_eq]

/-! ### Rows that act once the block is released -/

theorem awake_closes {s : State} {f : Dev → Dev} {n count : Nat} {e : Dev} {P : State → Prop} (hn : n < count)
    (hr : s.dev.rst.released = true) (he : f s.dev = e) (hP : P { s with dev := e.settle }) :
    ∃ t, onUnit s n count (fun d => d.awake f) = .next t ∧ P t := by
  have hnext : onUnit s n count (fun d => d.awake f) = .next { s with dev := (s.dev.awake f).settle } := if_pos hn
  have hawake : s.dev.awake f = e := (if_pos hr).trans he
  rw [hawake] at hnext
  exact ⟨_, hnext, hP⟩

theorem awake_completes {s : State} {f : Dev → Dev} {n count : Nat} {e : Dev} {P : State → Prop} (hn : n < count)
    (hr : s.dev.rst.released = true) (he : f s.dev = e) (hq : e.quiet) (hP : P { s with dev := e }) :
    ∃ t, onUnit s n count (fun d => d.awake f) = .next t ∧ P t :=
  onUnit_completes hn ((if_pos hr).trans he) hq hP

/-! ### Sessions (R88) -/

theorem keepsBut_trans {d e f : Dev} {os : List Obj} (h : keepsBut d e os) (g : keepsBut e f os) : keepsBut d f os :=
  fun o u k ho => (g o u k ho).trans (h o u k ho)

/-- The objects that the end of sessions and the lock's release may write. -/
def sessionObjs : List Obj :=
  dropObjs ++ [.PUNT_OWNER, .PUNT_DROPPED, .SC_LOCK, .SC_LOCK_OWNER, .SC_STATUS, .SC_INPUT, .SC_OUTPUT, .SC_AAD, .SC_IV, .SC_TAG]

/-- `e` is `d` after sessions ended: beside their objects, the keys and the queued requests stand, and the lock stays free where it was. -/
structure SessionsEnd (d e : Dev) : Prop where
  obj : keepsBut d e sessionObjs
  sec : e.sec = { d.sec with job := e.sec.job }
  queue : e.hdp.queue = d.hdp.queue
  free : d.nat .SC_LOCK = 0 → e.nat .SC_LOCK = 0

theorem SessionsEnd.refl (d : Dev) : SessionsEnd d d := ⟨fun _ _ _ _ => rfl, rfl, rfl, id⟩

theorem SessionsEnd.trans {d e f : Dev} (h : SessionsEnd d e) (g : SessionsEnd e f) : SessionsEnd d f where
  obj := keepsBut_trans h.obj g.obj
  sec := by rw [g.sec, h.sec]
  queue := g.queue.trans h.queue
  free := fun h0 => g.free (h.free h0)

/-- A change beside the lock, of the objects of sessions. -/
theorem SessionsEnd.of_parts {d e : Dev} {os : List Obj} (hobj : keepsBut d e os) (hs : os ⊆ sessionObjs) (hlock : Obj.SC_LOCK ∉ os)
    (hsec : e.sec = d.sec) (hqueue : e.hdp.queue = d.hdp.queue) : SessionsEnd d e where
  obj o u k ho := hobj o u k fun hx => ho (hs hx)
  sec := by rw [hsec]
  queue := hqueue
  free h0 := (Dev.nat_eq_of_get (hobj .SC_LOCK 0 0 hlock)).trans h0

theorem sessionsEnd_lockExpire (d : Dev) (cause : Nat) : SessionsEnd d (d.lockExpire cause) := by
  unfold Dev.lockExpire
  split
  · have hw : Within [.SC_LOCK, .SC_LOCK_OWNER, .SC_STATUS, .SC_INPUT, .SC_OUTPUT, .SC_AAD, .SC_IV, .SC_TAG] d
        (((({ d with sec := { d.sec with job := none } }.setN .SC_LOCK 0 0).setN .SC_LOCK_OWNER 0 0).setN .SC_STATUS 0 6).clearScBuffers) :=
      ((((((((within_sec _ d _).put (o := .SC_LOCK) (by decide) _ _ _).put (o := .SC_LOCK_OWNER) (by decide) _ _ _).put (o := .SC_STATUS)
        (by decide) _ _ _).put (o := .SC_INPUT) (by decide) _ _ _).put (o := .SC_OUTPUT) (by decide) _ _ _).put (o := .SC_AAD)
        (by decide) _ _ _).put (o := .SC_IV) (by decide) _ _ _).put (o := .SC_TAG) (by decide) _ _ _
    exact ⟨fun o u k ho => hw.obj o u k fun hx => ho ((by decide : _ ⊆ sessionObjs) hx), rfl, rfl,
      fun _ => by simp [Dev.clearScBuffers, Dev.setN_eq]⟩
  · exact SessionsEnd.refl d

/-- The ports after their datagrams of session `id` were dropped. -/
theorem sessionsEnd_ports (d : Dev) (id : Nat) : SessionsEnd d ((List.range 4).foldl (fun d p =>
    let x := d.portOf p
    if thas 3 x.sys then d.setPort p { x with sys := tset 3 ((tget [] 3 x.sys).filter fun y => !y.ofSession id) x.sys } else d) d) := by
  refine foldl_keeps (P := SessionsEnd d) (fun e p h => h.trans ?_) _ (SessionsEnd.refl d)
  dsimp only
  split
  · exact SessionsEnd.of_parts (os := []) (fun _ _ _ _ => rfl) (List.nil_subset _) (by decide) rfl rfl
  · exact SessionsEnd.refl e

theorem sessionsEnd_closeSession (d : Dev) (id : Nat) : SessionsEnd d (d.closeSession id) := by
  unfold Dev.closeSession
  split
  · exact SessionsEnd.refl d
  next s _ =>
    extract_lets d1 _ d2 d3 held _ d4
    have h1 : SessionsEnd d d1 := by
      unfold d1
      split
      next b _ =>
        have hdrop := beside_dropAll d 2 b.handles
        exact SessionsEnd.of_parts hdrop.obj (List.subset_append_left _ _) (by decide) hdrop.sec (congrArg Hdp.queue hdrop.hdp)
      · exact SessionsEnd.refl d
    clear_value d1
    have h2 : SessionsEnd d1 d2 :=
      SessionsEnd.of_parts (os := []) (fun _ _ _ _ => rfl) (List.nil_subset _) (by decide) rfl rfl
    have h3 : SessionsEnd d2 d3 := sessionsEnd_ports d2 id
    clear_value d3
    have h4 : SessionsEnd d3 d4 := by
      unfold d4
      split
      · have hpunt : Within [.PUNT_OWNER, .PUNT_DROPPED] d3 { d3 with hdp := { d3.hdp with punt := [] } } :=
          (Within.refl _ d3).parts rfl rfl rfl rfl
        have hw : Within [.PUNT_OWNER, .PUNT_DROPPED] d3
            ((({ d3 with hdp := { d3.hdp with punt := [] } }).setN .PUNT_OWNER 0 0).add .PUNT_DROPPED 0 0 held) :=
          (hpunt.put (o := .PUNT_OWNER) (by decide) _ _ _).put (o := .PUNT_DROPPED) (by decide) _ _ _
        exact SessionsEnd.of_parts hw.obj (by decide) (by decide) rfl rfl
      · exact SessionsEnd.refl d3
    clear_value d4
    refine ((h1.trans h2).trans (h3.trans h4)).trans ?_
    split
    · exact sessionsEnd_lockExpire d4 2
    · exact SessionsEnd.refl d4

@[simp] theorem clearScBuffers_hdp (d : Dev) : d.clearScBuffers.hdp = d.hdp := by simp [Dev.clearScBuffers]

theorem lockExpire_hdp (d : Dev) (cause : Nat) : (d.lockExpire cause).hdp = d.hdp := by
  unfold Dev.lockExpire
  split
  · simp [Dev.setN_eq]
  · rfl

/-- A closed session is no longer among the open ones. -/
theorem closeSession_sessions (d : Dev) (id : Nat) :
    (d.closeSession id).hdp.sessions = d.hdp.sessions.filter fun x => decide (x.id ≠ id) := by
  unfold Dev.closeSession
  split
  next hnone =>
    have hnot : ∀ x ∈ d.hdp.sessions, decide (x.id ≠ id) = true := fun x hx => by
      simpa using List.find?_eq_none.mp hnone x hx
    exact (List.filter_eq_self.mpr hnot).symm
  next s _ =>
    extract_lets d1 _ d2 d3 held _ d4
    have h1 : d1.hdp = d.hdp := by
      unfold d1
      split
      · exact (beside_dropAll d 2 _).hdp
      · rfl
    clear_value d1
    have h3 : d3.hdp = d2.hdp := by
      refine foldl_keeps (P := fun e : Dev => e.hdp = d2.hdp) (fun e p h => Eq.trans ?_ h) _ rfl
      dsimp only
      split <;> rfl
    clear_value d3
    have h4 : d4.hdp.sessions = d3.hdp.sessions := by
      unfold d4
      split <;> rfl
    clear_value d4
    have h5 : ∀ e : Dev, (if (e.locked && decide (e.nat .SC_LOCK_OWNER = id)) = true then e.lockExpire 2 else e).hdp = e.hdp := by
      intro e
      split
      · exact lockExpire_hdp e 2
      · rfl
    rw [h5, h4, h3]
    exact congrArg (List.filter fun x => decide (x.id ≠ id)) (congrArg Hdp.sessions h1)

theorem closeSessions_empty (l : List Session) {d : Dev} (h : ∀ x ∈ d.hdp.sessions, ∃ y ∈ l, y.id = x.id) :
    (l.foldl (fun d s => d.closeSession s.id) d).hdp.sessions = [] := by
  induction l generalizing d with
  | nil => exact List.eq_nil_iff_forall_not_mem.mpr fun x hx => by simpa using h x hx
  | cons y r ih =>
    refine ih fun x hx => ?_
    rw [closeSession_sessions, List.mem_filter, decide_eq_true_eq] at hx
    obtain ⟨z, hz, hid⟩ := h x hx.1
    obtain rfl | hz := List.mem_cons.mp hz
    · exact absurd hid.symm hx.2
    · exact ⟨z, hz, hid⟩

theorem sessionsEnd_closeSessions (d : Dev) : SessionsEnd d d.closeSessions :=
  foldl_keeps (P := SessionsEnd d) (fun e x h => h.trans (sessionsEnd_closeSession e x.id)) _ (SessionsEnd.refl d)

theorem closeSessions_none (d : Dev) : d.closeSessions.hdp.sessions = [] := closeSessions_empty _ fun x hx => ⟨x, hx, rfl⟩

/-! ### The erasure (R455, R456) -/

/-- The objects that an erasure writes. -/
def erasedObjs : List Obj := [.SLOT_STATE, .SLOT_KCV, .SC_INPUT, .SC_OUTPUT, .SC_AAD, .SC_IV, .SC_TAG, .ALARM_ERASE_STATE]

theorem within_eraseKeys (d : Dev) : Within erasedObjs d d.eraseKeys := by
  unfold Dev.eraseKeys
  have hslots : Within erasedObjs d ((List.range 8).foldl (fun d s => (d.setN .SLOT_STATE s 0).setN .SLOT_KCV s 0)
      { d with sec := { d.sec with slots := [], hdpKeys := [], legKeys := [], erasing := true } }) :=
    Within.fold (fun e s => ((Within.refl _ e).put (o := .SLOT_STATE) (by decide) _ _ _).put (o := .SLOT_KCV) (by decide) _ _ _) _
      (within_sec _ d _)
  exact (((((hslots.put (o := .SC_INPUT) (by decide) _ _ _).put (o := .SC_OUTPUT) (by decide) _ _ _).put (o := .SC_AAD) (by decide) _ _ _).put
    (o := .SC_IV) (by decide) _ _ _).put (o := .SC_TAG) (by decide) _ _ _).put (o := .ALARM_ERASE_STATE) (by decide) _ _ _

theorem eraseKeys_sec (d : Dev) : d.eraseKeys.sec = { d.sec with slots := [], hdpKeys := [], legKeys := [], erasing := true } :=
  foldl_keeps (P := fun e : Dev => e.sec = { d.sec with slots := [], hdpKeys := [], legKeys := [], erasing := true })
    (fun _ _ h => h) (List.range 8) rfl

theorem eraseKeys_state (d : Dev) : d.eraseKeys.nat .ALARM_ERASE_STATE = 1 := Dev.nat_setN ..

/-- Slots that are cleared one after another read 0. -/
theorem slots_cleared (l : List Nat) (d : Dev) {n : Nat} (hn : n ∈ l ∨ d.nat .SLOT_STATE n = 0 ∧ d.nat .SLOT_KCV n = 0) :
    let e := l.foldl (fun d s => (d.setN .SLOT_STATE s 0).setN .SLOT_KCV s 0) d
    e.nat .SLOT_STATE n = 0 ∧ e.nat .SLOT_KCV n = 0 := by
  induction l generalizing d with
  | nil => simpa using hn
  | cons x r ih =>
    refine ih _ ?_
    by_cases hx : n = x
    · exact .inr (by simp [Dev.setN_eq, hx])
    · refine hn.imp (fun hmem => (List.mem_cons.mp hmem).resolve_left hx) fun h => ?_
      simpa [Dev.setN_eq, hx] using h

theorem eraseKeys_slots (d : Dev) {n : Nat} (hn : n < 8) : d.eraseKeys.nat .SLOT_STATE n = 0 ∧ d.eraseKeys.nat .SLOT_KCV n = 0 := by
  obtain ⟨hstate, hkcv⟩ := slots_cleared (List.range 8)
    { d with sec := { d.sec with slots := [], hdpKeys := [], legKeys := [], erasing := true } } (.inl (List.mem_range.mpr hn))
  unfold Dev.eraseKeys
  constructor
  · simpa [Dev.clearScBuffers, Dev.setN_eq] using hstate
  · simpa [Dev.clearScBuffers, Dev.setN_eq] using hkcv

theorem eraseKeys_hdp (d : Dev) : d.eraseKeys.hdp = d.hdp := by
  unfold Dev.eraseKeys
  extract_lets _ d1 d2
  have h : d2.hdp = d1.hdp :=
    foldl_keeps (P := fun e : Dev => e.hdp = d1.hdp) (fun e s h => by simpa [Dev.setN_eq] using h) (List.range 8) rfl
  rw [Dev.setN_eq, Dev.put_hdp, clearScBuffers_hdp]
  exact h

/-! ### An alarm (R454, R455) -/

/-- What an alarm does to a leg is its own objects, and its keys. -/
theorem alarmLeg_keeps (d : Dev) (n : Nat) : keepsBut d (d.alarmLeg n) legObjs ∧ (d.alarmLeg n).sec.tk = d.sec.tk := by
  have hrekey : keepsBut d (d.enterRekey n) legObjs ∧ (d.enterRekey n).sec.tk = d.sec.tk := by
    have hprior : Beside legObjs d (d.setN .LEG_PRIOR_STATE n (d.nat .LEG_STATE n)) :=
      (Beside.refl _ d).put (o := .LEG_PRIOR_STATE) (by decide) _ _ _
    unfold Dev.enterRekey
    extract_lets d1 _
    have hset := fun x => beside_setLegState (d1.setKeys n x) n .rekey
    exact ⟨keepsBut_trans hprior.obj (hset _).obj, (congrArg Sec.tk (hset _).sec).trans rfl⟩
  have hdrain : keepsBut d (d.endDrain n) legObjs ∧ (d.endDrain n).sec.tk = d.sec.tk := by
    unfold Dev.endDrain
    extract_lets was d1 d2
    have hclear : Beside legObjs (d.eraseLegKeys n) ((d.eraseLegKeys n).clearMedia n) := (Beside.refl _ _).parts rfl rfl
    have h1 : Beside legObjs (d.eraseLegKeys n) d1 := (hclear.trans (beside_releaseLeg _ n)).trans (beside_setLegState _ n .idle)
    clear_value d1
    have h2 : Beside legObjs d1 d2 := by
      unfold d2
      split
      · exact (Beside.refl _ d1).put (o := .LEGS_SUSPENDED) (by decide) _ _ _
      · exact Beside.refl _ d1
    have h := h1.trans h2
    exact ⟨h.obj, (congrArg Sec.tk h.sec).trans rfl⟩
  unfold Dev.alarmLeg
  split
  · exact hrekey
  · exact hrekey
  · exact hrekey
  · exact hdrain
  · exact ⟨fun _ _ _ _ => rfl, rfl⟩

theorem alarmLegs_keep (d : Dev) (l : List Nat) :
    keepsBut d (l.foldl Dev.alarmLeg d) legObjs ∧ (l.foldl Dev.alarmLeg d).sec.tk = d.sec.tk :=
  foldl_keeps (P := fun e : Dev => keepsBut d e legObjs ∧ e.sec.tk = d.sec.tk)
    (fun e n h => ⟨keepsBut_trans h.1 (alarmLeg_keeps e n).1, (alarmLeg_keeps e n).2.trans h.2⟩) l ⟨fun _ _ _ _ => rfl, rfl⟩

/-- `e` is `d` after an alarm of `source`: latched, counted, every key but TK erased, the lock free, no request of HDP queued and no
session open. -/
def Dev.raisedFrom (d : Dev) (source : Nat) (e : Dev) : Prop :=
  bit (e.nat .ALARM_LATCH) source = true ∧ bit (e.nat .ALARM_ACTIVE) source = true ∧
    e.nat .ALARM_COUNT = (d.nat .ALARM_COUNT + 1) % 2 ^ 32 ∧ e.nat .ALARM_ERASE_STATE = 1 ∧
    e.sec.slots = [] ∧ e.sec.hdpKeys = [] ∧ e.sec.legKeys = [] ∧ e.sec.tk = d.sec.tk ∧ e.nat .SC_LOCK = 0 ∧
    (∀ q ∈ e.hdp.queue, q.body.ofHdp = false) ∧ e.hdp.sessions = [] ∧ ∀ n, n < 8 → e.nat .SLOT_STATE n = 0 ∧ e.nat .SLOT_KCV n = 0

theorem Dev.raisedFrom.settle {d e : Dev} {source : Nat} (h : d.raisedFrom source e) : d.raisedFrom source e.settle := by
  have hnat : ∀ o ∈ [Obj.ALARM_LATCH, .ALARM_ACTIVE, .ALARM_COUNT, .ALARM_ERASE_STATE, .SC_LOCK, .SLOT_STATE, .SLOT_KCV],
      ∀ u, e.settle.nat o u = e.nat o u := fun o ho u => settle_nat e (by revert o; decide) u 0
  unfold Dev.raisedFrom at h ⊢
  rw [settle_sec, settle_hdp, hnat _ (by decide), hnat _ (by decide), hnat _ (by decide), hnat _ (by decide), hnat _ (by decide)]
  simpa only [hnat .SLOT_STATE (by decide), hnat .SLOT_KCV (by decide)] using h

/-- The objects that show an alarm: nothing that it ends or erases writes them. -/
def alarmShown : List Obj := [.ALARM_LATCH, .ALARM_ACTIVE, .ALARM_COUNT]

/-- The lock is free after the device released it. -/
theorem lockExpire_free (d : Dev) (cause : Nat) : (d.lockExpire cause).nat .SC_LOCK = 0 := by
  by_cases h : d.locked = true
  · obtain ⟨_, hlock, _⟩ := lockExpire_frees h cause
    exact hlock
  · have hkept : d.lockExpire cause = d := if_neg h
    have hint : d.int .SC_LOCK = 0 := by simpa [Dev.locked, Dev.flag] using h
    rw [hkept, Dev.nat, hint]
    rfl

theorem dropHdpRequests_queue (d : Dev) : ∀ q ∈ d.dropHdpRequests.hdp.queue, q.body.ofHdp = false := by
  intro q hq
  simpa using (List.mem_filter.mp hq).2

/-- What an alarm ends and erases after its latch: the lock, the queued requests, the keys and the sessions. -/
theorem erased_spec (d : Dev) : let e := ((d.lockExpire 3).dropHdpRequests).eraseKeys.closeSessions
    (∀ o ∈ alarmShown, e.nat o = d.nat o) ∧ e.nat .ALARM_ERASE_STATE = 1 ∧ e.sec.slots = [] ∧ e.sec.hdpKeys = [] ∧ e.sec.legKeys = [] ∧
      e.sec.tk = d.sec.tk ∧ e.nat .SC_LOCK = 0 ∧ (∀ q ∈ e.hdp.queue, q.body.ofHdp = false) ∧ e.hdp.sessions = [] ∧
      ∀ n, n < 8 → e.nat .SLOT_STATE n = 0 ∧ e.nat .SLOT_KCV n = 0 := by
  have hlock := sessionsEnd_lockExpire d 3
  have hfree := lockExpire_free d 3
  have hqueue := dropHdpRequests_queue (d.lockExpire 3)
  have hdrop : ∀ o u, (d.lockExpire 3).dropHdpRequests.nat o u = (d.lockExpire 3).nat o u := fun _ _ => rfl
  have hdropSec : (d.lockExpire 3).dropHdpRequests.sec = (d.lockExpire 3).sec := rfl
  generalize (d.lockExpire 3).dropHdpRequests = x at *
  intro e
  have hend := sessionsEnd_closeSessions x.eraseKeys
  have hw := within_eraseKeys x
  have hkeys : e.sec = { x.eraseKeys.sec with job := e.sec.job } := hend.sec
  rw [eraseKeys_sec, hdropSec, hlock.sec] at hkeys
  have hafter : ∀ o u, o ∉ sessionObjs → e.nat o u = x.eraseKeys.nat o u := fun o u ho => Dev.nat_eq_of_get (hend.obj o u 0 ho)
  refine ⟨fun o ho => ?_, (hafter .ALARM_ERASE_STATE 0 (by decide)).trans (eraseKeys_state x), by rw [hkeys], by rw [hkeys], by rw [hkeys],
    by rw [hkeys], hend.free ?_, ?_, closeSessions_none _, fun n hn => ?_⟩
  · have hout : o ∉ sessionObjs ∧ o ∉ erasedObjs := by
      revert o
      decide
    have hbefore := Dev.nat_eq_of_get (hlock.obj o 0 0 hout.1)
    exact (hafter o 0 hout.1).trans ((hw.nat hout.2 0 0).trans ((hdrop o 0).trans hbefore))
  · exact (hw.nat (o := .SC_LOCK) (by decide) 0 0).trans ((hdrop _ 0).trans hfree)
  · have hsame : e.hdp.queue = x.hdp.queue := hend.queue.trans (congrArg Hdp.queue (eraseKeys_hdp x))
    rw [hsame]
    exact hqueue
  · rw [hafter .SLOT_STATE n (by decide), hafter .SLOT_KCV n (by decide)]
    exact eraseKeys_slots x hn

/-- An alarm latches, counts and erases (R455). -/
theorem alarm_raises (d : Dev) (source : Nat) (parts : List Nat) : d.raisedFrom source (d.alarm source parts) := by
  unfold Dev.alarm
  extract_lets d1 d2 d3 d4 d5 code
  have hbits : Obj.ALARM_COUNT.row.ty.bits = 32 := rfl
  have hlatch : d2.nat .ALARM_LATCH = withBit (d.nat .ALARM_LATCH) source true := by
    simp [d2, d1, Dev.setBit, Dev.setI_eq, Dev.setN_eq]
  have hactive : d2.nat .ALARM_ACTIVE = withBit (d.nat .ALARM_ACTIVE) source true := by
    simp [d2, d1, Dev.setBit, Dev.setI_eq, Dev.setN_eq]
  have hcount : d2.nat .ALARM_COUNT = (d.nat .ALARM_COUNT + 1) % 2 ^ 32 := by
    simp [d2, d1, Dev.setBit, Dev.setI_eq, Dev.setN_eq, hbits]
  have htk : d2.sec.tk = d.sec.tk := rfl
  clear_value d2
  obtain ⟨hobj, htk3⟩ := alarmLegs_keep d2 d2.legs
  have h3 : ∀ o ∈ alarmShown, d3.nat o = d2.nat o := fun o ho => Dev.nat_eq_of_get (hobj o 0 0 (by revert o; decide))
  obtain ⟨hshown, hstate, hslots, hhdp, hlegs, htk5, hlock, hqueue, hsessions, hclear⟩ := erased_spec d3
  have hshow : ∀ o ∈ alarmShown, d5.nat o = d2.nat o := fun o ho => (hshown o ho).trans (h3 o ho)
  refine ⟨?_, ?_, ?_, hstate, hslots, hhdp, hlegs, htk5.trans (htk3.trans htk), hlock, hqueue, hsessions, hclear⟩
  · rw [Dev.logRec_nat, hshow _ (by decide), hlatch, bit_withBit_same]
  · rw [Dev.logRec_nat, hshow _ (by decide), hactive, bit_withBit_same]
  · rw [Dev.logRec_nat, hshow _ (by decide), hcount]

/-! ### The read-back, and ALARM_CLEAR (R455, R457) -/

/-- A read-back that is zero passes the erasure. -/
theorem eraseVerified_passes {d : Dev} (h : ¬(!d.sec.erasing) = true) : let e := d.eraseVerified true
    e.nat .ALARM_ERASE_STATE = 2 ∧ e.sec = { d.sec with erasing := false } ∧ Within [.ALARM_ERASE_STATE] d e := by
  have hrow : d.eraseVerified true = { d with sec := { d.sec with erasing := false } }.setN .ALARM_ERASE_STATE 0 2 := if_neg h
  rw [hrow]
  exact ⟨Dev.nat_setN .., rfl, (within_sec _ d _).put (by decide) _ _ _⟩

/-- A read-back that is not zero repeats the erasure and counts it. -/
theorem eraseVerified_repeats {d : Dev} (h : ¬(!d.sec.erasing) = true) : let e := d.eraseVerified false
    e.nat .ALARM_ERASE_STATE = 1 ∧ e.sec.slots = [] ∧ e.sec.erasing = true ∧
      e.nat .ALARM_ERASE_RETRIES = (d.nat .ALARM_ERASE_RETRIES + 1) % 2 ^ Obj.ALARM_ERASE_RETRIES.row.ty.bits ∧ (d.quiet → e.quiet) := by
  have hrow : d.eraseVerified false = d.eraseKeys.bump .ALARM_ERASE_RETRIES := if_neg h
  have hw := within_eraseKeys d
  have hsec := eraseKeys_sec d
  have hstate := eraseKeys_state d
  rw [hrow]
  generalize d.eraseKeys = x at hw hsec hstate ⊢
  refine ⟨?_, congrArg Sec.slots hsec, congrArg Sec.erasing hsec, ?_, hw.quiet⟩
  · exact (Dev.nat_bump ..).trans ((if_neg (by decide)).trans hstate)
  · refine (Dev.nat_bump ..).trans ((if_pos (by decide)).trans ?_)
    rw [hw.nat (by decide)]

theorem closes_registerCleared (d : Dev) (old : Nat) : Closes d (d.registerCleared old) := by
  unfold Dev.registerCleared
  split
  · exact closes_emcy ..
  · exact Closes.refl d

/-- ALARM_CLEAR accepted while an alarm is latched (R457). -/
def Dev.alarmClears (d : Dev) : Dev :=
  ((d.setN .ALARM_LATCH 0 0).logRec
    { level := 3, cls := .recovered, unit := secUnit, code := 0x0E05, detail := d.nat .ALARM_LATCH }).registerCleared d.errorRegister

theorem writeAlarmClear_clears {d : Dev} (h0 : d.nat .ALARM_LATCH ≠ 0) (h : d.nat .ALARM_ACTIVE = 0 ∧ d.nat .ALARM_ERASE_STATE = 2) :
    d.writeAlarmClear = .ok d.alarmClears := by
  unfold Dev.writeAlarmClear
  exact (if_neg h0).trans (if_pos h)

theorem writeAlarmClear_refused {d : Dev} (h0 : d.nat .ALARM_LATCH ≠ 0)
    (h : ¬(d.nat .ALARM_ACTIVE = 0 ∧ d.nat .ALARM_ERASE_STATE = 2)) : d.writeAlarmClear = .error (.deviceState, d) := by
  unfold Dev.writeAlarmClear
  exact (if_neg h0).trans (if_neg h)

/-- Settles O57: every source's alarm raises what `alarm_raises` says, the read-back passes or repeats, and ALARM_CLEAR waits for both. -/
theorem alarmsEraseTheKeys : Obligations.AlarmsEraseTheKeys := by
  unfold Obligations.AlarmsEraseTheKeys
  intro s hq
  extract_lets d raised
  have hraised : ∀ source e, d.raisedFrom source e → raised source { s with dev := e } := fun source e h => h
  have hraises : ∀ source parts, raised source { s with dev := (d.alarm source parts).settle } := fun source parts =>
    hraised source _ (alarm_raises d source parts).settle
  refine ⟨fun hrel => ⟨fun supply mv hs => ?supply, fun clock => ?clock, fun sensor celsius hs => ?temperature, ?tamper,
    fun zero => ?verify, fun source hsource => ?gone⟩, fun src hh => ?clear⟩
  case supply =>
    by_cases hout : mv < (supplyRange supply).1 ∨ (supplyRange supply).2 < mv
    · have hrow : d.supplyAlarm supply mv = d.alarm 0 [supply, mv] := if_pos hout
      exact awake_closes hs hrel hrow ⟨⟨rfl, rfl⟩, (if_pos hout).mpr (hraises 0 _)⟩
    · exact awake_completes hs hrel (if_neg hout) hq ⟨⟨rfl, rfl⟩, (if_neg hout).mpr rfl⟩
  case clock => exact awake_closes (n := 0) (count := 1) Nat.one_pos hrel (e := d.alarm 1 [clock]) rfl ⟨⟨rfl, rfl⟩, hraises 1 _⟩
  case temperature =>
    by_cases hout : 125 < celsius ∨ celsius < -50
    · have hrow : d.temperatureAlarm sensor celsius = d.alarm 2 [sensor, toWord 8 celsius] := if_pos hout
      exact awake_closes hs hrel hrow ⟨⟨rfl, rfl⟩, (if_pos hout).mpr (hraises 2 _)⟩
    · exact awake_completes hs hrel (if_neg hout) hq ⟨⟨rfl, rfl⟩, (if_neg hout).mpr rfl⟩
  case tamper => exact awake_closes (n := 0) (count := 1) Nat.one_pos hrel (e := d.alarm 3 []) rfl ⟨⟨rfl, rfl⟩, hraises 3 _⟩
  case verify =>
    by_cases herase : d.sec.erasing = false
    · have hrow : d.eraseVerified zero = d := if_pos (by simp [herase])
      exact awake_completes (n := 0) (count := 1) Nat.one_pos hrel hrow hq ⟨⟨rfl, rfl⟩, (if_pos herase).mpr rfl⟩
    have hnot : ¬(!d.sec.erasing) = true := by simpa using herase
    cases zero with
    | true =>
      obtain ⟨hstate, hsec, hw⟩ := eraseVerified_passes hnot
      exact awake_completes (n := 0) (count := 1) Nat.one_pos hrel rfl (hw.quiet hq)
        ⟨⟨rfl, rfl⟩, (if_neg herase).mpr ((if_pos rfl).mpr ⟨hstate, hsec, hw.obj⟩)⟩
    | false =>
      obtain ⟨hstate, hslots, herasing, hcount, hquiet⟩ := eraseVerified_repeats hnot
      exact awake_completes (n := 0) (count := 1) Nat.one_pos hrel rfl (hquiet hq)
        ⟨⟨rfl, rfl⟩, (if_neg herase).mpr ((if_neg Bool.false_ne_true).mpr ⟨hstate, hslots, herasing, hcount⟩)⟩
  case gone =>
    have hrow : d.alarmGone source = d.setBit .ALARM_ACTIVE 0 0 source false := if_pos hsource
    have hw : Within [.ALARM_ACTIVE] d (d.setBit .ALARM_ACTIVE 0 0 source false) :=
      (Within.refl _ d).put (o := .ALARM_ACTIVE) (by decide) _ _ _
    refine awake_completes hsource hrel hrow (hw.quiet hq) ⟨⟨rfl, rfl⟩, (onlyDict_refl d).put _ _ _ _, hw.obj, fun i => ?_⟩
    dsimp only
    rw [nat_setBit, bit_withBit_clear]
  case clear =>
    have hwrite : d.writeNum src { o := .ALARM_CLEAR } 1 = answerWrite src { o := .ALARM_CLEAR } d.writeAlarmClear :=
      writeNum_ALARM_CLEAR d 0 hh.2
    by_cases h0 : d.nat .ALARM_LATCH = 0
    · have hres : d.writeAlarmClear = .ok d := if_pos h0
      rw [hres] at hwrite
      exact onWrite_completes Nat.one_pos hh.1 hwrite (answerWrite_ok_quiet src _ hq) ⟨⟨rfl, rfl⟩, (if_pos (.inl h0)).mpr
        ⟨(answerWrite_ok_nat src _ _ 0 0 (by decide)).trans h0, answerWrite_ok_counted src _ _, rfl⟩⟩
    by_cases hpassed : d.nat .ALARM_ACTIVE = 0 ∧ d.nat .ALARM_ERASE_STATE = 2
    · rw [writeAlarmClear_clears h0 hpassed] at hwrite
      have hcloses : Closes ((d.setN .ALARM_LATCH 0 0).logRec
          { level := 3, cls := .recovered, unit := secUnit, code := 0x0E05, detail := d.nat .ALARM_LATCH }) d.alarmClears :=
        closes_registerCleared _ _
      have hlatch : d.alarmClears.nat .ALARM_LATCH = 0 := by
        refine (Dev.nat_eq_of_get (hcloses.obj _ 0 0 (by decide))).trans ?_
        simp [Dev.setN_eq]
      have hwrites : d.alarmClears.nat .DICT_WRITES = d.nat .DICT_WRITES := by
        refine (Dev.nat_eq_of_get (hcloses.obj _ 0 0 (by decide))).trans ?_
        simp [Dev.setN_eq]
      refine onWrite_answers Nat.one_pos hh.1 hwrite ⟨⟨rfl, rfl⟩, (if_pos (.inr hpassed)).mpr ⟨?_, ?_, ?_⟩⟩
      · exact (settle_nat _ (by decide) 0 0).trans ((answerWrite_ok_nat src _ _ 0 0 (by decide)).trans hlatch)
      · refine (settle_nat _ (by decide) 0 0).trans ((answerWrite_ok_counted src _ _).trans ?_)
        rw [hwrites]
      · exact (settle_sec _).trans hcloses.sec
    · rw [writeAlarmClear_refused h0 hpassed] at hwrite
      exact onWrite_completes Nat.one_pos hh.1 hwrite hq
        ⟨⟨rfl, rfl⟩, (if_neg (not_or.mpr ⟨h0, hpassed⟩)).mpr (answerWrite_refuses d src _ _)⟩

end Sys2Proof.Machine
end

section
/-! PROOFS. The option block: which copy boots, and how a newer one is written (O54). -/

namespace Sys2Proof.Machine

/-! ### The choice of the copy (R426) -/

/-- A copy is judged by its digests after every other check. -/
theorem optResult_digest (d : Dev) (c : OptCopy) : d.optResult c =
    if d.optResult { c with digestOk := true } = 1 then (if c.digestOk = true then 1 else 8)
    else d.optResult { c with digestOk := true } := by
  have howner : d.ownerOk { c with digestOk := true } = d.ownerOk c := rfl
  unfold Dev.optResult
  rw [howner]
  dsimp only
  repeat' split
  all_goals simp_all

/-- The choice between copies A and B by the results `ra` and `rb` of their checks before the digests. -/
def chooseBy (ra rb : Nat) (a b : OptCopy) : (Nat × Nat) × Option (Nat × OptCopy) :=
  let order := if rb = 1 ∧ (ra ≠ 1 ∨ a.sequence < b.sequence) then [(1, b), (0, a)] else [(0, a), (1, b)]
  let valid := order.filter fun x => decide ((if x.1 = 0 then ra else rb) = 1)
  let tried := valid.takeWhile fun x => !x.2.digestOk
  let bad := fun (h r : Nat) => if tried.any fun x => decide (x.1 = h) then 8 else r
  ((bad 0 ra, bad 1 rb), (valid.drop tried.length).head?)

theorem chooseCopy_eq (d : Dev) (a b : OptCopy) :
    d.chooseCopy a b = chooseBy (d.optResult { a with digestOk := true }) (d.optResult { b with digestOk := true }) a b := rfl

/-- With one copy or none past its first checks, the digests of that one decide. -/
theorem chooseCopy_spec (d : Dev) (a b : OptCopy) : let c := d.chooseCopy a b
    (d.optResult a = 1 → d.optResult b = 1 → c = ((1, 1), some (if a.sequence < b.sequence then (1, b) else (0, a)))) ∧
    (d.optResult a = 1 → d.optResult b ≠ 1 → c.2 = some (0, a)) ∧ (d.optResult a ≠ 1 → d.optResult b = 1 → c.2 = some (1, b)) ∧
    (d.optResult a ≠ 1 → d.optResult b ≠ 1 → c = ((d.optResult a, d.optResult b), none)) := by
  rw [optResult_digest d a, optResult_digest d b, chooseCopy_eq]
  generalize d.optResult { a with digestOk := true } = ra
  generalize d.optResult { b with digestOk := true } = rb
  unfold chooseBy
  by_cases ha : ra = 1
  · by_cases hb : rb = 1
    · by_cases hs : a.sequence < b.sequence <;> cases hda : a.digestOk <;> cases hdb : b.digestOk <;> simp [ha, hb, hda, hdb, hs]
    · cases hda : a.digestOk <;> simp [ha, hb, hda]
  · by_cases hb : rb = 1
    · cases hdb : b.digestOk <;> simp [ha, hb, hdb]
    · simp [ha, hb]

/-! ### The chosen copy (R427, R428) -/

theorem logBoot_parts (d : Dev) (source ra rb : Nat) :
    (d.logBoot source ra rb).dict = d.dict ∧ (d.logBoot source ra rb).rst = d.rst ∧ (d.logBoot source ra rb).can = d.can := by
  unfold Dev.logBoot
  extract_lets bad
  have hbad : ∀ e h r, (bad e h r).dict = e.dict ∧ (bad e h r).rst = e.rst ∧ (bad e h r).can = e.can := by
    intro e h r
    unfold bad
    split
    · exact ⟨rfl, rfl, rfl⟩
    · exact ⟨rfl, rfl, rfl⟩
  obtain ⟨hdict, hrst, hcan⟩ := hbad (bad d 0 ra) 1 rb
  obtain ⟨hdict0, hrst0, hcan0⟩ := hbad d 0 ra
  exact ⟨hdict.trans hdict0, hrst.trans hrst0, hcan.trans hcan0⟩

theorem nat_of_dict {d e : Dev} (h : e.dict = d.dict) (o : Obj) (u k : Nat) : e.nat o u k = d.nat o u k := by
  refine Dev.nat_eq_of_get ?_
  unfold Dev.get
  rw [h]

/-- A copy without P images writes none. -/
theorem applyImages_nil_dict (d : Dev) : (d.applyImages []).dict = d.dict := by
  have hskip : ∀ e : Dev, e.countSkipped 0 [] = e := fun e => rfl
  unfold Dev.applyImages
  simp [hskip, Dev.dropAllBroken, Dev.dropBroken]

/-- The objects that a copy without P images gives. -/
def copyObjs : List Obj := [.OPT_COPY, .OPT_SEQUENCE, .OPT_DIGEST, .RELEASE_GAP, .DRAM_RANKS, .POOL_SHARE, .OWNER_BOOT_SLOT]

theorem within_setShares (d : Dev) (shares : List Nat) : Within [.POOL_SHARE] d (d.setShares shares) :=
  Within.fold (fun e _ => (Within.refl _ e).put (o := .POOL_SHARE) (by decide) _ _ _) _ (Within.refl _ d)

theorem applyCopy_rst (d : Dev) (half : Nat) (c : OptCopy) :
    (d.applyCopy half c).rst.optDone = true ∧ (d.applyCopy half c).rst.standing = (if bit c.warmup 0 then c.stable else []) := ⟨rfl, rfl⟩

/-- A copy without P images gives its own fields, and nothing else. -/
theorem applyCopy_plain (d : Dev) (half : Nat) {c : OptCopy} (hp : c.ptable = []) : let e := d.applyCopy half c
    e.nat .OPT_COPY = half ∧ e.nat .OPT_SEQUENCE = c.sequence ∧ keepsBut d e copyObjs := by
  unfold Dev.applyCopy
  extract_lets gap d1 d2 d3 d4
  have h1 : d1.nat .OPT_COPY = half ∧ d1.nat .OPT_SEQUENCE = c.sequence ∧ Within copyObjs d d1 := by
    refine ⟨by simp [d1, Dev.setN_eq], by simp [d1, Dev.setN_eq], ?_⟩
    exact (((Within.refl _ d).put (o := .OPT_COPY) (by decide) _ _ _).put (o := .OPT_SEQUENCE) (by decide) _ _ _).put (o := .OPT_DIGEST)
      (by decide) _ _ _
  clear_value d1
  obtain ⟨hcopy, hseq, hw1⟩ := h1
  have hfields : Within [.RELEASE_GAP, .DRAM_RANKS, .POOL_SHARE, .OWNER_BOOT_SLOT] d1 d3 := by
    have h : Within [.RELEASE_GAP, .DRAM_RANKS, .POOL_SHARE, .OWNER_BOOT_SLOT] d1 ((d1.setN .RELEASE_GAP 0 gap).setN .DRAM_RANKS 0 c.ranks) :=
      ((Within.refl _ d1).put (o := .RELEASE_GAP) (by decide) _ _ _).put (o := .DRAM_RANKS) (by decide) _ _ _
    exact (h.trans ((within_setShares _ _).mono (by decide))).put (o := .OWNER_BOOT_SLOT) (by decide) _ _ _
  clear_value d3
  have hdict : d4.dict = d3.dict := by
    unfold d4
    rw [hp]
    exact applyImages_nil_dict d3
  clear_value d4
  have hobj : keepsBut d1 d4 [.RELEASE_GAP, .DRAM_RANKS, .POOL_SHARE, .OWNER_BOOT_SLOT] := by
    intro o u k ho
    refine Eq.trans ?_ (hfields.obj o u k ho)
    unfold Dev.get
    rw [hdict]
  refine ⟨(Dev.nat_eq_of_get (hobj _ 0 0 (by decide))).trans hcopy, (Dev.nat_eq_of_get (hobj _ 0 0 (by decide))).trans hseq,
    fun o u k ho => ?_⟩
  exact (hobj o u k fun hx => ho ((by decide : _ ⊆ copyObjs) hx)).trans (hw1.obj o u k ho)

theorem cobDefaults_parts (d : Dev) (n : Nat) : Beside [.COB_ID_EMCY, .RPDO_COB_ID, .TPDO_COB_ID] d (d.cobDefaults n) := by
  unfold Dev.cobDefaults
  extract_lets one d1
  have hone : ∀ (e : Dev) (o : Obj) (u v : Nat), o ∈ [Obj.COB_ID_EMCY, .RPDO_COB_ID, .TPDO_COB_ID] →
      Beside [.COB_ID_EMCY, .RPDO_COB_ID, .TPDO_COB_ID] e (one e o u v) := by
    intro e o u v ho
    unfold one
    split
    · exact Beside.refl _ e
    · exact (Beside.refl _ e).put ho _ _ _
  refine Beside.fold (fun e i => ?_) _ (hone d .COB_ID_EMCY 0 _ (by decide))
  exact (hone e .RPDO_COB_ID i _ (by decide)).trans (hone _ .TPDO_COB_ID i _ (by decide))

theorem bringup_parts (d : Dev) (k : Nat) : Beside [.BRINGUP_MS] d (d.bringup k) ∧ (d.bringup k).can = d.can := by
  unfold Dev.bringup
  split
  · have hdraw : Beside [.BRINGUP_MS] d d.draw.2 := (Beside.refl _ d).parts rfl rfl
    exact ⟨hdraw.put (o := .BRINGUP_MS) (by decide) _ _ _, rfl⟩
  · exact ⟨Beside.refl _ d, rfl⟩

theorem bootUp_parts (d : Dev) : d.bootUp.dict = d.dict ∧ d.bootUp.core = d.core ∧ d.bootUp.can.nmt = .preOperational := ⟨rfl, rfl, rfl⟩

/-- What the boot of a copy comes to, once it is applied. -/
theorem booted_spec (d : Dev) (n : Nat) : let e := ((d.cobDefaults n).bootUp).bringup 0
    e.can.nmt = .preOperational ∧ Beside [.COB_ID_EMCY, .RPDO_COB_ID, .TPDO_COB_ID, .BRINGUP_MS] d e := by
  obtain ⟨hbring, hcan⟩ := bringup_parts (d.cobDefaults n).bootUp 0
  obtain ⟨hdict, hcore, hnmt⟩ := bootUp_parts (d.cobDefaults n)
  refine ⟨(congrArg Can.nmt hcan).trans hnmt, ?_⟩
  exact (((cobDefaults_parts d n).mono (by decide)).parts hdict hcore).trans (hbring.mono (by decide))

/-! ### The fall-back (R426, R439) -/

/-- The objects that alarms may write. -/
def alarmObjs : List Obj := [.ALARM_LATCH, .ALARM_ACTIVE, .ALARM_COUNT, .ALARM_TIME] ++ legObjs ++ sessionObjs ++ erasedObjs

theorem alarm_keeps (d : Dev) (source : Nat) (parts : List Nat) : keepsBut d (d.alarm source parts) alarmObjs := by
  unfold Dev.alarm
  extract_lets d1 d2 d3 d4 d5 code
  have h2 : Within alarmObjs d d2 :=
    ((((Within.refl _ d).put (o := .ALARM_LATCH) (by decide) _ _ _).put (o := .ALARM_ACTIVE) (by decide) _ _ _).put (o := .ALARM_COUNT)
      (by decide) _ _ _).put (o := .ALARM_TIME) (by decide) _ _ _
  clear_value d2
  have h3 : keepsBut d2 d3 legObjs := (alarmLegs_keep d2 d2.legs).1
  clear_value d3
  have h4 : keepsBut d3 d4 sessionObjs := (sessionsEnd_lockExpire d3 3).obj
  clear_value d4
  have h5 : keepsBut d4 d4.eraseKeys erasedObjs := (within_eraseKeys d4).obj
  have h6 : keepsBut d4.eraseKeys d5 sessionObjs := (sessionsEnd_closeSessions d4.eraseKeys).obj
  intro o u k ho
  have hleg : o ∉ legObjs := fun hx => ho (by simp [alarmObjs, hx])
  have hsession : o ∉ sessionObjs := fun hx => ho (by simp [alarmObjs, hx])
  have herase : o ∉ erasedObjs := fun hx => ho (by simp [alarmObjs, hx])
  exact (h6 o u k hsession).trans ((h5 o u k herase).trans ((h4 o u k hsession).trans ((h3 o u k hleg).trans (h2.obj o u k ho))))

theorem relatch_keeps (d : Dev) (sources : Nat) : keepsBut d (d.relatch sources) alarmObjs := by
  refine foldl_keeps (P := fun e : Dev => keepsBut d e alarmObjs) (fun e i h => ?_) (List.range 4) fun _ _ _ _ => rfl
  split
  · exact keepsBut_trans h (alarm_keeps e i [])
  · exact h

/-- The fall-back runs in MINIMUM, says why, and boots CANopen. -/
theorem fallback_spec (d : Dev) (status : Nat) : let e := d.fallback 7 status
    e.can.nmt = .preOperational ∧ e.nat .SERVICE_STATE = 1 ∧ e.nat .OPT_STATUS = status ∧ e.nat .LAST_RESET = 0x03070000 := by
  unfold Dev.fallback
  extract_lets sources d1 p rst e
  have h1 : d1.nat .SERVICE_STATE = 1 ∧ d1.nat .OPT_STATUS = status ∧ d1.nat .LAST_RESET = 0x03070000 := by
    refine ⟨Dev.nat_setN .., ?_, ?_⟩
    · simp [d1, Dev.setService, Dev.setN_eq]
    · simp [d1, Dev.setService, Dev.newBoot, Dev.setN_eq]
  have hlatched : keepsBut d1 ({ d1 with rst := { rst with released := true, step := 2 }, pins := p }.relatch sources) alarmObjs :=
    relatch_keeps { d1 with rst := { rst with released := true, step := 2 }, pins := p } sources
  have he : e = ({ d1 with rst := { rst with released := true, step := 2 }, pins := p }.relatch sources).bootUp := rfl
  generalize { d1 with rst := { rst with released := true, step := 2 }, pins := p }.relatch sources = r at hlatched he
  clear_value e
  subst he
  obtain ⟨hservice, hstatus, hreset⟩ := h1
  obtain ⟨hdict, _, hnmt⟩ := bootUp_parts r
  have hkept : ∀ o, o ∉ alarmObjs → r.bootUp.nat o = d1.nat o := fun o ho =>
    (nat_of_dict hdict o 0 0).trans (Dev.nat_eq_of_get (hlatched o 0 0 ho))
  exact ⟨hnmt, (hkept _ (by decide)).trans hservice, (hkept _ (by decide)).trans hstatus, (hkept _ (by decide)).trans hreset⟩

/-! ### The reader (R426) -/

theorem service_minimum {d : Dev} (h : d.nat .SERVICE_STATE = 1) : d.service = .minimum := by
  unfold Dev.service
  rw [h]
  rfl

/-- May the reader run: once in a boot, after step 3, and not in the fall-back or a warm reset? -/
def Dev.reads (d : Dev) : Prop := ¬(d.rst.step < 3 ∨ d.rst.optDone = true ∨ d.rst.inWarm = true ∨ d.service = .minimum)

theorem optionBlockRead_idle {d : Dev} (h : ¬d.reads) (a b : OptCopy) (octal : Bool) : d.optionBlockRead a b octal = d :=
  if_pos (.inr (not_not.mp h))

/-- The device with the reader's results, before its copy is applied. -/
def Dev.readerShows (d : Dev) (ra rb : Nat) (octal : Bool) : Dev :=
  ((d.setN .XSPI_MODE 0 (if octal then 1 else 0)).setN .OPT_STATUS 0 (rb * 256 + ra)).logBoot (d.nat .LAST_RESET / 2 ^ 16 % 256) ra rb

theorem optionBlockRead_reads {d : Dev} (hrel : d.rst.released = true) (h : d.reads) (a b : OptCopy) (octal : Bool) :
    let c := d.chooseCopy (d.rst.halfA.found a) (d.rst.halfB.found b)
    d.optionBlockRead a b octal = match c.2 with
      | none => (d.fallback 7 (c.1.2 * 256 + c.1.1)).logBoot (d.nat .LAST_RESET / 2 ^ 16 % 256) c.1.1 c.1.2
      | some x =>
        let e := (d.readerShows c.1.1 c.1.2 octal).applyCopy x.1 x.2
        ((e.cobDefaults (e.nat .CAN_NODE_ID)).bootUp).bringup 0 := by
  have hnot : ¬((!d.rst.released) = true ∨ d.rst.step < 3 ∨ d.rst.optDone = true ∨ d.rst.inWarm = true ∨ d.service = .minimum) := by
    rintro (hr | hr)
    · simp [hrel] at hr
    · exact h hr
  intro c
  refine (if_neg hnot).trans ?_
  change (match c.2 with | none => _ | some (half, copy) => _) = _
  cases c.2 <;> rfl

/-- `t` is what a read of the copies leaves of `d`, with the choice `c` of one. -/
def Dev.bootedBy (t : Dev) (c : (Nat × Nat) × Option (Nat × OptCopy)) (octal : Bool) : Prop :=
  t.can.nmt = .preOperational ∧ match c.2 with
    | none => t.service = .minimum ∧ t.nat .OPT_STATUS = c.1.2 * 256 + c.1.1 ∧ t.nat .LAST_RESET = 0x03070000
    | some (half, x) => t.rst.optDone = true ∧ t.rst.standing = (if bit x.warmup 0 then x.stable else []) ∧
        (x.ptable = [] → t.nat .OPT_COPY = half ∧ t.nat .OPT_SEQUENCE = x.sequence ∧
          t.nat .OPT_STATUS = c.1.2 * 256 + c.1.1 ∧ t.nat .XSPI_MODE = (if octal then 1 else 0))

/-- No copy boots: the fall-back. -/
theorem reads_none (d : Dev) (source ra rb : Nat) (octal : Bool) :
    ((d.fallback 7 (rb * 256 + ra)).logBoot source ra rb).settle.bootedBy ((ra, rb), none) octal := by
  obtain ⟨hnmt, hservice, hstatus, hreset⟩ := fallback_spec d (rb * 256 + ra)
  generalize d.fallback 7 (rb * 256 + ra) = f at *
  obtain ⟨hdict, _, hcan⟩ := logBoot_parts f source ra rb
  generalize f.logBoot source ra rb = g at *
  have hkept : ∀ o, closeObj o = false → g.settle.nat o = f.nat o := fun o ho => (settle_nat g ho 0 0).trans (nat_of_dict hdict o 0 0)
  exact ⟨(settle_nmt g).trans ((congrArg Can.nmt hcan).trans hnmt), service_minimum ((hkept _ (by decide)).trans hservice),
    (hkept _ (by decide)).trans hstatus, (hkept _ (by decide)).trans hreset⟩

/-- A copy boots: its fields, the results of both, and the reader's mode. -/
theorem reads_some (d : Dev) (ra rb half : Nat) (c : OptCopy) (octal : Bool) :
    let x := (d.readerShows ra rb octal).applyCopy half c
    (((x.cobDefaults (x.nat .CAN_NODE_ID)).bootUp).bringup 0).settle.bootedBy ((ra, rb), some (half, c)) octal := by
  obtain ⟨hdone, hstanding⟩ := applyCopy_rst (d.readerShows ra rb octal) half c
  have hplain := fun hp => applyCopy_plain (d.readerShows ra rb octal) half (c := c) hp
  have hshown : (d.readerShows ra rb octal).nat .OPT_STATUS = rb * 256 + ra ∧
      (d.readerShows ra rb octal).nat .XSPI_MODE = (if octal then 1 else 0) := by
    obtain ⟨hdict, _⟩ := logBoot_parts ((d.setN .XSPI_MODE 0 (if octal then 1 else 0)).setN .OPT_STATUS 0 (rb * 256 + ra))
      (d.nat .LAST_RESET / 2 ^ 16 % 256) ra rb
    refine ⟨(nat_of_dict hdict _ 0 0).trans (Dev.nat_setN ..), (nat_of_dict hdict _ 0 0).trans ?_⟩
    exact (Dev.nat_setN_other _ 0 0 _ 0 (by decide)).trans (Dev.nat_setN ..)
  obtain ⟨hstatus, hmode⟩ := hshown
  generalize (d.readerShows ra rb octal).applyCopy half c = x at *
  obtain ⟨hnmt, hbooted⟩ := booted_spec x (x.nat .CAN_NODE_ID)
  dsimp only
  generalize ((x.cobDefaults (x.nat .CAN_NODE_ID)).bootUp).bringup 0 = e at *
  have hrst : e.settle.rst = x.rst := (settle_rst e).trans hbooted.rst
  refine ⟨(settle_nmt e).trans hnmt, (congrArg Reset.optDone hrst).trans hdone, (congrArg Reset.standing hrst).trans hstanding,
    fun hp => ?_⟩
  obtain ⟨hcopy, hseq, hkeeps⟩ := hplain hp
  have hkept : ∀ o ∈ [Obj.OPT_COPY, .OPT_SEQUENCE, .OPT_STATUS, .XSPI_MODE], e.settle.nat o = x.nat o := fun o ho =>
    (settle_nat e (by revert o; decide) 0 0).trans (hbooted.nat (by revert o; decide) 0 0)
  have hbefore : ∀ o ∈ [Obj.OPT_STATUS, .XSPI_MODE], x.nat o = (d.readerShows ra rb octal).nat o := fun o ho =>
    Dev.nat_eq_of_get (hkeeps o 0 0 (by revert o; decide))
  exact ⟨(hkept _ (by decide)).trans hcopy, (hkept _ (by decide)).trans hseq,
    (hkept _ (by decide)).trans ((hbefore _ (by decide)).trans hstatus), (hkept _ (by decide)).trans ((hbefore _ (by decide)).trans hmode)⟩

theorem optionBlockRead_boots {d : Dev} (hrel : d.rst.released = true) (h : d.reads) (a b : OptCopy) (octal : Bool) :
    (d.optionBlockRead a b octal).settle.bootedBy (d.chooseCopy (d.rst.halfA.found a) (d.rst.halfB.found b)) octal := by
  rw [optionBlockRead_reads hrel h a b octal]
  generalize d.chooseCopy (d.rst.halfA.found a) (d.rst.halfB.found b) = c
  obtain ⟨⟨ra, rb⟩, chosen⟩ := c
  cases chosen with
  | none => exact reads_none d (d.nat .LAST_RESET / 2 ^ 16 % 256) ra rb octal
  | some x =>
    obtain ⟨half, c⟩ := x
    exact reads_some d ra rb half c octal

/-- The first part of O54. -/
theorem optionBlockBoots : Sys2Proof.Claim.OptionBlockBoots := by
  refine ⟨fun d a b => chooseCopy_spec d a b, fun s a b octal hq hrel => ?_⟩
  by_cases hreads : s.dev.reads
  · have hboots := optionBlockRead_boots hrel hreads a b octal
    obtain ⟨e, he⟩ : ∃ e, s.dev.optionBlockRead a b octal = e := ⟨_, rfl⟩
    rw [he] at hboots
    generalize hx : e.settle = x at hboots
    obtain ⟨hnmt, hrest⟩ := hboots
    refine awake_closes (n := 0) (count := 1) Nat.one_pos hrel he ⟨⟨rfl, rfl⟩, (if_neg hreads).mpr ?_⟩
    rw [hx]
    exact ⟨hnmt, hrest⟩
  · exact awake_completes (n := 0) (count := 1) Nat.one_pos hrel (optionBlockRead_idle hreads a b octal) hq
      ⟨⟨rfl, rfl⟩, (if_pos (not_not.mp hreads)).mpr rfl⟩

/-! ### A copy is written (R431) -/

/-- The half that a write of a copy takes: the one not booted, or with none booted the next. -/
def Dev.nextHalf (d : Dev) : Nat := if d.nat .OPT_COPY = 0xFF then d.rst.writeHalf else 1 - d.nat .OPT_COPY

/-- The erase of the half that is to take copy `c` has begun. -/
def Dev.optErases (d : Dev) (c : OptCopy) : Dev :=
  let half := d.nextHalf
  let gone : Half := { touched := true }
  let e := { d with rst := { d.rst with
    writing := some c, writeHalf := if d.nat .OPT_COPY = 0xFF then 1 - half else half
    halfA := if half = 0 then gone else d.rst.halfA, halfB := if half = 0 then d.rst.halfB else gone } }
  (e.setN .OPT_WRITE_STATE 0 1).emit (.flash half)

theorem keepsBut_optErases (d : Dev) (c : OptCopy) : keepsBut d (d.optErases c) [.OPT_WRITE_STATE] := by
  intro o u k ho
  unfold Dev.optErases
  rw [Dev.emit_get, Dev.setN_eq]
  exact Dev.get_put_other _ _ fun hk => ho (by simp [hk.1])

/-- May copy `c` be written: valid for this device, and newer than the booted one? -/
def Dev.optTakes (d : Dev) (c : OptCopy) : Prop := d.optResult c = 1 ∧ (d.nat .OPT_COPY = 0xFF ∨ d.nat .OPT_SEQUENCE < c.sequence)

theorem writeOption_range {d : Dev} {c : OptCopy} (h : ¬d.optTakes c) : d.writeOption c = .error (.range, d) := by
  unfold Dev.writeOption
  by_cases hvalid : d.optResult c = 1
  · refine (need_ok (decide_eq_true hvalid)).trans (need_error ?_)
    simpa [not_or] using fun hnew => h ⟨hvalid, hnew⟩
  · exact need_error (decide_eq_false hvalid)

theorem writeOption_busy {d : Dev} {c : OptCopy} (h : d.optTakes c) (hbusy : 1 ≤ d.nat .OPT_WRITE_STATE ∧ d.nat .OPT_WRITE_STATE ≤ 3) :
    d.writeOption c = .error (.deviceState, d) := by
  unfold Dev.writeOption
  refine (need_ok (decide_eq_true h.1)).trans ((need_ok ?_).trans (need_error ?_))
  · simpa using h.2
  · simpa using hbusy

theorem writeOption_erases {d : Dev} {c : OptCopy} (h : d.optTakes c) (hfree : ¬(1 ≤ d.nat .OPT_WRITE_STATE ∧ d.nat .OPT_WRITE_STATE ≤ 3)) :
    d.writeOption c = .ok (d.optErases c) := by
  unfold Dev.writeOption
  refine (need_ok (decide_eq_true h.1)).trans ((need_ok ?_).trans (need_ok ?_))
  · simpa using h.2
  · simpa [Nat.lt_one_iff, imp_iff_not_or] using hfree

/-- The row of OPT_IMAGE comes to its write. -/
theorem optImage_row {d : Dev} {src : Src} (hh : d.hears src { o := .OPT_IMAGE }) (img : OptCopy) :
    (d.access src fun d => let k : Key := { o := .OPT_IMAGE }
      answerWrite src k (d.orRefuse (k.mayWrite src) >>= fun _ => d.writeOption img)) =
      answerWrite src { o := .OPT_IMAGE } (d.writeOption img) := by
  have hmay : Key.mayWrite { o := .OPT_IMAGE } src = .ok () := mayWrite_ok hh.2 rfl rfl
  refine (if_pos hh.1).trans ?_
  dsimp only
  rw [hmay]
  rfl

/-- The half holds what its programming left. -/
def Dev.optHolds (d : Dev) (ok : Bool) (c : OptCopy) : Dev :=
  let x : Half := if ok then { touched := true, img := some c } else {}
  { d with rst := { d.rst with
    writing := none, halfA := if d.optHalf = 0 then x else d.rst.halfA, halfB := if d.optHalf = 0 then d.rst.halfB else x } }

theorem optWritten_spec {d : Dev} {c : OptCopy} (hw : d.rst.writing = some c) (hstate : d.nat .OPT_WRITE_STATE = 2) (ok : Bool) :
    let e := d.optWritten ok
    e.nat .OPT_WRITE_STATE = (if ok then 4 else 5) ∧ e.rst = (d.optHolds ok c).rst := by
  unfold Dev.optWritten
  rw [hw]
  dsimp only
  rw [if_neg (not_not.mpr hstate)]
  cases ok with
  | true => exact ⟨by simp [Dev.setN_eq], rfl⟩
  | false => exact ⟨by simp [Dev.setN_eq], rfl⟩

/-- The second part of O54. -/
theorem optionImagesAreWritten : Sys2Proof.Claim.OptionImagesAreWritten := by
  intro s hq
  extract_lets d
  refine ⟨fun src img hh => ?image, fun hrel => ?erased, fun hrel ok => ?written⟩
  case image =>
    have hrow := optImage_row hh img
    by_cases htakes : d.optTakes img
    swap
    · rw [writeOption_range htakes] at hrow
      exact onDev_completes hrow hq ⟨⟨rfl, rfl⟩, (if_pos htakes).mpr (answerWrite_refuses d src _ _)⟩
    by_cases hbusy : 1 ≤ d.nat .OPT_WRITE_STATE ∧ d.nat .OPT_WRITE_STATE ≤ 3
    · rw [writeOption_busy htakes hbusy] at hrow
      exact onDev_completes hrow hq
        ⟨⟨rfl, rfl⟩, (if_neg (not_not.mpr htakes)).mpr ((if_pos hbusy).mpr (answerWrite_refuses d src _ _))⟩
    rw [writeOption_erases htakes hbusy] at hrow
    have hkeeps : keepsBut d (d.optErases img) [.OPT_WRITE_STATE] := keepsBut_optErases d img
    refine onDev_completes hrow (answerWrite_ok_quiet src _ hq)
      ⟨⟨rfl, rfl⟩, (if_neg (not_not.mpr htakes)).mpr ((if_neg hbusy).mpr ⟨?_, rfl, answerWrite_ok_keeps src _ hkeeps, fun h0 => ?_,
        fun h1 => ?_⟩)⟩
    · refine (answerWrite_ok_nat src _ _ 0 0 (by decide)).trans ?_
      simp [Dev.optErases, Dev.setN_eq]
    · have hhalf : d.nextHalf = 1 := by simp [Dev.nextHalf, h0]
      exact ⟨if_neg (by rw [hhalf]; decide), if_neg (by rw [hhalf]; decide)⟩
    · have hhalf : d.nextHalf = 0 := by simp [Dev.nextHalf, h1]
      exact ⟨if_pos hhalf, if_pos hhalf⟩
  case erased =>
    by_cases hstate : d.nat .OPT_WRITE_STATE = 1
    · have hrow : d.optErased = d.setN .OPT_WRITE_STATE 0 2 := if_pos hstate
      have hw : Within [.OPT_WRITE_STATE] d (d.setN .OPT_WRITE_STATE 0 2) := (Within.refl _ d).put (by decide) _ _ _
      exact awake_completes (n := 0) (count := 1) Nat.one_pos hrel hrow (hw.quiet hq)
        ⟨⟨rfl, rfl⟩, (if_pos hstate).mpr ⟨Dev.nat_setN .., hw.obj, (onlyDict_refl d).put _ _ _ _⟩⟩
    · have hrow : d.optErased = d := if_neg hstate
      exact awake_completes (n := 0) (count := 1) Nat.one_pos hrel hrow hq ⟨⟨rfl, rfl⟩, (if_neg hstate).mpr rfl⟩
  case written =>
    refine awake_closes (n := 0) (count := 1) Nat.one_pos hrel (e := d.optWritten ok) rfl ⟨⟨rfl, rfl⟩, fun c hc hstate => ?_⟩
    obtain ⟨hshown, hrst⟩ := optWritten_spec hc hstate ok
    generalize d.optWritten ok = e at hshown hrst
    have hhalves : e.settle.rst = (d.optHolds ok c).rst := (settle_rst e).trans hrst
    dsimp only
    rw [hhalves]
    refine ⟨(settle_nat e (by decide) 0 0).trans hshown, rfl, ?_, ?_⟩
    · by_cases hhalf : d.optHalf = 0
      · rw [if_pos hhalf]
        cases ok <;> simp [Dev.optHolds, hhalf]
      · rw [if_neg hhalf]
        cases ok <;> simp [Dev.optHolds, hhalf]
    · by_cases hhalf : d.optHalf = 0
      · rw [if_pos hhalf]
        exact if_pos hhalf
      · rw [if_neg hhalf]
        exact if_neg hhalf

/-- Settles O54: its two parts, the boot's choice and the write of a newer copy. -/
theorem optionBlockIsReadAndWritten : Obligations.OptionBlockIsReadAndWritten := ⟨optionBlockBoots, optionImagesAreWritten⟩

end Sys2Proof.Machine
end

section
/-! PROOFS. Faults of cells and blocks (O47). -/

namespace Sys2Proof.Machine

/-! ### Items that are cut short (R320, R380) -/

/-- The cells and the blocks, beside their objects. -/
def Dev.sched (d : Dev) : List (Nat × Cell) × List (Nat × Blk) := (d.cell, d.blk)

/-- The objects that a concealed item may write. -/
def cutObjs : List Obj :=
  [.LEG_IN_LEVEL, .LEG_IN_PEAK, .LEG_ACTIVITY, .LEG_CONCEALED, .TAP_DATA, .LEG_OUT_LEVEL, .LEG_OUT_PEAK, .AUDIO_OVERRUNS, .BLK_OVERRUNS]

/-- `e` is `d` after an item was cut short: beside `cutObjs`, no object, cell or block changes. -/
structure Cuts (d e : Dev) : Prop where
  obj : keepsBut d e cutObjs
  sched : e.sched = d.sched

theorem Cuts.refl (d : Dev) : Cuts d d := ⟨fun _ _ _ _ => rfl, rfl⟩

theorem Cuts.trans {d e f : Dev} (h : Cuts d e) (g : Cuts e f) : Cuts d f := ⟨keepsBut_trans h.obj g.obj, g.sched.trans h.sched⟩

theorem Within.cuts {os : List Obj} {d e : Dev} (h : Within os d e) (hs : os ⊆ cutObjs) (hsched : e.sched = d.sched) : Cuts d e :=
  ⟨fun o u k ho => h.obj o u k fun hx => ho (hs hx), hsched⟩

theorem cuts_inLevels (d : Dev) (n : Nat) (x : List Int) : Cuts d (d.inLevels n x) := by
  have hw : Within [.LEG_IN_LEVEL, .LEG_IN_PEAK, .LEG_ACTIVITY] d (d.inLevels n x) :=
    ((((Within.refl _ d).setAudio n _).put (o := .LEG_IN_LEVEL) (by decide) _ _ _).put (o := .LEG_IN_PEAK) (by decide) _ _ _).put
      (o := .LEG_ACTIVITY) (by decide) _ _ _
  exact hw.cuts (by decide) rfl

theorem cuts_setAudio (d : Dev) (n : Nat) (a : LegAudio) : Cuts d (d.setAudio n a) := ⟨fun _ _ _ _ => rfl, rfl⟩

theorem cuts_concealInput (d : Dev) (n : Nat) : Cuts d (d.concealInput n) := by
  have hpass : Cuts d (d.passStreams n true) := ⟨fun _ _ _ _ => rfl, rfl⟩
  exact (hpass.trans (cuts_setAudio _ n _)).trans (cuts_inLevels _ n _)

theorem cuts_countConcealed (d : Dev) (n : Nat) : Cuts d (d.countConcealed n) := by
  unfold Dev.countConcealed
  dsimp only
  split
  · exact Cuts.refl d
  · have hw : Within [.LEG_CONCEALED] d ((d.setAudio n { d.audioOf n with concealedAt := some d.stride }).bump .LEG_CONCEALED n) :=
      ((Within.refl _ d).setAudio n _).put (o := .LEG_CONCEALED) (by decide) _ _ _
    exact hw.cuts (by decide) rfl

theorem sched_tap (d : Dev) (n point : Nat) (xs : List Int) : (d.tap n point xs).sched = d.sched := by
  unfold Dev.tap
  split <;> rfl

theorem sched_toFrame (d : Dev) (n : Nat) (y : List Int) : (d.toFrame n y).sched = d.sched := by
  unfold Dev.toFrame Dev.toFrameAt
  extract_lets w rate a c d1 frame k a1 len t d2 cut
  have h1 : d1.sched = d.sched := sched_tap d n 4 _
  clear_value d1
  split
  · rfl
  split
  · exact h1
  · exact h1

theorem cuts_concealOutput (d : Dev) (n : Nat) : Cuts d (d.concealOutput n) := by
  unfold Dev.concealOutput
  extract_lets a y d1
  have h1 : Cuts d d1 := cuts_setAudio d n _
  clear_value d1 y
  have h2 := cuts_countConcealed d1 n
  generalize d1.countConcealed n = d2 at h2 ⊢
  have h3 : Cuts d2 (d2.tap n 3 y) := (tap_spec d2 n n 3 y).1.cuts (by decide) (sched_tap d2 n 3 y)
  generalize d2.tap n 3 y = d3 at h3 ⊢
  have h4 : Cuts d3 (d3.outLevels n y) := (outLevels_spec d3 n y).1.cuts (by decide) rfl
  generalize d3.outLevels n y = d4 at h4 ⊢
  have h5 : Cuts d4 (d4.toFrame n y) := (toFrame_spec d4 n y).1.cuts (by decide) (sched_toFrame d4 n y)
  exact (h1.trans h2).trans ((h3.trans h4).trans h5)

theorem cuts_countOverrun (d : Dev) (b : Nat) : Cuts d (d.countOverrun b) := by
  have h : Within [.AUDIO_OVERRUNS, .BLK_OVERRUNS] d (d.bump .AUDIO_OVERRUNS) := (Within.refl _ d).put (o := .AUDIO_OVERRUNS) (by decide) _ _ _
  unfold Dev.countOverrun
  dsimp only
  split
  · exact (h.put (o := .BLK_OVERRUNS) (by decide) _ _ _).cuts (by decide) rfl
  · exact h.cuts (by decide) rfl

theorem cuts_failItem (d : Dev) (k : ItemKind) (u : Nat) : Cuts d (d.failItem k u) := by
  unfold Dev.failItem
  split
  · exact Cuts.refl d
  · exact ⟨fun _ _ _ _ => rfl, rfl⟩

theorem cuts_cutItem (d : Dev) (k : ItemKind) (u : Nat) : Cuts d (d.cutItem k u) := by
  unfold Dev.cutItem
  dsimp only
  split
  · split
    · exact Cuts.refl d
    · exact ((cuts_concealInput d u).trans (cuts_setAudio _ u _)).trans (cuts_countOverrun _ _)
  · split
    · exact Cuts.refl d
    · exact ((cuts_concealOutput d u).trans (cuts_setAudio _ u _)).trans (cuts_countOverrun _ _)
  · split
    · exact Cuts.refl d
    · exact (cuts_setAudio d u _).trans (cuts_countOverrun _ _)
  · exact cuts_failItem d .mix u
  · exact cuts_failItem d .loop u
  · exact Cuts.refl d

/-! ### Re-runs (R378 to R380) -/

/-- The objects that a re-run may write. -/
def rerunObjs : List Obj := cutObjs ++ [.RERUNS_CONCEALED, .RERUNS_LOCAL, .RERUNS_REMOTE, .CELL_LOOP_MISSES]

/-- `e` is `d` after items were re-run or given up: halted cells stand, and the same blocks are halted. -/
structure Reruns (d e : Dev) : Prop where
  obj : keepsBut d e rerunObjs
  cell : ∀ c, (d.cellOf c).halted = true → e.cellOf c = d.cellOf c
  blk : ∀ b, (e.blkOf b).halted = (d.blkOf b).halted

theorem Reruns.refl (d : Dev) : Reruns d d := ⟨fun _ _ _ _ => rfl, fun _ _ => rfl, fun _ => rfl⟩

theorem Reruns.trans {d e f : Dev} (h : Reruns d e) (g : Reruns e f) : Reruns d f where
  obj := keepsBut_trans h.obj g.obj
  cell c hc := (g.cell c ((congrArg Cell.halted (h.cell c hc)).trans hc)).trans (h.cell c hc)
  blk b := (g.blk b).trans (h.blk b)

/-- A change that leaves cells and blocks. -/
theorem Reruns.of_sched {d e : Dev} (hobj : keepsBut d e rerunObjs) (hsched : e.sched = d.sched) : Reruns d e := by
  obtain ⟨hcell, hblk⟩ := Prod.mk.inj hsched
  refine ⟨hobj, fun c _ => ?_, fun b => ?_⟩
  · unfold Dev.cellOf
    rw [hcell]
  · unfold Dev.blkOf
    rw [hblk]

/-- A change of a block that leaves it halted or not. -/
theorem reruns_setBlk (d : Dev) (b : Nat) {y : Blk} (hy : y.halted = (d.blkOf b).halted) : Reruns d (d.setBlk b y) := by
  refine ⟨fun _ _ _ _ => rfl, fun _ _ => rfl, fun b' => ?_⟩
  rw [Dev.blkOf_setBlk]
  split
  next h => rw [hy, h]
  · rfl

/-- A change of a cell that is not halted. -/
theorem reruns_setCell (d : Dev) {c : Nat} (hc : (d.cellOf c).halted = false) (x : Cell) : Reruns d (d.setCell c x) := by
  refine ⟨fun _ _ _ _ => rfl, fun c' hc' => ?_, fun _ => rfl⟩
  rw [Dev.cellOf_setCell, if_neg]
  rintro rfl
  exact absurd hc' (by simp [hc])

theorem idleReserve_running {d : Dev} {b c : Nat} (h : d.idleReserve b = some c) : (d.cellOf c).halted = false := by
  unfold Dev.idleReserve at h
  split at h
  · exact nomatch h
  · have hfound := List.find?_some h
    simp only [Bool.and_eq_true, Bool.not_eq_true'] at hfound
    exact hfound.1.2

theorem reserveFor_running {d : Dev} {b c : Nat} {own : Bool} (h : d.reserveFor b own = some c) : (d.cellOf c).halted = false := by
  obtain ⟨i, _, hi⟩ := List.exists_of_findSome?_eq_some h
  exact idleReserve_running hi

theorem reruns_boostFor (d : Dev) (b : Nat) : Reruns d (d.boostFor b) := by
  unfold Dev.boostFor
  split
  · exact Reruns.refl d
  · exact reruns_setBlk d b rfl

/-- The reserve `c` takes item `i`. -/
def Dev.reserveTakes (d : Dev) (c : Nat) (i : Item) : Dev :=
  (d.setCell c { d.cellOf c with running := some i, slots := [], began := d.gen.total, stopped := none }).loadCell c i

theorem reruns_reserveTakes (d : Dev) {c : Nat} (hc : (d.cellOf c).halted = false) (i : Item) : Reruns d (d.reserveTakes c i) := by
  have hset := reruns_setCell d hc { d.cellOf c with running := some i, slots := [], began := d.gen.total, stopped := none }
  unfold Dev.reserveTakes
  generalize he : d.setCell c { d.cellOf c with running := some i, slots := [], began := d.gen.total, stopped := none } = e at hset ⊢
  have hrun : (e.cellOf c).halted = false := by
    rw [← he, Dev.cellOf_setCell, if_pos rfl]
    exact hc
  have hload : Reruns e (e.loadCell c i) := by
    unfold Dev.loadCell
    extract_lets x q r lines kept
    have hcell := reruns_setCell e hrun { x with tags := r.2, kept := kept }
    generalize e.setCell c { x with tags := r.2, kept := kept } = f at hcell ⊢
    have hadd : Within [.CELL_LOOP_MISSES] f (f.add .CELL_LOOP_MISSES c 0 r.1) := (Within.refl _ f).put (by decide) _ _ _
    exact hcell.trans (Reruns.of_sched (fun o u k ho => hadd.obj o u k fun hx => ho ((by decide : _ ⊆ rerunObjs) hx)) rfl)
  exact hset.trans hload

theorem reruns_bump (d : Dev) {o : Obj} (ho : o ∈ rerunObjs) (u : Nat) : Reruns d (d.bump o u) :=
  Reruns.of_sched ((Within.refl _ d).put ho _ _ _).obj rfl

theorem reruns_rerun (d : Dev) (b : Nat) (own late : Bool) (i : Item) : Reruns d (d.rerun b own late i).1 := by
  unfold Dev.rerun
  extract_lets audio give
  have hgive : Reruns d (give d).1 := by
    unfold give
    split
    · exact reruns_setBlk d b rfl
    · have hcut := cuts_cutItem d i.kind i.unit
      have hobj : keepsBut d (d.cutItem i.kind i.unit) rerunObjs := fun o u k ho =>
        hcut.obj o u k fun hx => ho (List.mem_append_left _ hx)
      exact (Reruns.of_sched hobj hcut.sched).trans (reruns_bump _ (by decide) 0)
  clear_value give
  split
  · exact Reruns.refl d
  split
  · exact hgive
  split
  · exact hgive
  next c hc =>
    have htakes := reruns_reserveTakes d (reserveFor_running hc) i
    refine (htakes.trans (reruns_bump _ ?_ 0)).trans (reruns_boostFor _ _)
    split <;> decide

/-! ### Faults of cells (R378, R379) -/

/-- The fault's spent injection changes no object, cell or block. -/
theorem spend_keeps (d : Dev) (kind unit : Nat) : let e := (d.spend kind unit).2
    e.dict = d.dict ∧ e.sched = d.sched := by
  unfold Dev.spend
  dsimp only
  split <;> exact ⟨rfl, rfl⟩

/-- Cell `c` has given up what it ran and held. -/
def Dev.cellHalted (d : Dev) (c : Nat) : Prop :=
  (d.cellOf c).halted = true ∧ (d.cellOf c).running = none ∧ (d.cellOf c).slots = []

theorem Dev.cellHalted.of_cell {d e : Dev} {c : Nat} (h : d.cellHalted c) (he : e.cell = d.cell) : e.cellHalted c := by
  unfold Dev.cellHalted Dev.cellOf at *
  rwa [he]

theorem Dev.cellHalted.reruns {d e : Dev} {c : Nat} (h : d.cellHalted c) (hr : Reruns d e) : e.cellHalted c := by
  have hcell := hr.cell c h.1
  unfold Dev.cellHalted at *
  rwa [hcell]

@[simp] theorem setBlk_cell (d : Dev) (b : Nat) (y : Blk) : (d.setBlk b y).cell = d.cell := rfl

theorem limited_cell (d : Dev) (b less cap : Nat) : ((d.sub .ADMIT_CYCLES_CAP 0 less).setN .BLK_CAPACITY b cap).cell = d.cell := rfl

theorem loseReserve_cell (d : Dev) (b : Nat) : (d.loseReserve b).cell = d.cell := by
  unfold Dev.loseReserve
  extract_lets cap e
  have he : e.cell = d.cell := limited_cell d b _ _
  clear_value e
  rw [setBlk_cell, Dev.setN_eq, Dev.put_cell, he]

theorem retireCell_cell (d : Dev) (c : Nat) : (d.retireCell c).cell = d.cell := by
  by_cases h : d.nat .CELL_STATE c = 3
  · exact congrArg Dev.cell (if_pos h)
  · obtain ⟨e, r, he, heq⟩ := retireCell_eq h
    have hcell : e.cell = d.cell := by
      obtain rfl | ⟨n, _, rfl⟩ := he
      · simp [Dev.countRetired, Dev.setN_eq]
      · simp [Dev.countRetired, Dev.moveHomes, Dev.setLoad, Dev.setN_eq]
    clear he
    rw [heq, Dev.logRec_cell, loseReserve_cell, hcell]

theorem cellFault_halts {d : Dev} {c : Nat} {det : CellDetector} (cycle : Nat) (counts : Bool)
    (hstate : ¬(d.nat .CELL_STATE c = 3 ∨ d.nat .CELL_STATE c = 4)) (hdet : det ≠ .corrected) :
    (d.cellFault c det cycle counts).cellHalted c := by
  unfold Dev.cellFault
  rw [if_neg hstate]
  extract_lets s d1 b x y d2 was d3 d4 r q code parts d5 h
  have h3 : d3.cellHalted c := by
    unfold Dev.cellHalted
    rw [Dev.cellOf_setCell, if_pos rfl]
    exact ⟨rfl, rfl, rfl⟩
  clear_value d3
  have h4 : d4.cellHalted c := h3.of_cell rfl
  clear_value d4
  have hr : r.1.cellHalted c := by
    unfold r
    split
    · exact h4.reruns (reruns_rerun d4 _ _ _ _)
    · exact h4
  clear_value r
  have h5 : d5.cellHalted c := hr.of_cell rfl
  clear_value d5
  have hhit : h.2.cellHalted c := h5.of_cell rfl
  clear_value h
  split
  · exact absurd rfl hdet
  split
  · exact h5
  split
  · exact hhit.of_cell (retireCell_cell _ _)
  · exact hhit

/-! ### Reset events and what they lose (R439) -/

/-- The objects that an event of R439 writes. -/
def eventObjs : List Obj := [.RESET_EPOCH, .REVERTED_MASK, .LAST_RESET]

/-- `e` is `d` after one event of R439, of which LAST_RESET says `what`. -/
def Dev.resets (d e : Dev) (what : Nat) : Prop :=
  e.nat .RESET_EPOCH = (d.nat .RESET_EPOCH + 1) % 2 ^ 32 ∧ e.nat .LAST_RESET = what ∧ e.nat .REVERTED_MASK = d.nat .REVERTED_MASK ||| 4

theorem resets_resetEvent (d : Dev) (kind source unit : Nat) :
    d.resets (d.resetEvent kind source unit 4) (kind * 2 ^ 24 + source * 2 ^ 16 + unit) := by
  have hbits : Obj.RESET_EPOCH.row.ty.bits = 32 := rfl
  unfold Dev.resetEvent
  extract_lets e
  have hepoch : e.nat .RESET_EPOCH = (d.nat .RESET_EPOCH + 1) % 2 ^ 32 := by
    simp only [e, Dev.setN_eq, Dev.nat_put, Dev.nat_bump, hbits]
    simp
  have hmask : e.nat .REVERTED_MASK = d.nat .REVERTED_MASK ||| 4 := Dev.nat_setN ..
  clear_value e
  exact ⟨(Dev.nat_setN_other _ _ _ _ _ (by decide)).trans hepoch, Dev.nat_setN .., (Dev.nat_setN_other _ _ _ _ _ (by decide)).trans hmask⟩

theorem keepsBut_resetEvent (d : Dev) (kind source unit mask : Nat) : keepsBut d (d.resetEvent kind source unit mask) eventObjs :=
  ((((Within.refl _ d).put (o := .RESET_EPOCH) (by decide) _ _ _).put (o := .REVERTED_MASK) (by decide) _ _ _).put (o := .LAST_RESET)
    (by decide) _ _ _).obj

theorem Dev.resets.after {d e f : Dev} {what : Nat} (h : d.resets e what) (hk : ∀ o ∈ eventObjs, f.nat o = e.nat o) : d.resets f what := by
  unfold Dev.resets at *
  rwa [hk _ (by decide), hk _ (by decide), hk _ (by decide)]

theorem Dev.resets.before {d e f : Dev} {what : Nat} (h : e.resets f what) (hk : ∀ o ∈ eventObjs, e.nat o = d.nat o) : d.resets f what := by
  unfold Dev.resets at *
  rwa [hk .RESET_EPOCH (by decide), hk .REVERTED_MASK (by decide)] at h

theorem Dev.resets.settle {d e : Dev} {what : Nat} (h : d.resets e what) : d.resets e.settle what :=
  h.after fun o ho => settle_nat e (by revert o; decide) 0 0

/-- An object that keeps its values over the reset of its unit, or that reports the unit, stands when the unit's live values are lost. -/
theorem loseL_get (d : Dev) (mine : Key → Bool) {o : Obj} (ho : o.row.cls ≠ .L ∨ o ∈ reported) (u k : Nat) :
    (d.loseL mine).get o u k = d.get o u k := by
  unfold Dev.get Dev.loseL
  refine tget_filter _ _ _ (fun v => ?_) _
  obtain h | h := ho
  · simp [h]
  · simp [h]

theorem loseL_nat (d : Dev) (mine : Key → Bool) {o : Obj} (ho : o.row.cls ≠ .L ∨ o ∈ reported) (u k : Nat) :
    (d.loseL mine).nat o u k = d.nat o u k := Dev.nat_eq_of_get (loseL_get d mine ho u k)

/-- A value that is not of the unit stands when the unit's live values are lost. -/
theorem loseL_get_of_other (d : Dev) {mine : Key → Bool} {o : Obj} {u k : Nat} (h : mine ⟨o, u, k⟩ = false) :
    (d.loseL mine).get o u k = d.get o u k := by
  unfold Dev.get Dev.loseL
  refine tget_filter _ _ _ (fun v => ?_) _
  simp [h]

/-- The objects of pairs, composers and regions are none of a block's. -/
theorem keyOfBlock_other {o : Obj} (h : o.row.base = 0x6140) (b u k : Nat) : keyOfBlock b ⟨o, u, k⟩ = false := by simp [keyOfBlock, h]

/-- A unit loses its live values, as an event of R439. -/
theorem resets_loseL (d : Dev) (mine : Key → Bool) (kind source unit : Nat) :
    d.resets ((d.loseL mine).resetEvent kind source unit 4) (kind * 2 ^ 24 + source * 2 ^ 16 + unit) :=
  (resets_resetEvent (d.loseL mine) kind source unit).before fun o ho => loseL_nat d mine (by revert o; decide) 0 0

/-! ### Faults of blocks (R382) -/

theorem failBlockItems_keeps (d : Dev) (b : Nat) : keepsBut d (d.failBlockItems b) rerunObjs := by
  unfold Dev.failBlockItems
  extract_lets items late d1 x d2
  have h1 : keepsBut d d1 rerunObjs := by
    refine foldl_keeps (P := fun e : Dev => keepsBut d e rerunObjs) (fun e j h => ?_) (List.range 16) (Reruns.refl d).obj
    exact h
  clear_value d1 items
  have h2 : keepsBut d d2 rerunObjs := h1
  exact foldl_keeps (P := fun e : Dev => keepsBut d e rerunObjs) (fun e i h => keepsBut_trans h (reruns_rerun e b false late i).obj) items h2

/-- Block `b` is marked with a state that stands, with its cells and its bit, before what it loses. -/
def Dev.blockMarked (d : Dev) (b st : Nat) : Dev :=
  let cells := ((List.range 16).map (16 * b + ·)).filter fun c => decide (d.nat .CELL_STATE c ≠ 3)
  let d := cells.foldl (fun d c => d.setN .CELL_STATE c (if st = 3 then 4 else 3)) d
  let d := d.setN .RETIRED_CELLS 0 (d.nat .RETIRED_CELLS + cells.length)
  (d.setN .BLK_STATE b st).setBit .RETIRED_BLOCKS 0 0 b true

/-- The flows of block `b` are to move at the next edge. -/
def Dev.rehomes (d : Dev) (b : Nat) : Dev := { d with faults := { d.faults with rehome := d.faults.rehome ++ [b] } }

theorem closeBlock_fenced (d : Dev) (b : Nat) :
    d.closeBlock b 3 = (((d.blockMarked b 3).loseL (keyOfBlock b)).resetEvent 5 4 b 4).rehomes b := rfl

theorem closeBlock_retired (d : Dev) (b : Nat) : d.closeBlock b 4 = (d.blockMarked b 4).rehomes b := rfl

/-- The objects that mark a block. -/
def markObjs : List Obj := [.CELL_STATE, .RETIRED_CELLS, .BLK_STATE, .RETIRED_BLOCKS]

theorem within_cellStates (d : Dev) (l : List Nat) (st : Nat) :
    Within [.CELL_STATE] d (l.foldl (fun d c => d.setN .CELL_STATE c st) d) :=
  Within.fold (fun e _ => (Within.refl _ e).put (o := .CELL_STATE) (by decide) _ _ _) l (Within.refl _ d)

theorem blockMarked_spec (d : Dev) (b st : Nat) : let e := d.blockMarked b st
    e.nat .BLK_STATE b = st ∧ bit (e.nat .RETIRED_BLOCKS) b = true ∧ (∀ u, u ≠ b → e.nat .BLK_STATE u = d.nat .BLK_STATE u) ∧
      keepsBut d e markObjs ∧ e.blk = d.blk := by
  unfold Dev.blockMarked
  extract_lets cells d1 d2 e
  have h1 : Within [.CELL_STATE] d d1 := within_cellStates d cells _
  have hblk : d1.blk = d.blk := by
    refine foldl_keeps (P := fun e : Dev => e.blk = d.blk) (fun e c h => ?_) cells rfl
    exact h
  clear_value d1 cells
  have h2 : Within markObjs d d2 := (h1.mono (by decide)).put (o := .RETIRED_CELLS) (by decide) _ _ _
  have hblk2 : d2.blk = d.blk := hblk
  have hstate : ∀ u, d2.nat .BLK_STATE u = d.nat .BLK_STATE u := fun u =>
    (Dev.nat_setN_other _ _ _ _ _ (by decide)).trans (h1.nat (by decide) u 0)
  clear_value d2
  refine ⟨?_, ?_, fun u hu => ?_, ?_, hblk2⟩
  · simp [e, Dev.setBit, Dev.setI_eq, Dev.setN_eq]
  · rw [nat_setBit, bit_withBit_same]
  · rw [← hstate u]
    simp [e, Dev.setBit, Dev.setI_eq, Dev.setN_eq, hu]
  · exact ((h2.put (o := .BLK_STATE) (by decide) _ _ _).put (o := .RETIRED_BLOCKS) (by decide) _ _ _).obj

/-- A fenced block is marked, loses its live values, and is an event of R439. -/
theorem closeBlock_fences (d : Dev) (b : Nat) : let e := d.closeBlock b 3
    e.nat .BLK_STATE b = 3 ∧ bit (e.nat .RETIRED_BLOCKS) b = true ∧ d.resets e (0x05040000 + b) ∧
      (∀ u, u ≠ b → e.nat .BLK_STATE u = d.nat .BLK_STATE u) ∧
      ∀ o, o ∉ markObjs → o ∉ eventObjs → (o.row.cls ≠ .L ∨ o.row.base = 0x6140) → ∀ u k, e.get o u k = d.get o u k := by
  rw [closeBlock_fenced]
  obtain ⟨hstate, hbit, hothers, hkeeps, _⟩ := blockMarked_spec d b 3
  generalize d.blockMarked b 3 = m at *
  have hreset := resets_loseL m (keyOfBlock b) 5 4 b
  have hevent := keepsBut_resetEvent (m.loseL (keyOfBlock b)) 5 4 b 4
  have hlost := fun o ho u k => loseL_get m (keyOfBlock b) (o := o) ho u k
  have hother := fun (o : Obj) (ho : o.row.base = 0x6140) u k => loseL_get_of_other m (keyOfBlock_other ho b u k)
  generalize m.loseL (keyOfBlock b) = l at *
  generalize l.resetEvent 5 4 b 4 = r at *
  have hkept : ∀ o u, o ∉ eventObjs → (o.row.cls ≠ .L ∨ o ∈ reported) → (r.rehomes b).nat o u = m.nat o u := fun o u he ho =>
    Dev.nat_eq_of_get ((hevent o u 0 he).trans (hlost o ho u 0))
  have hwhat : 5 * 2 ^ 24 + 4 * 2 ^ 16 + b = 0x05040000 + b := by norm_num
  refine ⟨(hkept _ _ (by decide) (by decide)).trans hstate, ?_, ?_, fun u hu => (hkept _ _ (by decide) (by decide)).trans (hothers u hu),
    fun o hm he hc u k => ?_⟩
  · rw [hkept .RETIRED_BLOCKS 0 (by decide) (by decide)]
    exact hbit
  · rw [hwhat] at hreset
    refine (hreset.before fun o ho => ?_).after fun o _ => rfl
    exact Dev.nat_eq_of_get (hkeeps o 0 0 (by revert o; decide))
  · exact ((hevent o u k he).trans (hc.elim (fun h => hlost o (.inl h) u k) fun h => hother o h u k)).trans (hkeeps o u k hm)

/-- A block in service is reset for a fault of its own unit (R382): `n` is the unit, and repeated faults retire the block. -/
def Dev.blockReset (d : Dev) (b n : Nat) : Dev :=
  let s := if n = 2 then d.spend 1 b else (0, d)
  let d := s.2.failBlockItems b
  let d := (d.loseL (keyOfBlock b)).resetEvent 5 4 b 4
  let d := d.setBlk b { d.blkOf b with halted := true }
  let d := d.logRec { level := 1, cls := .recovered, action := .unitReset, unit := b, code := 0x0202, detail := n + s.1 }
  if s.1 ≠ 0 then d else
    let h := d.hit (.block b)
    if h.1 then
      let moved := (h.2.legs.filter fun n => decide (h.2.nat .LEG_ADMIT_BLOCK n = b)).length
      (h.2.closeBlock b 4).logRec
        { level := 1, cls := .degraded, action := .retired, unit := b, code := 0x0204, detail := moved }
    else h.2

/-- `e` is `d` with block `b` halted and reset. -/
def Dev.blockHalted (d : Dev) (b : Nat) (e : Dev) : Prop := (e.blkOf b).halted = true ∧ d.resets e (0x05040000 + b)

theorem Dev.blockHalted.after {d e f : Dev} {b : Nat} (h : d.blockHalted b e) (hblk : f.blk = e.blk)
    (hobj : ∀ o ∈ eventObjs, f.nat o = e.nat o) : d.blockHalted b f := by
  refine ⟨?_, h.2.after hobj⟩
  unfold Dev.blkOf
  rw [hblk]
  exact h.1

theorem blockReset_halts (d : Dev) (b n : Nat) : d.blockHalted b (d.blockReset b n) := by
  unfold Dev.blockReset
  extract_lets s d1 d2 was d3 d4 h moved
  have hspent : s.2.dict = d.dict := by
    unfold s
    split
    · exact (spend_keeps d 1 b).1
    · rfl
  clear_value s
  have h1 : keepsBut s.2 d1 rerunObjs := failBlockItems_keeps s.2 b
  clear_value d1
  have h2 : d.resets d2 (0x05040000 + b) := by
    have hwhat : 5 * 2 ^ 24 + 4 * 2 ^ 16 + b = 0x05040000 + b := by norm_num
    have hreset := resets_loseL d1 (keyOfBlock b) 5 4 b
    rw [hwhat] at hreset
    exact hreset.before fun o ho => (Dev.nat_eq_of_get (h1 o 0 0 (by revert o; decide))).trans (nat_of_dict hspent o 0 0)
  clear_value d2
  have h3 : d.blockHalted b d3 := ⟨by simp [d3], h2.after fun o _ => rfl⟩
  clear_value d3
  have h4 : d.blockHalted b d4 := h3.after rfl fun o _ => rfl
  clear_value d4
  have hhit : d.blockHalted b h.2 := h4.after rfl fun o _ => rfl
  clear_value h
  split
  · exact h4
  split
  · rw [closeBlock_retired]
    obtain ⟨_, _, _, hkeeps, hblk⟩ := blockMarked_spec h.2 b 4
    generalize h.2.blockMarked b 4 = m at hkeeps hblk ⊢
    have hm : d.blockHalted b m := hhit.after hblk fun o ho => Dev.nat_eq_of_get (hkeeps o 0 0 (by revert o; decide))
    exact hm.after rfl fun o _ => rfl
  · exact hhit

theorem inRegion_closes {s : State} {n count g : Nat} {f : Dev → Dev} {e : Dev} {P : State → Prop} (hn : n < count)
    (hr : s.dev.regionRuns g = true) (he : f s.dev = e) (hP : P { s with dev := e.settle }) :
    ∃ t, onUnit s n count (fun d => d.inRegion g f) = .next t ∧ P t := by
  subst he
  exact ⟨_, inRegion_next hn hr, hP⟩

theorem Dev.cellHalted.settle {d : Dev} {c : Nat} (h : d.cellHalted c) : d.settle.cellHalted c := h.of_cell (settle_cell d)

theorem Dev.blockHalted.settle {d e : Dev} {b : Nat} (h : d.blockHalted b e) : d.blockHalted b e.settle :=
  h.after (settle_blk e) fun o ho => settle_nat e (by revert o; decide) 0 0

theorem cellFault_idle {d : Dev} {c : Nat} (h : d.nat .CELL_STATE c = 3 ∨ d.nat .CELL_STATE c = 4) (det : CellDetector) (cycle : Nat) :
    d.cellFault c det cycle = d := if_pos h

/-- A corrected word is logged, and stops nothing. -/
theorem cellFault_corrected {d : Dev} {c : Nat} (h : ¬(d.nat .CELL_STATE c = 3 ∨ d.nat .CELL_STATE c = 4)) (cycle : Nat) :
    d.cellFault c .corrected cycle = d.logRec { level := 0, cls := .corrected, action := .corrected, unit := c, code := 0x0101
                                                detail := Config.detail 0x0101 [cycle] } := if_neg h

theorem blockFault_corrected {d : Dev} {b : Nat} (h : ¬3 ≤ d.nat .BLK_STATE b) (a : Nat) :
    d.blockFault b (.memCorrected a) = (d.bump .BLK_MEM_CORRECTED b).logRec
      { level := 1, cls := .corrected, action := .corrected, unit := b, code := 0x0201, detail := a } := if_neg h

theorem blockFault_memory {d : Dev} {b : Nat} (h : ¬3 ≤ d.nat .BLK_STATE b) (c a : Nat) :
    d.blockFault b (.memory c a) = if c / 16 = b then d.cellFault c .secded (d.blockNow b) false else d := if_neg h

theorem blockFault_scheduler {d : Dev} {b : Nat} (h : ¬3 ≤ d.nat .BLK_STATE b) : d.blockFault b .scheduler = d.blockReset b 1 := if_neg h
theorem blockFault_bus {d : Dev} {b : Nat} (h : ¬3 ≤ d.nat .BLK_STATE b) : d.blockFault b .bus = d.blockReset b 2 := if_neg h
theorem blockFault_watchdog {d : Dev} {b : Nat} (h : ¬3 ≤ d.nat .BLK_STATE b) : d.blockFault b .watchdog = d.blockReset b 3 := if_neg h

theorem blockFault_clock {d : Dev} {b : Nat} (h : ¬3 ≤ d.nat .BLK_STATE b) (khz : Nat) :
    d.blockFault b (.clock khz) = ((d.failBlockItems b).closeBlock b 3).logRec
      { level := 1, cls := .degraded, action := .fenced, unit := b, code := 0x0203, detail := khz } := if_neg h

/-- A block whose clock is out of range is fenced, as an event of R439. -/
theorem failed_fences (d : Dev) (b : Nat) (r : Rec) : let e := (((d.failBlockItems b).closeBlock b 3).logRec r).settle
    e.nat .BLK_STATE b = 3 ∧ bit (e.nat .RETIRED_BLOCKS) b = true ∧ d.resets e (0x05040000 + b) := by
  have hitems := failBlockItems_keeps d b
  generalize d.failBlockItems b = f at *
  obtain ⟨hstate, hbit, hevent, _⟩ := closeBlock_fences f b
  generalize f.closeBlock b 3 = g at *
  have hresets : d.resets (g.logRec r) (0x05040000 + b) :=
    (hevent.before fun o ho => Dev.nat_eq_of_get (hitems o 0 0 (by revert o; decide))).after fun o _ => rfl
  refine ⟨(settle_nat _ (by decide) b 0).trans hstate, ?_, hresets.settle⟩
  rw [settle_nat _ (by decide)]
  exact hbit

theorem rejoin_runs (d : Dev) (b : Nat) : (d.rejoin b).blkOf b = { d.blkOf b with halted := false } ∧ Within [] d (d.rejoin b) := by
  unfold Dev.rejoin
  split
  · exact ⟨by simp, (Within.refl _ d).setBlk _ _⟩
  next h =>
    refine ⟨?_, Within.refl _ d⟩
    have hhalted : (d.blkOf b).halted = false := by simpa using h
    generalize d.blkOf b = x at hhalted ⊢
    cases x
    exact congrArg _ hhalted

/-- Settles O47: a cell that fails halts (`cellFault_halts`), a block is reset (`blockReset_halts`) or fenced (`failed_fences`), and one
that was reset rejoins. -/
theorem cellAndBlockFaults : Obligations.CellAndBlockFaults := by
  unfold Obligations.CellAndBlockFaults
  intro s hq
  extract_lets d event
  refine ⟨fun c det cycle hc hr => ?cell, fun b cause hb hr => ?block, fun b hb hr => ?rejoin⟩
  case cell =>
    by_cases hstate : d.nat .CELL_STATE c = 3 ∨ d.nat .CELL_STATE c = 4
    · have hrow := cellFault_idle hstate det cycle
      exact inRegion_closes hc hr hrow ⟨⟨rfl, rfl⟩, (if_pos hstate).mpr (settle_of_quiet hq)⟩
    by_cases hdet : det = .corrected
    · subst hdet
      exact inRegion_closes hc hr (cellFault_corrected hstate cycle)
        ⟨⟨rfl, rfl⟩, (if_neg hstate).mpr ((if_pos rfl).mpr ⟨settle_cell _, settle_blk _, settle_nat _ (by decide) c 0⟩)⟩
    · have hhalts := (cellFault_halts cycle true hstate hdet).settle
      obtain ⟨e, he⟩ : ∃ e, d.cellFault c det cycle = e := ⟨_, rfl⟩
      rw [he] at hhalts
      exact inRegion_closes hc hr he ⟨⟨rfl, rfl⟩, (if_neg hstate).mpr ((if_neg hdet).mpr hhalts)⟩
  case block =>
    by_cases hstate : 3 ≤ d.nat .BLK_STATE b
    · have hrow : d.blockFault b cause = d := if_pos hstate
      exact inRegion_closes hb hr hrow ⟨⟨rfl, rfl⟩, (if_pos hstate).mpr (settle_of_quiet hq)⟩
    obtain ⟨e, he⟩ : ∃ e, d.blockFault b cause = e := ⟨_, rfl⟩
    have hreset (n : Nat) (h : d.blockFault b cause = d.blockReset b n) : d.blockHalted b e.settle :=
      (he.symm.trans h).symm ▸ (blockReset_halts d b n).settle
    refine inRegion_closes hb hr he ⟨⟨rfl, rfl⟩, (if_neg hstate).mpr ?_⟩
    cases cause with
    | memCorrected a =>
      rw [← he, blockFault_corrected hstate]
      have hbits : Obj.BLK_MEM_CORRECTED.row.ty.bits = 32 := rfl
      refine ⟨(settle_nat _ (by decide) b 0).trans ((Dev.nat_bump ..).trans ?_), settle_blk _⟩
      rw [if_pos ⟨rfl, rfl, rfl⟩, hbits]
    | memory c a =>
      intro hother
      have hrow := blockFault_memory hstate c a
      rw [if_neg hother, he] at hrow
      rw [hrow]
      exact settle_of_quiet hq
    | clock khz =>
      have hfenced := failed_fences d b { level := 1, cls := .degraded, action := .fenced, unit := b, code := 0x0203, detail := khz }
      rw [← blockFault_clock hstate, he] at hfenced
      exact hfenced
    | scheduler => exact hreset 1 (blockFault_scheduler hstate)
    | bus => exact hreset 2 (blockFault_bus hstate)
    | watchdog => exact hreset 3 (blockFault_watchdog hstate)
  case rejoin =>
    obtain ⟨hruns, hw⟩ := rejoin_runs d b
    exact inRegion_completes hb hq hr hw ⟨⟨rfl, rfl⟩, hruns, hw.obj, hw.out⟩

end Sys2Proof.Machine
end

section
/-! PROOFS. Faults of coding pairs, composers, rails, regions and chip units (O48). -/

namespace Sys2Proof.Machine

/-! ### What the work of a coding pair leaves alone (R208 to R230) -/

/-- The objects that the work of coding pairs, and its move to others, may write. -/
def pairObjs : List Obj :=
  poolObjs ++ [.PAIR_CONTEXTS, .PAIR_ABANDONS, .DEC_STATE, .DEC_OUTSIDE, .PAIR_ADMIT_PIXELS, .DEC_PAIR, .ENC_PAIR, .LAYOUT_PAIR, .PAIR_STATE,
    .RETIRED_PAIRS, .ADMIT_PIXELS_CAP]

/-- The governor, the domains that wake and the channels: parts that no work of coding pairs changes. -/
def Dev.aside (d : Dev) : Gov × (List Nat × List (Nat × Chan)) := (d.gov, (d.waking, d.chan))

/-- `e` is `d` after work of coding pairs: beside `pairObjs` no object changes, and a pair in reset stays so. -/
structure PairWork (d e : Dev) : Prop where
  obj : keepsBut d e pairObjs
  aside : e.aside = d.aside
  halted : ∀ p, (d.pairxOf p).halted = true → (e.pairxOf p).halted = true

theorem PairWork.refl (d : Dev) : PairWork d d := ⟨fun _ _ _ _ => rfl, rfl, fun _ h => h⟩

theorem PairWork.trans {d e f : Dev} (h : PairWork d e) (g : PairWork e f) : PairWork d f :=
  ⟨keepsBut_trans h.obj g.obj, g.aside.trans h.aside, fun p hp => g.halted p (h.halted p hp)⟩

/-- A change of parts that are neither objects, pairs nor aside. -/
theorem PairWork.parts {d e f : Dev} (h : PairWork d e) (hd : f.dict = e.dict) (hp : f.pairx = e.pairx) (ha : f.aside = e.aside) :
    PairWork d f := by
  refine ⟨fun o u k ho => Eq.trans ?_ (h.obj o u k ho), ha.trans h.aside, fun p hh => Eq.trans ?_ (h.halted p hh)⟩
  · unfold Dev.get
    rw [hd]
  · unfold Dev.pairxOf
    rw [hp]

theorem PairWork.put {d e : Dev} (h : PairWork d e) {o : Obj} (ho : o ∈ pairObjs) (u k : Nat) (v : Val) : PairWork d (e.put o u k v) :=
  h.trans ⟨((Within.refl _ e).put ho u k v).obj, rfl, fun _ hp => hp⟩

theorem PairWork.ite {d e f : Dev} (h : PairWork d e) (g : PairWork d f) (c : Prop) [Decidable c] : PairWork d (if c then e else f) := by
  split
  · exact h
  · exact g

theorem PairWork.setPairx {d e : Dev} (h : PairWork d e) {p : Nat} {x : PairX} (hx : x.halted = (e.pairxOf p).halted) :
    PairWork d (e.setPairx p x) := by
  refine h.trans ⟨fun _ _ _ _ => rfl, rfl, fun q hq => ?_⟩
  unfold Dev.setPairx Dev.pairxOf
  by_cases hqp : q = p
  · subst hqp
    rw [tget_tput_same, hx]
    exact hq
  · rw [tget_tput_other _ _ _ hqp]
    exact hq

/-- Changes of the pools alone are none of the pairs'. -/
theorem onlyPools.pairWork {d e : Dev} (h : onlyPools d e) (hw : Within poolObjs d e) : PairWork d e := by
  have hobj : keepsBut d e pairObjs := fun o u k ho => hw.obj o u k fun hx => ho (List.mem_append_left _ hx)
  obtain ⟨t, x, rfl⟩ := h
  exact ⟨hobj, rfl, fun _ hp => hp⟩

theorem flush_halted (x : PairX) (k : CtxKey) : (x.flush k).halted = x.halted := by
  unfold PairX.flush
  split
  · rfl
  split <;> rfl

theorem pairWork_countAbandon (d : Dev) (p : Nat) : PairWork d (d.countAbandon p) :=
  ((PairWork.refl d).put (by decide) _ _ _).ite (PairWork.refl d) _

theorem pairWork_abandonItem (d : Dev) (n s : Nat) (i : DecItem) : PairWork d (d.abandonItem n s i) := by
  have hcount := pairWork_countAbandon d (d.itemPair n s i)
  exact (hcount.setPairx (flush_halted _ _)).ite hcount _

theorem pairWork_decRequest (d : Dev) (n s : Nat) : PairWork d (d.decRequest n s) := by
  unfold Dev.decRequest
  split
  · exact PairWork.refl d
  · exact (PairWork.refl d).parts rfl rfl rfl

theorem pairWork_decDrop (d : Dev) (n s : Nat) (i : DecItem) : PairWork d (d.decDrop n s i) := by
  unfold Dev.decDrop
  extract_lets e f
  have he : PairWork d e := pairWork_abandonItem d n s i
  have hf : PairWork d f := he.parts rfl rfl rfl
  exact he.ite (hf.ite (hf.trans (pairWork_decRequest f n s)) _) _

theorem pairWork_decOutside (d : Dev) (n s why : Nat) (i : DecItem) : PairWork d (d.decOutside n s why i) := by
  obtain ⟨r, heq⟩ := decOutside_eq d n s why i
  obtain ⟨fsrc, hserved⟩ := decServed_onlyFsrc (d.abandonItem n s i) n s
  have hleft : PairWork d (d.leftOutside n s i) := by
    unfold Dev.leftOutside
    rw [hserved]
    exact (pairWork_abandonItem d n s i).parts rfl rfl rfl
  rw [heq]
  exact ((hleft.put (o := .DEC_STATE) (by decide) n s _).put (o := .DEC_OUTSIDE) (by decide) n s _).parts rfl rfl rfl

theorem pairWork_parseItem (d : Dev) (n s p : Nat) (i : DecItem) : PairWork d (d.parseItem n s p i) := by
  unfold Dev.parseItem
  extract_lets j codec x rap out changed
  split
  · exact (PairWork.refl d).parts rfl rfl rfl
  rename_i q _
  extract_lets why r e
  split
  · exact (pairWork_abandonItem d n s j).parts rfl rfl rfl
  split
  · have hseq : PairWork d (d.setDec n s { x with seq := some q }) := (PairWork.refl d).parts rfl rfl rfl
    exact hseq.trans (pairWork_decOutside _ n s why j)
  split
  · exact ((PairWork.refl d).setPairx (p := p) (flush_halted _ _)).parts rfl rfl rfl
  obtain ⟨hpools, hwithin⟩ := takePictures_frame d n s p j q
  have htaken : PairWork d r.2 := hpools.pairWork hwithin
  clear_value r
  split
  · exact (htaken.trans (pairWork_decDrop r.2 n s j)).parts rfl rfl rfl
  · have hagain : PairWork d (r.2.setDec n s { x with seq := some q, started := false }) := htaken.parts rfl rfl rfl
    have hseq : PairWork d (r.2.setDec n s { x with seq := some q }) := htaken.parts rfl rfl rfl
    have he : PairWork d e := (hagain.put (by decide) n s _).ite hseq _
    exact he.parts rfl rfl rfl

theorem pairWork_entropyTake (p fuel : Nat) (d : Dev) : PairWork d (d.entropyTake p fuel) := by
  induction fuel generalizing d with
  | zero => exact PairWork.refl d
  | succ fuel ih =>
    unfold Dev.entropyTake
    split
    · exact PairWork.refl d
    extract_lets ready
    split
    · exact PairWork.refl d
    · rename_i n s i _
      extract_lets e
      have he : PairWork d e := (PairWork.refl d).setPairx rfl
      exact he.ite ((he.trans (pairWork_parseItem e n s p i)).trans (ih _)) _

theorem pairWork_pairFill (p fuel : Nat) (d : Dev) : PairWork d (d.pairFill p fuel) := by
  induction fuel generalizing d with
  | zero => exact PairWork.refl d
  | succ fuel ih =>
    unfold Dev.pairFill
    extract_lets on count e
    have he : PairWork d e := (PairWork.refl d).put (by decide) _ _ _
    split
    · exact he
    split
    · exact he
    · extract_lets x
      refine PairWork.trans ?_ (ih _)
      exact he.parts rfl rfl rfl
    · extract_lets x
      refine PairWork.trans ?_ (ih _)
      exact he.parts rfl rfl rfl

theorem pairWork_pairUpdate (d : Dev) (p : Nat) : PairWork d (d.pairUpdate p) := by
  refine foldl_keeps (P := PairWork d) (fun e q he => ?_) _ (PairWork.refl d)
  exact (((he.trans (pairWork_pairFill q 9 e)).trans (pairWork_entropyTake q 9 _)).trans (pairWork_pairFill q 9 _)).ite he _

/-! ### Work that leaves a pair (R384) -/

theorem pairWork_restartPictures (d : Dev) (p : Nat) : PairWork d (d.restartPictures p) := by
  unfold Dev.restartPictures
  extract_lets was d1 decs r1 encs r2
  have h1 : PairWork d d1 := (PairWork.refl d).setPairx rfl
  clear_value d1
  have hr1 : PairWork d1 r1.1 := by
    refine foldl_keeps (P := fun a : Dev × List (Nat × Nat) => PairWork d1 a.1) (fun a k ha => ?_) decs (PairWork.refl d1)
    exact (ha.trans (pairWork_countAbandon a.1 p)).parts rfl rfl rfl
  clear_value r1
  have hr2 : PairWork r1.1 r2.1 := by
    refine foldl_keeps (P := fun a : Dev × List (Nat × Nat) => PairWork r1.1 a.1) (fun a k ha => ?_) encs (PairWork.refl r1.1)
    exact (ha.trans (pairWork_countAbandon a.1 p)).parts rfl rfl rfl
  clear_value r2
  have hbegin : PairWork d (r2.1.pairUpdate p) := ((h1.trans hr1).trans hr2).trans (pairWork_pairUpdate r2.1 p)
  exact foldl_keeps (P := PairWork d) (fun e q he => he.trans (pairWork_pairUpdate e q)) _ hbegin

theorem pairWork_chargePair (d : Dev) (p : Nat) (px kbps : Int) : PairWork d (d.chargePair p px kbps) :=
  ((PairWork.refl d).put (o := .PAIR_ADMIT_PIXELS) (by decide) (p / 4) (p % 4) _).setPairx (p := p) rfl

theorem pairWork_setStreamPair (d : Dev) (n s p : Nat) : PairWork d (d.setStreamPair n s p) :=
  ((PairWork.refl d).put (by decide) _ _ _).ite (((PairWork.refl d).put (by decide) _ _ _).ite (PairWork.refl d) _) _

theorem PairWork.setLife {d e : Dev} (h : PairWork d e) (n : Nat) (x : LegLife) : PairWork d (e.setLife n x) := h.parts rfl rfl rfl

theorem pairWork_moveStreams (d : Dev) (p : Nat) : PairWork d (d.moveStreams p) := by
  unfold Dev.moveStreams
  extract_lets mine
  refine foldl_keeps (P := PairWork d) (fun e m he => ?_) mine (PairWork.refl d)
  obtain ⟨n, s, _, px, kb⟩ := m
  dsimp only
  split
  · exact he
  next q _ =>
    have hfrom := he.trans (pairWork_chargePair e p (-(px : Int)) (-(kb : Int)))
    have hto := hfrom.trans (pairWork_chargePair _ q (px : Nat) (kb : Nat))
    have hmoved := fun x => (hto.setLife n x).trans (pairWork_setStreamPair _ n s q)
    split
    · exact (hmoved _).put (by decide) _ _ _
    · exact hmoved _

theorem pairWork_closePair (d : Dev) (p : Nat) : PairWork d (d.closePair p) := by
  unfold Dev.closePair
  extract_lets d1 d2
  have h1 : PairWork d d1 := ((PairWork.refl d).put (o := .PAIR_STATE) (by decide) _ _ _).put (o := .RETIRED_PAIRS) (by decide) _ _ _
  clear_value d1
  have h2 : PairWork d d2 := (h1.trans (pairWork_restartPictures d1 p)).trans (pairWork_moveStreams _ p)
  clear_value d2
  exact (PairWork.refl d).ite (h2.put (by decide) _ _ _) _

/-! ### What the moves of composers leave alone (R385) -/

/-- The objects that the moves of composers may write. -/
def composerObjs : List Obj := [.COMPOSER_ADMIT_PIXELS, .COMPOSER_STATE, .RETIRED_COMPOSERS]

/-- `e` is `d` after work has moved between composers: beside `composerObjs` no object changes, and a composer in reset stays so. -/
structure ComposerWork (d e : Dev) : Prop where
  obj : keepsBut d e composerObjs
  halted : ∀ k, (d.compOf k).halted = true → (e.compOf k).halted = true

theorem ComposerWork.refl (d : Dev) : ComposerWork d d := ⟨fun _ _ _ _ => rfl, fun _ h => h⟩

theorem ComposerWork.trans {d e f : Dev} (h : ComposerWork d e) (g : ComposerWork e f) : ComposerWork d f :=
  ⟨keepsBut_trans h.obj g.obj, fun k hk => g.halted k (h.halted k hk)⟩

theorem ComposerWork.parts {d e f : Dev} (h : ComposerWork d e) (hd : f.dict = e.dict) (hc : f.comp = e.comp) : ComposerWork d f := by
  refine ⟨fun o u k ho => Eq.trans ?_ (h.obj o u k ho), fun k hk => Eq.trans ?_ (h.halted k hk)⟩
  · unfold Dev.get
    rw [hd]
  · unfold Dev.compOf
    rw [hc]

theorem ComposerWork.put {d e : Dev} (h : ComposerWork d e) {o : Obj} (ho : o ∈ composerObjs) (u k : Nat) (v : Val) :
    ComposerWork d (e.put o u k v) :=
  h.trans ⟨((Within.refl _ e).put ho u k v).obj, fun _ hk => hk⟩

theorem compOf_setComp (d : Dev) (k j : Nat) (x : Composer) : (d.setComp k x).compOf j = if j = k then x else d.compOf j := by
  unfold Dev.setComp Dev.compOf
  split
  next h => rw [h, tget_tput_same]
  next h => exact tget_tput_other _ _ _ h _

theorem ComposerWork.setComp {d e : Dev} (h : ComposerWork d e) {k : Nat} {x : Composer} (hx : x.halted = (e.compOf k).halted) :
    ComposerWork d (e.setComp k x) := by
  refine h.trans ⟨fun _ _ _ _ => rfl, fun j hj => ?_⟩
  rw [compOf_setComp]
  split
  next heq => rw [hx, ← heq, hj]
  · exact hj

theorem composerWork_moveItems (d : Dev) (k j : Nat) : ComposerWork d (d.moveItems k j) := by
  unfold Dev.moveItems
  extract_lets x open_ e
  have he : ComposerWork d e := (ComposerWork.refl d).setComp rfl
  exact he.setComp rfl

theorem composerWork_shiftComposer (d : Dev) (k : Nat) : ComposerWork d (d.shiftComposer k) := by
  unfold Dev.shiftComposer
  split
  · exact ComposerWork.refl d
  next j _ =>
    extract_lets y d1 legs d2
    have h1 : ComposerWork d d1 :=
      ((ComposerWork.refl d).put (o := .COMPOSER_ADMIT_PIXELS) (by decide) _ _ _).put (o := .COMPOSER_ADMIT_PIXELS) (by decide) _ _ _
    clear_value d1
    have h2 : ComposerWork d1 d2 := by
      refine foldl_keeps (P := ComposerWork d1) (fun e n he => ?_) legs (ComposerWork.refl d1)
      exact he.parts rfl rfl
    exact (h1.trans h2).trans (composerWork_moveItems d2 k j)

theorem composerWork_closeComposer (d : Dev) (k : Nat) : ComposerWork d (d.closeComposer k) := by
  unfold Dev.closeComposer
  split
  · exact ComposerWork.refl d
  · have hmark : ComposerWork d ((d.setN .COMPOSER_STATE k 2).setBit .RETIRED_COMPOSERS 0 0 k true) :=
      ((ComposerWork.refl d).put (o := .COMPOSER_STATE) (by decide) _ _ _).put (o := .RETIRED_COMPOSERS) (by decide) _ _ _
    exact hmark.trans (composerWork_shiftComposer _ k)

/-! ### Faults of pairs and composers (R384, R385) -/

/-- `e` is `d` with coding pair `p` halted and reset. -/
def Dev.pairHalted (d : Dev) (p : Nat) (e : Dev) : Prop := (e.pairxOf p).halted = true ∧ d.resets e (0x06040000 + p)

/-- `e` is `d` with composer `k` halted and reset. -/
def Dev.composerHalted (d : Dev) (k : Nat) (e : Dev) : Prop := (e.compOf k).halted = true ∧ d.resets e (0x06040000 + k)

theorem Dev.pairHalted.after {d e f : Dev} {p : Nat} (h : d.pairHalted p e) (hp : f.pairx = e.pairx)
    (hobj : ∀ o ∈ eventObjs, f.nat o = e.nat o) : d.pairHalted p f := by
  refine ⟨?_, h.2.after hobj⟩
  unfold Dev.pairxOf
  rw [hp]
  exact h.1

theorem Dev.pairHalted.settle {d e : Dev} {p : Nat} (h : d.pairHalted p e) : d.pairHalted p e.settle :=
  h.after (settle_pairx e) fun o ho => settle_nat e (by revert o; decide) 0 0

theorem Dev.composerHalted.after {d e f : Dev} {k : Nat} (h : d.composerHalted k e) (hc : f.comp = e.comp)
    (hobj : ∀ o ∈ eventObjs, f.nat o = e.nat o) : d.composerHalted k f := by
  refine ⟨?_, h.2.after hobj⟩
  unfold Dev.compOf
  rw [hc]
  exact h.1

theorem Dev.composerHalted.settle {d e : Dev} {k : Nat} (h : d.composerHalted k e) : d.composerHalted k e.settle :=
  h.after (settle_comp e) fun o ho => settle_nat e (by revert o; decide) 0 0

theorem Dev.pairHalted.work {d e f : Dev} {p : Nat} (h : d.pairHalted p e) (hw : PairWork e f) : d.pairHalted p f :=
  ⟨hw.halted p h.1, h.2.after fun o ho => Dev.nat_eq_of_get (hw.obj o 0 0 (by revert o; decide))⟩

theorem Dev.composerHalted.work {d e f : Dev} {k : Nat} (h : d.composerHalted k e) (hw : ComposerWork e f) : d.composerHalted k f :=
  ⟨hw.halted k h.1, h.2.after fun o ho => Dev.nat_eq_of_get (hw.obj o 0 0 (by revert o; decide))⟩

/-- A unit of kind 6 loses its live values, as an event of R439. -/
theorem resets_loseUnit (d : Dev) (mine : Key → Bool) (unit : Nat) :
    d.resets ((d.loseL mine).resetEvent 6 4 unit 4) (0x06040000 + unit) := by
  have hwhat : 6 * 2 ^ 24 + 4 * 2 ^ 16 + unit = 0x06040000 + unit := by norm_num
  rw [← hwhat]
  exact resets_loseL d mine 6 4 unit

theorem setPairx_halted (d : Dev) (p : Nat) {x : PairX} (hx : x.halted = true) : ((d.setPairx p x).pairxOf p).halted = true := by
  unfold Dev.setPairx Dev.pairxOf
  rw [tget_tput_same]
  exact hx

theorem pairFault_halts {d : Dev} {p : Nat} (hstate : ¬d.nat .PAIR_STATE (p / 4) (p % 4) = 2) (engine : Nat) :
    d.pairHalted p (d.pairFault p engine false) := by
  unfold Dev.pairFault
  rw [if_neg hstate]
  extract_lets s d1 open_ y d2 d3 d4 h
  have h1 : d1.dict = d.dict := (spend_keeps d 2 p).1
  clear_value d1 s
  have h2 : PairWork (d1.setPairx p { y with halted := true }) d2 := pairWork_restartPictures _ p
  clear_value d2
  have hobj : ∀ o ∈ eventObjs, d2.nat o = d.nat o := fun o ho =>
    (Dev.nat_eq_of_get (h2.obj o 0 0 (by revert o; decide))).trans (nat_of_dict h1 o 0 0)
  have h3 : d.pairHalted p d3 := ⟨h2.halted p (setPairx_halted d1 p rfl), (resets_loseUnit d2 (keyOfPair p) p).before hobj⟩
  clear_value d3
  have h4 : d.pairHalted p d4 := h3.after rfl fun o _ => rfl
  clear_value d4
  have hhit : d.pairHalted p h.2 := h4.after rfl fun o _ => rfl
  clear_value h
  rw [if_neg Bool.false_ne_true]
  split
  · exact h4
  split
  · exact (hhit.work (pairWork_closePair h.2 p)).after rfl fun o _ => rfl
  · exact hhit

theorem pairFault_corrected {d : Dev} {p : Nat} (hstate : ¬d.nat .PAIR_STATE (p / 4) (p % 4) = 2) (engine : Nat) :
    d.pairFault p engine true = d.logRec { level := 2, cls := .corrected, action := .corrected, unit := 0x1000 + p, code := 0x0301
                                           detail := Config.detail 0x0301 [engine] } := if_neg hstate

theorem composerFault_halts {d : Dev} {k : Nat} (hstate : ¬d.nat .COMPOSER_STATE k = 2) :
    d.composerHalted k (d.composerFault k false) := by
  unfold Dev.composerFault
  rw [if_neg (by simp [hstate])]
  extract_lets s d1 items was d2 j d3 d4 h
  have h1 : d1.dict = d.dict := (spend_keeps d 3 k).1
  clear_value d1 s
  have h2 : d.composerHalted k d2 := by
    refine ⟨?_, (resets_loseUnit (d1.setComp k { d1.compOf k with halted := true }) (keyOfComposer k) k).before fun o _ => nat_of_dict h1 o 0 0⟩
    have hset := compOf_setComp d1 k k { d1.compOf k with halted := true }
    rw [if_pos rfl] at hset
    exact (congrArg Composer.halted hset)
  clear_value d2
  have h3 : d.composerHalted k d3 := by
    unfold d3
    cases j with
    | some j => exact h2.work (composerWork_moveItems d2 k j)
    | none => exact h2
  clear_value d3
  have h4 : d.composerHalted k d4 := h3.after rfl fun o _ => rfl
  clear_value d4
  have hhit : d.composerHalted k h.2 := h4.after rfl fun o _ => rfl
  clear_value h
  split
  · exact h4
  split
  · exact (hhit.work (composerWork_closeComposer h.2 k)).after rfl fun o _ => rfl
  · exact hhit

/-! ### Regions and rails (R386, R387) -/

/-- The objects that a region's failure keeps in its other units: none of a block's live values, and none that it writes. -/
def Obj.regionKept (o : Obj) : Prop :=
  o ∉ pairObjs ∧ o ∉ composerObjs ∧ o ∉ rerunObjs ∧ o ∉ markObjs ∧ o ∉ eventObjs ∧ (o.row.cls ≠ .L ∨ o.row.base = 0x6140)

/-- The blocks `bs` leave service with their region. -/
def Dev.fenceBlocks (d : Dev) (bs : List Nat) : Dev := bs.foldl (fun d b => (d.failBlockItems b).closeBlock b 3) d

theorem fenceBlock_state (d : Dev) (b u : Nat) :
    ((d.failBlockItems b).closeBlock b 3).nat .BLK_STATE u = if u = b then 3 else d.nat .BLK_STATE u := by
  have hitems := failBlockItems_keeps d b
  obtain ⟨hstate, _, _, hothers, _⟩ := closeBlock_fences (d.failBlockItems b) b
  split
  next h => rw [h, hstate]
  next h => exact (hothers u h).trans (Dev.nat_eq_of_get (hitems _ u 0 (by decide)))

/-- Blocks that come to a state one by one have it, and the others keep theirs. -/
theorem foldl_blockState {f : Dev → Nat → Dev} {st : Nat}
    (hf : ∀ (d : Dev) (b u : Nat), (f d b).nat .BLK_STATE u = if u = b then st else d.nat .BLK_STATE u) (bs : List Nat) (d : Dev) (u : Nat) :
    (bs.foldl f d).nat .BLK_STATE u = if u ∈ bs then st else d.nat .BLK_STATE u := by
  induction bs generalizing d with
  | nil => rfl
  | cons b r ih =>
    rw [List.foldl_cons, ih, hf]
    by_cases hr : u ∈ r <;> by_cases hb : u = b <;> simp [hr, hb]

theorem fenceBlocks_state (bs : List Nat) (d : Dev) (u : Nat) :
    (d.fenceBlocks bs).nat .BLK_STATE u = if u ∈ bs then 3 else d.nat .BLK_STATE u := foldl_blockState fenceBlock_state bs d u

theorem fenceBlocks_keeps (bs : List Nat) (d : Dev) {o : Obj} (ho : o.regionKept) (u k : Nat) :
    (d.fenceBlocks bs).get o u k = d.get o u k := by
  obtain ⟨_, _, hrerun, hmark, hevent, hcls⟩ := ho
  refine foldl_keeps (P := fun e : Dev => e.get o u k = d.get o u k) (fun e b he => ?_) bs rfl
  obtain ⟨_, _, _, _, hkeeps⟩ := closeBlock_fences (e.failBlockItems b) b
  exact ((hkeeps o hmark hevent hcls u k).trans (failBlockItems_keeps e b o u k hrerun)).trans he

theorem pairWork_isolatePair (d : Dev) (p : Nat) : PairWork d (d.isolatePair p) := by
  unfold Dev.isolatePair
  split
  · exact PairWork.refl d
  · refine PairWork.trans ?_ (pairWork_closePair _ p)
    exact (PairWork.refl d).parts rfl rfl rfl

theorem composerWork_isolateComposer (d : Dev) (k : Nat) : ComposerWork d (d.isolateComposer k) := by
  unfold Dev.isolateComposer
  split
  · exact ComposerWork.refl d
  · refine ComposerWork.trans ?_ (composerWork_closeComposer _ k)
    exact (ComposerWork.refl d).parts rfl rfl

/-- The units of a region that is isolated write the objects of pairs and composers alone. -/
theorem isolated_keeps (d : Dev) (ps : List Nat) (g : Nat) :
    keepsBut d ((ps.foldl Dev.isolatePair d).isolateComposer g) (pairObjs ++ composerObjs) := by
  have hpair : PairWork d (ps.foldl Dev.isolatePair d) :=
    foldl_keeps (P := PairWork d) (fun e p he => he.trans (pairWork_isolatePair e p)) ps (PairWork.refl d)
  generalize ps.foldl Dev.isolatePair d = e at hpair ⊢
  have hcomposer := composerWork_isolateComposer e g
  intro o u k ho
  have hp : o ∉ pairObjs := fun h => ho (List.mem_append_left _ h)
  have hc : o ∉ composerObjs := fun h => ho (List.mem_append_right _ h)
  exact (hcomposer.obj o u k hc).trans (hpair.obj o u k hp)

theorem regionRuns_state {d : Dev} {g : Nat} (h : d.regionRuns g = true) : d.nat .RGN_STATE g ≠ 2 := by
  unfold Dev.regionRuns at h
  simp only [Bool.and_eq_true, decide_eq_true_eq] at h
  simp [h.2]

/-- The blocks that region `g` has in service. -/
def Dev.servingBlocks (d : Dev) (g : Nat) : List Nat := ((List.range 16).map (16 * g + ·)).filter fun b => decide (d.nat .BLK_STATE b < 3)

theorem mem_servingBlocks {d : Dev} {g b : Nat} (hb : b / 16 = g) (hlow : d.nat .BLK_STATE b < 3) : b ∈ d.servingBlocks g := by
  have hindex : 16 * g + b % 16 = b := hb ▸ Nat.div_add_mod b 16
  have hmem : b ∈ (List.range 16).map (16 * g + ·) :=
    List.mem_map.mpr ⟨b % 16, List.mem_range.mpr (Nat.mod_lt b (by decide)), hindex⟩
  exact List.mem_filter.mpr ⟨hmem, decide_eq_true hlow⟩

/-- A region that fails fences the blocks it has in service, and isolates its pairs and its composer. -/
theorem regionFail_eq {d : Dev} {g : Nat} (hstate : d.nat .RGN_STATE g ≠ 2) (clock : Bool) : ∃ (m : Dev) (ps : List Nat) (r : Rec),
    m.dict = (d.setN .RGN_STATE g 2).dict ∧
      d.regionFail g clock = (((ps.foldl Dev.isolatePair (m.fenceBlocks ((d.setN .RGN_STATE g 2).servingBlocks g))).isolateComposer g).logRec r) := by
  unfold Dev.regionFail
  rw [if_neg hstate]
  extract_lets d1 blocks quiet faults m
  exact ⟨m, (List.range 4).map (4 * g + ·), _, rfl, rfl⟩

/-- A region that fails leaves service with its blocks. -/
theorem regionFail_fences {d : Dev} {g : Nat} (hstate : d.nat .RGN_STATE g ≠ 2) (clock : Bool) : let e := d.regionFail g clock
    e.nat .RGN_STATE g = 2 ∧ (∀ b, b / 16 = g → 3 ≤ e.nat .BLK_STATE b) ∧
      ∀ o, o.regionKept → o ≠ .RGN_STATE → ∀ u, e.nat o u = d.nat o u := by
  obtain ⟨m, ps, r, hm, heq⟩ := regionFail_eq hstate clock
  have hmarked : (d.setN .RGN_STATE g 2).nat .RGN_STATE g = 2 := Dev.nat_setN ..
  have hothers : ∀ o u, o ≠ .RGN_STATE → (d.setN .RGN_STATE g 2).nat o u = d.nat o u := fun o u ho => Dev.nat_setN_other _ _ _ _ _ ho
  generalize d.setN .RGN_STATE g 2 = d1 at *
  have hiso := isolated_keeps (m.fenceBlocks (d1.servingBlocks g)) ps g
  generalize (ps.foldl Dev.isolatePair (m.fenceBlocks (d1.servingBlocks g))).isolateComposer g = f at *
  have hkept : ∀ o, o.regionKept → ∀ u, f.nat o u = d1.nat o u := fun o ho u => by
    have hno : o ∉ pairObjs ++ composerObjs := by simp [ho.1, ho.2.1]
    rw [Dev.nat_eq_of_get (hiso o u 0 hno), Dev.nat_eq_of_get (fenceBlocks_keeps _ m ho u 0), nat_of_dict hm]
  have hblocks : ∀ b, f.nat .BLK_STATE b = if b ∈ d1.servingBlocks g then 3 else d1.nat .BLK_STATE b := fun b => by
    rw [Dev.nat_eq_of_get (hiso .BLK_STATE b 0 (by decide)), fenceBlocks_state, nat_of_dict hm]
  rw [heq]
  refine ⟨(hkept .RGN_STATE (by unfold Obj.regionKept; decide) g).trans hmarked, fun b hb => ?_,
    fun o ho hne u => (hkept o ho u).trans (hothers o u hne)⟩
  have hstands : 3 ≤ f.nat .BLK_STATE b := by
    rw [hblocks]
    split
    · exact Nat.le_refl 3
    next hout => exact Nat.le_of_not_lt fun hlow => hout (mem_servingBlocks hb hlow)
  exact hstands

/-- A rail that fails is marked, and the count of corrected lines stands. -/
theorem railFail_marks {d : Dev} {g : Nat} (hstate : d.nat .RGN_STATE g ≠ 2) (r : Nat) : let e := d.railFail g r
    bit (e.nat .FAILED_RAILS) (2 * g + r) = true ∧ e.nat .RGN_RAIL_CORRECTED g = d.nat .RGN_RAIL_CORRECTED g := by
  unfold Dev.railFail
  split
  next h => exact ⟨h, rfl⟩
  extract_lets d1 e
  have hw : Within [.FAILED_RAILS] d (d.setBit .FAILED_RAILS 0 0 (2 * g + r) true) := (Within.refl _ d).put (o := .FAILED_RAILS) (by decide) _ _ _
  have h1 : bit (d1.nat .FAILED_RAILS) (2 * g + r) = true := by
    have hset := nat_setBit d .FAILED_RAILS (2 * g + r) true
    have hbit : bit ((d.setBit .FAILED_RAILS 0 0 (2 * g + r) true).nat .FAILED_RAILS) (2 * g + r) = true := by
      rw [hset, bit_withBit_same]
    exact hbit
  have hcount : d1.nat .RGN_RAIL_CORRECTED g = d.nat .RGN_RAIL_CORRECTED g := hw.nat (by decide) g 0
  have hrgn : d1.nat .RGN_STATE g = d.nat .RGN_STATE g := hw.nat (by decide) g 0
  clear_value d1
  obtain ⟨_, _, hkept⟩ := regionFail_fences (hrgn.trans_ne hstate) false
  by_cases hother : bit (d1.nat .FAILED_RAILS) (2 * g + 1 - r) = true
  · have he : e = d1.regionFail g false := if_pos hother
    rw [he, hkept .FAILED_RAILS (by unfold Obj.regionKept; decide) (by decide) 0,
      hkept .RGN_RAIL_CORRECTED (by unfold Obj.regionKept; decide) (by decide) g]
    exact ⟨h1, hcount⟩
  · have he : e = d1 := if_neg hother
    rw [he]
    exact ⟨h1, hcount⟩

theorem railCorrected_counts {d : Dev} {g : Nat} (hstate : d.nat .RGN_STATE g ≠ 2) (r : Nat) :
    (d.railCorrected g r).nat .RGN_RAIL_CORRECTED g = (d.nat .RGN_RAIL_CORRECTED g + 1) % 2 ^ 32 := by
  have hbits : Obj.RGN_RAIL_CORRECTED.row.ty.bits = 32 := rfl
  unfold Dev.railCorrected
  extract_lets u s n was hits d1 d2
  have h1 : d1.dict = d.dict := (spend_keeps d 4 u).1
  clear_value d1
  have h2 : d2.nat .RGN_RAIL_CORRECTED g = (d.nat .RGN_RAIL_CORRECTED g + 1) % 2 ^ 32 := by
    refine (Dev.nat_bump ..).trans ?_
    rw [if_pos ⟨rfl, rfl, rfl⟩, hbits, nat_of_dict h1]
  have hw : Within [.RGN_RAIL_CORRECTED] d1 (d1.bump .RGN_RAIL_CORRECTED g) := (Within.refl _ d1).put (o := .RGN_RAIL_CORRECTED) (by decide) _ _ _
  have hrgn : d2.nat .RGN_STATE g = d.nat .RGN_STATE g := (hw.nat (by decide) g 0).trans (nat_of_dict h1 ..)
  clear_value d2
  split
  · exact (railFail_marks (hrgn.trans_ne hstate) r).2.trans h2
  · exact h2

theorem railError_silent {d : Dev} {g r : Nat} {x : RailLine} (hstate : d.nat .RGN_STATE g ≠ 2) (hx : x.silent = some r) :
    d.railError g x = d.railFail g (r % 2) := by
  unfold Dev.railError
  rw [if_neg hstate, hx]

theorem railError_same {d : Dev} {g : Nat} {x : RailLine} (hstate : d.nat .RGN_STATE g ≠ 2) (hx : x.silent = none) (hok : x.aOk = x.bOk) :
    d.railError g x = d := by
  unfold Dev.railError
  rw [if_neg hstate, hx, hok]
  simp

/-- A line that one rail alone spoils is corrected from the other. -/
theorem railError_corrects {d : Dev} {g : Nat} {x : RailLine} (hstate : d.nat .RGN_STATE g ≠ 2) (hx : x.silent = none) (hok : x.aOk ≠ x.bOk)
    (ha : bit (d.nat .FAILED_RAILS) (2 * g) = false) (hb : bit (d.nat .FAILED_RAILS) (2 * g + 1) = false) :
    ∃ r, d.railError g x = d.railCorrected g r := by
  unfold Dev.railError
  rw [if_neg hstate, hx]
  cases hA : x.aOk with
  | true =>
    have hB : x.bOk = false := by simpa [hA] using hok.symm
    exact ⟨1, by simp [ha, hb, hB]⟩
  | false =>
    have hB : x.bOk = true := by simpa [hA] using hok.symm
    exact ⟨0, by simp [ha, hb, hB]⟩

/-! ### Chip-level units (R388) -/

theorem stageError_dict (d : Dev) (unit stage : Nat) : (d.stageError unit stage).dict = d.dict := by
  unfold Dev.stageError
  dsimp only
  split <;> rfl

/-- The legs, the cells and the blocks, beside their objects. -/
def Dev.work (d : Dev) : List (Nat × LegLife) × (List (Nat × Cell) × List (Nat × Blk)) := (d.life, (d.cell, d.blk))

theorem stageError_work (d : Dev) (unit stage : Nat) : (d.stageError unit stage).work = d.work := by
  unfold Dev.stageError
  dsimp only
  split <;> rfl

theorem settle_work (d : Dev) : d.settle.work = d.work := by simp [Dev.work]

theorem work_parts {d e : Dev} (h : e.work = d.work) : e.life = d.life ∧ e.cell = d.cell ∧ e.blk = d.blk := by
  obtain ⟨hlife, hrest⟩ := Prod.mk.inj h
  exact ⟨hlife, Prod.mk.inj hrest⟩

theorem chipError_counts (d : Dev) {g : Nat} (hg : g < 4) (at_ : Nat) (two : Bool) :
    (d.chipError (.region g at_ two)).nat .RGN_MEM_CORRECTED g =
      if two then d.nat .RGN_MEM_CORRECTED g else (d.nat .RGN_MEM_CORRECTED g + 1) % 2 ^ 32 := by
  have hbits : Obj.RGN_MEM_CORRECTED.row.ty.bits = 32 := rfl
  cases two with
  | true => rfl
  | false =>
    have hrow : (d.chipError (.region g at_ false)).dict = (d.bump .RGN_MEM_CORRECTED g).dict := by
      unfold Dev.chipError
      dsimp only
      rw [if_neg Bool.false_ne_true, if_pos hg]
      rfl
    rw [nat_of_dict hrow, Dev.nat_bump, if_pos ⟨rfl, rfl, rfl⟩, hbits, if_neg Bool.false_ne_true]

/-- An entry that is lost fails its leg. -/
theorem chipError_fails {d : Dev} {n : Nat} (hn : n < 4096) (hstate : d.legState n = .active) (u s t : Nat) :
    (d.chipError (.legEntry u s n t)).nat .LEG_STATE n = 6 := by
  have hfails : ∀ r : Rec, r.cls = .serviceAffecting → r.leg = n → (d.logLeg r).nat .LEG_STATE n = 6 := fun r hcls hleg => by
    have hlog : d.logLeg r = (d.logRec r).failLeg r.leg := if_pos ⟨hcls, hleg ▸ hn⟩
    have hactive : (d.logRec r).legState n = .active := hstate
    have hfail : (d.logRec r).failLeg n = (d.logRec r).setLegState n .failed := by
      unfold Dev.failLeg
      rw [hactive]
    rw [hlog, hleg, hfail]
    exact setLegState_state ..
  exact (nat_of_dict (stageError_dict _ u s) .LEG_STATE n 0).trans (hfails _ rfl rfl)

/-- Settles O48: pairs and composers are reset and halted (`pairFault_halts`, `composerFault_halts`), and the failures of rails and regions
keep the rest (`railFail_marks`, `regionFail_fences`). -/
theorem unitFaultsAreContained : Obligations.UnitFaultsAreContained := by
  unfold Obligations.UnitFaultsAreContained
  intro s hq
  extract_lets d event
  refine ⟨fun p engine corrected hp hr => ?pair, fun k corrected hk hr => ?composer, fun g x hg hr => ?rail, fun g clock hg hr => ?region,
    fun hrun e => ?chip⟩
  case pair =>
    obtain ⟨e, he⟩ : ∃ e, d.pairFault p engine corrected = e := ⟨_, rfl⟩
    refine inRegion_closes hp hr he ⟨⟨rfl, rfl⟩, ?_⟩
    by_cases hstate : d.nat .PAIR_STATE (p / 4) (p % 4) = 2
    · rw [if_pos hstate, ← he]
      have hrow : d.pairFault p engine corrected = d := if_pos hstate
      rw [hrow]
      exact settle_of_quiet hq
    rw [if_neg hstate]
    cases corrected with
    | true =>
      rw [if_pos rfl, ← he, pairFault_corrected hstate]
      exact ⟨settle_pairx _, settle_dec _, settle_enc _⟩
    | false =>
      have hhalts := (pairFault_halts hstate engine).settle
      rw [he] at hhalts
      exact hhalts
  case composer =>
    obtain ⟨e, he⟩ : ∃ e, d.composerFault k corrected = e := ⟨_, rfl⟩
    refine inRegion_closes hk hr he ⟨⟨rfl, rfl⟩, ?_⟩
    by_cases hidle : corrected = true ∨ d.nat .COMPOSER_STATE k = 2
    · rw [if_pos hidle, ← he]
      have hrow : d.composerFault k corrected = d := if_pos hidle
      rw [hrow]
      exact settle_of_quiet hq
    rw [if_neg hidle]
    obtain ⟨hcorrected, hstate⟩ := not_or.mp hidle
    have hhalts := (composerFault_halts hstate).settle
    rw [← Bool.eq_false_of_not_eq_true hcorrected, he] at hhalts
    exact hhalts
  case rail =>
    have hstate := regionRuns_state hr
    obtain ⟨e, he⟩ : ∃ e, d.railError g x = e := ⟨_, rfl⟩
    refine inRegion_closes hg hr he ⟨⟨rfl, rfl⟩, fun r hx => ?silent, fun hx hok => ?same, fun hx hok ha hb => ?one⟩
    case silent =>
      obtain ⟨hbit, _⟩ := railFail_marks hstate (r % 2)
      rw [← railError_silent hstate hx, he] at hbit
      exact (congrArg (bit · (2 * g + r % 2)) (settle_nat e (by decide) 0 0)).trans hbit
    case same =>
      rw [← he, railError_same hstate hx hok]
      exact settle_of_quiet hq
    case one =>
      obtain ⟨r, hrow⟩ := railError_corrects hstate hx hok ha hb
      have hcount := railCorrected_counts hstate r
      rw [← hrow, he] at hcount
      exact (settle_nat e (by decide) g 0).trans hcount
  case region =>
    obtain ⟨e, he⟩ : ∃ e, d.regionFail g clock = e := ⟨_, rfl⟩
    obtain ⟨hout, hblocks, _⟩ := regionFail_fences (regionRuns_state hr) clock
    rw [he] at hout hblocks
    refine inRegion_closes hg hr he ⟨⟨rfl, rfl⟩, (settle_nat _ (by decide) g 0).trans hout, fun b hb => ?_⟩
    exact (hblocks b hb).trans_eq (settle_nat _ (by decide) b 0).symm
  case chip =>
    obtain ⟨f, hf⟩ : ∃ f, d.chipError e = f := ⟨_, rfl⟩
    have hrow : ∀ {P : State → Prop}, P { s with dev := f.settle } → ∃ t, execChipUnitError e s = .next t ∧ P t := fun {P} hP =>
      onDev_engine_closes hrun (hf.symm ▸ hP)
    cases e with
    | region g at_ two =>
      refine hrow ⟨⟨rfl, rfl⟩, fun hg => ?_⟩
      rw [← hf]
      exact (settle_nat _ (by decide) g 0).trans (chipError_counts d hg at_ two)
    | legEntry u st n t =>
      refine hrow ⟨⟨rfl, rfl⟩, fun hn hstate => ?_⟩
      rw [← hf]
      exact (settle_nat _ (by decide) n 0).trans (chipError_fails hn hstate u st t)
    | corrected u t i =>
      refine hrow ⟨⟨rfl, rfl⟩, work_parts ((settle_work f).trans ?_)⟩
      rw [← hf]
      rfl
    | packet u st =>
      refine hrow ⟨⟨rfl, rfl⟩, work_parts ((settle_work f).trans ?_)⟩
      rw [← hf]
      exact stageError_work _ u st
    | shared u st t i =>
      refine hrow ⟨⟨rfl, rfl⟩, work_parts ((settle_work f).trans ?_)⟩
      rw [← hf]
      exact stageError_work _ u st

end Sys2Proof.Machine
end

section
/-! PROOFS. The governor, the power domains and the regulator (O49). -/

namespace Sys2Proof.Machine

/-! ### Domains that wake (R398, R403) -/

/-- The objects that a domain's wake may write, beside PD_STATE. -/
def wakeObjs : List Obj := pairObjs ++ [.BLK_STATE, .CELL_STATE, .COMPOSER_STATE]

/-- `e` is `d` after units have woken: beside `wakeObjs` no object changes, nor a part aside. -/
structure Wakes (d e : Dev) : Prop where
  obj : keepsBut d e wakeObjs
  aside : e.aside = d.aside

theorem Wakes.refl (d : Dev) : Wakes d d := ⟨fun _ _ _ _ => rfl, rfl⟩

theorem Wakes.trans {d e f : Dev} (h : Wakes d e) (g : Wakes e f) : Wakes d f := ⟨keepsBut_trans h.obj g.obj, g.aside.trans h.aside⟩

theorem Wakes.put {d e : Dev} (h : Wakes d e) {o : Obj} (ho : o ∈ wakeObjs) (u k : Nat) (v : Val) : Wakes d (e.put o u k v) :=
  h.trans ⟨((Within.refl _ e).put ho u k v).obj, rfl⟩

theorem Wakes.nat {d e : Dev} (h : Wakes d e) {o : Obj} (ho : o ∉ wakeObjs) (u k : Nat) : e.nat o u k = d.nat o u k :=
  Dev.nat_eq_of_get (h.obj o u k ho)

theorem PairWork.wakes {d e : Dev} (h : PairWork d e) : Wakes d e :=
  ⟨fun o u k ho => h.obj o u k fun hx => ho (List.mem_append_left _ hx), h.aside⟩

theorem wakes_wakeBlock (d : Dev) (b : Nat) : Wakes d (d.wakeBlock b) := by
  unfold Dev.wakeBlock
  split
  · extract_lets cells
    refine foldl_keeps (P := Wakes d) (fun e c he => ?_) cells ?_
    · exact he.put (o := .CELL_STATE) (by decide) _ _ _
    · exact (Wakes.refl d).put (o := .BLK_STATE) (by decide) _ _ _
  · exact Wakes.refl d

/-- A domain that is not retired is on, and its units wake. -/
theorem wakeDomain_wakes {d : Dev} {dom : Nat} (h : d.nat .PD_STATE dom ≠ 3) : Wakes (d.setN .PD_STATE dom 0) (d.wakeDomain dom) := by
  unfold Dev.wakeDomain
  rw [if_neg h]
  extract_lets e p
  split
  · exact foldl_keeps (P := Wakes e) (fun f b hf => hf.trans (wakes_wakeBlock f b)) (quadBlocks dom) (Wakes.refl e)
  split
  · split
    · have hon : Wakes e (e.put .PAIR_STATE (p / 4) (p % 4) (.num 0)) := (Wakes.refl e).put (by decide) _ _ _
      exact hon.trans (pairWork_pairUpdate _ p).wakes
    · exact Wakes.refl e
  split
  · split
    · exact (Wakes.refl e).put (by decide) _ _ _
    · exact Wakes.refl e
  · exact Wakes.refl e

theorem wakeDomain_retired {d : Dev} {dom : Nat} (h : d.nat .PD_STATE dom = 3) : d.wakeDomain dom = d := if_pos h

/-- What a domain's wake does to the domains' states, and leaves alone. -/
theorem wakeDomain_spec (d : Dev) (dom : Nat) : let e := d.wakeDomain dom
    e.nat .PD_STATE dom = (if d.nat .PD_STATE dom = 3 then 3 else 0) ∧ keepsOther d e .PD_STATE dom ∧
      keepsBut d e (.PD_STATE :: wakeObjs) ∧ e.aside = d.aside := by
  by_cases h : d.nat .PD_STATE dom = 3
  · rw [wakeDomain_retired h, if_pos h]
    exact ⟨h, fun _ _ _ => rfl, fun _ _ _ _ => rfl, rfl⟩
  · have hwakes := wakeDomain_wakes h
    have hset : Within [.PD_STATE] d (d.setN .PD_STATE dom 0) := (Within.refl _ d).put (by decide) _ _ _
    rw [if_neg h]
    refine ⟨(hwakes.nat (by decide) dom 0).trans (Dev.nat_setN ..), fun u k hu => ?_, fun o u k ho => ?_, hwakes.aside⟩
    · exact (hwakes.obj _ u k (by decide)).trans (Dev.get_put_other _ _ fun hx => hu hx.2.1)
    · have hpd : o ∉ [Obj.PD_STATE] := fun hx => ho (List.mem_cons.mpr (.inl (List.mem_singleton.mp hx)))
      exact (hwakes.obj o u k fun hx => ho (List.mem_cons_of_mem _ hx)).trans (hset.obj o u k hpd)

theorem bump_wakes (d : Dev) (dom : Nat) : (d.bump .PD_WAKES dom).nat .PD_WAKES dom = (d.nat .PD_WAKES dom + 1) % 2 ^ 32 := by
  have hbits : Obj.PD_WAKES.row.ty.bits = 32 := rfl
  rw [Dev.nat_bump, if_pos ⟨rfl, rfl, rfl⟩, hbits]

/-- Domain `dom` no longer waits for its wake. -/
def Dev.wakeEnds (d : Dev) (dom : Nat) : Dev := { d with waking := d.waking.filter (· ≠ dom) }

theorem wakeDone_eq {d : Dev} {dom : Nat} (h : dom ∈ d.waking) : d.wakeDone dom = ((d.wakeEnds dom).wakeDomain dom).bump .PD_WAKES dom :=
  if_pos (List.contains_iff_mem.mpr h)

theorem wakeDone_idle {d : Dev} {dom : Nat} (h : dom ∉ d.waking) : d.wakeDone dom = d := if_neg (mt List.contains_iff_mem.mp h)

theorem wakeDone_wakes {d : Dev} {dom : Nat} (h : dom ∈ d.waking) : let e := (d.wakeDone dom).settle
    e.nat .PD_STATE dom = (if d.nat .PD_STATE dom = 3 then 3 else 0) ∧ e.nat .PD_WAKES dom = (d.nat .PD_WAKES dom + 1) % 2 ^ 32 ∧
      keepsOther d e .PD_STATE dom ∧ e.waking = d.waking.filter (· ≠ dom) := by
  rw [wakeDone_eq h]
  obtain ⟨hstate, hothers, hobj, haside⟩ := wakeDomain_spec (d.wakeEnds dom) dom
  have hwaking : (d.wakeEnds dom).waking = d.waking.filter (· ≠ dom) := rfl
  generalize hf : (d.wakeEnds dom).wakeDomain dom = f at *
  have hwf : f.waking = (d.wakeEnds dom).waking := (Prod.mk.inj (Prod.mk.inj haside).2).1
  have hcount : f.nat .PD_WAKES dom = d.nat .PD_WAKES dom := Dev.nat_eq_of_get (hobj _ dom 0 (by decide))
  have hbump : Within [.PD_WAKES] f (f.bump .PD_WAKES dom) := (Within.refl _ f).put (by decide) _ _ _
  refine ⟨?_, ?_, fun u k hu => ?_, ?_⟩
  · exact ((settle_nat _ (by decide) dom 0).trans (hbump.nat (by decide) dom 0)).trans hstate
  · exact (settle_nat _ (by decide) dom 0).trans ((bump_wakes f dom).trans (by rw [hcount]))
  · exact ((settle_get _ (by decide) u k).trans (hbump.obj _ u k (by decide))).trans (hothers u k hu)
  · have hbumped : (f.bump .PD_WAKES dom).waking = f.waking := rfl
    rw [settle_waking, hbumped, hwf]
    exact hwaking

/-! ### Domains that fail to wake (R403) -/

theorem closeBlock_retires (d : Dev) (b u : Nat) : (d.closeBlock b 4).nat .BLK_STATE u = if u = b then 4 else d.nat .BLK_STATE u := by
  obtain ⟨hstate, _, hothers, _⟩ := blockMarked_spec d b 4
  rw [closeBlock_retired]
  split
  next h => rw [h]; exact hstate
  next h => exact hothers u h

theorem keepsBut_closeBlock (d : Dev) (b : Nat) : keepsBut d (d.closeBlock b 4) markObjs := by
  obtain ⟨_, _, _, hkeeps, _⟩ := blockMarked_spec d b 4
  exact hkeeps

theorem keepsBut_retireBlocks (bs : List Nat) (d : Dev) : keepsBut d (bs.foldl (fun d b => d.closeBlock b 4) d) markObjs :=
  foldl_keeps (P := fun e : Dev => keepsBut d e markObjs) (fun e b he => keepsBut_trans he (keepsBut_closeBlock e b)) bs
    fun _ _ _ _ => rfl

/-- The units of a domain that is retired leave service. -/
def Dev.retireDomain (d : Dev) (dom : Nat) : Dev :=
  if dom < 16 then ((quadBlocks dom).filter fun b => decide (d.nat .BLK_STATE b < 3)).foldl (fun d b => d.closeBlock b 4) d
  else if dom < 32 then d.closePair (dom - 16)
  else if dom < 36 then d.closeComposer (dom - 32)
  else d

theorem keepsBut_retireDomain (d : Dev) (dom : Nat) : keepsBut d (d.retireDomain dom) (pairObjs ++ composerObjs ++ markObjs) := by
  unfold Dev.retireDomain
  split
  · exact fun o u k ho => keepsBut_retireBlocks _ d o u k fun hx => ho (List.mem_append_right _ hx)
  split
  · exact fun o u k ho => (pairWork_closePair d _).obj o u k fun hx => ho (List.mem_append_left _ (List.mem_append_left _ hx))
  split
  · exact fun o u k ho => (composerWork_closeComposer d _).obj o u k fun hx => ho (List.mem_append_left _ (List.mem_append_right _ hx))
  · exact fun _ _ _ _ => rfl

theorem retireDomain_blocks {d : Dev} {dom b : Nat} (hb : b / 4 = dom) (hlt : b < 64) (hlow : d.nat .BLK_STATE b < 3) :
    (d.retireDomain dom).nat .BLK_STATE b = 4 := by
  have hquad : b ∈ quadBlocks dom :=
    List.mem_map.mpr ⟨b % 4, List.mem_range.mpr (Nat.mod_lt b (by decide)), hb ▸ Nat.div_add_mod b 4⟩
  have hdom : dom < 16 := by omega
  unfold Dev.retireDomain
  rw [if_pos hdom, foldl_blockState closeBlock_retires, if_pos (List.mem_filter.mpr ⟨hquad, decide_eq_true hlow⟩)]

theorem wakeFailed_eq {d : Dev} {dom : Nat} (h : dom ∈ d.waking) : ∃ r,
    d.wakeFailed dom = ((((d.wakeEnds dom).bump .PD_WAKES dom).setN .PD_STATE dom 3).retireDomain dom).logRec r := by
  have hin : ¬(!d.waking.contains dom) = true := by simp [h]
  unfold Dev.wakeFailed
  rw [if_neg hin]
  exact ⟨_, rfl⟩

theorem wakeFailed_retires {d : Dev} {dom : Nat} (h : dom ∈ d.waking) : let e := (d.wakeFailed dom).settle
    e.nat .PD_STATE dom = 3 ∧ e.nat .PD_WAKES dom = (d.nat .PD_WAKES dom + 1) % 2 ^ 32 ∧
      ∀ b, b / 4 = dom → b < 64 → d.nat .BLK_STATE b < 3 → e.nat .BLK_STATE b = 4 := by
  obtain ⟨r, heq⟩ := wakeFailed_eq h
  have hcount : ((d.wakeEnds dom).bump .PD_WAKES dom).nat .PD_WAKES dom = (d.nat .PD_WAKES dom + 1) % 2 ^ 32 := bump_wakes (d.wakeEnds dom) dom
  have hblk : ∀ b, ((d.wakeEnds dom).bump .PD_WAKES dom).nat .BLK_STATE b = d.nat .BLK_STATE b := fun b =>
    ((Within.refl [.PD_WAKES] (d.wakeEnds dom)).put (by decide) _ _ _).nat (by decide) b 0
  rw [heq]
  generalize (d.wakeEnds dom).bump .PD_WAKES dom = f at *
  have hstate : (f.setN .PD_STATE dom 3).nat .PD_STATE dom = 3 := Dev.nat_setN ..
  have hset : Within [.PD_STATE] f (f.setN .PD_STATE dom 3) := (Within.refl _ f).put (by decide) _ _ _
  generalize f.setN .PD_STATE dom 3 = g at *
  have hkeeps := keepsBut_retireDomain g dom
  refine ⟨?_, ?_, fun b hb hlt hlow => ?_⟩
  · exact (settle_nat _ (by decide) dom 0).trans ((Dev.nat_eq_of_get (hkeeps _ dom 0 (by decide))).trans hstate)
  · refine (settle_nat _ (by decide) dom 0).trans ((Dev.nat_eq_of_get (hkeeps _ dom 0 (by decide))).trans ?_)
    exact (hset.nat (by decide) dom 0).trans hcount
  · refine (settle_nat _ (by decide) b 0).trans (retireDomain_blocks hb hlt ?_)
    rwa [hset.nat (by decide), hblk]

/-! ### Domains that are gated (R398, R402) -/

theorem keepsBut_gateBlock (d : Dev) (b st : Nat) : keepsBut d (d.gateBlock b st) [.BLK_STATE, .CELL_STATE] := by
  unfold Dev.gateBlock
  split
  · exact fun _ _ _ _ => rfl
  · extract_lets cells
    have hset : Within [.BLK_STATE, .CELL_STATE] d (d.setN .BLK_STATE b st) := (Within.refl _ d).put (by decide) _ _ _
    exact (Within.fold (fun e c => (Within.refl _ e).put (o := .CELL_STATE) (by decide) _ _ _) cells hset).obj

/-- An event of R439 is counted, and LAST_RESET says which. -/
theorem resetEvent_reports (d : Dev) (kind source unit mask : Nat) : let e := d.resetEvent kind source unit mask
    e.nat .LAST_RESET = kind * 2 ^ 24 + source * 2 ^ 16 + unit ∧ e.nat .RESET_EPOCH = (d.nat .RESET_EPOCH + 1) % 2 ^ 32 := by
  have hbits : Obj.RESET_EPOCH.row.ty.bits = 32 := rfl
  unfold Dev.resetEvent
  extract_lets e
  have hepoch : e.nat .RESET_EPOCH = (d.nat .RESET_EPOCH + 1) % 2 ^ 32 := by
    refine (Dev.nat_setN_other _ _ _ _ _ (by decide)).trans ((Dev.nat_bump ..).trans ?_)
    rw [if_pos ⟨rfl, rfl, rfl⟩, hbits]
  clear_value e
  exact ⟨Dev.nat_setN .., (Dev.nat_setN_other _ _ _ _ _ (by decide)).trans hepoch⟩

/-- The objects of the units that a gated domain gates. -/
def gateObjs : List Obj := [.BLK_STATE, .CELL_STATE, .PAIR_STATE, .COMPOSER_STATE]

/-- The units of domain `dom` are gated, with or without retention. -/
def Dev.gateUnits (d : Dev) (dom : Nat) (keep : Bool) : Dev :=
  if dom < 16 then
    let d := (quadBlocks dom).foldl (fun d b => d.gateBlock b (if keep then 1 else 2)) d
    if keep then d else d.loseL fun k => (quadBlocks dom).any fun b => keyOfBlock b k
  else if dom < 32 then
    let p := dom - 16
    let d := if d.nat .PAIR_STATE (p / 4) (p % 4) = 0 then d.put .PAIR_STATE (p / 4) (p % 4) (.num 1) else d
    d.loseL (keyOfPair p)
  else if dom < 36 then
    let k := dom - 32
    (if d.nat .COMPOSER_STATE k = 0 then d.setN .COMPOSER_STATE k 1 else d).loseL (keyOfComposer k)
  else d

/-- Gating units keeps what no unit loses. -/
theorem gateUnits_keeps (d : Dev) (dom : Nat) (keep : Bool) {o : Obj} (ho : o ∉ gateObjs) (hc : o.row.cls ≠ .L) (u : Nat) :
    (d.gateUnits dom keep).nat o u = d.nat o u := by
  have hlost : ∀ (e : Dev) (mine : Key → Bool), (e.loseL mine).nat o u = e.nat o u := fun e mine => loseL_nat e mine (.inl hc) u 0
  unfold Dev.gateUnits
  split
  · extract_lets e
    have he : keepsBut d e gateObjs :=
      foldl_keeps (P := fun e : Dev => keepsBut d e gateObjs)
        (fun e b he => keepsBut_trans he fun o u k ho => keepsBut_gateBlock e b _ o u k fun hx => ho ((by decide : _ ⊆ gateObjs) hx))
        (quadBlocks dom) fun _ _ _ _ => rfl
    have hkept : e.nat o u = d.nat o u := Dev.nat_eq_of_get (he o u 0 ho)
    split
    · exact hkept
    · exact (hlost e _).trans hkept
  split
  · extract_lets p e
    refine (hlost e _).trans ?_
    unfold e
    split
    · exact ((Within.refl gateObjs d).put (by decide) _ _ _).nat ho u 0
    · rfl
  split
  · extract_lets k
    refine (hlost _ _).trans ?_
    split
    · exact ((Within.refl gateObjs d).put (by decide) _ _ _).nat ho u 0
    · rfl
  · rfl

theorem gateDomain_eq {d : Dev} {dom : Nat} (h : d.nat .PD_STATE dom = 0) (keep : Bool) :
    d.gateDomain dom keep =
      ((d.setN .PD_STATE dom (if keep then 1 else 2)).resetEvent (if keep then 8 else 9) 5 dom (if keep then 0 else 4)).gateUnits dom keep :=
  if_neg (not_not.mpr h)

/-- A domain that is gated shows it, as an event of R439. -/
theorem gateDomain_gates {d : Dev} {dom : Nat} (h : d.nat .PD_STATE dom = 0) (keep : Bool) : let e := d.gateDomain dom keep
    e.nat .PD_STATE dom = (if keep then 1 else 2) ∧ e.nat .LAST_RESET = (if keep then 8 else 9) * 2 ^ 24 + 5 * 2 ^ 16 + dom ∧
      e.nat .RESET_EPOCH = (d.nat .RESET_EPOCH + 1) % 2 ^ 32 := by
  have hset : Within [.PD_STATE] d (d.setN .PD_STATE dom (if keep then 1 else 2)) := (Within.refl _ d).put (by decide) _ _ _
  have hstate : (d.setN .PD_STATE dom (if keep then 1 else 2)).nat .PD_STATE dom = if keep then 1 else 2 := Dev.nat_setN ..
  rw [gateDomain_eq h]
  generalize d.setN .PD_STATE dom (if keep then 1 else 2) = f at *
  obtain ⟨hlast, hepoch⟩ := resetEvent_reports f (if keep then 8 else 9) 5 dom (if keep then 0 else 4)
  have hevent := keepsBut_resetEvent f (if keep then 8 else 9) 5 dom (if keep then 0 else 4)
  generalize f.resetEvent (if keep then 8 else 9) 5 dom (if keep then 0 else 4) = g at *
  have hunits := fun (o : Obj) (ho : o ∉ gateObjs) (hc : o.row.cls ≠ .L) u => gateUnits_keeps g dom keep ho hc u
  refine ⟨?_, ?_, ?_⟩
  · exact ((hunits _ (by decide) (by decide) dom).trans (Dev.nat_eq_of_get (hevent _ dom 0 (by decide)))).trans hstate
  · exact (hunits _ (by decide) (by decide) 0).trans hlast
  · exact (hunits _ (by decide) (by decide) 0).trans (hepoch.trans (by rw [hset.nat (by decide)]))

/-- May domain `dom` gate under TRIM (R398, R402)? -/
def Dev.mayGate (d : Dev) (dom : Nat) : Prop :=
  d.flag .GOV_TRIM = true ∧ d.nat .PD_MODE dom = 0 ∧ d.service = .full ∧ d.domainIdle dom = true ∧
    d.nat .GOV_TRIM_IDLE ≤ tget 0 dom d.gov.idle ∧ dom ∉ d.waking ∧ d.nat .PD_STATE dom = 0

theorem idleGate_gates {d : Dev} {dom : Nat} (h : d.mayGate dom) : d.idleGate dom = d.gateDomain dom (decide (dom < 16)) := by
  obtain ⟨htrim, hmode, hservice, hidle, hedges, hwaking, _⟩ := h
  exact if_pos (by simp [htrim, hmode, hservice, hidle, hedges, hwaking])

theorem idleGate_stands {d : Dev} {dom : Nat} (h : ¬d.mayGate dom) : d.idleGate dom = d := by
  by_cases hstate : d.nat .PD_STATE dom = 0
  · refine if_neg fun hc => h ?_
    simp only [Bool.and_eq_true, decide_eq_true_eq, Bool.not_eq_true', List.contains_eq_mem, decide_eq_false_iff_not] at hc
    obtain ⟨⟨⟨⟨⟨htrim, hmode⟩, hservice⟩, hidle⟩, hedges⟩, hwaking⟩ := hc
    exact ⟨htrim, hmode, hservice, hidle, hedges, hwaking, hstate⟩
  · have hgate : d.gateDomain dom (decide (dom < 16)) = d := if_pos hstate
    unfold Dev.idleGate
    rw [hgate]
    exact ite_self d

/-- A row that acts while the packet engine runs leaves `e`. -/
theorem engine_ends {s : State} {n count : Nat} {f : Dev → Dev} {e : Dev} {P : State → Prop} (hn : n < count)
    (hrun : s.dev.gen.running = true) (he : (f s.dev).settle = e) (hP : P { s with dev := e }) :
    ∃ t, onUnit s n count (fun d => d.engine f) = .next t ∧ P t := by
  subst he
  exact engine_closes hn hrun hP

theorem wakeFailed_idle {d : Dev} {dom : Nat} (h : dom ∉ d.waking) : d.wakeFailed dom = d := if_pos (by simp [h])

/-- A domain that gates under TRIM shows it: a quad keeps its state, any other unit loses it. -/
theorem idleGate_reports {d : Dev} {dom : Nat} (h : d.mayGate dom) : let e := (d.idleGate dom).settle
    e.nat .PD_STATE dom = (if dom < 16 then 1 else 2) ∧ e.nat .LAST_RESET = (if dom < 16 then 0x08050000 else 0x09050000) + dom ∧
      e.nat .RESET_EPOCH = (d.nat .RESET_EPOCH + 1) % 2 ^ 32 := by
  obtain ⟨_, _, _, _, _, _, hon⟩ := id h
  obtain ⟨hstate, hlast, hepoch⟩ := gateDomain_gates hon (decide (dom < 16))
  rw [idleGate_gates h]
  refine ⟨?_, ?_, (settle_nat _ (by decide) 0 0).trans hepoch⟩
  · rw [settle_nat _ (by decide), hstate]
    simp
  · rw [settle_nat _ (by decide), hlast]
    by_cases hquad : dom < 16 <;> simp [hquad]

/-- The second part of O49. -/
theorem domainsGateAndWake : Sys2Proof.Claim.DomainsGateAndWake := by
  intro s dom hdom hq hrun
  extract_lets d wakes
  have hstands {f : Dev → Dev} (h : f s.dev = s.dev) {P : State → Prop} (hP : P s) :
      ∃ t, onUnit s dom 50 (fun d => d.engine f) = .next t ∧ P t :=
    engine_completes hdom hrun h hq hP
  refine ⟨?complete, ?timeout, ?gate⟩
  case complete =>
    by_cases h : dom ∈ d.waking
    · have hwakes := wakeDone_wakes h
      obtain ⟨e, he⟩ : ∃ e, (d.wakeDone dom).settle = e := ⟨_, rfl⟩
      rw [he] at hwakes
      exact engine_ends hdom hrun he ⟨⟨rfl, rfl⟩, (if_pos h).mpr hwakes⟩
    · exact hstands (wakeDone_idle h) ⟨⟨rfl, rfl⟩, (if_neg h).mpr rfl⟩
  case timeout =>
    by_cases h : dom ∈ d.waking
    · have hretires := wakeFailed_retires h
      obtain ⟨e, he⟩ : ∃ e, (d.wakeFailed dom).settle = e := ⟨_, rfl⟩
      rw [he] at hretires
      exact engine_ends hdom hrun he ⟨⟨rfl, rfl⟩, (if_pos h).mpr hretires⟩
    · exact hstands (wakeFailed_idle h) ⟨⟨rfl, rfl⟩, (if_neg h).mpr rfl⟩
  case gate =>
    by_cases h : d.mayGate dom
    · have hgates := idleGate_reports h
      obtain ⟨e, he⟩ : ∃ e, (d.idleGate dom).settle = e := ⟨_, rfl⟩
      rw [he] at hgates
      exact engine_ends hdom hrun he ⟨⟨rfl, rfl⟩, (if_pos h).mpr hgates⟩
    · exact hstands (idleGate_stands h) ⟨⟨rfl, rfl⟩, (if_neg h).mpr rfl⟩

/-! ### DOZE (R349, R404) -/

/-- A domain that DOZE gated wakes, and is counted. -/
def Dev.dozeWakes (d : Dev) (dom : Nat) : Dev := if d.nat .PD_STATE dom = 2 then (d.wakeDomain dom).bump .PD_WAKES dom else d

/-- The objects that the wake from DOZE writes in the domains' units. -/
def dozeObjs : List Obj := .PD_WAKES :: .PD_STATE :: wakeObjs

theorem dozeWakes_spec (d : Dev) (dom : Nat) : let e := d.dozeWakes dom
    (∀ u, e.nat .PD_STATE u = if u = dom ∧ d.nat .PD_STATE u = 2 then 0 else d.nat .PD_STATE u) ∧ keepsBut d e dozeObjs ∧
      e.aside = d.aside := by
  unfold Dev.dozeWakes
  split
  next h =>
    obtain ⟨hstate, hothers, hobj, haside⟩ := wakeDomain_spec d dom
    generalize d.wakeDomain dom = e at *
    have hbump : Within [.PD_WAKES] e (e.bump .PD_WAKES dom) := (Within.refl _ e).put (by decide) _ _ _
    refine ⟨fun u => (hbump.nat (by decide) u 0).trans ?_, fun o u k ho => ?_, haside⟩
    · by_cases hu : u = dom
      · subst hu
        rw [hstate, h]
        simp
      · rw [if_neg fun hx => hu hx.1]
        exact Dev.nat_eq_of_get (hothers u 0 hu)
    · exact (hbump.obj o u k fun hx => ho (List.mem_cons.mpr (.inl (List.mem_singleton.mp hx)))).trans
        (hobj o u k fun hx => ho (List.mem_cons_of_mem _ hx))
  next h =>
    refine ⟨fun u => (if_neg ?_).symm, fun _ _ _ _ => rfl, rfl⟩
    rintro ⟨rfl, hu⟩
    exact h hu

/-- The domains `doms` are on where DOZE had gated them. -/
theorem dozeDomains_on (doms : List Nat) (d : Dev) : let e := doms.foldl Dev.dozeWakes d
    (∀ u, e.nat .PD_STATE u = if u ∈ doms ∧ d.nat .PD_STATE u = 2 then 0 else d.nat .PD_STATE u) ∧ keepsBut d e dozeObjs ∧
      e.aside = d.aside := by
  induction doms generalizing d with
  | nil => exact ⟨fun u => by simp, fun _ _ _ _ => rfl, rfl⟩
  | cons dom r ih =>
    obtain ⟨hstate, hobj, haside⟩ := dozeWakes_spec d dom
    obtain ⟨hstates, hobjs, hasides⟩ := ih (d.dozeWakes dom)
    refine ⟨fun u => (hstates u).trans ?_, keepsBut_trans hobj hobjs, hasides.trans haside⟩
    rw [hstate]
    generalize d.nat .PD_STATE u = v
    by_cases hv : v = 2 <;> by_cases hd : u = dom <;> simp [hv, hd]

/-! ### Channels that leave self-refresh (R346, R349) -/

theorem leaveSelfRefresh_trained (d : Dev) (c : Nat) :
    d.leaveSelfRefresh c true = if d.chState c = 5 then d.setN .CH_STATE c (d.chanOf c).held else d := by
  by_cases h : d.chState c = 5
  · rw [if_pos h]
    exact if_neg (not_not.mpr h)
  · rw [if_neg h]
    exact if_pos h

theorem leaveSelfRefresh_spec (d : Dev) (c : Nat) : let e := d.leaveSelfRefresh c true
    (∀ u, e.chState u = if u = c ∧ d.chState u = 5 then (d.chanOf u).held else d.chState u) ∧ keepsBut d e [.CH_STATE] ∧ e.chan = d.chan := by
  rw [leaveSelfRefresh_trained]
  split
  next h =>
    refine ⟨fun u => ?_, ((Within.refl _ d).put (o := .CH_STATE) (by decide) _ _ _).obj, rfl⟩
    by_cases hu : u = c
    · subst hu
      rw [if_pos ⟨rfl, h⟩]
      exact Dev.nat_setN ..
    · rw [if_neg fun hx => hu hx.1]
      exact Dev.nat_eq_of_get (Dev.get_put_other _ _ fun hx => hu hx.2.1)
  next h =>
    refine ⟨fun u => (if_neg ?_).symm, fun _ _ _ _ => rfl, rfl⟩
    rintro ⟨rfl, hu⟩
    exact h hu

/-- The channels `cs` leave self-refresh, each trained again: they go on in the state they held. -/
theorem leaveSelfRefresh_holds (cs : List Nat) (d : Dev) : let e := cs.foldl (fun d c => d.leaveSelfRefresh c true) d
    (∀ c, c ∈ cs → d.chState c = 5 → e.chState c = (d.chanOf c).held) ∧
      (∀ c, d.chState c = (d.chanOf c).held → e.chState c = d.chState c) ∧ keepsBut d e [.CH_STATE] := by
  induction cs generalizing d with
  | nil => exact ⟨fun _ h => absurd h List.not_mem_nil, fun _ _ => rfl, fun _ _ _ _ => rfl⟩
  | cons c r ih =>
    obtain ⟨hstate, hobj, hchan⟩ := leaveSelfRefresh_spec d c
    obtain ⟨hleft, hheld, hobjs⟩ := ih (d.leaveSelfRefresh c true)
    simp only [Dev.chanOf_of_chan hchan] at hleft hheld
    refine ⟨fun u hu h5 => ?_, fun u hu => ?_, keepsBut_trans hobj hobjs⟩
    · by_cases hc : u = c
      · have hnow := (hstate u).trans (if_pos ⟨hc, h5⟩)
        exact (hheld u hnow).trans hnow
      · have hnow := (hstate u).trans (if_neg fun hx => hc hx.1)
        exact hleft u ((List.mem_cons.mp hu).resolve_left hc) (hnow.trans h5)
    · have hnow : (d.leaveSelfRefresh c true).chState u = (d.chanOf u).held := (hstate u).trans (by rw [hu, ite_self])
      exact ((hheld u hnow).trans hnow).trans hu.symm

/-- `e` has the governor of `d`. -/
def SameGov (d e : Dev) : Prop := e.gov = d.gov

theorem SameGov.refl (d : Dev) : SameGov d d := rfl
theorem SameGov.trans {d e f : Dev} (h : SameGov d e) (g : SameGov e f) : SameGov d f := Eq.trans g h
theorem SameGov.put {d e : Dev} (h : SameGov d e) (o : Obj) (u k : Nat) (v : Val) : SameGov d (e.put o u k v) := h
theorem SameGov.logRec {d e : Dev} (h : SameGov d e) (r : Rec) : SameGov d (e.logRec r) := h
theorem SameGov.setDesc {d e : Dev} (h : SameGov d e) (p i : Nat) (x : Desc) : SameGov d (e.setDesc p i x) := h
theorem SameGov.setList {d e : Dev} (h : SameGov d e) (p c : Nat) (l : PoolList) : SameGov d (e.setList p c l) := h

theorem SameGov.ite {d e f : Dev} (h : SameGov d e) (g : SameGov d f) (c : Prop) [Decidable c] : SameGov d (if c then e else f) := by
  split
  · exact h
  · exact g

theorem SameGov.poolTouch {d e : Dev} (h : SameGov d e) (p : Nat) : SameGov d (e.poolTouch p) := by
  obtain ⟨dict, pool, heq⟩ := onlyPools_poolTouch e p
  rw [heq]
  exact h

theorem sameGov_reshadow (d : Dev) (p i : Nat) : SameGov d (d.reshadow p i) := by
  unfold Dev.reshadow
  extract_lets x c got
  have h := SameGov.refl d
  cases got with
  | some r => exact ((((h.setList _ _ _).setDesc _ _ _).setDesc _ _ _).put .DRAM_REMIRROR_LEFT _ _ _).poolTouch _
  | none =>
    have hx := h.setDesc p i { x with mirror := x.primary, mirrored := false, copying := false, waiting := true }
    exact hx.ite ((hx.put .POOL_REMIRROR_WAIT _ _ _).logRec _) _

theorem sameGov_poolChannelLost (d : Dev) (c : Nat) : SameGov d (d.poolChannelLost c) := by
  unfold Dev.poolChannelLost
  extract_lets mine touched sorted e
  have hlost : SameGov d e := by
    refine foldl_keeps (P := SameGov d) (fun e kv he => ?_) sorted (SameGov.refl d)
    extract_lets p i x y e1 e2
    have h1 : SameGov d e1 := he.setDesc _ _ _
    have h2 : SameGov d e2 := (h1.put .DRAM_REMIRROR_LEFT _ _ _).ite h1 _
    refine SameGov.ite (SameGov.ite (SameGov.ite ?_ ?_ _) (SameGov.ite ?_ h1 _) _) (SameGov.ite ?_ h1 _) _
    · exact h1.setDesc _ _ _
    · exact (h1.setDesc _ _ _).trans (sameGov_reshadow ..)
    · exact (h2.setDesc _ _ _).trans (sameGov_reshadow ..)
    · exact h1.setDesc _ _ _
  refine foldl_keeps (P := SameGov d) (fun e p he => ?_) (List.range 6) hlost
  exact ((he.put .POOL_BUFFERS _ _ _).put .POOL_LOST _ _ _).poolTouch p

theorem sameGov_failChannel (d : Dev) (c cause : Nat) : SameGov d (d.failChannel c cause) := by
  unfold Dev.failChannel
  extract_lets was d1 d2 d3 d4 first d5
  have h2 : SameGov d d2 := (((SameGov.refl d).put .CH_STATE _ _ _).put .PD_STATE _ _ _).logRec _
  have h3 : SameGov d d3 := h2.ite (h2.trans (sameGov_poolChannelLost d2 c)) _
  have h4 : SameGov d d4 := (h3.put .DRAM_INIT_LEFT _ _ _).ite h3 _
  have h5 : SameGov d d5 := (h4.logRec _).ite h4 _
  clear_value d5
  have hdue : SameGov d { d5 with rst := { d5.rst with returnDue := true } } := h5
  exact (SameGov.refl d).ite (hdue.ite h5 _) _

theorem sameGov_leaveSelfRefresh (d : Dev) (c : Nat) (ok : Bool) : SameGov d (d.leaveSelfRefresh c ok) := by
  unfold Dev.leaveSelfRefresh
  extract_lets e
  have he : SameGov d e := (SameGov.refl d).put .CH_STATE _ _ _
  exact (SameGov.refl d).ite (he.ite (he.trans (sameGov_failChannel e c 5)) _) _

/-- The device with a governor of its own. -/
def Dev.withGov (d : Dev) (g : Gov) : Dev := { d with gov := g }

theorem within_withGov (d : Dev) (g : Gov) : Within [] d (d.withGov g) := (Within.refl _ d).parts rfl rfl rfl rfl

/-- The domains that DOZE gated are on. -/
def Dev.dozeDomains (d : Dev) : Dev := (List.range 40).foldl Dev.dozeWakes d

/-- The channels leave self-refresh; `fails` are those whose retraining failed. -/
def Dev.dozeChannels (d : Dev) (fails : List Nat) : Dev := (List.range 4).foldl (fun d c => d.leaveSelfRefresh c (!fails.contains c)) d

theorem dozeWake_eq {d : Dev} (fails : List Nat) (hservice : d.service = .doze) (hwake : d.gov.wake = true) : ∃ rst,
    d.dozeWake fails = { ((d.withGov { d.gov with wake := false }).dozeDomains.dozeChannels fails) with rst := rst }.setService .full := by
  unfold Dev.dozeWake
  rw [if_neg (by simp [hservice, hwake])]
  exact ⟨_, rfl⟩

theorem sameGov_dozeDomains (d : Dev) : SameGov d d.dozeDomains := (Prod.mk.inj (dozeDomains_on (List.range 40) d).2.2).1

theorem sameGov_dozeChannels (d : Dev) (fails : List Nat) : SameGov d (d.dozeChannels fails) :=
  foldl_keeps (P := SameGov d) (fun e c he => he.trans (sameGov_leaveSelfRefresh e c _)) (List.range 4) (SameGov.refl d)

/-- Where every channel trains again, each goes on in its state, and no domain stays gated. -/
theorem dozeChannels_hold (d : Dev) : let e := d.dozeDomains.dozeChannels []
    (∀ c, c < 4 → d.chState c = 5 → e.chState c = (d.chanOf c).held) ∧
      ∀ dom, dom < 40 → d.nat .PD_STATE dom = 2 → e.nat .PD_STATE dom = 0 := by
  obtain ⟨hdomains, hkept, haside⟩ := dozeDomains_on (List.range 40) d
  obtain ⟨hheld, _, hobj⟩ := leaveSelfRefresh_holds (List.range 4) d.dozeDomains
  refine ⟨fun c hc h5 => ?_, fun dom hdom h2 => ?_⟩
  · have hchan : d.dozeDomains.chan = d.chan := (Prod.mk.inj (Prod.mk.inj haside).2).2
    have hstate : d.dozeDomains.chState c = d.chState c := Dev.nat_eq_of_get (hkept .CH_STATE c 0 (by decide))
    rw [← Dev.chanOf_of_chan hchan]
    exact hheld c (List.mem_range.mpr hc) (hstate.trans h5)
  · refine (Dev.nat_eq_of_get (hobj .PD_STATE dom 0 (by decide))).trans ?_
    exact (hdomains dom).trans (if_pos ⟨List.mem_range.mpr hdom, h2⟩)

theorem service_full {d : Dev} (h : d.nat .SERVICE_STATE = 3) : d.service = .full := by
  unfold Dev.service
  rw [h]
  rfl

/-- The wake from DOZE (R404). -/
theorem dozeWake_wakes {d : Dev} (fails : List Nat) (hservice : d.service = .doze) (hwake : d.gov.wake = true) :
    let e := (d.dozeWake fails).settle
    e.service = .full ∧ e.gov = { d.gov with wake := false } ∧
      (fails = [] → (∀ c, c < 4 → d.chState c = 5 → e.chState c = (d.chanOf c).held) ∧
        ∀ dom, dom < 40 → d.nat .PD_STATE dom = 2 → e.nat .PD_STATE dom = 0) := by
  obtain ⟨rst, heq⟩ := dozeWake_eq fails hservice hwake
  have hgov : SameGov (d.withGov { d.gov with wake := false }) ((d.withGov { d.gov with wake := false }).dozeDomains.dozeChannels fails) :=
    (sameGov_dozeDomains _).trans (sameGov_dozeChannels _ fails)
  have hholds := dozeChannels_hold (d.withGov { d.gov with wake := false })
  rw [heq]
  generalize hf : (d.withGov { d.gov with wake := false }).dozeDomains.dozeChannels fails = f at *
  refine ⟨?_, (settle_gov _).trans hgov, ?_⟩
  · exact service_full ((settle_nat _ (by decide) 0 0).trans (Dev.nat_setN ..))
  · rintro rfl
    rw [hf] at hholds
    obtain ⟨hchannels, hdomains⟩ := hholds
    have hset : Within [.SERVICE_STATE] { f with rst := rst } ({ f with rst := rst }.setService .full) := (Within.refl _ _).put (by decide) _ _ _
    refine ⟨fun c hc h5 => ?_, fun dom hdom h2 => ?_⟩
    · exact (settle_nat _ (by decide) c 0).trans ((hset.nat (by decide) c 0).trans (hchannels c hc h5))
    · exact (settle_nat _ (by decide) dom 0).trans ((hset.nat (by decide) dom 0).trans (hdomains dom hdom h2))

/-! ### Commands of the governor (R404) -/

theorem need_ite {d e : Dev} {b : Bool} {c : Prop} [Decidable c] {a : Abort} (h : b = true ↔ c) :
    (d.need b a >>= fun _ => (.ok e : Res)) = if c then .ok e else .error (a, d) := by
  split
  next hc => exact need_ok (h.mpr hc)
  next hc => exact need_error (Bool.eq_false_of_not_eq_true (mt h.mp hc))

theorem writeGovCmd_doze (d : Dev) : d.writeGovCmd 1 =
    if d.nat .LEGS_ADMITTED = 0 ∧ d.service = .full then .ok (d.withGov { d.gov with doze := true }) else .error (.deviceState, d) :=
  need_ite (by simp)

theorem writeGovCmd_wake (d : Dev) : d.writeGovCmd 2 =
    if d.service = .doze then .ok (d.withGov { d.gov with wake := true }) else .error (.deviceState, d) :=
  need_ite (by simp)

/-- A write of GOV_CMD under its condition. -/
theorem govCmd_completes {s : State} {src : Src} {n : Nat} (g : Gov) {c : Prop} [Decidable c] (hq : s.dev.quiet) (hn : n = 1 ∨ n = 2)
    (hh : s.dev.hears src { o := .GOV_CMD })
    (heffect : s.dev.effect src { o := .GOV_CMD } (.num n) = if c then .ok (s.dev.withGov g) else .error (.deviceState, s.dev)) :
    ∃ t, onWrite s src .GOV_CMD 0 1 n = .next t ∧ (keepsRest s t ∧
      if c then t.dev.gov = g ∧ t.dev.acceptedBy s.dev src { o := .GOV_CMD } ∧ keepsBut s.dev t.dev [.DICT_WRITES]
      else t.dev.refusedBy s.dev src { o := .GOV_CMD } .deviceState ∧ onlyDict s.dev t.dev ∧ keepsBut s.dev t.dev [.DICT_ABORTS]) := by
  obtain ⟨hreach, hcan⟩ := hh
  have hwrite := writeNum_GOV_CMD s.dev 0 hcan hn
  rw [heffect] at hwrite
  have hw := within_withGov s.dev g
  by_cases h : c
  · rw [if_pos h] at hwrite
    exact onWrite_completes Nat.one_pos hreach hwrite (answerWrite_ok_quiet src _ (hw.quiet hq))
      ⟨⟨rfl, rfl⟩, (if_pos h).mpr ⟨rfl, answerWrite_ok_accepted src _ rfl, answerWrite_ok_keeps src _ hw.obj⟩⟩
  · rw [if_neg h] at hwrite
    exact onWrite_completes Nat.one_pos hreach hwrite hq ⟨⟨rfl, rfl⟩, (if_neg h).mpr (answerWrite_refuses s.dev src _ _)⟩

/-- The first part of O49. -/
theorem governorDozesAndWakes : Sys2Proof.Claim.GovernorDozesAndWakes := by
  intro s hq
  refine ⟨fun src hh => ⟨?doze, ?wake⟩, fun fails hrun hservice hwake => ?woken⟩
  case doze =>
    refine govCmd_completes { s.dev.gov with doze := true } (c := s.dev.nat .LEGS_ADMITTED = 0 ∧ s.dev.service = .full) hq (.inl rfl) hh ?_
    exact writeGovCmd_doze s.dev
  case wake =>
    refine govCmd_completes { s.dev.gov with wake := true } (c := s.dev.service = .doze) hq (.inr rfl) hh ?_
    exact writeGovCmd_wake s.dev
  case woken =>
    have hwakes := dozeWake_wakes fails hservice hwake
    obtain ⟨e, he⟩ : ∃ e, (s.dev.dozeWake fails).settle = e := ⟨_, rfl⟩
    rw [he] at hwakes
    exact engine_ends (n := 0) (count := 1) Nat.one_pos hrun he ⟨⟨rfl, rfl⟩, hwakes⟩

/-! ### The regulator (R482, R483) -/

/-- The first failure of a transaction: it is sent again. -/
theorem avsDone_first {d : Dev} (hfirst : d.gov.avsFails = 0) (readback : Option Nat) (status : Nat) :
    d.avsDone false readback status = { d.withGov { d.gov with avsFails := 1 } with out := d.out ++ d.gov.avsOpen.toList.map .avsWrite } := by
  have hnow : d.gov.avsFails + 1 = 1 := by rw [hfirst]
  unfold Dev.avsDone
  dsimp only
  rw [if_neg Bool.false_ne_true, if_pos hnow]
  cases hopen : d.gov.avsOpen with
  | none => simp [Dev.withGov]
  | some mv => rfl

/-- A second failure in a row stops the falls, and is counted. -/
theorem avsDone_again {d : Dev} (hagain : d.gov.avsFails ≠ 0) (readback : Option Nat) (status : Nat) : ∃ r, d.avsDone false readback status =
    ((d.withGov { d.gov with avsFails := d.gov.avsFails + 1, avsHeld := true, avsOpen := none }).add .AVS_ERRORS 0 0
      (if d.gov.avsFails = 1 then 2 else 1)).logRec r := by
  have hmany : ¬d.gov.avsFails + 1 = 1 := by omega
  unfold Dev.avsDone
  dsimp only
  rw [if_neg Bool.false_ne_true, if_neg hmany]
  simp only [Nat.reduceEqDiff]
  exact ⟨_, rfl⟩

theorem add_AVS_ERRORS (d : Dev) (n : Nat) : (d.add .AVS_ERRORS 0 0 n).nat .AVS_ERRORS = (d.nat .AVS_ERRORS + n) % 2 ^ 32 := by
  have hbits : Obj.AVS_ERRORS.row.ty.bits = 32 := rfl
  rw [Dev.nat_add, if_pos ⟨rfl, rfl, rfl⟩, hbits]

/-- The third part of O49. -/
theorem regulatorTransactionsEnd : Sys2Proof.Claim.RegulatorTransactionsEnd := by
  intro s ok readback status hq hr
  dsimp only
  cases ok with
  | true =>
    have hw := within_withGov s.dev { s.dev.gov with avsFails := 0, avsHeld := s.dev.gov.avsHeld && readback.isNone, avsOpen := none }
    exact awake_completes (n := 0) (count := 1) Nat.one_pos hr rfl (hw.quiet hq) ⟨⟨rfl, rfl⟩, rfl⟩
  | false =>
    by_cases hfirst : s.dev.gov.avsFails = 0
    · exact awake_completes (n := 0) (count := 1) Nat.one_pos hr (avsDone_first hfirst readback status) hq
        ⟨⟨rfl, rfl⟩, (if_pos hfirst).mpr ⟨rfl, fun _ _ _ _ => rfl, rfl⟩⟩
    · obtain ⟨r, heq⟩ := avsDone_again hfirst readback status
      refine awake_closes (n := 0) (count := 1) Nat.one_pos hr heq ⟨⟨rfl, rfl⟩, (if_neg hfirst).mpr ⟨settle_gov _, ?_⟩⟩
      exact (settle_nat _ (by decide) 0 0).trans (add_AVS_ERRORS _ _)

/-- Settles O49: the governor (`dozeWake_wakes`), the domains (`wakeDone_wakes`, `wakeFailed_retires`, `idleGate_reports`) and the
regulator (`avsDone_first`, `avsDone_again`). -/
theorem powerFollowsTheGovernor : Obligations.PowerFollowsTheGovernor := ⟨governorDozesAndWakes, domainsGateAndWake, regulatorTransactionsEnd⟩

end Sys2Proof.Machine
end

section
/-! PROOFS. Warm-up, its handover and its return (O51). -/

namespace Sys2Proof.Machine

/-! ### What leaves the service as it is -/

/-- `e` shows the service of `d`. -/
def SameService (d e : Dev) : Prop := e.nat .SERVICE_STATE = d.nat .SERVICE_STATE

theorem SameService.refl (d : Dev) : SameService d d := rfl

theorem SameService.trans {d e f : Dev} (h : SameService d e) (g : SameService e f) : SameService d f := Eq.trans g h

theorem SameService.shows {d e : Dev} (h : SameService d e) {v : Nat} (hd : d.nat .SERVICE_STATE = v) : e.nat .SERVICE_STATE = v := Eq.trans h hd

theorem SameService.service {d e : Dev} (h : SameService d e) : e.service = d.service := by
  unfold Dev.service
  rw [h]

theorem SameService.settle {d e : Dev} (h : SameService d e) : SameService d e.settle :=
  Eq.trans (settle_nat e (by decide) 0 0) h

theorem SameService.put {d e : Dev} (h : SameService d e) {o : Obj} (ho : Obj.SERVICE_STATE ≠ o) (u k : Nat) (v : Val) :
    SameService d (e.put o u k v) := Eq.trans (Dev.nat_eq_of_get (Dev.get_put_other _ _ fun hx => ho hx.1)) h

/-- A change of the parts that are not objects. -/
theorem SameService.parts {d e f : Dev} (h : SameService d e) (hd : f.dict = e.dict) : SameService d f := Eq.trans (nat_of_dict hd _ 0 0) h

theorem SameService.setLife {d e : Dev} (h : SameService d e) (n : Nat) (x : LegLife) : SameService d (e.setLife n x) := h.parts rfl
theorem SameService.setMix {d e : Dev} (h : SameService d e) (n : Nat) (x : ConfMix) : SameService d (e.setMix n x) := h.parts rfl
theorem SameService.setAudio {d e : Dev} (h : SameService d e) (n : Nat) (x : LegAudio) : SameService d (e.setAudio n x) := h.parts rfl

theorem SameService.ite {d e f : Dev} (h : SameService d e) (g : SameService d f) (c : Prop) [Decidable c] :
    SameService d (if c then e else f) := by
  split
  · exact h
  · exact g

theorem SameService.fold {τ : Type} {f : Dev → τ → Dev} (hf : ∀ d x, SameService d (f d x)) (l : List τ) {d e : Dev} (h : SameService d e) :
    SameService d (l.foldl f e) := foldl_keeps (P := SameService d) (fun _ x he => he.trans (hf _ x)) l h

theorem keepsBut.sameService {os : List Obj} {d e : Dev} (h : keepsBut d e os) (ho : Obj.SERVICE_STATE ∉ os) : SameService d e :=
  Dev.nat_eq_of_get (h .SERVICE_STATE 0 0 ho)

theorem Within.sameService {os : List Obj} {d e : Dev} (h : Within os d e) (ho : Obj.SERVICE_STATE ∉ os) : SameService d e := h.obj.sameService ho

theorem sameService_confRecount (d : Dev) (k : Nat) : SameService d (d.confRecount k) := (within_confRecount d k).sameService (by decide)

theorem PairWork.sameService {d e : Dev} (h : PairWork d e) : SameService d e := h.obj.sameService (by decide)

/-! ### Reservations (R110, R327) -/

theorem sameService_chargePair (d : Dev) (p : Nat) (px kbps : Int) : SameService d (d.chargePair p px kbps) :=
  (pairWork_chargePair d p px kbps).sameService

theorem sameService_ungate (d : Dev) (dom : Nat) : SameService d (d.ungate dom) := (within_ungate [] d dom).sameService (by decide)

theorem sameService_alloc (d : Dev) (u : PoolUse) (dom size n : Nat) (a : Option Nat) : SameService d (d.alloc u dom size a n).2 :=
  (within_alloc d u dom size n a none).sameService (by decide)

theorem sameService_keepStreams {region : Nat} {held : List (Nat × (Nat × (Nat × Nat)))} (ss : List (Nat × (Nat × Nat))) {d e : Dev}
    {placed : List (Nat × (Nat × (Nat × Nat)))} (h : d.keepStreams region held ss = some (placed, e)) : SameService d e := by
  induction ss generalizing d placed with
  | nil =>
    obtain ⟨_, rfl⟩ := Prod.mk.inj (Option.some.inj h)
    exact SameService.refl d
  | cons s r ih =>
    unfold Dev.keepStreams at h
    extract_lets keep at h
    split at h
    · exact nomatch h
    next p _ =>
      obtain ⟨t, ht, heq⟩ := Option.map_eq_some_iff.mp h
      obtain ⟨_, rfl⟩ := Prod.mk.inj heq
      exact (sameService_chargePair d p _ _).trans (ih ht)

theorem sameService_reserveVideo (d : Dev) (n : Nat) (q : Ask) (held : List (Nat × (Nat × (Nat × Nat)))) :
    SameService d (d.reserveVideo n q held) := by
  unfold Dev.reserveVideo
  extract_lets region
  split
  · exact SameService.refl d
  next placed e he =>
    extract_lets k e1 e2 e3 e4 e5 was e6
    have h1 : SameService d e1 := (sameService_keepStreams q.streams he).put (by decide) _ _ _
    have h2 : SameService d e2 := h1.put (by decide) _ _ _
    clear_value e2
    have h3 : SameService d e3 := by
      refine SameService.fold (fun f s => ?_) placed h2
      exact (pairWork_setStreamPair f n s.1 s.2.1).sameService.trans (sameService_ungate _ _)
    clear_value e3
    have h4 : SameService d e4 := by
      unfold e4
      split
      · exact h3.put (by decide) _ _ _
      · exact h3
    clear_value e4
    have h5 : SameService d e5 := (h4.trans (sameService_ungate e4 _)).ite h4 _
    have h6 : SameService d e6 := h5.setLife _ _
    exact (h6.put (by decide) _ _ _).trans (sameService_confRecount _ _)

theorem sameService_giveHomes (d : Dev) (n : Nat) : SameService d (d.giveHomes n) := by
  unfold Dev.giveHomes
  split
  · exact SameService.refl d
  · extract_lets b r
    have hr : SameService d r.2 := sameService_alloc ..
    exact hr.setLife _ _

theorem sameService_giveHome (d : Dev) (key b demand : Nat) : SameService d (d.giveHome key b demand) :=
  (within_giveHome d key b demand).sameService (by decide)

theorem sameService_chargeCycles (d : Dev) (b : Nat) (c : Int) : SameService d (d.chargeCycles b c) :=
  (within_chargeCycles d b c).sameService (by decide)

theorem sameService_reserveLeg (d : Dev) (n b : Nat) (q : Ask) (held : List (Nat × (Nat × (Nat × Nat)))) :
    SameService d (d.reserveLeg n b q held) := by
  unfold Dev.reserveLeg
  extract_lets d1 d2 was d3 d4
  have h1 : SameService d d1 := (sameService_reserveVideo d n q held).trans (sameService_chargeCycles _ _ _)
  clear_value d1
  have h2 : SameService d d2 := (h1.trans (sameService_giveHome d1 n b q.cycles)).put (by decide) _ _ _
  clear_value d2
  have h3 : SameService d d3 := h2.setLife _ _
  clear_value d3
  have h4 : SameService d d4 := ((h3.put (o := .LEG_ADMIT_CYCLES) (by decide) _ _ _).put (o := .LEG_ADMIT_BLOCK) (by decide) _ _ _).trans
    (sameService_ungate _ _)
  clear_value d4
  exact (h4.put (by decide) _ _ _).trans (sameService_giveHomes _ n)

theorem sameService_setLegState (d : Dev) (n : Nat) (s : LegState) : SameService d (d.setLegState n s) :=
  (within_setLegState d n s).sameService (by decide)

theorem sameService_enterActive (d : Dev) (n : Nat) : SameService d (d.enterActive n) := by
  refine Eq.trans (enterActive_nat ..) ?_
  exact ((SameService.refl d).parts rfl).trans (sameService_setLegState _ n .active)

theorem sameService_admitFull (d : Dev) (n : Nat) : SameService d (d.admitFull n) := by
  unfold Dev.admitFull
  extract_lets r b e
  have he : SameService d e := (sameService_reserveLeg d n b r.2 []).put (by decide) _ _ _
  exact he.ite (he.put (by decide) _ _ _) _

theorem sameService_activateLate (d : Dev) (n : Nat) : SameService d (d.activateLate n) :=
  ((sameService_admitFull d n).trans (sameService_enterActive _ n)).ite (SameService.refl d) _

theorem sameService_activateWarm (d : Dev) (n : Nat) : SameService d (d.activateWarm n) :=
  (sameService_reserveLeg d n _ _ []).trans (sameService_enterActive _ n)

theorem sameService_carryLeg (d : Dev) (n : Nat) : SameService d (d.carryLeg n) :=
  (sameService_reserveLeg d n _ _ []).setAudio _ _

theorem sameService_suspendLeg (d : Dev) (n : Nat) : SameService d (d.suspendLeg n) := by
  unfold Dev.suspendLeg
  extract_lets l e
  have he : SameService d (e.discardQueues n) := (SameService.refl d).parts rfl
  exact he.put (by decide) _ _ _

theorem sameService_releaseLeg (d : Dev) (n : Nat) : SameService d (d.releaseLeg n) := (beside_releaseLeg d n).obj.sameService (by decide)

theorem sameService_leaveHome (d : Dev) (k : Nat) : SameService d (d.leaveHome k) := by
  unfold Dev.leaveHome
  extract_lets b e
  have he : SameService d e := (((sameService_chargeCycles d b _).trans ((within_endHome _ _ _).sameService (by decide)))).trans
    ((beside_dropAll _ _ _).obj.sameService (by decide))
  clear_value e
  exact (SameService.refl d).ite ((he.setMix _ _).put (by decide) _ _ _) _

theorem sameService_takeHome (d : Dev) (k : Nat) : SameService d (d.takeHome k) := by
  unfold Dev.takeHome
  split
  · exact SameService.refl d
  next b _ =>
    extract_lets e r
    have he : SameService d e :=
      (((SameService.refl d).put (o := .CONF_HOME_BLOCK) (by decide) _ _ _).trans (sameService_chargeCycles _ b _)).trans
        (sameService_giveHome _ _ b _)
    have hr : SameService e r.2 := (sameService_ungate e _).trans (sameService_alloc ..)
    exact he.ite ((he.trans hr).setMix _ _) _

theorem sameService_poolTouch (d : Dev) (p : Nat) : SameService d (d.poolTouch p) := (within_poolTouch d p).sameService (by decide)

theorem sameService_poolWarm (d : Dev) (on : Bool) : SameService d (d.poolWarm on) := by
  unfold Dev.poolWarm
  extract_lets e f
  have he : SameService d e := (SameService.refl d).parts rfl
  clear_value e
  have hf : SameService d f := ((he.put (o := .POOL_BUFFERS) (by decide) _ _ _).put (o := .POOL_BUFFERS) (by decide) _ _ _).ite
    ((he.put (o := .POOL_BUFFERS) (by decide) _ _ _).put (o := .POOL_BUFFERS) (by decide) _ _ _) _
  exact (hf.trans (sameService_poolTouch f 0)).trans (sameService_poolTouch _ 1)

theorem sameService_bringup (d : Dev) (k : Nat) : SameService d (d.bringup k) := (bringup_parts d k).1.obj.sameService (by decide)

/-! ### The standing table (R429, R430) -/

theorem bind_ok {α β : Type} {x : Except (Abort × Dev) α} {f : α → Except (Abort × Dev) β} {b : β} (h : (x >>= f) = .ok b) :
    ∃ a, x = .ok a ∧ f a = .ok b := by
  cases x with
  | error e => exact nomatch h
  | ok a => exact ⟨a, rfl, h⟩

/-- A write of the boot that is taken comes to its effect. -/
theorem writeKey_boot {d e : Dev} {k : Key} {b : Octets} (h : d.writeKey .boot k b = .ok e) : ∃ v, d.effect .boot k v = .ok e := by
  have hstaged : ¬k.staged .boot = true := by simp [Key.staged]
  have hunit : ∀ {α : Type} {x : Except (Abort × Dev) Unit} {f : Unit → Except (Abort × Dev) α} {a : α},
      (x >>= f) = .ok a → f () = .ok a := fun h => (bind_ok h).elim fun _ hx => hx.2
  unfold Dev.writeKey at h
  have h := hunit h
  extract_lets rest at h
  have hrest : rest () = .ok e := by
    split at h
    · exact hunit h
    · exact hunit h
  obtain ⟨_, _, h⟩ := bind_ok hrest
  obtain ⟨v, _, h⟩ := bind_ok h
  have h := hunit (hunit h)
  extract_lets last at h
  have hlast : last () = .ok e := by
    split at h
    · exact hunit h
    · exact hunit h
  exact ⟨v, hunit ((if_neg hstaged).symm.trans hlast)⟩

/-- The objects of the standing table whose values are stored alone. -/
def standingPlain : List Obj :=
  [.CONF_MIX_N, .CONF_MAX_LEGS, .LEG_LOCAL_ADDR, .LEG_LOCAL_PORT, .LEG_REMOTE_PORT, .LEG_REMOTE_IP, .LEG_RX_CODEC, .LEG_TX_CODEC,
    .LEG_TX_AUDIO_PT, .LEG_MIX_MODE, .LEG_RX_PT]

theorem effect_standingPlain {o : Obj} (ho : o ∈ standingPlain) (d : Dev) (src : Src) (u k : Nat) (v : Val) :
    d.effect src ⟨o, u, k⟩ v =
      if (⟨o, u, k⟩ : Key).lockedWrite && !d.holder src then .error (.deviceState, d) else .ok (d.put o u k ((⟨o, u, k⟩ : Key).kept v)) := by
  simp only [standingPlain, List.mem_cons, List.not_mem_nil, or_false] at ho
  obtain rfl | rfl | rfl | rfl | rfl | rfl | rfl | rfl | rfl | rfl | rfl := ho <;> rfl

theorem effect_LEG_CONFERENCE (d : Dev) (src : Src) (u k : Nat) (v : Val) : d.effect src ⟨.LEG_CONFERENCE, u, k⟩ v =
    if (⟨.LEG_CONFERENCE, u, k⟩ : Key).lockedWrite && !d.holder src then .error (.deviceState, d)
    else .ok (d.store ⟨.LEG_CONFERENCE, u, k⟩ v) := rfl

/-- The objects that the standing table writes. -/
def standingObjs : List Obj := standingPlain ++ [.LEG_CONFERENCE, .LEG_SUITE, .LEG_TX_KEY, .LEG_RX_KEY]

theorem sameService_legKey {d e : Dev} {src : Src} {n : Nat} {tx : Bool} {wrap : Octets} (h : d.writeLegKey src n tx wrap = .ok e) :
    SameService d e := by
  rw [writeLegKey_eq] at h
  unfold Dev.wrapResult at h
  split at h
  · exact nomatch h
  · cases hr : d.legKeyUnwrap src n wrap with
    | error x => rw [hr] at h; exact nomatch h
    | ok p =>
      rw [hr] at h
      obtain rfl := Except.ok.inj h
      have hset : SameService d (d.setKeys n (d.legKeysWith n tx p)) := (SameService.refl d).parts rfl
      exact hset.put (by decide) _ _ _

theorem sameService_effect {d e : Dev} {k : Key} {v : Val} (hk : k.o ∈ standingObjs) (h : d.effect .boot k v = .ok e) : SameService d e := by
  obtain ⟨o, u, kk⟩ := k
  rcases List.mem_append.mp hk with hplain | hother
  · rw [effect_standingPlain hplain] at h
    split at h
    · exact nomatch h
    · obtain rfl := Except.ok.inj h
      refine (SameService.refl d).put (fun hservice => ?_) _ _ _
      exact absurd (hservice ▸ hplain) (by decide)
  · simp only [List.mem_cons, List.not_mem_nil, or_false] at hother
    obtain rfl | rfl | rfl | rfl := hother
    · rw [effect_LEG_CONFERENCE] at h
      split at h
      · exact nomatch h
      · obtain rfl := Except.ok.inj h
        have hput : SameService d (d.put .LEG_CONFERENCE u kk ((⟨.LEG_CONFERENCE, u, kk⟩ : Key).kept v)) :=
          (SameService.refl d).put (by decide) _ _ _
        exact (hput.trans (sameService_confRecount _ _)).trans (sameService_confRecount _ _)
    · obtain rfl := Except.ok.inj h
      exact ((SameService.refl d).put (o := .LEG_SUITE) (by decide) _ _ _).parts rfl
    · exact sameService_legKey h
    · exact sameService_legKey h

theorem sameService_writeEach (ws : List (Key × Octets)) (hws : ∀ w ∈ ws, w.1.o ∈ standingObjs) {d e : Dev} (h : d.writeEach ws = .ok e) :
    SameService d e := by
  induction ws generalizing d with
  | nil =>
    obtain rfl := Except.ok.inj h
    exact SameService.refl d
  | cons w r ih =>
    obtain ⟨hw, hr⟩ := List.forall_mem_cons.mp hws
    unfold Dev.writeEach at h
    split at h
    next f hf =>
      obtain ⟨v, hv⟩ := writeKey_boot hf
      exact (sameService_effect hw hv).trans (ih hr h)
    · exact nomatch h

theorem sameService_openIn (d : Dev) (k b : Nat) : SameService d (d.openIn k b) := by
  unfold Dev.openIn
  extract_lets e f r
  have he : SameService d e :=
    (((SameService.refl d).put (o := .CONF_STATE) (by decide) _ _ _).put (o := .CONF_HOME_BLOCK) (by decide) _ _ _).trans
      (sameService_chargeCycles _ b _)
  clear_value e
  have hf : SameService d f := (he.trans (sameService_giveHome e _ b _)).put (by decide) _ _ _
  clear_value f
  have hr : SameService f r.2 := (sameService_ungate f _).trans (sameService_alloc ..)
  exact hf.ite (hf.ite ((hf.trans hr).setMix _ _) _) _

theorem sameService_openConf {d e : Dev} {k : Nat} (h : d.openConf k = .ok e) : SameService d e := by
  unfold Dev.openConf at h
  obtain ⟨_, _, h⟩ := bind_ok h
  split at h
  · exact nomatch h
  next b _ =>
    obtain rfl := Except.ok.inj h
    exact sameService_openIn d k b

theorem sameService_configureLeg {d e : Dev} {n : Nat} (h : d.configureLeg n = .ok e) : SameService d e := by
  unfold Dev.configureLeg at h
  obtain ⟨_, _, h⟩ := bind_ok h
  split at h
  · obtain rfl := Except.ok.inj h
    have hneed : SameService d (d.setN .LEG_BUFFER_NEED n (d.bufferNeed n)) := (SameService.refl d).put (by decide) _ _ _
    exact hneed.trans (sameService_setLegState _ n _)
  · exact nomatch h

theorem sameService_applyConf {d e : Dev} {k mixN maxLegs : Nat} (h : d.applyConf k mixN maxLegs = some e) : SameService d e := by
  unfold Dev.applyConf at h
  split at h
  · exact nomatch h
  split at h
  · exact nomatch h
  next f hf =>
    have hwritten : SameService d f := by
      refine sameService_writeEach _ (fun w hw => ?_) hf
      simp only [List.mem_cons, List.not_mem_nil, or_false] at hw
      obtain rfl | rfl := hw <;> simp [standingObjs, standingPlain]
    split at h
    · obtain rfl := Option.some.inj h
      exact ((hwritten.put (o := .CONF_STATE) (by decide) _ _ _).put (o := .CONFS_OPEN) (by decide) _ _ _).put (o := .CONF_STANDING)
        (by decide) _ _ _
    · split at h
      next g hg =>
        obtain rfl := Option.some.inj h
        exact (hwritten.trans (sameService_openConf hg)).put (by decide) _ _ _
      · exact nomatch h

theorem standingWrites_objs {n suite conf addr rxPt lport rport : Nat} {ip : Octets} {rxc txc txPt mode : Nat} {w : Key × Octets}
    (hw : w ∈ standingWrites n suite conf addr rxPt lport rport ip rxc txc txPt mode) : w.1.o ∈ standingObjs := by
  simp only [standingWrites, List.mem_cons, List.not_mem_nil, or_false] at hw
  obtain rfl | rfl | rfl | rfl | rfl | rfl | rfl | rfl | rfl | rfl | rfl := hw <;> simp [standingObjs, standingPlain]

theorem sameService_applyLeg {d e : Dev} {opened : List Nat} {x : Standing} {n : Nat} (h : d.applyLeg opened x = some (n, e)) :
    SameService d e := by
  cases x with
  | conf => exact nomatch h
  | leg m suite conf addr rxPt lport rport ip rxc txc txPt mode txKey rxKey =>
    unfold Dev.applyLeg at h
    dsimp only at h
    split at h
    · exact nomatch h
    split at h
    · exact nomatch h
    next f hf =>
      have hwritten : SameService d f := by
        refine sameService_writeEach _ (fun w hw => ?_) hf
        obtain hw | hw := List.mem_append.mp hw
        · exact standingWrites_objs hw
        · split at hw
          · exact nomatch hw
          · simp only [List.mem_cons, List.not_mem_nil, or_false] at hw
            obtain rfl | rfl := hw <;> simp [standingObjs, standingPlain]
      split at h
      · exact nomatch h
      split at h
      · obtain ⟨_, rfl⟩ := Prod.mk.inj (Option.some.inj h)
        have hneed : SameService d (f.setN .LEG_BUFFER_NEED m (f.bufferNeed m)) := hwritten.put (by decide) _ _ _
        exact hneed.trans (sameService_setLegState _ m _)
      · split at h
        next g hg =>
          obtain ⟨_, rfl⟩ := Prod.mk.inj (Option.some.inj h)
          exact hwritten.trans (sameService_configureLeg hg)
        · exact nomatch h

/-- Applying the standing table leaves the service as it is. -/
theorem sameService_applyStanding (d : Dev) : SameService d d.applyStanding.2.2.2 := by
  unfold Dev.applyStanding
  refine foldl_keeps (P := fun a : Nat × (List Nat × (List Nat × (List Nat × Dev))) => SameService d a.2.2.2.2) (fun a x ha => ?_)
    d.rst.standing (SameService.refl d)
  dsimp only
  split
  · split
    · exact ha
    · split
      next g hg => exact ha.trans (sameService_applyConf hg)
      · exact ha
  · split
    · exact ha
    · split
      next g hg => exact ha.trans (sameService_applyLeg hg)
      · exact ha

/-! ### Video that stops (R211, R215, R258, R290, R308) -/

theorem sameService_decBegin (d : Dev) (n s : Nat) : SameService d (d.decBegin n s) := by
  unfold Dev.decBegin
  extract_lets r x
  have hr : SameService d r.2 := (poolObjs_allocKept ..).sameService (by decide)
  clear_value r
  have hset : SameService d (r.2.setDec n s { x with
      started := false, concealing := false, begun := [], skipRasl := false, context := r.1 }) := hr.parts rfl
  exact hset.put (by decide) _ _ _

theorem sameService_decServed (d : Dev) (n s : Nat) : SameService d (d.decServed n s) := by
  obtain ⟨fsrc, heq⟩ := decServed_onlyFsrc d n s
  rw [heq]
  exact (SameService.refl d).parts rfl

theorem sameService_decStop (d : Dev) (n s : Nat) : SameService d (d.decStop n s) := by
  unfold Dev.decStop
  extract_lets x e f
  have he : SameService d e := SameService.fold (fun g i => (pairWork_abandonItem g n s i).sameService) x.active (SameService.refl d)
  clear_value e
  have hf : SameService d f := he.parts rfl
  exact ((hf.trans (sameService_decServed f n s)).put (by decide) _ _ _).trans (pairWork_pairUpdate _ _).sameService

theorem sameService_decSwitch (d : Dev) (n s : Nat) : SameService d (d.decSwitch n s) := by
  unfold Dev.decSwitch
  extract_lets off
  split
  · exact (sameService_decBegin d n s).trans (pairWork_decRequest _ n s).sameService
  · exact sameService_decStop d n s
  · exact SameService.refl d

theorem sameService_encReport (d : Dev) (e : EncId) : SameService d (d.encReport e) := by
  cases e with
  | composed n => exact ((SameService.refl d).put (o := .ENC_STATE) (by decide) _ _ _).put (o := .ENC_NOW) (by decide) _ _ _
  | tile n k => exact (SameService.refl d).put (by decide) _ _ _
  | strip k => exact SameService.refl d

theorem sameService_encStop (d : Dev) (e : EncId) : SameService d (d.encStop e) := by
  unfold Dev.encStop
  extract_lets x p f g
  have hf : SameService d f := SameService.fold (fun h _ => (pairWork_countAbandon h p).sameService) x.cur (SameService.refl d)
  clear_value f
  have hg : SameService d g := hf.parts rfl
  exact (hg.trans (sameService_encReport g e)).trans (pairWork_pairUpdate _ p).sameService

theorem sameService_dropItems (d : Dev) (e : EncId) : SameService d (d.dropItems e) := by
  refine SameService.fold (fun f k => ?_) (List.range 4) (SameService.refl d)
  have hset : SameService f (f.setComp k { f.compOf k with items := (f.compOf k).items.filter fun i => decide (itemEnc i.id ≠ e) }) :=
    (SameService.refl f).parts rfl
  exact hset.ite (SameService.refl f) _

theorem sameService_encSwitch (d : Dev) (e : EncId) : SameService d (d.encSwitch e) :=
  (sameService_encReport d e).ite
    (((sameService_encStop d e).trans (sameService_dropItems _ e)).ite (sameService_encReport d e) _) _

theorem sameService_viewStop (d : Dev) (n : Nat) : SameService d (d.viewStop n) := by
  unfold Dev.viewStop
  extract_lets x e f
  have he : SameService d e := (SameService.refl d).parts rfl
  have hf : SameService d f := (he.put (o := .VIEW_TOP_NOW) (by decide) _ _ _).put (o := .VIEW_ENTRY_WAIT) (by decide) _ _ _
  exact SameService.fold (fun g j => (SameService.refl g).put (by decide) _ _ _) (List.range 16) hf

theorem sameService_dropKf (d : Dev) (n q c : Nat) : SameService d (d.dropKf n q c) := by
  unfold Dev.dropKf
  extract_lets r cs
  split
  · exact SameService.refl d
  split
  · exact (SameService.refl d).parts rfl
  · exact (SameService.refl d).parts rfl

theorem sameService_leaveKf (d : Dev) (c : Nat) : SameService d (d.leaveKf c) := by
  refine SameService.fold (fun e s => ?_) d.fsrc (SameService.refl d)
  exact SameService.fold (fun f q => sameService_dropKf f s.1 q.1 c) s.2.reqs (SameService.refl e)

theorem sameService_endSegment (d : Dev) (r j : Nat) : SameService d (d.endSegment r j false) := by
  unfold Dev.endSegment
  extract_lets x
  split
  · exact SameService.refl d
  · exact (SameService.refl d).parts rfl

theorem sameService_fwdStop (d : Dev) (r : Nat) : SameService d (d.fwdStop r) := by
  refine SameService.fold (fun e j => ?_) (List.range 16) (SameService.refl d)
  dsimp only
  split
  · exact SameService.refl e
  · have hleft : SameService e ((e.endSegment r j false).leaveKf (slotConsumer r j)) :=
      (sameService_endSegment e r j).trans (sameService_leaveKf _ _)
    generalize (e.endSegment r j false).leaveKf (slotConsumer r j) = f at hleft
    have hset : SameService e (f.setFwd r j { f.fwdOf r j with source := 0xFFFF, point := none, wanted := none, run := [], paused := false }) :=
      hleft.parts rfl
    exact hset.put (by decide) _ _ _

theorem sameService_videoEdge (d : Dev) (n : Nat) : SameService d (d.videoEdge n) := by
  unfold Dev.videoEdge
  extract_lets e f g
  have he : SameService d e := SameService.fold (fun h s => sameService_decSwitch h n s) (List.range 2) (SameService.refl d)
  have hf : SameService d f := SameService.fold sameService_encSwitch (legEncs n) he
  clear_value f
  have hg : SameService d g := (hf.trans (sameService_viewStop f n)).ite hf _
  exact (hg.trans (sameService_fwdStop g n)).ite hg _

theorem sameService_abandonVideo (d : Dev) : SameService d d.abandonVideo := by
  unfold Dev.abandonVideo
  extract_lets e
  have he : SameService d e := SameService.fold sameService_videoEdge d.legs (SameService.refl d)
  exact SameService.fold sameService_encSwitch e.stripEncs he

/-! ### The start of warm-up (R433) -/

theorem service_warmup {d : Dev} (h : d.nat .SERVICE_STATE = 2) : d.service = .warmup := by
  unfold Dev.service
  rw [h]
  rfl

theorem setService_shown (d : Dev) (s : Service) : (d.setService s).nat .SERVICE_STATE = s.num := Dev.nat_setN ..

theorem legState_of_nat {d e : Dev} {n : Nat} (h : e.nat .LEG_STATE n = d.nat .LEG_STATE n) : e.legState n = d.legState n := by
  unfold Dev.legState
  rw [h]

theorem touchedPool (d : Dev) (p : Nat) : Within [.POOL_FREE, .POOL_LOW_WATER] d (d.poolTouch p) := by
  unfold Dev.poolTouch
  extract_lets f e
  have he : Within [.POOL_FREE, .POOL_LOW_WATER] d e := (Within.refl _ d).put (by decide) _ _ _
  split
  · exact he.put (by decide) _ _ _
  · exact he

theorem rst_of_core {d e : Dev} (h : e.core = d.core) : e.rst = d.rst := (Prod.mk.inj (Prod.mk.inj h).2).1

/-- Two pools take buffers. -/
theorem addBuffers_spec (d : Dev) (m n : Nat) : let e := (d.add .POOL_BUFFERS 0 0 m).add .POOL_BUFFERS 1 0 n
    e.nat .POOL_BUFFERS 0 = (d.nat .POOL_BUFFERS 0 + m) % 2 ^ 32 ∧ Within [.POOL_BUFFERS] d e ∧ e.rst = d.rst := by
  have hbits : Obj.POOL_BUFFERS.row.ty.bits = 32 := rfl
  refine ⟨?_, ((Within.refl _ d).put (by decide) _ _ _).put (by decide) _ _ _, rfl⟩
  rw [Dev.nat_add, if_neg (by simp), Dev.nat_add, if_pos ⟨rfl, rfl, rfl⟩, hbits]

/-- The lists of region 0 memory hold `m` buffers of P0 and `n` of P1. -/
def Dev.warmLists (d : Dev) (m n : Nat) : Dev := (d.setList 0 4 { virgin := m }).setList 1 4 { virgin := n }

theorem poolWarm_on (d : Dev) :
    d.poolWarm true = ((((d.warmLists 1024 768).add .POOL_BUFFERS 0 0 1024).add .POOL_BUFFERS 1 0 768).poolTouch 0).poolTouch 1 := rfl

/-- Warm-up's memory serves P0 and P1. -/
theorem poolWarm_serves (d : Dev) : (d.poolWarm true).nat .POOL_BUFFERS 0 = (d.nat .POOL_BUFFERS 0 + 1024) % 2 ^ 32 ∧
    Within [.POOL_BUFFERS, .POOL_FREE, .POOL_LOW_WATER] d (d.poolWarm true) ∧ (d.poolWarm true).rst = d.rst := by
  rw [poolWarm_on]
  have he : Within [] d (d.warmLists 1024 768) := (Within.refl _ d).parts rfl rfl rfl rfl
  have herst : (d.warmLists 1024 768).rst = d.rst := rfl
  generalize d.warmLists 1024 768 = e at *
  obtain ⟨hcount, hwf, hrst⟩ := addBuffers_spec e 1024 768
  rw [he.nat (by decide)] at hcount
  generalize (e.add .POOL_BUFFERS 0 0 1024).add .POOL_BUFFERS 1 0 768 = f at *
  have h0 := touchedPool f 0
  have hrst0 := rst_of_core (core_poolTouch f 0)
  generalize f.poolTouch 0 = g at *
  have h1 := touchedPool g 1
  refine ⟨?_, ?_, (rst_of_core (core_poolTouch g 1)).trans (hrst0.trans (hrst.trans herst))⟩
  · exact ((h1.nat (by decide) 0 0).trans (h0.nat (by decide) 0 0)).trans hcount
  · exact (((he.mono (by decide)).trans (hwf.mono (by decide))).trans (h0.mono (by decide))).trans (h1.mono (by decide))

theorem sameService_countSkipped (d : Dev) (table : Nat) (offsets : List Nat) : SameService d (d.countSkipped table offsets) := by
  unfold Dev.countSkipped
  split
  · exact SameService.refl d
  · exact ((SameService.refl d).put (o := .OPT_ENTRIES_SKIPPED) (by decide) _ _ _).parts rfl

/-- The standing legs `legs` begin in warm-up, or wait for the handover. -/
def Dev.warmLegs (d : Dev) (legs : List Nat) : Dev :=
  if d.alarmed then legs.foldl Dev.alarmLeg d
  else if d.hasWarmBlock then legs.foldl Dev.activateWarm d
  else { d with rst := { d.rst with carried := legs } }

theorem sameService_warmLegs (d : Dev) (legs : List Nat) : SameService d (d.warmLegs legs) := by
  unfold Dev.warmLegs
  split
  · exact SameService.fold (fun e n => (alarmLeg_keeps e n).1.sameService (by decide)) legs (SameService.refl d)
  split
  · exact SameService.fold sameService_activateWarm legs (SameService.refl d)
  · exact (SameService.refl d).parts rfl

theorem warmLegs_nil (d : Dev) : (d.warmLegs []).dict = d.dict := by
  unfold Dev.warmLegs
  split
  · rfl
  split <;> rfl

/-- Does warm-up begin (R433)? -/
def Dev.warmupBegins (d : Dev) : Prop :=
  d.service = .boot ∧ d.rst.handed = false ∧ 6 ≤ d.rst.step ∧ d.nat .STRIDE_IN_LAP % 3 = 0

theorem warmupStart_eq {d : Dev} (hrun : d.gen.running = true) (h : d.warmupBegins) :
    let r := ((d.setService .warmup).poolWarm true).applyStanding
    d.warmupStart = ((r.2.2.2.countSkipped 1 r.2.2.1).warmLegs r.2.1).bringup 1 := by
  obtain ⟨hservice, hhanded, hstep, hedge⟩ := h
  exact if_neg (by simp [hservice, hhanded, hrun, hedge, hstep])

theorem warmupStart_idle {d : Dev} (h : ¬d.warmupBegins) : d.warmupStart = d := by
  refine if_pos ?_
  by_contra hno
  simp only [not_or, not_not, Bool.not_eq_true, Nat.not_lt] at hno
  obtain ⟨hservice, hhanded, _, hstep, hedge⟩ := hno
  exact h ⟨hservice, hhanded, hstep, hedge⟩

theorem applyStanding_nil {d : Dev} (h : d.rst.standing = []) : d.applyStanding = ([], ([], ([], d))) := by
  unfold Dev.applyStanding
  rw [h]
  rfl

/-- Warm-up begins (R433). -/
theorem warmupStart_begins {d : Dev} (hrun : d.gen.running = true) (h : d.warmupBegins) :
    d.warmupStart.settle.service = .warmup ∧ (d.rst.standing = [] → (∀ n, d.warmupStart.settle.legState n = d.legState n) ∧
      d.warmupStart.settle.nat .POOL_BUFFERS 0 = (d.nat .POOL_BUFFERS 0 + 1024) % 2 ^ 32) := by
  rw [warmupStart_eq hrun h]
  have hset : Within [.SERVICE_STATE] d (d.setService .warmup) := (Within.refl _ d).put (by decide) _ _ _
  have hshown := setService_shown d .warmup
  have hrst : (d.setService .warmup).rst = d.rst := rfl
  generalize d.setService .warmup = a at *
  obtain ⟨hbuffers, hpools, hpoolRst⟩ := poolWarm_serves a
  have hpool := sameService_poolWarm a true
  generalize a.poolWarm true = b at *
  refine ⟨?_, fun hnone => ?_⟩
  · refine service_warmup ((SameService.settle ?_).shows hshown)
    exact (((hpool.trans (sameService_applyStanding b)).trans (sameService_countSkipped _ 1 _)).trans (sameService_warmLegs _ _)).trans
      (sameService_bringup _ 1)
  · rw [applyStanding_nil ((congrArg Reset.standing (hpoolRst.trans hrst)).trans hnone)]
    have hskipped : (b.countSkipped 1 []) = b := rfl
    dsimp only
    rw [hskipped]
    have hdict := warmLegs_nil b
    generalize b.warmLegs [] = c at *
    obtain ⟨hbring, _⟩ := bringup_parts c 1
    generalize c.bringup 1 = e at *
    refine ⟨fun n => legState_of_nat ?_, ?_⟩
    · rw [settle_nat _ (by decide), hbring.nat (by decide), nat_of_dict hdict, hpools.nat (by decide), hset.nat (by decide)]
    · rw [settle_nat _ (by decide), hbring.nat (by decide), nat_of_dict hdict, hbuffers, hset.nat (by decide)]

/-! ### The handover (R435, R436) -/

/-- Does the handover begin (R435)? -/
def Dev.handoverBegins (d : Dev) : Prop :=
  d.service = .warmup ∧ d.handoverDue = true ∧ d.nat .STRIDE_IN_LAP % 3 = 0 ∧ d.rst.handoverAt = none

theorem handoverBegin_eq {d : Dev} (h : d.handoverBegins) : ∃ (e : Dev) (r : Reset),
    d.handoverBegin = { e.setService .warmup with rst := { r with handoverAt := some (d.stride + 3) } } := by
  obtain ⟨hservice, hdue, hedge, hnone⟩ := h
  unfold Dev.handoverBegin
  rw [if_neg (by simp [hservice, hdue, hedge, hnone])]
  exact ⟨_, _, rfl⟩

theorem handoverBegin_idle {d : Dev} (h : ¬d.handoverBegins) : d.handoverBegin = d := by
  refine if_pos ?_
  by_contra hno
  simp only [not_or, not_not, Bool.not_eq_true, Bool.not_eq_false, Option.isSome_eq_false_iff, Option.isNone_iff_eq_none,
    Bool.not_eq_eq_eq_not, Bool.not_true] at hno
  obtain ⟨hservice, hdue, hedge, hnone⟩ := hno
  exact h ⟨hservice, hdue, hedge, hnone⟩

theorem handoverBegin_begins {d : Dev} (h : d.handoverBegins) :
    d.handoverBegin.settle.service = .warmup ∧ d.handoverBegin.settle.rst.handoverAt = some (d.nat .STRIDE_COUNT + 3) := by
  obtain ⟨e, r, heq⟩ := handoverBegin_eq h
  rw [heq]
  refine ⟨service_warmup ((settle_nat _ (by decide) 0 0).trans (setService_shown e .warmup)), ?_⟩
  rw [settle_rst]
  rfl

/-- A leg's life goes on. -/
def LegLife.resumed (l : LegLife) : LegLife := { l with suspended := false }

theorem resumed_life (l : List (Nat × LegLife)) (n : Nat) :
    (tget {} n (l.map fun (kv : Nat × LegLife) => (kv.1, kv.2.resumed))).suspended = false := by
  induction l with
  | nil => rfl
  | cons kv r ih =>
    rw [List.map_cons, tget]
    split
    · rfl
    · exact ih

/-- Is edge p + 3 of the handover of edge `e` here (R436)? -/
def Dev.handsOver (d : Dev) (e : Nat) : Prop := d.service = .warmup ∧ e ≤ d.nat .STRIDE_COUNT ∧ d.nat .STRIDE_IN_LAP % 3 = 0

/-- What is left of the handover once the legs have full service: every leg resumes, and the handover has passed. -/
def Dev.handedOver (d : Dev) : Dev :=
  { d with
    audio := d.audio.map fun (kv : Nat × LegAudio) => (kv.1, kv.2.handOver)
    life := d.life.map fun (kv : Nat × LegLife) => (kv.1, kv.2.resumed)
    rst := { d.rst with handed := true, handoverAt := none, carried := [], returnDue := false } }

theorem handover_eq {d : Dev} {e : Nat} (hat : d.rst.handoverAt = some e) (h : d.handsOver e) : ∃ (late : List Nat) (r : Rec),
    d.handover = (((late.foldl Dev.activateLate ((d.setService .full).poolWarm false)).handedOver.setN .LEGS_SUSPENDED 0 0).bringup 3).logRec r := by
  obtain ⟨hservice, hdue, hedge⟩ := h
  unfold Dev.handover
  rw [hat]
  dsimp only
  rw [if_neg (by simp [hservice, hedge, Dev.stride, hdue])]
  exact ⟨_, _, rfl⟩

theorem handover_idle {d : Dev} {e : Nat} (hat : d.rst.handoverAt = some e) (h : ¬d.handsOver e) : d.handover = d := by
  unfold Dev.handover
  rw [hat]
  refine if_pos ?_
  by_contra hno
  simp only [not_or, not_not, Nat.not_lt] at hno
  exact h hno

theorem bringup_life (d : Dev) (k : Nat) : (d.bringup k).life = d.life := by
  unfold Dev.bringup
  split <;> rfl

/-- Full service carries the legs (R436). -/
theorem handover_hands {d : Dev} {e : Nat} (hat : d.rst.handoverAt = some e) (h : d.handsOver e) : let f := d.handover.settle
    f.service = .full ∧ f.rst.handed = true ∧ f.rst.handoverAt = none ∧ f.nat .LEGS_SUSPENDED = 0 ∧
      ∀ n, (f.lifeOf n).suspended = false := by
  obtain ⟨late, r, heq⟩ := handover_eq hat h
  rw [heq]
  have hshown := setService_shown d .full
  have hlate : SameService (d.setService .full) (late.foldl Dev.activateLate ((d.setService .full).poolWarm false)) :=
    SameService.fold sameService_activateLate late (sameService_poolWarm _ false)
  generalize d.setService .full = a at *
  generalize late.foldl Dev.activateLate (a.poolWarm false) = b at *
  have hover : SameService b b.handedOver := (SameService.refl b).parts rfl
  have hlife : b.handedOver.life = b.life.map fun kv => (kv.1, kv.2.resumed) := rfl
  have hrst : b.handedOver.rst.handed = true ∧ b.handedOver.rst.handoverAt = none := ⟨rfl, rfl⟩
  generalize b.handedOver = c at *
  obtain ⟨hbring, _⟩ := bringup_parts (c.setN .LEGS_SUSPENDED 0 0) 3
  have hbringLife := bringup_life (c.setN .LEGS_SUSPENDED 0 0) 3
  have hset : SameService c (c.setN .LEGS_SUSPENDED 0 0) := (SameService.refl c).put (by decide) _ _ _
  have hzero : (c.setN .LEGS_SUSPENDED 0 0).nat .LEGS_SUSPENDED = 0 := Dev.nat_setN ..
  have hsame : (c.setN .LEGS_SUSPENDED 0 0).life = c.life ∧ (c.setN .LEGS_SUSPENDED 0 0).rst = c.rst := ⟨rfl, rfl⟩
  generalize c.setN .LEGS_SUSPENDED 0 0 = g at *
  generalize g.bringup 3 = k at *
  have hservice : SameService a (k.logRec r) := ((((hlate.trans hover).trans hset).trans (hbring.obj.sameService (by decide))).parts rfl)
  have hkrst : (k.logRec r).settle.rst = c.rst := (settle_rst _).trans (hbring.rst.trans hsame.2)
  have hklife : (k.logRec r).settle.life = b.life.map fun kv => (kv.1, kv.2.resumed) :=
    (settle_life _).trans (hbringLife.trans (hsame.1.trans hlife))
  refine ⟨service_full (hservice.settle.shows hshown), ?_, ?_, ?_, fun n => ?_⟩
  · rw [hkrst]
    exact hrst.1
  · rw [hkrst]
    exact hrst.2
  · exact (settle_nat _ (by decide) 0 0).trans ((hbring.nat (by decide) 0 0).trans hzero)
  · unfold Dev.lifeOf
    rw [hklife]
    exact resumed_life b.life n

/-! ### The return to warm-up (R437) -/

/-- Does service return to warm-up (R346, R437)? -/
def Dev.warmupReturns (d : Dev) : Prop := d.rst.returnDue = true ∧ d.service = .full ∧ d.nat .STRIDE_IN_LAP % 3 = 0

theorem warmupReturn_idle {d : Dev} (h : ¬d.warmupReturns) : d.warmupReturn = d := by
  refine if_pos ?_
  by_contra hno
  simp only [not_or, not_not, Bool.not_eq_eq_eq_not, Bool.not_true, Bool.not_eq_false] at hno
  exact h hno

/-- The legs `carried` and the conferences `confs` move to warm-up, and the legs `others` are suspended. -/
def Dev.warmAgain (d : Dev) (carried confs others : List Nat) : Dev :=
  let d := (confs.foldl Dev.leaveHome (carried.foldl Dev.releaseLeg d)).poolWarm true
  others.foldl Dev.suspendLeg (carried.foldl Dev.carryLeg (confs.foldl Dev.takeHome d))

theorem sameService_warmAgain (d : Dev) (carried confs others : List Nat) : SameService d (d.warmAgain carried confs others) := by
  unfold Dev.warmAgain
  extract_lets e
  have hleft : SameService d (confs.foldl Dev.leaveHome (carried.foldl Dev.releaseLeg d)) :=
    SameService.fold sameService_leaveHome confs (SameService.fold sameService_releaseLeg carried (SameService.refl d))
  have he : SameService d e := hleft.trans (sameService_poolWarm _ true)
  exact SameService.fold sameService_suspendLeg others
    (SameService.fold sameService_carryLeg carried (SameService.fold sameService_takeHome confs he))

theorem warmupReturn_eq {d : Dev} (h : d.warmupReturns) : ∃ (b e : Dev) (r : Rec) (confs others : List Nat),
    b = ((d.setService .warmup).logRec r).abandonVideo ∧ e = b.warmAgain b.carriedLegs confs others ∧
      d.warmupReturn = { e with rst := { e.rst with returnDue := false, carried := b.carriedLegs, handoverAt := none } } := by
  obtain ⟨hdue, hservice, hedge⟩ := h
  have hnow : ¬((!d.rst.returnDue) = true ∨ d.service ≠ .full ∨ d.nat .STRIDE_IN_LAP % 3 ≠ 0) := by simp [hdue, hservice, hedge]
  unfold Dev.warmupReturn
  rw [if_neg hnow]
  extract_lets d1 b carried others confs d2 d3 e
  exact ⟨b, e, _, confs, others, rfl, rfl, rfl⟩

/-- Warm-up carries 256 legs at most. -/
theorem carriedLegs_length (d : Dev) : d.carriedLegs.length ≤ 256 := List.length_take_le ..

/-- Service is warm-up again, for the legs it can carry. -/
theorem warmupReturn_returns {d : Dev} (h : d.warmupReturns) : let e := d.warmupReturn.settle
    e.service = .warmup ∧ e.rst.returnDue = false ∧ e.rst.carried.length ≤ 256 := by
  obtain ⟨b, e, r, confs, others, hb, he, heq⟩ := warmupReturn_eq h
  have hlogged : SameService (d.setService .warmup) ((d.setService .warmup).logRec r) := (SameService.refl _).parts rfl
  have hvideo : SameService (d.setService .warmup) b := hb ▸ hlogged.trans (sameService_abandonVideo _)
  have hagain : SameService b e := he ▸ sameService_warmAgain b _ confs others
  have hlength := carriedLegs_length b
  rw [heq]
  have hrst : ∀ x : Reset, SameService e { e with rst := x } := fun _ => (SameService.refl e).parts rfl
  refine ⟨service_warmup (((hvideo.trans hagain).trans (hrst _)).settle.shows (setService_shown d .warmup)), ?_, ?_⟩
  · rw [settle_rst]
  · rw [settle_rst]
    exact hlength

/-- Settles O51: the rows of warm-up (`warmupStart_begins`, `handoverBegin_begins`, `handover_hands`, `warmupReturn_returns`), none of whose
changes to legs, conferences and buffers touches the service. -/
theorem warmupHandsOver : Obligations.WarmupHandsOver := by
  unfold Obligations.WarmupHandsOver
  intro s hq hrun
  extract_lets d edge
  have hidle {f : Dev → Dev} (hf : f s.dev = s.dev) {P : State → Prop} (hP : P s) :
      ∃ t, onDev s (fun d => d.engine f) = .next t ∧ P t :=
    engine_completes (n := 0) (count := 1) Nat.one_pos hrun hf hq hP
  have hends {f : Dev → Dev} {e : Dev} (hf : (f s.dev).settle = e) {P : State → Prop} (hP : P { s with dev := e }) :
      ∃ t, onDev s (fun d => d.engine f) = .next t ∧ P t :=
    engine_ends (n := 0) (count := 1) Nat.one_pos hrun hf hP
  refine ⟨?start, ?begun, ?passed, ?back⟩
  case start =>
    by_cases h : d.warmupBegins
    · have hbegins := warmupStart_begins hrun h
      obtain ⟨e, he⟩ : ∃ e, d.warmupStart.settle = e := ⟨_, rfl⟩
      rw [he] at hbegins
      exact hends he ⟨⟨rfl, rfl⟩, (if_pos h).mpr hbegins⟩
    · exact hidle (warmupStart_idle h) ⟨⟨rfl, rfl⟩, (if_neg h).mpr rfl⟩
  case begun =>
    by_cases h : d.handoverBegins
    · have hbegins := handoverBegin_begins h
      obtain ⟨e, he⟩ : ∃ e, d.handoverBegin.settle = e := ⟨_, rfl⟩
      rw [he] at hbegins
      exact hends he ⟨⟨rfl, rfl⟩, (if_pos h).mpr hbegins⟩
    · exact hidle (handoverBegin_idle h) ⟨⟨rfl, rfl⟩, (if_neg h).mpr rfl⟩
  case passed =>
    cases hat : d.rst.handoverAt with
    | none =>
      have hnone : d.handover = d := by
        unfold Dev.handover
        rw [hat]
      exact hidle hnone ⟨⟨rfl, rfl⟩, rfl⟩
    | some p =>
      by_cases h : d.handsOver p
      · have hhands := handover_hands hat h
        obtain ⟨e, he⟩ : ∃ e, d.handover.settle = e := ⟨_, rfl⟩
        rw [he] at hhands
        exact hends he ⟨⟨rfl, rfl⟩, (if_pos h).mpr hhands⟩
      · exact hidle (handover_idle hat h) ⟨⟨rfl, rfl⟩, (if_neg h).mpr rfl⟩
  case back =>
    by_cases h : d.warmupReturns
    · have hreturns := warmupReturn_returns h
      obtain ⟨e, he⟩ : ∃ e, d.warmupReturn.settle = e := ⟨_, rfl⟩
      rw [he] at hreturns
      exact hends he ⟨⟨rfl, rfl⟩, (if_pos h).mpr hreturns⟩
    · exact hidle (warmupReturn_idle h) ⟨⟨rfl, rfl⟩, (if_neg h).mpr rfl⟩

end Sys2Proof.Machine
end
